-- ==== Sys2Proof/Word.lean ====
section
/-!
DEFINITION. The word types of the block and their plainest arithmetic. A register or table word is 32 bits
(R14); angles, times and counts are natural or whole numbers elsewhere.
-/
namespace Sys2Proof

/-- A 32-bit register, descriptor or table word (R14). -/
abbrev Word := BitVec 32

/-- A byte of a table (R2). -/
abbrev Byte := BitVec 8

end Sys2Proof
end

