-- ==== Sys2Proof/Syntax.lean ====
section
/-!
DEFINITION. The commands of the block: one constructor of `Instr` per row of the command table. A command
carries `t`, the ECLK tick (2.5 ns, R40) at which it happens; the last 24, which have no operand, happen at the tick that
the commands before them have reached (log entry 2). A row that is a command of a command ring carries the
ring `r` whose oldest fetched descriptor it applies (R329); a row that is a Reel instruction carries the engine `e`
whose cycle executes it.
-/
namespace Sys2Proof

/-- A Vangic Link frame as a port receives it: header words 0 and 1, the payload words, whether the CRC checks, and whether it ends in
EOF and not in EBAD (R507). -/
structure Frame where
  w0 : Word
  w1 : Word
  payload : List Word
  crcOk : Bool
  eof : Bool := true
  deriving DecidableEq, Repr

/-- The host-memory read of the block that a completion timeout names (R324). -/
inductive ReadTag where
  /-- the doorbell block poll -/
  | poll
  /-- the descriptor fetch (with its buffer) of a command ring -/
  | descriptor (r : Fin 64)
  /-- the descriptor fetch of a transfer channel -/
  | xfrDescriptor (n : Fin 32)
  /-- a data read of a transfer channel -/
  | xfrData (n : Fin 32)
  /-- a LINK read of a transfer channel -/
  | xfrLink (n : Fin 32)
  deriving DecidableEq, Repr

/-- What a host read addresses: the registers (R14), the tables (R44), or configuration space (R301, R302). -/
inductive ReadSpace where
  | bar0 | bar2 | config
  deriving DecidableEq, Repr

/-- Configuration space as software has programmed it, and the trained link (R300 to R302): memory decoding, maximum payload and
read request sizes in bytes, the addresses of BAR0 and BAR2, lanes and generation. -/
structure PciCfg where
  mem : Bool := false
  mps : Nat := 128
  mrrs : Nat := 512
  bar0 : Nat := 0
  bar2 : Nat := 0
  lanes : Nat := 2
  speed : Nat := 3
  deriving DecidableEq, Repr

/-- A host read: what it addresses, the byte offset and the size in bytes. -/
structure ReadAt where
  space : ReadSpace
  off : Nat
  size : Nat
  deriving DecidableEq, Repr

/-- What host software sets in configuration space: Bus Master Enable, and the rest. -/
structure PciSetting where
  bme : Bool
  cfg : PciCfg
  deriving DecidableEq, Repr

/-- A new level of a crank input: the tick at which it was first seen (R52), and the voltage in 0.1 mV. -/
structure InputEdge where
  ts : Nat
  lv : Int
  deriving DecidableEq, Repr

/-- A new level of a crank input in Dusk, with the level of DIR where that has held (R58, R95). -/
structure CrankInput where
  ts : Nat
  lv : Int
  dir : Option Bool
  deriving DecidableEq, Repr

/-- A domain whose timeout runs, and the tick at which a new level was first seen that is still in the crank filter (R52, R72). -/
structure CrankWatch where
  dom : Fin 2
  raw : Option Nat
  deriving DecidableEq, Repr

/-- A new level of an RP pin and the tick at which it was first seen. -/
structure PinChange where
  ts : Nat
  level : Bool
  deriving DecidableEq, Repr

/-- Why a port goes DOWN, RFAULT or no lock, and the tick since which it lasts (R505). -/
structure PortLoss where
  rfault : Bool
  since : Nat
  deriving DecidableEq, Repr

/-- The commands, one per row of the command table. -/
inductive Instr where
  /-- REGISTER_WRITE (R12). -/
  | registerWrite (t : Nat) (addr size : Nat) (val : BitVec 64)
  /-- LOW_HALF_READ (R16). -/
  | lowHalfRead (t : Nat) (addr : ReadAt)
  /-- DTIME_LOW_READ (R50). -/
  | dtimeLowRead (t : Nat)
  /-- SEAL_WRITE (R48). -/
  | sealWrite (t : Nat) (v : Word)
  /-- BEH_LEVEL_WRITE (R21). -/
  | behLevelWrite (t : Nat) (v : Word)
  /-- BAR2_WRITE (R45). -/
  | bar2Write (t : Nat) (addr size : Nat) (val : BitVec 64)
  /-- POISONED_READ (R473). -/
  | poisonedRead (t : Nat) (bar : Fin 3) (addr : Nat)
  /-- FABRIC_GRANT (R29). -/
  | fabricGrant (t : Nat) (arrivals : List (Fin 11))
  /-- CLASS2_PROMOTION (R30). -/
  | class2Promotion (t : Nat) (k : Fin 11)
  /-- PLL_SWITCH (R539). -/
  | pllSwitch (t : Nat) (r : Fin 64)
  /-- PLL_REQ (R539). -/
  | pllReq (t : Nat)
  /-- CLOCK_SWITCH (R540). -/
  | clockSwitch (t : Nat)
  /-- PLL_SWITCH_TIMEOUT (R539). -/
  | pllSwitchTimeout (t : Nat)
  /-- PLL_LOCK_LOSS (R41). -/
  | pllLockLoss (t : Nat)
  /-- CRANK_EDGE (R52). -/
  | crankEdge (t : Nat) (d : Fin 2) (e : InputEdge) (dir : Option Bool)
  /-- VR_ARM (R54). -/
  | vrArm (t : Nat) (d : Fin 2) (cam : Bool) (mv : Int)
  /-- CRANK_TRAILING_EDGE (R59). -/
  | crankTrailingEdge (t : Nat) (d : Fin 2) (ts : Nat)
  /-- WIDTH_LIMIT_EXPIRY (R60). -/
  | widthLimitExpiry (t : Nat) (d : Fin 2)
  /-- CAM_EDGE (R76). -/
  | camEdge (t : Nat) (d : Fin 2) (ts : Nat) (lv : Int)
  /-- EDGE_TIMEOUT (R68). -/
  | edgeTimeout (t : Nat) (d : CrankWatch)
  /-- STALL_TIMEOUT (R71). -/
  | stallTimeout (t : Nat) (d : CrankWatch)
  /-- RESYNC (R74). -/
  | resync (t : Nat) (d : Fin 4)
  /-- DOMAIN_ENABLE (R63). -/
  | domainEnable (t : Nat) (d : Fin 4)
  /-- DOMAIN_DISABLE (R68). -/
  | domainDisable (t : Nat) (d : Fin 4)
  /-- TOOTH_TABLE_BAR2_WRITE (R616). -/
  | toothTableBar2Write (t : Nat) (addr size : Nat) (val : BitVec 64)
  /-- LEARN_START (R131). -/
  | learnStart (t : Nat) (d : Fin 2)
  /-- LEARN_ABORT (R134). -/
  | learnAbort (t : Nat) (d : Fin 2)
  /-- CONTRIBUTION_UPDATE (R139). -/
  | contributionUpdate (t : Nat) (d : Fin 2)
  /-- ZERO_CROSSING (R86). -/
  | zeroCrossing (t : Nat) (d : Fin 2)
  /-- ELECTRICAL_STALL_TIMEOUT (R88). -/
  | electricalStallTimeout (t : Nat) (d : Fin 2)
  /-- ELECTRICAL_NONE_TIMEOUT (R88). -/
  | electricalNoneTimeout (t : Nat) (d : Fin 2)
  /-- ANGLE_UPDATE (R119). -/
  | angleUpdate (t : Nat) (d : Fin 4)
  /-- START_UNIT_FREE (R169). -/
  | startUnitFree (t : Nat) (u : Fin 5)
  /-- EVENT_TABLE_BAR2_WRITE (R145). -/
  | eventTableBar2Write (t : Nat) (addr size : Nat) (val : BitVec 64)
  /-- SLOT_WRITE (R171). -/
  | slotWrite (t : Nat) (r : Fin 64)
  /-- SHADOW_DROP (R175). -/
  | shadowDrop (t : Nat) (r : Fin 64)
  /-- SLOT_CANCEL (R152). -/
  | slotCancel (t : Nat) (r : Fin 64)
  /-- DOMAIN_CANCEL (R152). -/
  | domainCancel (t : Nat) (r : Fin 64)
  /-- SLOT_QUERY (R331). -/
  | slotQuery (t : Nat) (r : Fin 64)
  /-- START_ADMIT (R206). -/
  | startAdmit (t : Nat) (c : Fin 64)
  /-- OVERLAP_TIMEOUT (R207). -/
  | overlapTimeout (t : Nat) (c : Fin 64)
  /-- REBOOST_WAIT_EXPIRY (R206). -/
  | reboostWaitExpiry (t : Nat) (c : Fin 64)
  /-- WINDOW_CROSSING (R293). -/
  | windowCrossing (t : Nat) (w : Fin 98) (lo hi : Int)
  /-- PHASE_TIMER_EXPIRY (R188). -/
  | phaseTimerExpiry (t : Nat) (c : Fin 64)
  /-- TIME_CAP_EXPIRY (R191). -/
  | timeCapExpiry (t : Nat) (c : Fin 64)
  /-- MIX_FAST_EXPIRY (R189). -/
  | mixFastExpiry (t : Nat) (c : Fin 64)
  /-- DITHER_HALF_PERIOD (R219). -/
  | ditherHalfPeriod (t : Nat) (c : Fin 64)
  /-- HOLD_EXPIRY (R254). -/
  | holdExpiry (t : Nat) (c : Fin 64)
  /-- KINK_RESULT (R227). -/
  | kinkResult (t : Nat) (b : Fin 16)
  /-- LEAK_TIMEOUT (R235). -/
  | leakTimeout (t : Nat) (c : Fin 64)
  /-- BLANKING_END (R295). -/
  | blankingEnd (t : Nat) (w : Fin 98)
  /-- INITIAL_DECISION (R296). -/
  | initialDecision (t : Nat) (w : Fin 98) (lo hi : Int)
  /-- WINDOW_ENABLE (R296). -/
  | windowEnable (t : Nat) (w : Fin 98)
  /-- WINDOW_DISABLE (R297). -/
  | windowDisable (t : Nat) (w : Fin 98)
  /-- CHANNEL_ENABLE (R617). -/
  | channelEnable (t : Nat) (c : Fin 64)
  /-- CHANNEL_EN_CLEAR (R617). -/
  | channelEnClear (t : Nat) (c : Fin 64)
  /-- DISABLE (R617). -/
  | disable (t : Nat) (c : Fin 64)
  /-- REENABLE (R617). -/
  | reenable (t : Nat) (c : Fin 64)
  /-- RESUME (R439). -/
  | resume (t : Nat) (b : Fin 16)
  /-- PROFILE_BAR2_WRITE (R196). -/
  | profileBar2Write (t : Nat) (addr size : Nat) (val : BitVec 64)
  /-- PROFILE_WRITE (R197). -/
  | profileWrite (t : Nat) (r : Fin 64)
  /-- MODEL_BAR2_WRITE (R243). -/
  | modelBar2Write (t : Nat) (addr size : Nat) (val : BitVec 64)
  /-- MODEL_WRITE (R243). -/
  | modelWrite (t : Nat) (r : Fin 64)
  /-- MODEL_RESET (R243). -/
  | modelReset (t : Nat) (r : Fin 64)
  /-- PRESSURE_SET (R242). -/
  | pressureSet (t : Nat) (r : Fin 64)
  /-- BALANCE_BAR2_WRITE (R619). -/
  | balanceBar2Write (t : Nat) (addr size : Nat) (val : BitVec 64)
  /-- CONVERTER_TIMER_EXPIRY (R272). -/
  | converterTimerExpiry (t : Nat) (k : Fin 18) (j : Fin 4)
  /-- STEP_READY (R270). -/
  | stepReady (t : Nat) (k : Fin 18) (step : Fin 32)
  /-- CONVERSION_START (R273). -/
  | conversionStart (t : Nat) (k : Fin 18)
  /-- CONVERSION_END (R276). -/
  | conversionEnd (t : Nat) (k : Fin 18) (code : Fin 4096) (ovrHi ovrLo : Bool)
  /-- MAXWAIT_EXPIRY (R275). -/
  | maxwaitExpiry (t : Nat) (k : Fin 18) (step : Fin 32)
  /-- REFERENCE_CHECK (R280). -/
  | referenceCheck (t : Nat)
  /-- REFERENCE_SWITCH (R282). -/
  | referenceSwitch (t : Nat) (k : Fin 18)
  /-- CALIBRATION_DUE (R283). -/
  | calibrationDue (t : Nat) (k : Fin 18)
  /-- CAL_SPAN_EXPIRY (R285). -/
  | calSpanExpiry (t : Nat) (k : Fin 18)
  /-- CALIBRATION_APPLY (R288). -/
  | calibrationApply (t : Nat) (k : Fin 18)
  /-- ADC_STEP_WRITE (R269). -/
  | adcStepWrite (t : Nat) (r : Fin 64)
  /-- PCIE_FUNDAMENTAL_RESET (R309). -/
  | pcieFundamentalReset (t : Nat)
  /-- SUSPENSION (R306). -/
  | suspension (t : Nat) (pci : PciSetting) (dstate lstate : Nat)
  /-- RUN_START (R314). -/
  | runStart (t : Nat)
  /-- DOORBELL_POLL (R319). -/
  | doorbellPoll (t : Nat)
  /-- POLL_DATA_RETURN (R320). -/
  | pollDataReturn (t : Nat) (ok : Bool) (gen : Word) (prods : List (Nat × Nat))
  /-- DESCRIPTOR_FETCH_DONE (R323). -/
  | descriptorFetchDone (t : Nat) (r : Fin 64) (desc : Option (List Word)) (buf : Option (List Word))
  /-- NOP (R331). -/
  | nop (t : Nat) (r : Fin 64)
  /-- ARM (R333). -/
  | arm (t : Nat) (r : Fin 64)
  /-- MODE_SET (R39). -/
  | modeSet (t : Nat) (r : Fin 64)
  /-- CFG_WRITE (R334). -/
  | cfgWrite (t : Nat) (r : Fin 64)
  /-- TABLE_WRITE (R337). -/
  | tableWrite (t : Nat) (r : Fin 64)
  /-- MSIX_TABLE_WRITE (R303). -/
  | msixTableWrite (t : Nat) (addr size : Nat) (val : BitVec 64)
  /-- TELEMETRY_PERIOD (R338). -/
  | telemetryPeriod (t : Nat) (p : Fin 256)
  /-- FRESHNESS_EXPIRY (R339). -/
  | freshnessExpiry (t : Nat) (p : Fin 256)
  /-- QUEUE_CLOSE_TIMEOUT (R347). -/
  | queueCloseTimeout (t : Nat) (q : Fin 24)
  /-- QUEUE_WORD_HEAD (R348). -/
  | queueWordHead (t : Nat) (q : Fin 24)
  /-- CAPTURE_PAIR_TIMEOUT (R358). -/
  | capturePairTimeout (t : Nat) (r : Fin 64)
  /-- QUE_FLUSH (R354). -/
  | queFlush (t : Nat) (r : Fin 64)
  /-- QUE_ACK (R352). -/
  | queAck (t : Nat) (r : Fin 64)
  /-- QUE_CLOSE (R347). -/
  | queClose (t : Nat) (r : Fin 64)
  /-- QUEUE_DISABLE (R356). -/
  | queueDisable (t : Nat) (q : Fin 24)
  /-- LEVEL_EVT_CLEAR (R352). -/
  | levelEvtClear (t : Nat) (q : Fin 24)
  /-- XFR_START (R371). -/
  | xfrStart (t : Nat) (r : Fin 64)
  /-- XFR_STOP (R367). -/
  | xfrStop (t : Nat) (r : Fin 64)
  /-- XFR_CTL_START (R371). -/
  | xfrCtlStart (t : Nat) (n : Fin 32)
  /-- XFR_CTL_STOP (R367). -/
  | xfrCtlStop (t : Nat) (n : Fin 32)
  /-- XFR_DESCRIPTOR_FETCHED (R371). -/
  | xfrDescriptorFetched (t : Nat) (n : Fin 32) (desc : Option (List Word))
  /-- XFR_TIMER_EXPIRY (R365). -/
  | xfrTimerExpiry (t : Nat) (k : Fin 4)
  /-- XFR_READ_DATA (R360). -/
  | xfrReadData (t : Nat) (n : Fin 32) (data : Option (List Word))
  /-- XFR_BLOCK_END (R366). -/
  | xfrBlockEnd (t : Nat) (n : Fin 32)
  /-- XFR_LINK_READ (R368). -/
  | xfrLinkRead (t : Nat) (n : Fin 32) (link : Option Nat)
  /-- TRACE_MARK (R376). -/
  | traceMark (t : Nat) (r : Fin 64)
  /-- TRACE_REWIND (R378). -/
  | traceRewind (t : Nat) (r : Fin 64)
  /-- TRACE_ADVANCE (R379). -/
  | traceAdvance (t : Nat) (r : Fin 64)
  /-- HOLDOFF_EXPIRY (R402). -/
  | holdoffExpiry (t : Nat) (k : Fin 16)
  /-- MSIX_MESSAGE (R387). -/
  | msixMessage (t : Nat) (k : Fin 16)
  /-- IRQ_CLAIM (R389). -/
  | irqClaim (t : Nat) (k : Fin 16) (byWarden : Bool)
  /-- IRQ_COMPLETE (R391). -/
  | irqComplete (t : Nat) (k : Fin 16) (byWarden : Bool) (v : Word)
  /-- PEND_SET_WRITE (R399). -/
  | pendSetWrite (t : Nat) (w : Fin 16) (v : Word)
  /-- PEND_CLR_WRITE (R399). -/
  | pendClrWrite (t : Nat) (w : Fin 16) (v : Word)
  /-- EN_SET_WRITE (R398). -/
  | enSetWrite (t : Nat) (k w : Fin 16) (v : Word)
  /-- EN_CLR_WRITE (R398). -/
  | enClrWrite (t : Nat) (k w : Fin 16) (v : Word)
  /-- IDLE_SET_WRITE (R401). -/
  | idleSetWrite (t : Nat) (byWarden : Bool) (v : Word)
  /-- IDLE_CLR_WRITE (R401). -/
  | idleClrWrite (t : Nat) (byWarden : Bool) (v : Word)
  /-- GOTO (R423). -/
  | goto (t : Nat) (e : Fin 16)
  /-- AWAIT (R417). -/
  | await (t : Nat) (e : Fin 16)
  /-- BITIN (R418). -/
  | bitin (t : Nat) (e : Fin 16)
  /-- BITOUT (R418). -/
  | bitout (t : Nat) (e : Fin 16)
  /-- GROUP (R418). -/
  | group (t : Nat) (e : Fin 16)
  /-- FILL (R420). -/
  | fill (t : Nat) (e : Fin 16)
  /-- DRAIN (R421). -/
  | drain (t : Nat) (e : Fin 16)
  /-- DRIVE (R416). -/
  | drive (t : Nat) (e : Fin 16)
  /-- LOAD (R409). -/
  | load (t : Nat) (e : Fin 16)
  /-- MOVE (R420). -/
  | move (t : Nat) (e : Fin 16)
  /-- FLAG (R409). -/
  | flag (t : Nat) (e : Fin 16)
  /-- ADJUST (R409). -/
  | adjust (t : Nat) (e : Fin 16)
  /-- REEL_DELAY_CYCLE (R423). -/
  | reelDelayCycle (t : Nat) (e : Fin 16)
  /-- REEL_ENABLE (R426). -/
  | reelEnable (t : Nat) (e : Fin 16)
  /-- REEL_DISABLE (R428). -/
  | reelDisable (t : Nat) (e : Fin 16)
  /-- REEL_RESTART (R427). -/
  | reelRestart (t : Nat) (e : Fin 16)
  /-- REEL_FLUSH_IN (R409). -/
  | reelFlushIn (t : Nat) (e : Fin 16)
  /-- REEL_FLUSH_OUT (R409). -/
  | reelFlushOut (t : Nat) (e : Fin 16)
  /-- REEL_TX_WRITE (R432). -/
  | reelTxWrite (t : Nat) (e : Fin 16) (v : Word)
  /-- REEL_RX_READ (R431). -/
  | reelRxRead (t : Nat) (e : Fin 16)
  /-- REEL_INJECT_WRITE (R425). -/
  | reelInjectWrite (t : Nat) (e : Fin 16) (v : Word)
  /-- REEL_WRAP_WRITE (R424). -/
  | reelWrapWrite (t : Nat) (e : Fin 16) (v : Word)
  /-- REEL_FLAGS_SET_WRITE (R429). -/
  | reelFlagsSetWrite (t : Nat) (v : Word)
  /-- REEL_FLAGS_CLR_WRITE (R429). -/
  | reelFlagsClrWrite (t : Nat) (v : Word)
  /-- REEL_IMEM_BAR2_WRITE (R434). -/
  | reelImemBar2Write (t : Nat) (addr size : Nat) (val : BitVec 64)
  /-- REEL_IMEM_WRITE (R434). -/
  | reelImemWrite (t : Nat) (r : Fin 64)
  /-- REEL_WRAP (R424). -/
  | reelWrap (t : Nat) (r : Fin 64)
  /-- REEL_CONTROL (R426). -/
  | reelControl (t : Nat) (r : Fin 64)
  /-- REEL_INJECT (R425). -/
  | reelInject (t : Nat) (r : Fin 64)
  /-- REEL_WRITE (R432). -/
  | reelWrite (t : Nat) (r : Fin 64)
  /-- REEL_FLAG (R429). -/
  | reelFlag (t : Nat) (r : Fin 64)
  /-- REEL_IN_TRANSFER (R431). -/
  | reelInTransfer (t : Nat) (e : Fin 16)
  /-- RP_PIN_CHANGE (R413). -/
  | rpPinChange (t : Nat) (p : Fin 32) (e : PinChange)
  /-- HS_SHORT (R437). -/
  | hsShort (t : Nat) (c : Fin 64)
  /-- BOOST_COLLAPSE (R437). -/
  | boostCollapse (t : Nat) (b : Fin 16)
  /-- LOCKSTEP_MISMATCH (R445). -/
  | lockstepMismatch (t : Nat) (u : Fin 5)
  /-- HEARTBEAT (R445). -/
  | heartbeat (t : Nat) (u : Fin 5)
  /-- HEARTBEAT_TIMEOUT (R445). -/
  | heartbeatTimeout (t : Nat) (u : Fin 5)
  /-- REFLECTION_ITEM (R448). -/
  | reflectionItem (t : Nat) (u : Fin 5)
  /-- REFLECTION_CHECKPOINT (R448). -/
  | reflectionCheckpoint (t : Nat) (u : Fin 5)
  /-- REFLECTION_COPY_DONE (R450). -/
  | reflectionCopyDone (t : Nat) (n : Fin 4)
  /-- TAKEOVER_BEGIN (R453). -/
  | takeoverBegin (t : Nat)
  /-- FIRST_EVALUATION (R455). -/
  | firstEvaluation (t : Nat)
  /-- SCRUB_TICK (R471). -/
  | scrubTick (t : Nat) (store inst addr : Nat) (err : BitVec 144)
  /-- REGION_TAKEOVER (R445). -/
  | regionTakeover (t : Nat) (r : Fin 64)
  /-- REGION_TEST (R460). -/
  | regionTest (t : Nat) (r : Fin 64)
  /-- TEST_STEP_DONE (R493). -/
  | testStepDone (t : Nat) (u : Fin 5) (pass : Bool)
  /-- FAULT_LOG_CLEAR (R603). -/
  | faultLogClear (t : Nat) (r : Fin 64)
  /-- CHIP_RESET (R466). -/
  | chipReset (t : Nat) (r : Fin 64)
  /-- PLAN_EVALUATION (R479). -/
  | planEvaluation (t : Nat)
  /-- PLAN_EVAL (R479). -/
  | planEval (t : Nat) (r : Fin 64)
  /-- MONITOR_SAMPLE (R475). -/
  | monitorSample (t : Nat) (u : Fin 5) (readings : List Nat)
  /-- ROUND_DUE (R488). -/
  | roundDue (t : Nat)
  /-- ROUND_START (R488). -/
  | roundStart (t : Nat) (r : Fin 64)
  /-- ROUND_ABORT (R499). -/
  | roundAbort (t : Nat) (r : Fin 64)
  /-- ROUND_POSTPONED (R489). -/
  | roundPostponed (t : Nat)
  /-- ROUND_LEND (R492). -/
  | roundLend (t : Nat)
  /-- QUIET_WAIT_EXPIRY (R491). -/
  | quietWaitExpiry (t : Nat)
  /-- ROUND_HAND_BACK (R495). -/
  | roundHandBack (t : Nat)
  /-- FW_WRITE (R500). -/
  | fwWrite (t : Nat) (r : Fin 64)
  /-- FW_VERIFY (R500). -/
  | fwVerify (t : Nat) (r : Fin 64)
  /-- FW_ACTIVATE (R501). -/
  | fwActivate (t : Nat) (r : Fin 64)
  /-- FW_CANCEL (R501). -/
  | fwCancel (t : Nat) (r : Fin 64)
  /-- FW_REVERT (R503). -/
  | fwRevert (t : Nat)
  /-- PORT_UP (R505). -/
  | portUp (t : Nat) (p : Fin 2)
  /-- PORT_DOWN (R505). -/
  | portDown (t : Nat) (p : Fin 2) (why : PortLoss)
  /-- PORT_SLEEPING (R505). -/
  | portSleeping (t : Nat) (p : Fin 2)
  /-- PORT_UNWRAP (R515). -/
  | portUnwrap (t : Nat) (p : Fin 2)
  /-- FRAME_FORWARD (R508). -/
  | frameForward (t : Nat) (p : Fin 2) (f : Frame)
  /-- BEACON (R511). -/
  | beacon (t : Nat) (p : Fin 2) (f : Frame) (ts : Nat)
  /-- PDELAY_REQ (R517). -/
  | pdelayReq (t : Nat) (p : Fin 2) (f : Frame) (ts : Nat)
  /-- PDELAY_RESP (R517). -/
  | pdelayResp (t : Nat) (p : Fin 2) (f : Frame) (ts : Nat)
  /-- ANNOUNCE (R523). -/
  | announce (t : Nat) (p : Fin 2) (f : Frame) (ts : Nat)
  /-- SYNC (R518). -/
  | sync (t : Nat) (p : Fin 2) (f : Frame) (ts : Nat)
  /-- SNAP (R532). -/
  | snap (t : Nat) (p : Fin 2) (f : Frame) (ts : Nat)
  /-- MAINS (R530). -/
  | mains (t : Nat) (p : Fin 2) (f : Frame) (ts : Nat)
  /-- EPOCH_NOTICE (R526). -/
  | epochNotice (t : Nat) (p : Fin 2) (f : Frame) (ts : Nat)
  /-- SUPERVISORY (R534). -/
  | supervisory (t : Nat) (p : Fin 2) (f : Frame) (ts : Nat)
  /-- TOPO (R514). -/
  | topo (t : Nat) (p : Fin 2) (f : Frame) (ts : Nat)
  /-- WAKE_REQ (R537). -/
  | wakeReq (t : Nat) (p : Fin 2) (f : Frame) (ts : Nat)
  /-- ANNOUNCE_PERIOD (R522). -/
  | announcePeriod (t : Nat)
  /-- PDELAY_PERIOD (R517). -/
  | pdelayPeriod (t : Nat) (p : Fin 2)
  /-- SYNC_PERIOD (R518). -/
  | syncPeriod (t : Nat)
  /-- MAINS_PERIOD (R529). -/
  | mainsPeriod (t : Nat)
  /-- SNAP_PERIOD (R528). -/
  | snapPeriod (t : Nat) (k : Fin 4)
  /-- MASTER_SILENCE_TIMEOUT (R523). -/
  | masterSilenceTimeout (t : Nat) (role : Fin 2)
  /-- BACKUP_TAKEOVER (R523). -/
  | backupTakeover (t : Nat) (role : Fin 2)
  /-- BACKUP_SILENCE (R524). -/
  | backupSilence (t : Nat) (role : Fin 2)
  /-- TIME_QUALITY_LOSS (R521). -/
  | timeQualityLoss (t : Nat)
  /-- MAINS_TIMEOUT (R530). -/
  | mainsTimeout (t : Nat)
  /-- SOURCE_FORGET (R510). -/
  | sourceForget (t : Nat) (src : Nat)
  /-- VLK_ENABLE (R511). -/
  | vlkEnable (t : Nat) (v : Word)
  /-- LINK_SEND (R533). -/
  | linkSend (t : Nat) (r : Fin 64)
  /-- LINK_RESIGN (R523). -/
  | linkResign (t : Nat) (r : Fin 64)
  /-- LINK_WAKE (R537). -/
  | linkWake (t : Nat) (r : Fin 64)
  /-- DUSK_ENTER (R543). -/
  | duskEnter (t : Nat) (r : Fin 64)
  /-- DUSK_REQ (R543). -/
  | duskReq (t : Nat)
  /-- DUSK_COMMIT (R547). -/
  | duskCommit (t : Nat)
  /-- DUSK_TOOTH_EDGE (R95). -/
  | duskToothEdge (t : Nat) (d : Fin 2) (e : CrankInput)
  /-- WAKE_LATCH_EDGE (R550). -/
  | wakeLatchEdge (t : Nat) (l : Fin 7)
  /-- AON_TIMER_EXPIRY (R550). -/
  | aonTimerExpiry (t : Nat)
  /-- WAKE (R552). -/
  | wake (t : Nat) (l : Fin 7) (aonCount : Nat) (eccErr : Bool)
  /-- JOURNAL_COMMIT (R563). -/
  | journalCommit (t : Nat) (r : Fin 64)
  /-- COMMIT (R563). -/
  | commit (t : Nat)
  /-- PWR_SET (R550). -/
  | pwrSet (t : Nat) (r : Fin 64)
  /-- POWER_ON_RESET (R558). -/
  | powerOnReset (t : Nat)
  /-- SUPPLY_MONITOR_RESET (R578). -/
  | supplyMonitorReset (t : Nat)
  /-- PIN_RESET (R586). -/
  | pinReset (t : Nat) (width : Nat)
  /-- RESET_RELEASE (R538). -/
  | resetRelease (t : Nat)
  /-- READ_BAR0 (R609). -/
  | readBar0 (t : Nat) (off n : Nat)
  /-- READ_BAR2 (R609). -/
  | readBar2 (t : Nat) (off n : Nat)
  /-- EXPORT_READ (R610). -/
  | exportRead (t : Nat) (n : Nat)
  /-- EXPORT_TIMEOUT (R610). -/
  | exportTimeout (t : Nat)
  /-- IMPORT_OPEN (R611). -/
  | importOpen (t : Nat) (key : Word)
  /-- IMPORT_DATA (R608). -/
  | importData (t : Nat) (bytes : List Byte)
  /-- IMPORT_WRITE_DONE (R612). -/
  | importWriteDone (t : Nat) (ok : Bool)
  /-- SYNC_CHECK_EVAL (R90). -/
  | syncCheckEval (t : Nat)
  /-- SYNC_CHECK_ARM (R91). -/
  | syncCheckArm (t : Nat)
  /-- SYNC_CHECK_CANCEL (R91). -/
  | syncCheckCancel (t : Nat)
  /-- SYNC_CHECK_TIMEOUT (R93). -/
  | syncCheckTimeout (t : Nat)
  /-- COMPLETION_TIMEOUT (R324). -/
  | completionTimeout (t : Nat) (what : ReadTag)
  /-- MSIX_FUNCTION_MASK_WRITE (R388). -/
  | msixFunctionMaskWrite (t : Nat) (en mask : Bool)
  /-- JTAG_TCK_EDGE (R596). -/
  | jtagTckEdge (t : Nat) (rising tms tdi : Bool)
  /-- EXPORT_OPEN (R610). -/
  | exportOpen
  /-- EXPORT_STATUS (R608). -/
  | exportStatus
  /-- IMPORT_FINISH (R612). -/
  | importFinish
  /-- IMPORT_STATUS (R608). -/
  | importStatus
  /-- IDENT (R608). -/
  | ident
  /-- FW_PROGRAM_DONE (R500). -/
  | fwProgramDone
  /-- FW_VERIFY_DONE (R500). -/
  | fwVerifyDone
  /-- FW_ACTIVATION (R501). -/
  | fwActivation
  /-- FW_RUNNING (R503). -/
  | fwRunning
  /-- JOURNAL_WRITE_DONE (R561). -/
  | journalWriteDone
  /-- DIGEST_DONE (R565). -/
  | digestDone
  /-- RESTORE_DONE (R568). -/
  | restoreDone
  /-- SPARE_POWERED (R453). -/
  | sparePowered
  /-- REFLECTION_VERIFIED (R453). -/
  | reflectionVerified
  /-- SLOTS_LOADED (R453). -/
  | slotsLoaded
  /-- RECONCILIATION (R454). -/
  | reconciliation
  /-- DUSK_VOTE (R545). -/
  | duskVote
  /-- PME_TURN_OFF (R308). -/
  | pmeTurnOff
  /-- AON_RC_FALLBACK (R592). -/
  | aonRcFallback
  /-- WARDEN_LOCKSTEP (R463). -/
  | wardenLockstep
  /-- PLL_LOCK (R538). -/
  | pllLock
  /-- HOST_PATH_RESET (R310). -/
  | hostPathReset
  /-- FCLK_SLEW_DONE (R483). -/
  | fclkSlewDone
  /-- SPARE_LOAD_DONE (R490). -/
  | spareLoadDone
  deriving DecidableEq, Repr

end Sys2Proof
end

