-- ==== Sys2Proof/Decode.lean ====
section
/-!
DEFINITION. The command a word of the command table spells. The table gives no row bits: commands reach the block over
its ports, so no word spells a command.
-/
namespace Sys2Proof

/-- The command that a word spells by the table's bits: none, as no row has bits. -/
def decodeTableWord (_nbits _w : Nat) : Option Instr := none

end Sys2Proof
end

