-- ==== Sys2Proof/Machine/RegMap.lean ====
section
/-!
DEFINITION. The BAR0 register map: for every register its writable fields, their stated ranges and their values after
reset, transcribed from the field maps of the chapters. Fields not listed are read only or reserved and reset to 0;
read-only fields are listed where their value after reset is not 0 or is retained.
-/
namespace Sys2Proof.Machine

/-- The access codes of the field maps (table *Access codes*); RW is not used by any register. -/
inductive Acc where
  | ro | seal | w1c | w1s | wo
  deriving DecidableEq, Repr

/-- One field of a register: bits hi..lo, access, value after reset, whether the journal retains it, and the
stated range (R47, R102, R221, R299). -/
structure Fld where
  hi : Nat
  lo : Nat
  acc : Acc
  rst : Nat
  kept : Bool
  mn : Nat
  mx : Nat
  deriving DecidableEq, Repr

namespace Fld
/-- A retained SEAL field with its factory value (R10) and its range. -/
def ret (hi lo : Nat) (f : Nat := 0) (mn : Nat := 0) (mx : Nat := 2 ^ (hi + 1 - lo) - 1) : Fld :=
  ⟨hi, lo, .seal, f, true, mn, mx⟩
/-- A SEAL field loaded with a constant at every reset. -/
def con (hi lo : Nat) (f : Nat := 0) (mn : Nat := 0) (mx : Nat := 2 ^ (hi + 1 - lo) - 1) : Fld :=
  ⟨hi, lo, .seal, f, false, mn, mx⟩
/-- A read-only field whose value after reset is not 0. -/
def ro (hi lo : Nat) (f : Nat) : Fld := ⟨hi, lo, .ro, f, false, 0, 0⟩
/-- A read-only field the journal retains. -/
def roKept (hi lo : Nat) (f : Nat := 0) : Fld := ⟨hi, lo, .ro, f, true, 0, 0⟩
def w1c (hi lo : Nat) : Fld := ⟨hi, lo, .w1c, 0, false, 0, 0⟩
def w1s (hi lo : Nat) : Fld := ⟨hi, lo, .w1s, 0, false, 0, 0⟩
def wo (hi lo : Nat) : Fld := ⟨hi, lo, .wo, 0, false, 0, 0⟩
end Fld

open Fld

/-- GLB block (Architecture, *GLB register offsets*). -/
def glbFields : Nat → List Fld
  | 0x000 => [ro 31 0 0x51446400]
  | 0x004 => [ret 1 0 2 1 2]
  | 0x008 => [ret 12 12, ret 9 8 0 0 2, ret 4 4, ret 1 0 0 0 1]
  | 0x010 => [wo 31 0]
  | 0x038 => [w1c 5 0]
  | 0x03C => [con 31 0]
  | _ => []

/-- One command, completion, telemetry or capture ring (offset within its 0x20 bytes). -/
def ringFields : Nat → List Fld
  | 0x00 => [con 28 24, con 21 16, con 13 8, con 7 4, con 3 3, con 2 1, con 0 0]
  | 0x04 => [con 31 12]
  | 0x08 => [con 31 0]
  | _ => []

/-- HIF block. The MSI-X table and pending bit array have their own access rules (R303); the layout of a table entry
and its mask bit after reset are those of PCI Express (PRESUMED, log entry 6). -/
def hifFields (o : Nat) : List Fld :=
  if 0x100 ≤ o ∧ o < 0x900 then ringFields (o % 0x20)
  else if 0xA00 ≤ o ∧ o < 0xC00 then
    (if o % 16 = 0 then [con 31 2] else if o % 16 = 12 then [con 0 0 1] else [con 31 0])
  else
  match o with
  | 0x000 => [ret 8 8, con 0 0]
  | 0x008 => [con 31 7]
  | 0x00C => [con 31 0]
  | 0x010 => [con 31 7]
  | 0x014 => [con 31 0]
  | 0x018 => [con 31 16 200 10, con 6 0 4 1 100]
  | _ => []

/-- PWR block. -/
def pwrFields : Nat → List Fld
  | 0x000 => [w1s 2 2, w1s 1 1, w1s 0 0]
  | 0x004 => [w1c 13 13, ⟨11, 11, .w1c, 1, false, 0, 0⟩, ro 6 4 7]
  | 0x008 => [ret 6 0 0x45]
  | 0x00C => [ret 31 0]
  | 0x010 => [ret 6 0 0x5C 0x08 0x77]
  | _ => []

/-- WDN block: faults and reflection below 0x100, ageing, margins, Round and firmware from 0x100. -/
def wdnFields : Nat → List Fld
  | 0x000 => [roKept 14 12]
  | 0x004 => [roKept 14 0 0x4688]
  | 0x008 => [roKept 14 0 0x1000]
  | 0x00C => [ret 23 16 50 10, ret 11 8 4 2, ret 7 0 10 2]
  | 0x010 => [ret 15 0 1024 256]
  | 0x020 => [roKept 15 0]
  | 0x104 => [ret 31 24 20, ret 23 20 10 1, ret 19 10 50, ret 9 0 150 50]
  | 0x108 => [ret 31 16 100 10, ret 15 8 115 60 150]
  | 0x10C => [ret 31 16 20000]
  | 0x110 => [ret 31 16 5000, ret 15 8 20, ret 7 0 5 0 75]
  | 0x114 => [ret 31 24 5, ret 23 16 15]
  | 0x118 => [ret 31 22 300, ret 21 12 100, ret 11 2 20]
  | 0x11C => [ret 31 24 15 1 100, ret 23 16 150 101]
  | 0x200 => [ret 31 16 24 1, ret 15 8 20 1, ret 0 0 1]
  | 0x204 => [ret 31 16 200 100, ret 15 0 1000 1]
  | 0x208 => [roKept 31 16, roKept 5 4]
  | 0x240 => [roKept 0 0]
  | 0x24C => [roKept 31 0]
  | _ => []

/-- IRQ block (table *IRQ register offsets*); the priorities of sources 0 and 511 are reserved. -/
def irqFields (o : Nat) : List Fld :=
  if o = 0 then [ret 0 0]
  else if o = 0x10 ∨ o = 0x14 then [wo 31 0]
  else if 0x100 ≤ o ∧ o < 0x200 then
    (if o % 0x10 = 0 then [ret 25 16, ret 3 0] else if o % 0x10 = 8 then [wo 8 0] else [])
  else if 0x400 ≤ o ∧ o < 0x480 then [wo 31 0]
  else if 0x800 ≤ o ∧ o < 0x900 then
    ((List.range 8).filter (fun i => !(o == 0x800 && i == 0) && !(o == 0x8FC && i == 7))).map (fun i => ret (4 * i + 3) (4 * i))
  else if 0x1000 ≤ o ∧ o < 0x1800 then [wo 31 0]
  else if 0x1800 ≤ o ∧ o < 0x1C00 then [roKept 31 0]
  else []

/-- XFR block. -/
def xfrFields (o : Nat) : List Fld :=
  if 0x10 ≤ o ∧ o < 0x20 then [ret 15 0]
  else if 0x100 ≤ o ∧ o < 0x500 then
    (match o % 0x20 with
    | 0x00 => [w1s 1 1, w1s 0 0]
    | 0x04 => [con 31 6]
    | 0x08 => [con 31 0]
    | _ => [])
  else []

/-- QUE block. -/
def queFields (o : Nat) : List Fld :=
  if o = 0 then [ret 5 5, ret 4 4, ret 3 2, ret 1 1 1, ret 0 0 1]
  else if o = 4 then [w1c 2 2, w1c 1 1]
  else if 0x100 ≤ o ∧ o < 0x400 then
    (match o % 0x20 with
    | 0x00 => [ret 31 24, ret 20 16 8 1 16, ret 12 8, ret 6 4 0 0 4, ret 3 2 0 0 2, ret 1 1, ret 0 0]
    | 0x04 => [w1c 17 17]
    | _ => [])
  else []

/-- VLK block. -/
def vlkFields (o : Nat) : List Fld :=
  if 0x40 ≤ o ∧ o < 0x50 then [ret 31 31, ret 30 29, ret 28 25 1 1, ret 15 0 100 100]
  else if 0x80 ≤ o ∧ o < 0x100 then
    (if o % 0x10 = 0 then [ret 31 31, ret 30 27 1 1, ret 23 16 1 1, ret 9 0]
     else if o % 0x10 = 4 then [ro 31 0 0xFFFFFFFF] else [])
  else match o with
  | 0x000 => [ret 25 16, ret 2 2, ret 1 1, ret 0 0]
  | 0x008 => [ret 31 24 10 1, ret 23 8 500 1, ret 6 0 2 1 100]
  | 0x00C => [ret 23 16 10 1, ret 15 8, ret 7 0]
  | 0x010 => [ret 31 24 100 1 200, ret 15 0 1000 100]
  | 0x014 => [ret 31 24 5 1, ret 15 0 1000 100]
  | _ => []

/-- REEL block. -/
def reelFields (o : Nat) : List Fld :=
  if o = 8 ∨ o = 0xC then [wo 15 0]
  else if 0x80 ≤ o ∧ o < 0x100 then [ret 11 8, ret 4 4, ret 3 0]
  else if 0x400 ≤ o ∧ o < 0x800 then
    (match o % 0x40 with
    | 0x00 => [ret 13 8, ret 3 2 0 0 2, ret 1 1, ret 0 0]
    | 0x04 => [ret 23 0 320 320]
    | 0x08 => [ret 31 0]
    | 0x0C => [ret 10 10, ret 9 9, ret 8 8, ret 4 0]
    | 0x10 => [ret 13 8, ret 5 0]
    | 0x14 => [w1s 2 2, w1s 1 1, w1s 0 0]
    | 0x1C => [wo 31 0]
    | 0x24 => [wo 23 0]
    | _ => [])
  else []

/-- Prediction registers of a mechanical domain (+0x40 to +0x80). -/
def predFields : Nat → List Fld
  | 0x40 => [ret 24 16 96 0 256, ret 8 0 224 0 256]
  | 0x44 => [ret 15 8 16 1, ret 7 0 2 1]
  | 0x48 => [ret 24 16 220 100 400, ret 6 0 45 25 100]
  | 0x4C => [ret 15 8 128 8, ret 7 0 16 4]
  | 0x50 => [ret 23 0 3277 1]
  | 0x54 => [ro 24 16 220, ro 6 0 45]
  | 0x70 => [ret 27 20 50 1, ret 19 16 3 0 8, ret 15 8 64 1, w1s 1 1, w1s 0 0]
  | 0x78 => [ret 15 12 4 0 8, ret 4 0 0 0 24]
  | 0x7C => [ret 31 24 60, ret 23 16 20, ret 15 8 20, ret 7 0 236]
  | _ => []

/-- Registers of a mechanical domain, offset within the domain. -/
def mechFields (o : Nat) : List Fld :=
  match o with
  | 0x00 => [ret 7 7, ret 6 5 0 0 2, ret 4 4, ret 3 3, ret 0 0]
  | 0x04 => [ret 31 24 68 4, ret 23 20 2, ret 19 16 5, ret 15 12 3, ret 11 10 1, ret 9 9, ret 8 8, ret 5 5]
  | 0x08 => [ret 31 24 20 4, ret 15 12 1 1 4, ret 11 8 3 2, ret 7 4 3 2]
  | 0x0C => [ret 15 8 96 16, ret 7 0 48 16]
  | 0x10 => [ret 25 16, ret 6 0]
  | 0x14 => [ret 15 0 200 10]
  | 0x18 => [wo 0 0]
  | 0x20 => [ro 31 0 0xFFFFFFFF]
  | _ => predFields o

/-- Registers of an electrical domain; SRC is reserved on D2. -/
def elecFields (d : Nat) : Nat → List Fld
  | 0x00 => [ret 31 24 20 2, ret 23 16 20 1, ret 11 8 4 2, ret 0 0] ++ (if d = 3 then [ret 1 1] else [])
  | 0x04 => [ret 27 16 2048, ret 15 8 70, ret 7 0 40 10]
  | 0x08 => [ret 31 0 0 0 0x0167FFFF]
  | 0x18 => [wo 0 0]
  | 0x20 => [ro 31 0 0xFFFFFFFF]
  | _ => []

/-- ATU block. -/
def atuFields (o : Nat) : List Fld :=
  if 0x100 ≤ o ∧ o < 0x300 then mechFields (o % 0x100)
  else if 0x300 ≤ o ∧ o < 0x500 then elecFields (o / 0x100 - 1) (o % 0x100)
  else if 0x600 ≤ o ∧ o < 0x680 then (if o % 8 = 0 then [ret 2 1, ret 0 0] else if o % 8 = 4 then [ret 31 0] else [])
  else match o with
  | 0x500 => [ret 15 8 60 1, w1s 1 1, w1s 0 0]
  | 0x504 => [ret 31 24 5, ret 23 16 10, ret 15 8 50, ret 7 0 100]
  | 0x508 => [ret 15 0 100]
  | 0x50C => [ret 19 0]
  | 0x510 => [w1c 3 3, w1c 2 2]
  | _ => []

/-- A converter's registers, offset within its block; `refB` is the factory reference (R279). -/
def convFields (refB : Bool) (o : Nat) : List Fld :=
  if 0x20 ≤ o ∧ o < 0x30 then [ret 15 0]
  else if o = 0 then [ret 15 8, ret 2 2 1, ret 1 1 (if refB then 1 else 0), ret 0 0]
  else if o = 4 then [roKept 5 5 1]
  else if o = 0x10 then [roKept 30 16 2048, roKept 15 0 16384]
  else []

/-- ADC block: references, gap calibration, host pressures and the two general converters. -/
def adcFields (o : Nat) : List Fld :=
  if 0x100 ≤ o ∧ o < 0x900 then
    let k := (o - 0x100) / 0x400
    let p := (o - 0x100) % 0x400
    (if 0x100 ≤ p ∧ p < 0x180 then [ret 31 0] else if p < 0x100 then convFields (k == 1) p else [])
  else match o with
  | 0x000 => [ret 31 24 20 4, ret 23 16 6 2, ret 15 8 10 1, ret 7 4 3 1]
  | 0x014 => [ret 31 16 1000 10, ret 15 8 10 1, ret 7 4 3 1]
  | 0x020 => [con 15 0]
  | 0x024 => [con 15 0]
  | 0x028 => [con 15 0]
  | 0x02C => [con 15 0]
  | _ => []

/-- A general or zero-cross window; INPUT is reserved on the zero-cross windows. -/
def genWinFields (zc : Bool) : Nat → List Fld
  | 0x0 => [ret 31 26 0 0 48, ret 25 18 0 0 200, ret 17 14, ret 13 10, ret 9 7] ++ (if zc then [] else [ret 5 1]) ++ [ret 0 0]
  | 0x4 => [ret 25 16, ret 9 0]
  | _ => []

/-- CMP block. -/
def cmpFields (o : Nat) : List Fld :=
  if o < 0x100 then genWinFields false (o % 0x10)
  else if o < 0x120 then genWinFields true (o % 0x10)
  else []

/-- A channel window or the boost window (`bst`) of a bank. -/
def bankWinFields (bst : Bool) : Nat → List Fld
  | 0x0 => [ret 23 16 25 0 200, ret 15 12 (if bst then 10 else 3), ret 11 8 (if bst then 10 else 3), ret 1 1 1] ++
      (if bst then [] else [ret 2 2 1, ret 0 0 1])
  | 0x4 => if bst then [ret 25 16, ret 9 0] else []
  | _ => []

/-- A bank block: channel cells, bank cell, converter, sensing and windows. `bank` is the bank's number. -/
def bankFields (bank o : Nat) : List Fld :=
  if o < 0x400 then
    (match o % 0x100 with
    | 0x00 => [ret 3 2 0 0 2, ret 1 1, ret 0 0]
    | 0x0C => [w1s 1 1, w1s 0 0]
    | _ => [])
  else if o < 0x600 then
    (match o with
    | 0x400 => [ret 4 4, ret 1 0 0 0 2]
    | 0x404 => [ret 23 16 10 5 100, ret 15 8 20, ret 7 0 50]
    | 0x418 => [w1s 0 0]
    | _ => [])
  else if o < 0x680 then convFields (bank % 2 == 1) (o - 0x600)
  else if o < 0x700 then [ret 31 0]
  else if o < 0x800 then []
  else if o < 0x840 then bankWinFields false (o % 0x10)
  else if o < 0x850 then bankWinFields true (o % 0x10)
  else []

/-- A region block: EVS, region error registers and the four banks (`r` = 4: the Mirror region, R42). -/
def regionFields (r o : Nat) : List Fld :=
  if o < 0x1000 then
    (match o with
    | 0x000 => [ret 15 0 655 64]
    | 0x030 => [con 9 0]
    | _ => [])
  else if o = 0x1004 then [roKept 2 0 r]
  else if 0x2000 ≤ o ∧ o < 0x2080 ∧ r < 4 then
    (match o % 0x20 with
    | 0x0 => [ret 31 16 500 1, ret 13 8 5 1, ret 3 0 4 1]
    | 0x4 => [ret 27 16 4095, ret 11 0]
    | _ => [])
  else if 0x4000 ≤ o ∧ o < 0x8000 ∧ r < 4 then bankFields (4 * r + (o - 0x4000) / 0x1000) (o % 0x1000)
  else []

/-- The fields of the BAR0 register at byte address `a` (table *BAR0 map*); none for a reserved address. -/
def regFields (a : Nat) : List Fld :=
  if a < 0x1000 then glbFields a
  else if a < 0x2000 then hifFields (a - 0x1000)
  else if a < 0x3000 then pwrFields (a - 0x2000)
  else if a < 0x4000 then wdnFields (a - 0x3000)
  else if a < 0x8000 then irqFields (a - 0x4000)
  else if a < 0x9000 then xfrFields (a - 0x8000)
  else if a < 0xA000 then queFields (a - 0x9000)
  else if a < 0xB000 then vlkFields (a - 0xA000)
  else if a < 0xC000 then reelFields (a - 0xB000)
  else if a < 0xD000 then atuFields (a - 0xC000)
  else if a < 0xE000 then adcFields (a - 0xD000)
  else if a < 0xF000 then cmpFields (a - 0xE000)
  else if a < 0x10000 then []
  else if a < 0x60000 then regionFields (a / 0x10000 - 1) (a % 0x10000)
  else []

/-- The word a register holds when nothing has changed it: its fields at their values after reset, retained fields
at their factory values (R10). -/
def regDefault (a : Nat) : Word :=
  BitVec.ofNat 32 ((regFields a).foldl (fun acc f => acc + f.rst * 2 ^ f.lo) 0)

/-! Base addresses of the blocks and instances (tables *BAR0 map* and *Layout within a bank block*). -/
namespace A
def hif : Nat := 0x1000
def pwr : Nat := 0x2000
def wdn : Nat := 0x3000
def irq : Nat := 0x4000
def xfr : Nat := 0x8000
def que : Nat := 0x9000
def vlk : Nat := 0xA000
def reel : Nat := 0xB000
def adc : Nat := 0xD000
def cmp : Nat := 0xE000
def dom (n : Nat) : Nat := 0xC100 + n * 0x100
def mark (m : Nat) : Nat := 0xC600 + m * 8
def perr (n : Nat) : Nat := 0xC800 + n * 0x10
def region (n : Nat) : Nat := 0x10000 + n * 0x10000
def bank (b : Nat) : Nat := 0x10000 + (b / 4) * 0x10000 + 0x4000 + (b % 4) * 0x1000
def bankErr (b : Nat) : Nat := 0x10000 + (b / 4) * 0x10000 + 0x2000 + (b % 4) * 0x20
def cell (c : Nat) : Nat := bank (c / 4) + (c % 4) * 0x100
def sns (c : Nat) : Nat := bank (c / 4) + 0x740 + (c % 4) * 0x20
def snsLast (c : Nat) : Nat := bank (c / 4) + 0x7C0 + (c % 4) * 0x10
/-- Converter k: BADC_k for k below 16, GADC_(k−16) otherwise. -/
def conv (k : Nat) : Nat := if k < 16 then bank k + 0x600 else 0xD100 + (k - 16) * 0x400
/-- Step entry s of converter k. -/
def step (k s : Nat) : Nat := if k < 16 then bank k + 0x680 + 4 * s else 0xD200 + (k - 16) * 0x400 + 4 * s
/-- Window w: channels 0 to 63, boost windows 64 to 79, general windows 80 to 95, zero-cross windows 96 and 97. -/
def win (w : Nat) : Nat :=
  if w < 64 then bank (w / 4) + 0x800 + (w % 4) * 0x10
  else if w < 80 then bank (w - 64) + 0x840
  else if w < 96 then 0xE000 + (w - 80) * 0x10
  else 0xE100 + (w - 96) * 0x10
def ring (r : Nat) : Nat := 0x1100 + r * 0x20
def queue (q : Nat) : Nat := 0x9100 + q * 0x20
def xch (n : Nat) : Nat := 0x8100 + n * 0x20
def tgt (t : Nat) : Nat := 0x4100 + t * 0x10
def eng (e : Nat) : Nat := 0xB400 + e * 0x40
def pin (p : Nat) : Nat := 0xB080 + 4 * p
def port (p : Nat) : Nat := 0xA030 + 8 * p
def rxslot (k : Nat) : Nat := 0xA080 + k * 0x10
end A

end Sys2Proof.Machine
end

