-- ==== Sys2Proof/Machine/State.lean ====
section
/-!
DEFINITION. The state of the block as plain data, its reset, and the reasons a step can stop.
-/
namespace Sys2Proof.Machine

/-- A table of like things by number: pairs with rising numbers, none equal to the table's default. -/
abbrev Cells (α : Type) := List (Nat × α)

/-- No command of the block ends in a fault: the spec gives every one an effect. -/
inductive Fault where
  deriving DecidableEq, Repr

/-- The reasons a command is refused by the model. -/
inductive Refusal where
  /-- Raised by `exec` for a command that has no meaning yet; safe: no claim about it can be proved. -/
  | notModelled (mnemonic : String)
  deriving DecidableEq, Repr

/-! ### Host interface -/

/-- What the device sends to the host, in the order in which it issues it (R305, R318): a posted write, a read
request, an MSI-X message, or a PME_TO_Ack message. -/
inductive Sent where
  | write (addr : Nat) (bytes : List Byte)
  | read (addr bytes : Nat)
  | msix (vector : Nat) (addr data : Nat)
  | pmeAck
  | poison (bar addr : Nat)
  deriving DecidableEq, Repr

/-- A fetched command descriptor: its index in its ring, its 16 words, the buffer of an indirect command (R332), and
whether its fetch has failed three times, so that it is answered FETCH_FAULT at the head (R324, R329). -/
structure Fetched where
  idx : Nat
  words : List Word
  buf : List Word
  fault : Bool := false
  deriving DecidableEq, Repr

/-- The fetch side of one ring (R322 to R324) and, for a 64-byte capture ring, the word waiting for its pair. -/
structure RingRt where
  want : Nat := 0
  fetched : List Fetched := []
  fails : Nat := 0
  lapRun : Nat := 0
  first : List Word := []
  firstAt : Nat := 0
  deriving DecidableEq, Repr

/-- A capture of a telemetry producer: DTIME, quality, domain, angle word (all ones when none), value words. -/
structure Capture where
  dtime : Nat
  qual : Nat
  dom : Nat
  angle : Nat
  value : List Word
  deriving DecidableEq, Repr

/-- What a telemetry producer last published. -/
inductive PubState where
  | quiet | fresh | stale | undef
  deriving DecidableEq, Repr

/-- The running state of one telemetry producer (R338 to R340); `isNew` says that `latest` has not been published. -/
structure Producer where
  pseq : Nat := 0
  latest : Option Capture := none
  published : Option Capture := none
  pub : PubState := .quiet
  nextAt : Nat := 0
  isNew : Bool := false
  deriving DecidableEq, Repr

/-- The host interface. `taken` is the producer table in use (entry number and its four words), `awaited` the kept arm
points (region, slot, predicted DTIME), `backlog` the completions that wait for the end of a suspension; `pci` is configuration
space as software has programmed it, at its values after reset until then, with the trained link. -/
structure Hif where
  rings : Cells RingRt := []
  polled : Bool := false
  pollAt : Nat := 0
  pollBusy : Bool := false
  rr : Nat := 0
  gen : Nat := 0
  awaited : List (Nat × Nat × Option Nat) := []
  taken : List (Nat × List Word) := []
  producers : Cells Producer := []
  bme : Bool := false
  dstate : Nat := 0
  lstate : Nat := 0
  wakeN : Bool := false
  pci : PciCfg := {}
  backlog : List (Nat × List Word) := []
  hiLatch : Cells Word := []
  deriving DecidableEq, Repr

/-! ### Clocks, time, global state -/

/-- Clocks and device time. `now` counts ECLK ticks of 2.5 ns of model time; DTIME is `base` ns at tick `since`, with
`slewNum` / `slewDen` ns of correction for each ns from there (R9, R40, R519). `pll` is GLB_STATUS.CLK_SRC, `step` the
FCLK step in force. -/
structure Clk where
  now : Nat := 0
  base : Nat := 0
  since : Nat := 0
  slewNum : Int := 0
  slewDen : Nat := 1
  qual : Nat := 0
  pll : Bool := false
  step : Nat := 0
  deriving DecidableEq, Repr

/-- Seal, chip state and modes in force (R48, R49, GLB_STATUS, GLB_MODE_NOW, GLB_DIGEST, GLB_DTIME_QUAL);
`timeHigh` is the high word of GLB_DTIME while it is latched and not yet read (R16, R50). -/
structure Glb where
  first : Bool := false
  isSealed : Bool := false
  refusedBar2 : Bool := false
  refused : Nat := 0
  armed : Bool := false
  chipSafe : Bool := false
  safeHold : Bool := true
  tempered : Bool := false
  broad : Bool := false
  agile : Bool := false
  reflect : Nat := 0
  digest : Nat := 0
  digestDue : Bool := false
  timeHigh : Option Word := none
  qualLatch : Nat := 0
  cause : Nat := 2
  deriving DecidableEq, Repr

/-- What the part sends on a link port: a frame (header words, payload, whether it ends in EOF) or an ordered set (R505 to R509). -/
inductive LinkSent where
  | frame (port : Nat) (w0 w1 : Word) (payload : List Word) (eof : Bool)
  | rfault (port : Nat)
  | sleep (port : Nat)
  | wake (port : Nat)
  deriving DecidableEq, Repr

/-- What the last read, sideband transaction and the link sent out of the block: data words read over PCI Express, the
bytes answered over the sideband, and everything issued to the host. `ranks` holds the rank (R31) of each of the newest items of
`sent`, those issued in the FCLK cycle of tick `issuedAt`. -/
structure Out where
  sent : List Sent := []
  issuedAt : Nat := 0
  ranks : List Nat := []
  rdata : List Word := []
  sideband : List Byte := []
  link : List LinkSent := []
  deriving DecidableEq, Repr

/-! ### Queue cells, transfer engine, cycle trace -/

/-- A closed 128-bit word of a queue cell: its bytes, its VALID_BYTES tag and the tick it entered stage 15 (R346). -/
structure QWord where
  bytes : List Byte
  valid : Nat
  entered : Nat
  deriving DecidableEq, Repr

/-- A queue cell: closed words oldest first (at most 16), the open word and the tick of its last item, and the counters
of R349, R351 and R354. `tookAt` is the tick of the reader's last take, `shed` the word discarded from the head in the FCLK cycle of
tick `shedAt` with LOST before it (R348), `crossAt` the tick of the last upward crossing with LEVEL_EVT and CROSS_CNT before it (R353).
The newest group has `groupN` items, one arriving in each FCLK cycle from tick `groupAt`; a flush inside it leaves the last `cut` of
them to be discarded as they arrive (R355). -/
structure QCell where
  words : List QWord := []
  opened : List Byte := []
  lastItem : Nat := 0
  levelEvt : Bool := false
  cross : Nat := 0
  lost : Nat := 0
  flushed : Nat := 0
  tookAt : Option Nat := none
  shed : Option (QWord × Nat) := none
  shedAt : Nat := 0
  crossAt : Option Nat := none
  evtBefore : Bool := false
  crossBefore : Nat := 0
  groupAt : Nat := 0
  groupN : Nat := 0
  cut : Nat := 0
  deriving DecidableEq, Repr

/-- The states of a transfer channel (XFR_CH_n_STATUS.STATE). -/
inductive XState where
  | idle | run | wait | parked | error
  deriving DecidableEq, Repr

/-- The host read a transfer channel has outstanding. -/
inductive XRead where
  | quiet | desc | link | data
  deriving DecidableEq, Repr

/-- A transfer channel: its descriptor words and address, elements moved, elements left in the running block, the words
taken from a queue and not yet written (with the VALID_BYTES of each element) or the host data not yet given to a Reel
engine, the host read outstanding and whether it still waits for the end of a suspension, the pending trigger, ERR,
GEN_PARK, and its counters (R359 to R371). -/
structure XCh where
  st : XState := .idle
  desc : List Word := []
  addr : Nat := 0
  moved : Nat := 0
  blockLeft : Nat := 0
  held : List Word := []
  tags : List Nat := []
  reading : XRead := .quiet
  unsent : Bool := false
  trig : Bool := false
  err : Nat := 0
  genPark : Nat := 0
  dseq : Nat := 0
  missed : Nat := 0
  reread : Nat := 0
  deriving DecidableEq, Repr

/-- The transfer engine: its channels, the tick at which each timer next expires (R365), and the writes of stopped channels that
wait for the end of a suspension (R306, R367). -/
structure Xfr where
  chans : Cells XCh := []
  timers : Cells Nat := []
  late : List Sent := []
  deriving DecidableEq, Repr

/-- A trace record before it has its place: its rank among the records of one FCLK cycle (R374), family, high word of DTIME, body, and
whether it sets the mark. -/
structure TRec where
  key : Nat
  family : Nat
  hi : Nat
  body : List Word
  mark : Bool
  deriving DecidableEq, Repr

/-- The cycle trace: the buffer by 32-bit word, the three byte counts, the place of the record that holds RD and the status
(R372 to R380); the records written in the FCLK cycle of tick `cycAt`, in their order (R374), with WR and TSEQ before them. -/
structure Trace where
  buf : Cells Word := []
  wr : Nat := 0
  rd : Nat := 0
  head : Nat := 0
  mark : Nat := 0
  markValid : Bool := false
  rewindLost : Bool := false
  overrun : Bool := false
  tseq : Nat := 0
  markLost : Nat := 0
  dropped : Nat := 0
  owner : Option Nat := none
  cycAt : Nat := 0
  recs : List TRec := []
  wr0 : Nat := 0
  tseq0 : Nat := 0
  deriving DecidableEq, Repr

/-! ### Interrupt controller -/

/-- One interrupt target (R386, R389, R402): running priority, priority stack (previous running priority with the
source whose claim pushed it, newest first), request bit, the tick the holdoff timer expires, rejected completions. -/
structure IrqTarget where
  runpri : Nat := 0
  stack : List (Nat × Nat) := []
  req : Bool := false
  holdoffUntil : Nat := 0
  badcomp : Nat := 0
  deriving DecidableEq, Repr

/-- The interrupt controller (R382, R386, R387, R401, R406). `due` holds the vectors whose message waits to be
issued, oldest first; `pba` the vectors held in the pending bit array (R388); `cycAt` and `cycRank` the tick of the latest action and its place in the
order of one FCLK cycle (R393). -/
structure Irq where
  pending : List Nat := []
  inService : Cells Nat := []
  rep : Cells Nat := []
  targets : Cells IrqTarget := []
  idle : List Nat := []
  asleep : List Nat := []
  due : List Nat := []
  pba : List Nat := []
  msixEn : Bool := false
  msixMask : Bool := false
  latched : List Nat := []
  cycAt : Nat := 0
  cycRank : Nat := 0
  deriving DecidableEq, Repr

/-! ### Converters and window comparators -/

/-- What a conversion in progress is for (R273). -/
inductive ConvKind where
  | step (n : Nat)
  | kink
  | refHalf
  | refBg
  | cal (high : Bool)
  deriving DecidableEq, Repr

/-- A triggered step instance: its latched entry, the tick it becomes ready, whether it is pending (R270). -/
structure Inst where
  entry : Word
  ready : Nat
  isPending : Bool
  deriving DecidableEq, Repr

/-- A conversion in progress: what it is for, the instance it serves, and the tick it began. -/
structure Conv where
  kind : ConvKind
  inst : Inst
  start : Nat
  deriving DecidableEq, Repr

/-- A converter (R262 to R290): held instances by step, the conversion in progress, timers' next expiries and which of
them skips its next one (R277), last step, hold instants by input, reference in use and wanted, reference conversions
due, calibration: the tick its period runs from, due, collecting (sums, count, hold instant of the first conversion), accepted and not
yet applied with the tick its last conversion ended, CAL_FAULT; the step entries rewritten of late: step, tick, entry before (R270). -/
structure Adc where
  insts : Cells (Option Inst) := []
  cur : Option Conv := none
  timers : Cells Nat := []
  skips : List Nat := []
  lastStep : Nat := 0
  holds : Cells (Option Nat) := []
  refB : Option Bool := none
  refWant : Option Bool := none
  refDue : List Nat := []
  calFrom : Nat := 0
  calDue : Bool := true
  collecting : Bool := false
  sumLo : Nat := 0
  sumHi : Nat := 0
  count : Nat := 0
  firstAt : Nat := 0
  calReady : Option (Nat × Nat) := none
  calEndAt : Nat := 0
  appliedAt : Option Nat := none
  failRun : Nat := 0
  calFault : Bool := false
  stepOld : List (Nat × Nat × Word) := []
  deriving DecidableEq, Repr

/-- The reference check (R280, R281): next due tick, run of mismatches, tick of the last check, judgment, whether a check is in progress, the
B_ON_A codes of the last 100 checks. -/
structure RefCheck where
  nextAt : Nat := 0
  run : Nat := 0
  lastAt : Option Nat := none
  failA : Bool := false
  failB : Bool := false
  unresolved : Bool := false
  open_ : Bool := false
  ons : List Nat := []
  deriving DecidableEq, Repr

/-- A window comparator (R291 to R297): element states, presented output (0 UNDECIDED, 1 BELOW, 2 INSIDE, 3 ABOVE), the
ticks its blanking interval begins and ends (and those of the interval before, for an edge withdrawn before it is
made), for a zero-cross window the crossing not yet taken with its tick and whether BELOW was read since, crossing count, the thresholds a cell has loaded
(channel windows), the tick of the last load of thresholds and those in effect before it (R294), the tick at which the window lost its
decision (R296), and the input in µV as the LO and the HI element last saw it. -/
structure Win where
  lo : Bool := false
  hi : Bool := false
  out : Nat := 0
  blankFrom : Nat := 0
  blankUntil : Nat := 0
  prevFrom : Nat := 0
  prevUntil : Nat := 0
  crossing : Bool := false
  crossAt : Nat := 0
  below : Bool := false
  cross : Nat := 0
  thrLo : Nat := 0
  thrHi : Nat := 0
  loadAt : Nat := 0
  oldLo : Nat := 0
  oldHi : Nat := 0
  undecAt : Nat := 0
  uv : Int × Int := (0, 0)
  deriving DecidableEq, Repr

/-! ### Channel cells and banks -/

/-- An output pin: its level from tick `at_`, the level before it, its last falling edge, and the edge before the last one (R182, R193, R202,
R226). -/
structure Gate where
  level : Bool := false
  was : Bool := false
  at_ : Nat := 0
  fell : Nat := 0
  prevAt : Nat := 0
  deriving DecidableEq, Repr

/-- A start command as the bank receives it (R32): slot, issuing region (4 = Mirror region), channel, profile, time cap
in ticks, start instant, and whether its event is corrected (R251). -/
structure StartCmd where
  slot : Nat
  region : Nat
  chan : Nat
  prof : Nat
  cap : Nat
  start : Nat
  corrected : Bool
  deriving DecidableEq, Repr

/-- The conditions latched for a shot: pressure and boost values and bins, closing delay and its source (R240 to R245,
SRC 0 OWN, 1 BORROWED, 2 NOMINAL), nominal closing delay, and the trim terms (R254). -/
structure Cond where
  pbin : Option Nat := none
  pval : Nat := 0
  bbin : Nat := 0
  bval : Nat := 0
  src : Nat := 2
  dly : Nat := 0
  tauWait : Int := 0
  tauModel : Int := 0
  bal : Int := 0
  deriving DecidableEq, Repr

/-- A shot that a cell runs: its start command, the latched profile words (R198) and model header words, gate edge and
time cap deadline, phase and its entry, WEAK_BOOST, whether regulation calls for on and since when it calls for off,
dither sign and next change, peak time in ECLK cycles, hold deadline of the correction (R254), trim applied, cause of
entry to END_PH, the drive record flags and delay of its admission, whether the gate edge is withheld (table *Combined cases*) and whether the
phase has already counted as forced (R201). -/
structure Shot where
  cmd : StartCmd
  words : List Word
  hdr : List Word
  modelErr : Bool
  gate : Nat
  capAt : Nat
  phase : Nat := 0
  phaseAt : Nat := 0
  weak : Bool := false
  on : Bool := true
  offAt : Nat := 0
  dithPos : Bool := true
  dithAt : Nat := 0
  peak : Option Nat := none
  hold : Option Nat := none
  tau : Int := 0
  cause : Nat := 0
  flags : Nat := 0
  delay : Nat := 0
  withheld : Bool := false
  forced : Bool := false
  cond : Cond := {}
  deriving DecidableEq, Repr

/-- A start that waits: its command, the tick it arrived, whether it stands at the re-boost step (else at the overlap
step), since when it stands at that step, its place in the order of arrival, the record flags gathered, and the pressure value of its start instant. -/
structure Waiting where
  cmd : StartCmd
  arrived : Nat
  reboost : Bool
  stepAt : Nat
  seq : Nat
  flags : Nat
  press : Option Nat
  deriving DecidableEq, Repr

/-- A channel cell: its shot and waiting start, DISABLED, first fault (R235), CFG_ERR, PVALID, LSG, the run of
out-of-window shots and its side (HIGH), MODEL_ERR, the tick since which the idle window reads ABOVE, and the last shot's
slot, region, profile, source and stamps of the sensing registers; IDLE_CODE and IDLE_T in force while a later header awaits its
admission (R243). -/
structure Cell where
  run : Option Shot := none
  wait : Option Waiting := none
  disabled : Bool := false
  fault : Nat := 0
  cfgErr : Bool := false
  pvalid : Nat := 0
  lsg : Gate := {}
  ptRun : Nat := 0
  ptHigh : Bool := false
  modelErr : Bool := false
  idleSince : Option Nat := none
  lastSlot : Nat := 0
  lastRegion : Nat := 0
  lastProf : Nat := 0
  idleHdr : Option (Nat × Nat) := none
  src : Nat := 0
  ooe : Bool := false
  closeAt : Option Nat := none
  peakAt : Option Nat := none
  deriving DecidableEq, Repr

/-- A closing window (R222 to R226): the shot, t_e, samples with their OVR flags, the tick up to which a high-side edge is its own entry's,
DISTURBED. -/
structure Kink where
  shot : Shot
  te : Nat
  codes : List Nat := []
  ovr : Bool := false
  quietTo : Nat := 0
  disturbed : Bool := false
  deriving DecidableEq, Repr

/-- What the Warden gathers of a bank for its overlap guard over the last plan period (R486), newest first: the tick the boost
period in progress began, boost periods (tick of the end, length, recovery), whether the newest still recovers, the last
start's arrival and channel, and the spacings of starts of different channels with the tick of the later one. -/
structure Overlap where
  boostFrom : Nat := 0
  boosts : List (Nat × Nat × Nat) := []
  recovering : Bool := false
  lastStart : Option (Nat × Nat) := none
  gaps : List (Nat × Nat) := []
  deriving DecidableEq, Repr

/-- A bank cell: high-side outputs, safe state, epoch, owner, channel in its boost period, next place in the order of
arrival, phase entries still to come (channel, phase, tick), open closing window and the windows complete but not yet judged, and the bank's fault detection (R437): the
tick since which the boost window reads BELOW, the run of supply conversions out of range, and for each channel
position whether its off interval has read INSIDE or BELOW and since when it reads ABOVE again; the overlap figures. -/
structure Bank where
  hsb : Gate := {}
  hss : Gate := {}
  safe : Bool := false
  epoch : Nat := 1
  mirror : Bool := false
  boost : Option Nat := none
  seq : Nat := 0
  entries : List (Nat × Nat × Nat) := []
  kink : Option Kink := none
  done : List Kink := []
  lowSince : Option Nat := none
  supRun : Nat := 0
  hsSeen : List Nat := []
  hsAbove : Cells (Option Nat) := []
  ov : Overlap := {}
  deriving DecidableEq, Repr

/-! ### Event schedulers -/

/-- A running event (R156): the fields recorded at its start; `endAngle` is END_ADV for a corrected event (R252), which
is `overdue` when its own update has passed it (R255). -/
structure Running where
  chan : Nat
  prof : Nat
  endEn : Bool
  sdom : Nat
  edom : Nat
  ende : Nat
  endAngle : Nat
  corrected : Bool
  cap : Nat
  start : Nat
  occ : Nat
  overdue : Bool := false
  deriving DecidableEq, Repr

/-- Slot states (table *Slot states*); a slot is OFF exactly when its active set has EN = 0. -/
inductive SlotSt where
  | off | wait | armed | frozen | defer
  deriving DecidableEq, Repr

/-- An event slot: words 0 to 6 of the active set (empty: all zero), OCC, TAKE, state, committed shadow set, running
event (R143, R151), and the corrected event whose end command is out and whose cell may still hold (R255). -/
structure Slot where
  set : List Word := []
  occ : Nat := 0
  take : Nat := 0
  st : SlotSt := .off
  shadow : Option (List Word) := none
  running : Option Running := none
  held : Option Running := none
  deriving DecidableEq, Repr

/-- A start that waits for a start unit: slot, original start instant, late reason, the set in force and the occurrence
concerned (R169). -/
structure Queued where
  slot : Nat
  start : Nat
  reason : Nat
  set : List Word
  occ : Nat
  deriving DecidableEq, Repr

/-- One scheduling unit: its slots, the ticks at which its occupied start units become free, the starts waiting for one,
the epoch it places in its commands, the registers of its block that count (EVS and region arbiter), its last heartbeat
(or the tick it began to serve) and the starts late with reason RESUME. -/
structure SUnit where
  slots : Cells Slot := []
  busy : List Nat := []
  queue : List Queued := []
  epoch : Nat := 1
  cnt : Cells Word := []
  beatAt : Nat := 0
  resumed : Nat := 0
  deriving DecidableEq, Repr

/-! ### Angle tracker -/

/-- Sync states (table *Sync state codes*). -/
inductive SyncSt where
  | quiet | tooth | rev | cycle | stall | reverse | lost
  deriving DecidableEq, Repr

/-- An accepted tooth in the mean window (R109): period, nominal span, history value read for it, accepted in CYCLE. -/
structure Tooth where
  p : Nat
  span : Nat
  old : Nat
  cyc : Bool
  deriving DecidableEq, Repr

/-- A tooth of the running cycle or revolution: history index, position, nominal cycle angle, true span, nominal span,
period, whether its period went to history. -/
structure CTooth where
  idx : Nat
  pos : Nat
  ang : Nat
  t : Nat
  span : Nat
  p : Nat
  valid : Bool
  deriving DecidableEq, Repr

/-- The trajectory of R119: nominal angle and timestamp of the last accepted tooth, span to the next one, INC. -/
structure Traj where
  ang : Nat
  ts : Nat
  span : Nat
  inc : Nat
  deriving DecidableEq, Repr

/-- A mechanical domain (R51 to R82, R103 to R140). Edges: count towards TOOTH, timestamps of the last edge past the
filter, of the last accepted edge, and of the last active edge of either direction; last period; position, revolution,
whether CYCLE was held before STALL. Gap search: candidates awaiting confirmation, candidates of an unidentified
confirmed gap with the teeth since. Cam: matches in a row and their revolution, contradictions in a row, entries seen,
whether no entry was missed since angle 0. Suspect edge with its period; pulses awaiting their direction and cam edges held behind them. Predictor:
the last u values (their number is the seed count), ramp, weight, prediction, trajectory. History, signature, the wheel
profile in use. Learning; the revolution and the cycle in progress; the cycle awaiting its contribution; prediction
errors; the accepted levels of the crank and cam inputs (R52, R56, R587); VR inputs (peak of the last excursion in mV, armed);
what Dusk keeps; the last cam edge; the trajectory before the one in force and the tick of the change. `lastFwd`, the direction
of the last edge, starts as forward (R58 names no direction for a first edge whose DIR changed: DESIGN CHOICE, log entry 68). -/
structure Mech where
  st : SyncSt := .quiet
  edges : Nat := 0
  fastTs : Option Nat := none
  lastEdge : Option Nat := none
  lastAny : Option Nat := none
  prev : Option Nat := none
  pos : Nat := 0
  revn : Nat := 0
  heldCycle : Bool := false
  prov : Bool := false
  dirKnown : Bool := false
  lastFwd : Bool := true
  tableErr : Nat := 0
  cand : List Nat := []
  unres : Option (List Nat × Nat) := none
  camRun : Nat := 0
  camRev : Nat := 0
  contra : Nat := 0
  camSeen : List Nat := []
  camMissing : Bool := false
  camFull : Bool := false
  suspect : Option (Nat × Nat) := none
  pulses : List Nat := []
  camHeld : List (Nat × Bool) := []
  us : List Nat := []
  ramp : Nat := 0
  weight : Nat := 0
  cycValid : Bool := false
  pred : Nat := 0
  traj : Option Traj := none
  agile : Option Bool := none
  window : List Tooth := []
  hist : Cells Nat := []
  sig : Cells Word := []
  prof : Cells Word := []
  afterStall : Bool := false
  learnWait : Bool := false
  learning : Bool := false
  remaining : Nat := 0
  rejected : Nat := 0
  aborted : Bool := false
  revTeeth : List CTooth := []
  revClean : Bool := false
  trevPrev : Option Nat := none
  cycTeeth : List CTooth := []
  cycClean : Bool := false
  cycDone : Option (List CTooth × Bool) := none
  cfgErr : Bool := false
  contribSet : Bool := false
  errMax : Nat := 0
  errSq : Nat := 0
  errN : Nat := 0
  errAt : Option Nat := none
  speed : Nat := 0
  crkLevel : Bool := false
  camLevel : Bool := false
  vpkCrank : Nat := 0
  vpkCam : Nat := 0
  armCrank : Bool := false
  armCam : Bool := false
  duskOn : Bool := false
  duskHeld : Bool := false
  duskCount : Int := 0
  duskDir : Bool := false
  duskOver : Bool := false
  camTs : Option Nat := none
  oldTraj : Option Traj := none
  swAt : Nat := 0
  deriving DecidableEq, Repr

/-- The newest MAINS frame D3 has taken (R530): ANGLE, SPEED, T_CAP, QUAL, STATE and the tick it was taken. -/
structure MainsIn where
  ang : Nat
  speed : Nat
  tcap : Nat
  qual : Nat
  state : Nat
  at_ : Nat
  deriving DecidableEq, Repr

/-- An electrical domain (R83 to R89): state held before the last STALL, last crossing that a period is counted from and last
crossing of all (AGE), period N, lock count, INC, REFINED, peak code since the last crossing and its stamp, recent samples of
VEL (hold tick and code, oldest first), and for D3 the MAINS frame in use. -/
structure Elec where
  st : SyncSt := .quiet
  held : SyncSt := .quiet
  zc : Option Nat := none
  zcAny : Option Nat := none
  period : Nat := 0
  lock : Nat := 0
  inc : Nat := 0
  refined : Bool := false
  peakRun : Nat := 0
  peakAt : Option Nat := none
  vel : List (Nat × Nat) := []
  mains : Option MainsIn := none
  deriving DecidableEq, Repr

/-- The synchronizing check (R90 to R93): armed until a tick, the phase predicted at the last evaluation, its tick. -/
structure SyncChk where
  armed : Bool := false
  until_ : Nat := 0
  prevPhic : Option Int := none
  evalAt : Option Nat := none
  deriving DecidableEq, Repr

/-! ### Reel engines -/

/-- An AWAIT in progress: its word, the ECLK edge that began its first cycle, and the levels it has read (R417). -/
structure Awaiting where
  word : Nat
  from_ : Nat
  sawLow : Bool
  sawHigh : Bool
  deriving DecidableEq, Repr

/-- The run state of an engine apart from a hold (REEL_e_STATUS.STATE). -/
inductive EState where
  | disabled | run | delay | stall
  deriving DecidableEq, Repr

/-- One Reel engine (R409): program counter, shift register and bit count, V, LIM, L, span counter, delay, pending
injection, OUT and IN queues (an IN entry with its end-of-burst mark), wrap pair, start edge and cycle number, counters. -/
structure Engine where
  st : EState := .disabled
  pc : Nat := 0
  sr : Word := 0
  sc : Nat := 0
  v : Word := 0
  lim : Nat := 0
  l : Nat := 0
  span : Nat := 0
  delay : Nat := 0
  inj : Option Nat := none
  outq : List Word := []
  inq : List (Word × Bool) := []
  actTop : Nat := 0
  actTarget : Nat := 0
  wrapPend : Bool := false
  startAt : Nat := 0
  cycle : Nat := 0
  await : Option Awaiting := none
  rxDrop : Nat := 0
  imemDisc : Nat := 0
  stalls : Nat := 0
  txDrop : Nat := 0
  lastRaise : Nat := 0
  inAt : Option Nat := none
  deriving DecidableEq, Repr

/-- An RP pin: the filtered input level with the one before it and the tick it changed (R412, R413), the level and
direction driven and the tick at which they appear. -/
structure RpPin where
  level : Bool := false
  prev : Bool := false
  changed : Nat := 0
  outLevel : Bool := false
  isOut : Bool := false
  outAt : Nat := 0
  deriving DecidableEq, Repr

/-- The Reel block: engines, the set flags, pins, the tick of the last occurrence of each event (R417), the hold (R430), the tick of its last
action and the place of that action in the order of R429 (0 a command, 1 + e a cycle of engine e, 17 a transfer). -/
structure Reel where
  engines : Cells Engine := []
  flags : List Nat := []
  pins : Cells RpPin := []
  events : Cells (Option Nat) := []
  held : Bool := true
  cycAt : Nat := 0
  cycRank : Nat := 0
  deriving DecidableEq, Repr

/-! ### Warden -/

/-- The reflection the spare keeps of one role (R448 to R450). The reflected items equal the unit's at every instant; what
lags is the checkpoint: published angles, sync states, the domains that have left CYCLE since other than by a stall. -/
structure Refl where
  covered : Bool := false
  angles : List (Option Nat) := []
  syncs : List SyncSt := []
  at_ : Option Nat := none
  left : List Nat := []
  deriving DecidableEq, Repr

/-- A takeover or a lend in progress (R453, R492): the role, the unit that had it, the fence tick, the step reached (0 not
begun, 1 begun, 2 powered, 3 verified, 4 loaded, 5 reconciled), whether it is a lend, whether the spare must be powered
first, the items of the role at the fence, the last checkpoint, the sync changes since the fence, the events reconciled. -/
structure Takeover where
  role : Nat
  unit : Nat
  at_ : Nat
  step : Nat
  lend : Bool
  warm : Bool
  slots : Cells Slot
  busy : List Nat
  ckpt : Refl
  changes : List (Nat × SyncSt × SyncSt) := []
  reconciled : Nat := 0
  deriving DecidableEq, Repr

/-- A unit under test: its test step, the tick the step began, the role it is tested for. -/
structure UTest where
  step : Nat
  at_ : Nat
  role : Option Nat
  deriving DecidableEq, Repr

/-- The Warden's running state: reflections by role, takeover, tests by unit, roles still to load for HOT, grid origin of
the checkpoints, scrub position and the tick the scrubber reads next. -/
structure Wdn where
  refl : Cells Refl := []
  takeover : Option Takeover := none
  tests : Cells (Option UTest) := []
  hotLoad : List Nat := []
  grid : Nat := 0
  scrub : Nat := 0
  scrubAt : Nat := 0
  deriving DecidableEq, Repr

/-! ### Ageing, margins, Round, firmware -/

/-- The sensors of one unit: the largest path delay of each reading of the last plan period with its tick, D_u in force, AGE_u,
temperature in 0.25 °C. -/
structure AgeUnit where
  reads : List (Nat × Nat) := []
  delay : Nat := 0
  age : Nat := 0
  temp : Int := 0
  tempAt : Option Nat := none
  deriving DecidableEq, Repr

/-- The margin plan's running state (R479 to R487): sensors by unit, TS_5, highest temperature and fault records since the
last history entry with the sequence of the next entry (R601), LEAN step, for each step the evaluations in a row that have met
GUARD + HYST, whether AUTO has selected BROAD, a slew in progress to a faster step, next evaluation, the items of the last
plan published, the evaluation count, and the widening of LO and HI of D0 and D1 in force since the last publication (R485). -/
structure Plan where
  units : Cells AgeUnit := []
  temp5 : Int := 0
  temp5At : Option Nat := none
  tmax : Option Int := none
  faults : Nat := 0
  hseq : Nat := 0
  lean : Nat := 0
  upRuns : List Nat := []
  autoBroad : Bool := false
  slew : Option Nat := none
  nextAt : Nat := 0
  last : List Word := []
  evals : Nat := 0
  widen : List (Nat × Nat) := []
  deriving DecidableEq, Repr

/-- The Round (R488 to R499): phase (0 IDLE, 1 PREPARE, 2 LENT, 3 SPARE_TEST), role, unit, tick the role's turn
began, tick the search for a quiet point began, whether the spare has loaded the role, waiting, abort wanted, tick of the
lend, next due tick (none before the first ARM), whether a Round that SAFE_HOLD holds back is due. -/
structure Round where
  phase : Nat := 0
  role : Nat := 0
  unit : Nat := 0
  turnAt : Nat := 0
  search : Option Nat := none
  loaded : Bool := false
  waiting : Bool := false
  aborting : Bool := false
  lendAt : Nat := 0
  nextDue : Option Nat := none
  due : Bool := false
  deriving DecidableEq, Repr

/-- Warden firmware (R500 to R503): the words of both slots (slot B from 131,072), what is being programmed, whether a
verification runs, and the slot a restart is trying, with the tick it began. -/
structure Fw where
  store : Cells Word := []
  prog : Option (Nat × List Word) := none
  verifying : Bool := false
  restart : Option Nat := none
  deriving DecidableEq, Repr

/-! ### Vangic Link -/

/-- A candidate for a role as the part has heard it: node, PRIO and the tick of its last ANNOUNCE (R522). -/
structure Cand where
  node : Nat
  prio : Nat
  at_ : Nat
  deriving DecidableEq, Repr

/-- One role of the link (R523 to R526): own status (0 candidate or none, 1 MASTER, 2 BACKUP), master and backup with whether each
is known, REJOINED, epoch and the highest one heard, the ticks of the last MASTER ANNOUNCE and of the last SYNC or MAINS of the epoch,
candidates heard, SSEQ of the own SYNC or MAINS frames, and whether STALE has counted since the epoch changed. -/
structure LRole where
  own : Nat := 0
  master : Nat := 0
  valid : Bool := false
  backup : Nat := 0
  bkValid : Bool := false
  rejoined : Bool := false
  epoch : Nat := 0
  highest : Nat := 0
  heardAt : Nat := 0
  frameAt : Nat := 0
  cands : List Cand := []
  sseq : Nat := 0
  staled : Bool := false
  deriving DecidableEq, Repr

/-- A port (R505, R511 to R517): state (0 DOWN, 1 UP, 2 SLEEPING) and the tick it became UP, wrap, miswire, neighbour, the last
16 measured round trips less the neighbour's turn (ns, newest first), the request in flight (its PDSEQ and t1), next PDSEQ, counters. -/
structure Port where
  st : Nat := 0
  upAt : Nat := 0
  wrapped : Bool := false
  miswire : Bool := false
  neighbour : Nat := 0
  trips : List Int := []
  req : Option (Nat × Nat) := none
  pdseq : Nat := 0
  crcErr : Nat := 0
  breaks : Nat := 0
  deriving DecidableEq, Repr

/-- The newest SNAP frame of a receive slot (R532). -/
structure SnapIn where
  ang : Nat
  speed : Nat
  tcap : Nat
  qual : Nat
  state : Nat
  dom : Nat
  l360 : Bool
  deriving DecidableEq, Repr

/-- The link: NONCE, DUP_ID, ports, LAST_S of each source with the tick of its last frame, both roles, own frame count, SUPERVISORY
frames waiting (header word 0, FSEQ, payload), receive slots, SSEQ of the streams, counters, offset of the last SYNC with its
tick, SYNCs in a row within 100 ns, the tick from which missing SYNCs count, RSEQ, and the last EPOCH_NOTICE to each source. -/
structure Vlk where
  nonce : Word := 0
  dup : Bool := false
  ports : Cells Port := []
  lastS : Cells (Option (Nat × Nat)) := []
  time : LRole := {}
  mains : LRole := {}
  fseq : Nat := 0
  waiting : List (Nat × Nat × List Word) := []
  rx : Cells (Option SnapIn) := []
  snapSeq : Cells Nat := []
  stale : Nat := 0
  orphan : Nat := 0
  offset : Int := 0
  syncAt : Option Nat := none
  good : Nat := 0
  syncFrom : Nat := 0
  rseq : Nat := 0
  notices : Cells (Option Nat) := []
  deriving DecidableEq, Repr

/-! ### Power, reset, journal -/

/-- The progress record (R566): WDN_ROLE, WDN_UNIT, HELD_ROLE, the Round state word, FSEQ, and PSEQ and BASE. -/
structure Progress where
  role : Word
  unit : Word
  held : Nat
  round : Word
  fseq : Nat
  pseq : Nat
  base : Nat
  deriving DecidableEq, Repr

/-- The journal (R560 to R567): slots A and B as bytes, the selected slot, the write in progress (its bytes), a further
write wanted (its REASON), the committed image (none: factory), both progress copies, and the image whose digest is being
computed. -/
structure Journal where
  slotA : List Byte := []
  slotB : List Byte := []
  sel : Option Bool := none
  writing : Option (List Byte) := none
  queued : Option Nat := none
  committed : Option (List Byte) := none
  copyA : Option Progress := none
  copyB : Option Progress := none
  deriving DecidableEq, Repr

/-- Power: an asked PLL switch (its tick and the ring of its command), PLL running, Dusk entry (0 none, 1 prepare, 2 commit)
with the ring of its command and the next voter, stable Dusk, reset in progress, latches set, DTIME at the commit, whether
AON runs and has run on its RC fallback, the bridge in force, its bound in µs and the tick of the wake, and where each
stopped scheduling unit stood, and the latch already set whose wake the stable Dusk replays (R548),
and the tick at which the Warden paused its own activities (R544). -/
structure Power where
  ask : Option (Nat × Option Nat) := none
  entry : Nat := 0
  ring : Option Nat := none
  voter : Nat := 0
  asleep : Bool := false
  inReset : Bool := false
  latches : List Nat := []
  sleptAt : Nat := 0
  rcNow : Bool := false
  rcDusk : Bool := false
  bridge : Bool := false
  bound : Nat := 0
  wokeAt : Nat := 0
  stops : Cells Refl := []
  replay : Option Nat := none
  pausedAt : Nat := 0
  deriving DecidableEq, Repr

/-! ### Sideband port and JTAG -/

/-- The sideband port: the bytes left of an open export stream with its SEQ and the tick of the last transaction, the import state
(0 CLOSED, 1 OPEN, 2 WRITING, 3 DONE, 4 FAILED) with its CODE and the bytes staged. -/
structure Side where
  stream : Option (List Byte) := none
  seq : Nat := 0
  lastAt : Nat := 0
  imp : Nat := 0
  code : Nat := 0
  staged : List Byte := []
  deriving DecidableEq, Repr

/-- The states of the IEEE 1149.1 TAP controller (R596). -/
inductive Tap where
  | reset | idle | selDr | capDr | shDr | ex1Dr | paDr | ex2Dr | upDr | selIr | capIr | shIr | ex1Ir | paIr | ex2Ir | upIr
  deriving DecidableEq, Repr

/-- The JTAG port (R596, R597): TAP state, instruction in force, instruction shift register, data shift register (bit 0 leaves
first), the updated boundary-scan cells, and TDO (none while it is high impedance). -/
structure Jtag where
  tap : Tap := .reset
  ir : Nat := 2
  irShift : Nat := 0
  dr : List Bool := []
  cells : List Bool := []
  tdo : Option Bool := none
  deriving DecidableEq, Repr

/-! ### Fabric -/

/-- The 128-bit fabric (R29, R30). Requesters 0 to 3 are of class 0 (event table access, hand-over, Mirror region reflection and
takeover traffic, ownership switch), 4 to 7 of class 1 (converter and kink results, Reel queues, completion producers, XFR data),
8 to 10 of class 2 (host-initiated reads, trace buffer writes, gap calibration data). It holds the arrival ticks of each
requester's pending requests, oldest first, the class 2 requesters whose oldest request is promoted, the requester last granted at each
rank (0 promoted, 1 to 3 class 0 to 2), the requester last granted, and the tick of the last promoted grant. -/
structure Fabric where
  reqs : Cells (List Nat) := []
  promoted : List Nat := []
  last : Cells Nat := []
  granted : Option Nat := none
  promAt : Option Nat := none
  deriving DecidableEq, Repr

/-- What a table or register held before the writes of the FCLK cycle that holds `tick` (R198, R243, R250, R259): memory, registers, and the
word addresses a BAR2 write of that cycle has set. -/
structure Past where
  tick : Nat
  mem : List Host.Cell
  regs : Cells Word
  sides : List Nat
  deriving DecidableEq, Repr

/-! ### The whole block -/

/-- The state of the block. `regs` holds every BAR0 word that differs from its value after reset (its configuration
fields and counters), `mem` every BAR2 byte that differs from what an unwritten byte reads as; the live machines stand
in their own fields. `angles` holds the published angles, `angLog` their latest changes (domain, tick, word before; R263),
`past` what the FCLK cycle found, `balance` the trims B_c (R257). `free` is the model's own: it counts the free values drawn (log entry 3). -/
structure State where
  clk : Clk := {}
  glb : Glb := {}
  regs : Cells Word := []
  mem : List Host.Cell := []
  out : Out := {}
  hif : Hif := {}
  que : Cells QCell := []
  xfr : Xfr := {}
  trace : Trace := {}
  irq : Irq := {}
  reel : Reel := {}
  cells : Cells Cell := []
  banks : Cells Bank := []
  units : Cells SUnit := []
  cycno : Cells Nat := []
  mech : Cells Mech := []
  elec : Cells Elec := []
  sync : SyncChk := {}
  adc : Cells Adc := []
  ref : RefCheck := {}
  wins : Cells Win := []
  hostPress : Cells (Option Nat) := []
  angles : Cells (Option Nat) := []
  angLog : List (Nat × Nat × Nat) := []
  balance : Cells Int := []
  wdn : Wdn := {}
  plan : Plan := {}
  round : Round := {}
  vlk : Vlk := {}
  fw : Fw := {}
  jrn : Journal := {}
  pwr : Power := {}
  side : Side := {}
  jtag : Jtag := {}
  fabric : Fabric := {}
  past : Option Past := none
  free : Nat := 0
  pending : List Instr := []
  deriving DecidableEq, Repr

/-- The block right after a power-on reset of a blank part is released (R558, R538). -/
def State.reset : State := {}

end Sys2Proof.Machine
end

