-- ==== Sys2Proof/Machine/TableMap.lean ====
section
/-!
DEFINITION. What an unwritten BAR2 byte reads as: the factory contents of the tables of a blank part.
-/
namespace Sys2Proof.Machine

/-- Factory words of an actuator model header (table *Model header*), words 0 to 9. -/
def modelFactory : Nat → Nat
  | 0 => 2 * 2 ^ 26 + 32 * 2 ^ 16 + 3 * 2 ^ 12 + 3 * 2 ^ 8
  | 1 => 1500 * 2 ^ 16 + 200
  | 2 => 1024 * 2 ^ 16 + 512
  | 3 => 2048 * 2 ^ 16 + 1536
  | 4 => 3072 * 2 ^ 16 + 2560
  | 5 => 100 * 2 ^ 16 + 3584
  | 6 => 2048 * 2 ^ 12 + 1024
  | 7 => 5 * 2 ^ 26 + 3072
  | 8 => 10 * 2 ^ 8
  | 9 => 1023
  | _ => 0

/-- Factory words 0 and 1 of the balance table (table *Balance table*). -/
def balanceFactory : Nat → Nat
  | 0 => 64 * 2 ^ 16 + 200
  | 1 => 200
  | _ => 0

/-- The byte an unlisted BAR2 address reads as. -/
def memDefault (a : Nat) : Byte :=
  if 0x60000 ≤ a ∧ a < 0x80000 then
    let o := (a - 0x60000) % 0x800
    BitVec.ofNat 8 (modelFactory (o / 4) / 2 ^ (8 * (o % 4)))
  else if 0x81000 ≤ a ∧ a < 0x81008 then
    BitVec.ofNat 8 (balanceFactory ((a - 0x81000) / 4) / 2 ^ (8 * (a % 4)))
  else if 0x400000 ≤ a ∧ a < 0x500000 then 0xFF
  else 0

end Sys2Proof.Machine
end

