-- ==== Sys2Proof/Machine/Ops.lean ====
section
/-!
DEFINITION. Named operations on the state shared by every command: sparse tables, bit fields, registers, counters,
BAR2 bytes, time and device time, and what is sent to the host.
-/
namespace Sys2Proof.Machine

/-! ### Sparse tables -/

/-- The value at key `k`, the default `d k` when it is not listed. -/
def cget {α : Type} (d : Nat → α) : Cells α → Nat → α
  | [], k => d k
  | (a, v) :: t, k => if a = k then v else cget d t k

/-- List `v` at key `k`, keeping the keys rising. -/
def cput {α : Type} : Cells α → Nat → α → Cells α
  | [], k, v => [(k, v)]
  | (a, w) :: t, k, v =>
    if a = k then (k, v) :: t else if k < a then (k, v) :: (a, w) :: t else (a, w) :: cput t k v

/-- Remove key `k`. -/
def cdel {α : Type} : Cells α → Nat → Cells α
  | [], _ => []
  | (a, w) :: t, k => if a = k then cdel t k else (a, w) :: cdel t k

/-- Set key `k` to `v`; the default value is not listed. -/
def cset {α : Type} [DecidableEq α] (d : Nat → α) (l : Cells α) (k : Nat) (v : α) : Cells α :=
  if v = d k then cdel l k else cput l k v

/-- Canonical form: keys strictly rising and no entry equal to the default. -/
def cwf {α : Type} [DecidableEq α] (d : Nat → α) : Cells α → Bool
  | [] => true
  | (a, v) :: t => decide (v ≠ d a) && t.all (fun p => decide (a < p.1)) && cwf d t

/-- Insert a number into a rising list without repeats. -/
def insertNat (k : Nat) : List Nat → List Nat
  | [] => [k]
  | a :: t => if a = k then a :: t else if k < a then k :: a :: t else a :: insertNat k t

/-! ### Bit fields and fixed widths -/

/-- Bits hi..lo of a word as a number. -/
def fld (w : Word) (hi lo : Nat) : Nat := (w.toNat / 2 ^ lo) % 2 ^ (hi + 1 - lo)

/-- Bit i of a word. -/
def wbit (w : Word) (i : Nat) : Bool := w.getLsbD i

/-- The word with bits hi..lo replaced by the low bits of `v`. -/
def setFld (w : Word) (hi lo v : Nat) : Word :=
  let m := 2 ^ (hi + 1 - lo)
  BitVec.ofNat 32 (w.toNat - (w.toNat / 2 ^ lo) % m * 2 ^ lo + v % m * 2 ^ lo)

def b2n (b : Bool) : Nat := if b then 1 else 0

def ofNat32 (n : Nat) : Word := BitVec.ofNat 32 n

def ofInt32 (i : Int) : Word := BitVec.ofInt 32 i

/-- A two's-complement number of `n` bits (R3). -/
def sext (n v : Nat) : Int := if 2 ^ (n - 1) ≤ v % 2 ^ n then (v % 2 ^ n : Nat) - (2 ^ n : Nat) else (v % 2 ^ n : Nat)

/-- Saturating count. -/
def satAdd (mx a b : Nat) : Nat := min mx (a + b)

/-- Clamp to a range. -/
def clampI (lo hi x : Int) : Int := max lo (min hi x)

/-- Forward distance from a to b in a domain of wrap length L (R7). -/
def fdist (L a b : Nat) : Nat := ((b : Int) - (a : Int)).emod (L : Int) |>.toNat

/-- A word assembled from (value, lowest bit) pairs. -/
def packWord (l : List (Nat × Nat)) : Word := BitVec.ofNat 32 (l.foldl (fun acc p => acc + p.1 * 2 ^ p.2) 0)

/-- Word i of a list of words, 0 beyond its end. -/
def wordAt (l : List Word) (i : Nat) : Word := l.getD i 0

/-- The low and high words of a 64-bit number. -/
def lo32 (n : Nat) : Word := BitVec.ofNat 32 n
def hi32 (n : Nat) : Word := BitVec.ofNat 32 (n / 2 ^ 32)

/-- The four bytes of a word, lowest first (R2). -/
def wordBytes (w : Word) : List Byte :=
  [BitVec.ofNat 8 w.toNat, BitVec.ofNat 8 (w.toNat / 2 ^ 8), BitVec.ofNat 8 (w.toNat / 2 ^ 16), BitVec.ofNat 8 (w.toNat / 2 ^ 24)]

def wordsBytes (l : List Word) : List Byte := l.flatMap wordBytes

/-- The little-endian number of a byte list (R2). -/
def bytesNat : List Byte → Nat
  | [] => 0
  | b :: t => b.toNat + 256 * bytesNat t

/-- The words of a byte list, the last one filled with zero bytes. -/
def bytesWords (l : List Byte) : List Word :=
  (List.range ((l.length + 3) / 4)).map (fun i => BitVec.ofNat 32 (bytesNat ((l.drop (4 * i)).take 4)))

/-! ### Registers -/

/-- The stored word of the BAR0 register at `a`. -/
def State.reg (s : State) (a : Nat) : Word := cget regDefault s.regs a

/-- Bits hi..lo of the register at `a`. -/
def State.rf (s : State) (a hi lo : Nat) : Nat := fld (s.reg a) hi lo

/-- Bit i of the register at `a`. -/
def State.rb (s : State) (a i : Nat) : Bool := wbit (s.reg a) i

def rset (regs : Cells Word) (a : Nat) (w : Word) : Cells Word := cset regDefault regs a w

/-- Set the stored word of a register. -/
def State.setReg (s : State) (a : Nat) (w : Word) : State := { s with regs := rset s.regs a w }

/-- Set bits hi..lo of a register. -/
def State.setRf (s : State) (a hi lo v : Nat) : State := s.setReg a (setFld (s.reg a) hi lo v)

/-- Count in a field, saturating at its largest value. -/
def State.cntSat (s : State) (a hi lo : Nat) (n : Nat := 1) : State :=
  s.setRf a hi lo (satAdd (2 ^ (hi + 1 - lo) - 1) (s.rf a hi lo) n)

/-- Count in a field, wrapping. -/
def State.cntWrap (s : State) (a hi lo : Nat) (n : Nat := 1) : State := s.setRf a hi lo (s.rf a hi lo + n)

/-- What a field holds after a write of `v` to its register (R12, R47, R102, R221, R299, R429). -/
def fieldWrite (old : Word) (v : Word) (f : Fld) : Word :=
  match f.acc with
  | .seal =>
    let x := fld v f.hi f.lo
    if f.mn ≤ x ∧ x ≤ f.mx then setFld old f.hi f.lo x else old
  | .w1c => setFld old f.hi f.lo (fld (old &&& ~~~ v) f.hi f.lo)
  | .ro | .w1s | .wo => old

/-- The stored word after a plain write: each field by its own access and range. -/
def plainWrite (a : Nat) (old v : Word) : Word := (regFields a).foldl (fun w f => fieldWrite w v f) old

/-! ### BAR2 bytes -/

def State.byte (s : State) (a : Nat) : Byte := cget memDefault s.mem a

/-- The byte at `a` set to `v`; the memory keeps its canonical form. -/
def memSet (m : List Host.Cell) (a : Nat) (v : Byte) : List Host.Cell := cset memDefault m a v

/-- Bytes stored upward from `a`. -/
def memPut (m : List Host.Cell) (a : Nat) : List Byte → List Host.Cell
  | [] => m
  | b :: t => memPut (memSet m a b) (a + 1) t

def State.putBytes (s : State) (a : Nat) (l : List Byte) : State := { s with mem := memPut s.mem a l }

/-- The little-endian word at `a` (R2). -/
def State.word (s : State) (a : Nat) : Word :=
  BitVec.ofNat 32 ((s.byte a).toNat + 2 ^ 8 * (s.byte (a + 1)).toNat + 2 ^ 16 * (s.byte (a + 2)).toNat + 2 ^ 24 * (s.byte (a + 3)).toNat)

def State.words (s : State) (a n : Nat) : List Word := (List.range n).map (fun i => s.word (a + 4 * i))

def State.putWords (s : State) (a : Nat) (l : List Word) : State := s.putBytes a (wordsBytes l)

/-! ### Time -/

/-- ECLK ticks of a number of µs and ms (400 ticks each µs). -/
def usTicks (n : Nat) : Nat := 400 * n
def msTicks (n : Nat) : Nat := 400000 * n

/-- Frequency of FCLK in MHz at the clock in use (tables *Clock tree* and *FCLK steps*; 100 MHz on FIO). -/
def Clk.fclkMHz (c : Clk) : Nat :=
  if c.pll then (match c.step with | 0 => 400 | 1 => 380 | 2 => 360 | _ => 340) else 100

/-- ECLK ticks covered by n FCLK cycles, rounded up. -/
def State.fclk (s : State) (n : Nat) : Nat := (n * 400 + s.clk.fclkMHz - 1) / s.clk.fclkMHz

/-- Elapsed ns since the base instant: 2.5 ns ticks, or 10 ns steps on FIO (R40). -/
def Clk.elapsed (c : Clk) : Nat := if c.pll then (c.now - c.since) * 5 / 2 else (c.now - c.since) / 4 * 10

/-- The correction made so far (R519). -/
def Clk.slewed (c : Clk) : Int := (c.slewNum * (c.elapsed : Int)).tdiv (c.slewDen : Int)

/-- DTIME in ns (R9). -/
def State.dtime (s : State) : Nat :=
  (((s.clk.base + s.clk.elapsed : Nat) : Int) + s.clk.slewed).emod (2 ^ 64) |>.toNat

/-- DTIME of another tick of the same time base, earlier or ahead; before the base, ticks of 2.5 ns. -/
def State.dtimeOf (s : State) (tick : Nat) : Nat :=
  if s.clk.since ≤ tick then ({ s with clk := { s.clk with now := tick } } : State).dtime
  else ((s.clk.base : Int) - ((s.clk.since - tick) * 5 / 2 : Nat)).emod (2 ^ 64) |>.toNat

/-- DTIME of an earlier tick. -/
def State.dtimeAt (s : State) (tick : Nat) : Nat := s.dtimeOf tick

/-- Model time reaches tick t: every command first does this. -/
def State.tick (s : State) (t : Nat) : State := { s with clk := { s.clk with now := max s.clk.now t } }

/-- A new DTIME base at the present tick. -/
def Clk.rebase (c : Clk) (dtime : Nat) : Clk := { c with base := dtime, since := c.now, slewNum := 0, slewDen := 1 }

/-- An AGE field (R343): whole units since `stamp`, saturating; its maximum before the first capture. -/
def ageOf (now : Nat) (stamp : Option Nat) (unit mx : Nat) : Nat :=
  match stamp with
  | none => mx
  | some k => min mx ((now - k) / unit)

/-- The published angle word of a domain: all ones where none is published. -/
def State.angleWord (s : State) (d : Nat) : Nat := (cget (fun _ => none) s.angles d).getD 0xFFFFFFFF

/-- The published angle at a tick of the last 16 ADC clocks (R263). -/
def State.angleAt (s : State) (d tick : Nat) : Nat :=
  ((s.angLog.filter (fun x => x.1 == d && decide (tick < x.2.1))).getLast?.map (·.2.2)).getD (s.angleWord d)

/-! ### Angle domains -/

def noMech : Nat → Mech := fun _ => {}
def State.dom (s : State) (d : Nat) : Mech := cget noMech s.mech d
def State.setDom (s : State) (d : Nat) (x : Mech) : State := { s with mech := cset noMech s.mech d x }
def noElec : Nat → Elec := fun _ => {}
def State.el (s : State) (d : Nat) : Elec := cget noElec s.elec d
def State.setEl (s : State) (d : Nat) (x : Elec) : State := { s with elec := cset noElec s.elec d x }

/-! ### The seal -/

/-- Any write but the second key word clears FIRST (R48). -/
def State.unFirst (s : State) : State := { s with glb := { s.glb with first := false } }

/-- A write refused after the seal is counted with its BAR (R17, R45, GLB_SEAL_REFUSED). -/
def State.refuseWrite (s : State) (bar2 : Bool) : State :=
  { s with glb := { s.glb with first := false, refused := satAdd 65535 s.glb.refused 1, refusedBar2 := bar2 } }

/-! ### To the host -/

/-- The device issues no request to host memory (R306). -/
def State.suspended (s : State) : Bool := !s.hif.bme || s.hif.dstate != 0 || decide (1 < s.hif.lstate)

/-- The ranks of the device's own traffic in one FCLK cycle (R31): polls and command fetches, completions and echo words, telemetry
and captures, transfers; messages stand after them (R318). -/
inductive Traffic where
  | fetch | completion | telemetry | transfer | message
  deriving DecidableEq, Repr

def Traffic.rank : Traffic → Nat
  | .fetch => 0 | .completion => 1 | .telemetry => 2 | .transfer => 3 | .message => 4

/-- Ticks a and b lie in one FCLK cycle: one ECLK edge each on the PLL, four on FIO. -/
def Clk.sameCycle (c : Clk) (a b : Nat) : Bool := if c.pll then a == b else (a - c.since) / 4 == (b - c.since) / 4

/-- The tick at which the FCLK cycle after the one that runs begins. -/
def Clk.nextCycle (c : Clk) : Nat := if c.pll then c.now + 1 else c.since + ((c.now - c.since) / 4 + 1) * 4

/-- What the FCLK cycle that runs has kept. -/
def State.pastNow (s : State) : Option Past := s.past.filter (fun p => s.clk.sameCycle p.tick s.clk.now)

/-- A write that an admission of the same FCLK cycle does not see keeps what stood before the cycle's first one (R198, R243, R250, R259). -/
def State.keepPast (s : State) : State :=
  match s.pastNow with
  | some _ => s
  | none => { s with past := some { tick := s.clk.now, mem := s.mem, regs := s.regs, sides := [] } }

/-- Memory and registers as an admission of this FCLK cycle sees them. -/
def State.before (s : State) : State :=
  match s.pastNow with
  | some p => { s with mem := p.mem, regs := p.regs }
  | none => s

/-- Word `a` has been written through BAR2 in this FCLK cycle (R243). -/
def State.sideWritten (s : State) (a : Nat) : Bool := (s.pastNow.map (fun p => p.sides.contains a)).getD false

/-- The ranks of what has been issued in the FCLK cycle that runs, in rising order. -/
def State.issued (s : State) : List Nat := if s.clk.sameCycle s.out.issuedAt s.clk.now then s.out.ranks else []

/-- Requests of one rank are issued after those of the same FCLK cycle whose rank does not exceed theirs, and ahead of the rest
(R31). -/
def State.emit (s : State) (k : Traffic) (l : List Sent) : State :=
  let r := s.issued
  let j := (r.filter (· ≤ k.rank)).length
  let n := s.out.sent.length - r.length + j
  { s with out := { s.out with sent := s.out.sent.take n ++ l ++ s.out.sent.drop n, issuedAt := s.clk.now,
                               ranks := r.take j ++ List.replicate l.length k.rank ++ r.drop j } }

/-- Data returned by a BAR read. -/
def State.answer (s : State) (l : List Word) : State := { s with out := { s.out with rdata := l } }

end Sys2Proof.Machine
end

