-- ==== Sys2Proof/Machine/AdcTrig.lean ====
section
/-!
DEFINITION. Converters: step triggers and the values other blocks read from them (Converters and Window Comparators,
R262 to R271).
-/
namespace Sys2Proof.Machine

def noAdc : Nat → Adc := fun _ => {}
def State.conv (s : State) (k : Nat) : Adc := cget noAdc s.adc k
def State.setConv (s : State) (k : Nat) (x : Adc) : State := { s with adc := cset noAdc s.adc k x }

/-- ADC clock period in ticks (16 MHz; a quarter of it on FIO, R40, R262). -/
def State.adcPeriod (s : State) : Nat := if s.clk.pll then 25 else 100

/-- The first ADC clock edge at or after a tick. -/
def State.adcEdge (s : State) (tick : Nat) : Nat := (tick + s.adcPeriod - 1) / s.adcPeriod * s.adcPeriod

def stTrig (e : Word) : Nat := fld e 31 29
def stSrc (e : Word) : Nat := fld e 28 24
def stDelay (e : Word) : Nat := 100 * fld e 23 16
def stTag (e : Word) : Nat := fld e 15 14
def stChain (e : Word) : Bool := wbit e 13
def stQueue (e : Word) : Bool := wbit e 12
def stInput (e : Word) : Nat := fld e 9 5

/-- A step entry passes R269 on converter k. -/
def stepGood (k : Nat) (e : Word) : Bool :=
  fld e 11 10 == 0 && fld e 4 0 == 0 && decide (stTrig e ≤ 4) &&
  decide (stInput e ≤ if k < 16 then 11 else 18) &&
  (match stTrig e with
   | 1 => decide (k < 16)
   | 2 => decide (stSrc e < 16)
   | 3 => decide (stSrc e < 4)
   | 4 => decide (stSrc e < 18)
   | _ => true)

def Adc.heldInst (a : Adc) (st : Nat) : Option Inst := cget (fun _ => none) a.insts st
def Adc.setInst (a : Adc) (st : Nat) (i : Option Inst) : Adc := { a with insts := cset (fun _ => none) a.insts st i }

/-- The edge at which the ADC clock cycle that holds a tick begins. -/
def State.adcCycle (s : State) (tick : Nat) : Nat := tick / s.adcPeriod

/-- The entry of step st as a trigger at tick `at_` latches it: a write of the same ADC clock cycle comes after the latch (R270). -/
def stepEntry (s : State) (k st at_ : Nat) : Word :=
  match (s.conv k).stepOld.find? (fun p => p.1 == st && s.adcCycle p.2.1 == s.adcCycle at_) with
  | some p => p.2.2
  | none => s.reg (A.step k st)

/-- MAXWAIT of converter k in ticks; 0 = none. -/
def adcMaxWait (s : State) (k : Nat) : Nat := usTicks (s.rf (A.conv k) 15 8)

/-- An instance has waited MAXWAIT by tick `at_` (R275). -/
def waitedOut (s : State) (k at_ : Nat) (i : Inst) : Bool := adcMaxWait s k != 0 && decide (i.ready + adcMaxWait s k ≤ at_)

/-- The instance of step st is dropped and counted (R275). -/
def dropInst (s : State) (k st : Nat) : State := (s.setConv k ((s.conv k).setInst st none)).cntSat (A.conv k + 0xC) 31 16

/-- Step st of converter k is triggered at tick `at_` (R270, R271); an instance whose wait ends in the same ADC clock cycle or has ended
is dropped first (R275). -/
def stepTrigger (s : State) (k st at_ : Nat) : State :=
  let e := stepEntry s k st at_
  let s := match (s.conv k).heldInst st with | some i => if waitedOut s k at_ i then dropInst s k st else s | none => s
  match (s.conv k).heldInst st with
  | some _ => s.cntSat (A.conv k + 8) 31 16
  | none => s.setConv k ((s.conv k).setInst st (some { entry := e, ready := s.adcEdge (at_ + stDelay e), isPending := false }))

/-- Every step of converter k with this trigger and source. -/
def convTrigger (s : State) (k trig src at_ : Nat) : State :=
  if s.rb (A.conv k) 0 then
    (List.range 32).foldl (fun s st =>
      let e := stepEntry s k st at_
      if stTrig e = trig ∧ stSrc e = src then stepTrigger s k st at_ else s) s
  else s

/-- A channel at bank position enters a phase (trigger PHASE). -/
def phaseTrigger (s : State) (c phase at_ : Nat) : State := convTrigger s (c / 4) 1 (8 * (c % 4) + phase) at_

/-- An angle mark fires (trigger ANGLE). -/
def markTrigger (s : State) (m : Nat) : State := (List.range 18).foldl (fun s k => convTrigger s k 2 m s.clk.now) s

/-- A chain event of converter k (trigger CHAIN). -/
def chainTrigger (s : State) (k : Nat) : State := (List.range 18).foldl (fun s j => convTrigger s j 4 k s.clk.now) s

def lastAddr (k i : Nat) : Nat := A.conv k + 0x40 + 4 * i
/-- CODE of LAST_i of converter k. -/
def lastCode (s : State) (k i : Nat) : Nat := s.rf (lastAddr k i) 11 0
/-- The hold instant of LAST_i. -/
def lastHold (s : State) (k i : Nat) : Option Nat := cget (fun _ => none) (s.conv k).holds i

/-- The pressure value of a source at this instant, none when it is older than `age` ms or absent (R241, R242). -/
def pressureNow (s : State) (psrc age : Nat) : Option Nat :=
  let stamp := if psrc < 32 then lastHold s (16 + psrc / 16) (psrc % 16) else cget (fun _ => none) s.hostPress (psrc - 32)
  let v := if psrc < 32 then lastCode s (16 + psrc / 16) (psrc % 16) else s.rf (A.adc + 0x20 + 4 * (psrc - 32)) 15 0
  match stamp with
  | some k => if s.clk.now - k ≤ msTicks age then some v else none
  | none => none

end Sys2Proof.Machine
end

