-- ==== Sys2Proof/Machine/Irq.lean ====
section
/-!
DEFINITION. The interrupt controller: arrivals, presentation, delivery, claim, completion, moderation, MSI-X messages
(Interrupt Controller, R381 to R403).
-/
namespace Sys2Proof.Machine

def noTarget : Nat → IrqTarget := fun _ => {}

def Irq.target (q : Irq) (t : Nat) : IrqTarget := cget noTarget q.targets t

def Irq.setTarget (q : Irq) (t : Nat) (g : IrqTarget) : Irq := { q with targets := cset noTarget q.targets t g }

def zeroNat : Nat → Nat := fun _ => 0

/-- REPEAT_s. -/
def Irq.repeatOf (q : Irq) (src : Nat) : Nat := cget zeroNat q.rep src

/-- The target holding a source in service. -/
def Irq.holder (q : Irq) (src : Nat) : Option Nat := (q.inService.find? (fun p => p.1 == src)).map (·.2)

/-- PRIO_s (IRQ_PRIO_k). -/
def irqPrio (regs : Cells Word) (src : Nat) : Nat :=
  fld (cget regDefault regs (0x4800 + 4 * (src / 8))) (4 * (src % 8) + 3) (4 * (src % 8))

/-- Bit s of IRQ_EN_t. -/
def irqEnabled (regs : Cells Word) (t src : Nat) : Bool :=
  wbit (cget regDefault regs (0x5800 + t * 0x40 + 4 * (src / 32))) (src % 32)

def irqThresh (regs : Cells Word) (t : Nat) : Nat := fld (cget regDefault regs (A.tgt t)) 3 0

def irqHoldoff (regs : Cells Word) (t : Nat) : Nat := fld (cget regDefault regs (A.tgt t)) 25 16

/-- Source s is presentable to target t (R384). -/
def irqPresentable (regs : Cells Word) (q : Irq) (t src : Nat) : Bool :=
  q.pending.contains src && (q.holder src).isNone && irqEnabled regs t src && decide (0 < irqPrio regs src) &&
  decide (irqThresh regs t < irqPrio regs src) && decide ((q.target t).runpri < irqPrio regs src) && !q.asleep.contains t

/-- The better of a chosen source and the next one: the higher priority, the lower number at equal priority (R385). -/
def irqBetter (regs : Cells Word) (best : Option Nat) (src : Nat) : Option Nat :=
  match best with
  | none => some src
  | some b => if irqPrio regs b < irqPrio regs src then some src else some b

/-- The source chosen for target t (R385); the pending list rises, so ties keep the lowest number. -/
def irqChoose (regs : Cells Word) (q : Irq) (t : Nat) : Option Nat :=
  (q.pending.filter (irqPresentable regs q t)).foldl (irqBetter regs) none

/-- Whether MSI-X vector v is masked: MSI-X disabled, the function masked, or its own mask bit set (R388). -/
def msixMasked (regs : Cells Word) (q : Irq) (v : Nat) : Bool :=
  !q.msixEn || q.msixMask || wbit (cget regDefault regs (0x1A0C + 16 * v)) 0

/-- One delivery to target t (R386, R388, R402, R403). -/
def irqDeliver (regs : Cells Word) (now : Nat) (q : Irq) (t : Nat) : Irq :=
  let g := q.target t
  let g' := { g with req := true, holdoffUntil := if g.runpri = 0 then now + usTicks (irqHoldoff regs t) else g.holdoffUntil }
  let q := { q.setTarget t g' with idle := q.idle.erase t }
  if t < 14 then
    (if msixMasked regs q t then { q with pba := insertNat t q.pba } else { q with due := q.due ++ [t] })
  else q

/-- The evaluation of one target (R386): a delivery when REQ is 0 and a source is presentable, held back while the
holdoff timer runs with RUNPRI 0 and IDLE 0 (R402, R403). -/
def irqEvalOne (regs : Cells Word) (now : Nat) (q : Irq) (t : Nat) : Irq :=
  if (q.target t).req then q else
  match irqChoose regs q t with
  | none => q
  | some _ =>
    if (q.target t).runpri = 0 ∧ ¬ q.idle.contains t ∧ now < (q.target t).holdoffUntil then q
    else irqDeliver regs now q t

/-- The evaluation of every target, in ascending number (R393). -/
def irqEval (regs : Cells Word) (now : Nat) (q : Irq) : Irq := (List.range 16).foldl (irqEvalOne regs now) q

/-- The pending and repeat effect of one arrival (R382, R397). -/
def irqMark (q : Irq) (src : Nat) : Irq :=
  if q.pending.contains src then { q with rep := cset zeroNat q.rep src (min 15 (q.repeatOf src + 1)) }
  else { q with pending := insertNat src q.pending }

/-- The controller has acted at tick `now`, at a place in the order of R393: 1 completions, 16 + t a claim of target t, 64 the rest. -/
def Irq.acted (q : Irq) (now rank : Nat) : Irq := { q with cycAt := now, cycRank := rank }

/-- One arrival of a source and the evaluation that follows it (R382, R393). -/
def Irq.arrive (regs : Cells Word) (now : Nat) (q : Irq) (src : Nat) : Irq := (irqEval regs now (irqMark q src)).acted now 64

/-- A claim or completion is taken in its place of an FCLK cycle: in the one after, when the controller has acted at that place or a later
one of this cycle, so that what arrived first has had its evaluation (R393 to R395; DESIGN CHOICE: log entry 74). -/
def State.irqTurn (s : State) (rank : Nat) : State :=
  let s := if s.clk.sameCycle s.irq.cycAt s.clk.now ∧ rank ≤ s.irq.cycRank then s.tick s.clk.nextCycle else s
  { s with irq := s.irq.acted s.clk.now rank }

/-- Source s is enabled for some host target. -/
def irqHostEnabled (regs : Cells Word) (src : Nat) : Bool := (List.range 14).any (fun t => irqEnabled regs t src)

/-- In L2 a source that becomes pending and is enabled for a host target asserts WAKE_N (R308). -/
def wakesHost (s : State) (src : Nat) : Bool :=
  s.hif.lstate == 2 && !s.irq.pending.contains src && irqHostEnabled s.regs src

/-- A block asserts source `src` (R381). -/
def State.arrive (s : State) (src : Nat) : State :=
  { s with irq := s.irq.arrive s.regs s.clk.now src, hif := { s.hif with wakeN := s.hif.wakeN || wakesHost s src } }

/-- Re-evaluation after a change of enables, priorities, thresholds or target flags (R400). -/
def State.irqReview (s : State) : State := { s with irq := (irqEval s.regs s.clk.now s.irq).acted s.clk.now 64 }

/-- The claim word of source s (table *Claim word*). -/
def claimWord (regs : Cells Word) (q : Irq) (src : Nat) : Word :=
  packWord [(q.repeatOf src, 16), (irqPrio regs src, 12), (src, 0)]

/-- The entry of a claim on target t that takes source s (R389). -/
def irqTake (regs : Cells Word) (q : Irq) (t src : Nat) : Irq :=
  let g := q.target t
  { q with pending := q.pending.erase src, inService := cput q.inService src t, rep := cdel q.rep src,
           targets := cset noTarget q.targets t { g with stack := (g.runpri, src) :: g.stack, runpri := irqPrio regs src, req := false },
           pba := q.pba.erase t }

/-- A claim that finds nothing presentable clears REQ (R390) and the held message bit (R388). -/
def irqSpurious (q : Irq) (t : Nat) : Irq :=
  { q with targets := cset noTarget q.targets t { q.target t with req := false }, pba := q.pba.erase t }

/-- The claim of target t: the word it returns and the controller after it (R389, R390); at behaviour level 1 a claim
that finds nothing returns 0 (R604). -/
def irqClaim (regs : Cells Word) (now : Nat) (q : Irq) (t : Nat) : Word × Irq :=
  match irqChoose regs q t with
  | some src => (claimWord regs q src, irqEval regs now (irqTake regs q t src))
  | none => (if (q.target t).req ∧ fld (cget regDefault regs 4) 1 0 ≠ 1 then 511 else 0, irqEval regs now (irqSpurious q t))

/-- Source s is the latest claim of target t not yet completed (R391). -/
def irqAccepts (q : Irq) (t src : Nat) : Bool :=
  q.holder src == some t && (match (q.target t).stack with | (_, c) :: _ => c == src | [] => false)

/-- The exit of a completion (R391). -/
def irqExit (q : Irq) (t src : Nat) : Irq :=
  let g := q.target t
  match g.stack with
  | (p, _) :: rest => { q with inService := cdel q.inService src, targets := cset noTarget q.targets t { g with runpri := p, stack := rest } }
  | [] => q

/-- A completion write of source s on target t (R391, R392). -/
def irqComplete (regs : Cells Word) (now : Nat) (q : Irq) (t src : Nat) : Irq :=
  if src = 0 ∨ src = 511 then q
  else if irqAccepts q t src then irqEval regs now (irqExit q t src)
  else q.setTarget t { q.target t with badcomp := satAdd 255 (q.target t).badcomp 1 }

/-- The sources of the set bits of bitmap word w, ascending; 0 and 511 never (R398). -/
def bitmapSources (w : Nat) (v : Word) : List Nat :=
  ((List.range 32).filter (fun i => wbit v i)).map (fun i => 32 * w + i) |>.filter (fun n => n ≠ 0 ∧ n ≠ 511)

/-- A write to IRQ_PEND_SET_w: each 1 is an arrival (R399). -/
def irqPendSet (regs : Cells Word) (now : Nat) (q : Irq) (w : Nat) (v : Word) : Irq :=
  (irqEval regs now ((bitmapSources w v).foldl irqMark q)).acted now 64

/-- A write to IRQ_PEND_SET_w with what it does to WAKE_N (R308, R399). -/
def pendSet (s : State) (w : Nat) (v : Word) : State :=
  { s with irq := irqPendSet s.regs s.clk.now s.irq w v,
           hif := { s.hif with wakeN := s.hif.wakeN || (bitmapSources w v).any (wakesHost s) } }

/-- A write to IRQ_PEND_CLR_w withdraws pending states only (R399). -/
def irqPendClr (regs : Cells Word) (now : Nat) (q : Irq) (w : Nat) (v : Word) : Irq :=
  (irqEval regs now { q with pending := q.pending.filter (fun n => !(bitmapSources w v).contains n) }).acted now 64

/-- The mask of bitmap word w that software may write (R398). -/
def bitmapMask (w : Nat) : Word := if w = 0 then 0xFFFFFFFE else if w = 15 then 0x7FFFFFFF else 0xFFFFFFFF

/-- The message of vector v as it is issued. -/
def msixSent (regs : Cells Word) (v : Nat) : Sent :=
  .msix v ((cget regDefault regs (0x1A00 + 16 * v)).toNat + 2 ^ 32 * (cget regDefault regs (0x1A04 + 16 * v)).toNat)
    (cget regDefault regs (0x1A08 + 16 * v)).toNat

/-- After a change of masks, held messages whose vector is unmasked fall due (R388). -/
def irqUnmask (regs : Cells Word) (q : Irq) : Irq :=
  let free := q.pba.filter (fun v => !msixMasked regs q v)
  { q with pba := q.pba.filter (msixMasked regs q), due := q.due ++ free }

/-! ### Register views -/

def Irq.idleWord (q : Irq) : Word :=
  packWord ((q.idle.map (fun t => (1, t))) ++ (q.asleep.map (fun t => (1, 16 + t))))

def Irq.pendWord (q : Irq) (w : Nat) : Word :=
  packWord ((q.pending.filter (fun n => n / 32 = w)).map (fun n => (1, n % 32)))

def Irq.stateWord (q : Irq) (now t : Nat) : Word :=
  let g := q.target t
  packWord [(g.badcomp, 24), (g.stack.length, 16), (b2n (decide (now < g.holdoffUntil)), 5), (b2n g.req, 4), (g.runpri, 0)]

def Irq.srcWord (regs : Cells Word) (q : Irq) (src : Nat) : Word :=
  packWord [((q.holder src).getD 0, 20), (q.repeatOf src, 16), (b2n (q.holder src).isSome, 5),
            (b2n (q.pending.contains src), 4), (irqPrio regs src, 0)]

/-- Reads of the controller's computed registers; the claim register's read is the command IRQ_CLAIM. -/
def irqView (s : State) (o : Nat) : Option Word :=
  if o = 4 then some (packWord (s.irq.latched.map (fun l => (1, l))))
  else if o = 0x18 then some s.irq.idleWord
  else if 0x100 ≤ o ∧ o < 0x200 ∧ o % 0x10 = 0xC then some (s.irq.stateWord s.clk.now ((o - 0x100) / 0x10))
  else if 0x480 ≤ o ∧ o < 0x4C0 then some (s.irq.pendWord ((o - 0x480) / 4))
  else if 0x2000 ≤ o ∧ o < 0x2800 then some (Irq.srcWord s.regs s.irq ((o - 0x2000) / 4))
  else none

/-! ### The commands of the controller -/

/-- A claim of target t: the word it returns is the answer. -/
def State.claim (s : State) (t : Nat) : State :=
  let s := s.irqTurn (16 + t)
  let r := irqClaim s.regs s.clk.now s.irq t
  { s with irq := r.2, out := { s.out with rdata := [r.1] } }

/-- A completion of source src on target t. -/
def State.complete (s : State) (t src : Nat) : State :=
  let s := s.irqTurn 1
  { s with irq := irqComplete s.regs s.clk.now s.irq t src }


/-- MSIX_MESSAGE (R387, R388): the oldest message due for vector k is issued after every write already issued, waits
while the host interface is suspended, and is held in the pending bit array when its vector is masked. -/
def msixIssue (k : Nat) (s : State) : State :=
  if s.irq.due.contains k ∧ ¬ s.suspended then
    (if msixMasked s.regs s.irq k then { s with irq := { s.irq with due := s.irq.due.erase k, pba := insertNat k s.irq.pba } }
     else ({ s with irq := { s.irq with due := s.irq.due.erase k } } : State).emit .message [msixSent s.regs k])
  else s

/-- The enable bitmap of target k after a write to its set or clear address (R398). -/
def enWrite (set : Bool) (k w : Nat) (v : Word) (s : State) : State :=
  let a := 0x5800 + k * 0x40 + 4 * w
  let m := v &&& bitmapMask w
  (s.setReg a (if set then s.reg a ||| m else s.reg a &&& ~~~ m)).irqReview

/-- The targets that the sender of an idle-flag write may mark (R401). -/
def idleTargets (byWarden : Bool) : List Nat := if byWarden then [14, 15] else List.range 14

/-- The IDLE and ASLEEP flags after a write to IRQ_IDLE_SET or IRQ_IDLE_CLR (R401). -/
def idleWrite (set byWarden : Bool) (v : Word) (s : State) : State :=
  let i := (idleTargets byWarden).filter (fun t => wbit v t)
  let a := (idleTargets byWarden).filter (fun t => wbit v (16 + t))
  ({ s with irq := if set then { s.irq with idle := i.foldl (fun l t => insertNat t l) s.irq.idle,
                                            asleep := a.foldl (fun l t => insertNat t l) s.irq.asleep }
                   else { s.irq with idle := s.irq.idle.filter (fun t => !i.contains t),
                                     asleep := s.irq.asleep.filter (fun t => !a.contains t) } }).irqReview

end Sys2Proof.Machine
end

