-- ==== Sys2Proof/Machine/Cmp.lean ====
section
/-!
DEFINITION. Window comparators: element states, presented output, blanking, threshold loads (Converters and Window
Comparators, R291 to R298).
-/
namespace Sys2Proof.Machine

def noWin : Nat → Win := fun _ => {}
def State.win (s : State) (w : Nat) : Win := cget noWin s.wins w
def State.setWin (s : State) (w : Nat) (x : Win) : State := { s with wins := cset noWin s.wins w x }

/-- The output that the elements give (R292): 1 BELOW, 2 INSIDE, 3 ABOVE. -/
def winRaw (lo hi : Bool) : Nat := if !lo then 1 else if hi then 3 else 2

/-- V − V_T for code k, in µV × 1,024 (R291). -/
def overThreshold (k : Nat) (uv : Int) : Int := 1024 * uv - 2500000 * (k : Int)

/-- An element with threshold code k and hysteresis h mV after the input `uv` µV: high above V_T + h / 2, low below V_T − h / 2, else as it
was (R291). -/
def elementAt (k h : Nat) (uv : Int) (was : Bool) : Bool :=
  if (512000 * h : Nat) < overThreshold k uv then true else if overThreshold k uv < -((512000 * h : Nat) : Int) then false else was

/-- An element at the initial decision: the input against V_T alone; `tie` where they are equal (R296). -/
def elementFirst (k : Nat) (uv : Int) (tie : Bool) : Bool :=
  if 0 < overThreshold k uv then true else if overThreshold k uv < 0 then false else tie

/-- A blanking interval is running. -/
def Win.blanking (w : Win) (now : Nat) : Bool := decide (w.blankFrom ≤ now ∧ now < w.blankUntil)

/-- The output users act on: INSIDE while undecided (R293, R296). -/
def Win.level (w : Win) : Nat := if w.out = 0 then 2 else w.out

def State.level (s : State) (w : Nat) : Nat := (s.win w).level

/-- BLANK of a window in ticks (40 ns units). -/
def winBlank (s : State) (w : Nat) : Nat := 16 * (if w < 80 then s.rf (A.win w) 23 16 else s.rf (A.win w) 25 18)

/-- A selected edge at tick `at_` starts or restarts a blanking interval (R295). -/
def blankEdge (s : State) (w at_ : Nat) : State :=
  let x := s.win w
  s.setWin w { x with prevFrom := x.blankFrom, prevUntil := x.blankUntil,
                      blankFrom := if x.blankFrom ≤ at_ ∧ at_ ≤ x.blankUntil ∧ x.blankUntil ≠ 0 then x.blankFrom else at_,
                      blankUntil := at_ + winBlank s w }

/-- An edge withdrawn before it was made: the interval before it stands again. -/
def unblankEdge (s : State) (w : Nat) : State :=
  let x := s.win w
  s.setWin w { x with blankFrom := x.prevFrom, blankUntil := x.prevUntil }

/-- General and zero-cross windows blanked by a source number (BLANK_SRC). -/
def sourceBlanked (s : State) (src : Nat) : List Nat := ((List.range 18).map (80 + ·)).filter (fun w => s.rf (A.win w) 31 26 == src)

/-- The windows an edge of HSB_b or HSS_b blanks among the bank's own ones. -/
def bankBlanked (s : State) (b : Nat) (isHsb : Bool) : List Nat :=
  ((List.range 4).map (4 * b + ·)).filter (fun w => s.rb (A.win w) (if isHsb then 1 else 2)) ++
  (if isHsb ∧ s.rb (A.win (64 + b)) 1 then [64 + b] else [])

/-- A crossing event of a general or zero-cross window asserts its source (R298). -/
def winEvent (s : State) (w : Nat) : State :=
  if 80 ≤ w ∧ s.rb (A.win w) (6 + (s.win w).out) then s.arrive (if w < 96 then 176 + (w - 80) else 192 + (w - 96)) else s

/-- A zero crossing: the first ABOVE after a BELOW (R83). -/
def Win.track (x : Win) (now : Nat) : Win :=
  if x.out = 1 then { x with below := true }
  else if x.out = 3 ∧ x.below then { x with below := false, crossing := true, crossAt := now } else x

/-- A decided window presents the output of its elements; a change is a crossing event (R293). -/
def winPresent (s : State) (w : Nat) : State :=
  let x := s.win w
  let o := winRaw x.lo x.hi
  if x.out = 0 ∨ o = x.out then s
  else winEvent (s.setWin w (({ x with out := o, cross := (x.cross + 1) % 65536 } : Win).track s.clk.now)) w

/-- The elements take new states; nothing is presented while blanking runs (R295). -/
def winElements (s : State) (w : Nat) (uv : Int × Int) (e : Bool × Bool) : State :=
  let s := s.setWin w { s.win w with lo := e.1, hi := e.2, uv := uv }
  if (s.win w).blanking s.clk.now then s else winPresent s w

/-- The initial decision: presented as a level, no event (R296). -/
def winDecide (s : State) (w : Nat) (uv : Int × Int) (e : Bool × Bool) : State :=
  let x := s.win w
  s.setWin w (({ x with lo := e.1, hi := e.2, uv := uv, out := winRaw e.1 e.2 } : Win).track s.clk.now)

/-- The elements of a window that has lost its decision (R296, R297). -/
def winUndecide (s : State) (w : Nat) : State :=
  s.setWin w { s.win w with out := 0, lo := false, hi := false, below := false, crossing := false, undecAt := s.clk.now }

/-- Every window at a reset or a wake at tick `now` (R296). -/
def winsAfter (now : Nat) : Cells Win := if now = 0 then [] else (List.range 98).map (fun w => (w, ({ undecAt := now } : Win)))

/-- Window w is enabled: channel and boost windows always are. -/
def winEnabled (s : State) (w : Nat) : Bool := decide (w < 80) || s.rb (A.win w) 0

/-- Thresholds loaded into a channel window at tick `at_` in place of those in effect (R184, R294). -/
def winLoad (s : State) (c : Nat) (old new : Nat × Nat) (at_ : Nat) : State :=
  s.setWin c { s.win c with thrLo := new.1, thrHi := new.2, oldLo := old.1, oldHi := old.2, loadAt := at_ }

/-- STATE of a window as read. -/
def winState (s : State) (w : Nat) : Word :=
  let x := s.win w
  packWord [(x.cross, 16), (b2n (x.out != 0), 3), (b2n (x.blanking s.clk.now), 2), (x.out, 0)]

/-- Reads of the general and zero-cross windows. -/
def cmpView (s : State) (o : Nat) : Option Word :=
  if o < 0x120 ∧ o % 0x10 = 8 then some (winState s (80 + o / 0x10)) else none

end Sys2Proof.Machine
end

