-- ==== Sys2Proof/Config.lean ====
section
/-!
DEFINITION. What one part fixes and the spec leaves open: constants without a body, of which no proof can know a value.
-/
namespace Sys2Proof.Config

/-- The n-th free value: a word the spec leaves unstated where a command goes on (log entry 3). -/
opaque freeWord : Nat → Word

/-- The n-th NONCE the part draws at power-up or when the link is enabled (R512, log entry 3). -/
opaque nonce : Nat → Word

/-- Whether the signature of a firmware image (its bytes in slot order) verifies with the public key held in the part
(R500, log entry 4). -/
opaque fwSignatureGood : List Byte → Bool

/-- Production data of this part: its bandgap code BG_NOM (R281), factory sums and gains of a converter, the 64-bit
device serial number (R301), and the production clamp time of a gate driver in ns (R477). -/
opaque bgNom : Fin 4096

/-- T_INIT of the window comparators in ticks, at most 2 µs (table *Comparator characteristics*). -/
opaque tInit : Fin 801

opaque facSum : Nat → Fin 32768
opaque facGain : Nat → Fin 65536
opaque serial : BitVec 64

/-- The mean gate turn-on time of a channel over the plan period before the n-th evaluation, and its factory value, in ns
(R477, log entry 3). -/
opaque gateMean : Nat → Nat → Nat
opaque gateFac : Nat → Nat

/-- The measured AON period P in 1/256 ns (R553). -/
opaque aonPeriod : Nat

/-- Which factory public keys a part holds (R500). -/
opaque fwKeyPresent : Fin 256 → Bool

/-- Whether no word of a firmware slot reads with an uncorrectable error, by slot and count of checks made (R500). -/
opaque fwSlotGood : Bool → Nat → Bool

/-- The boundary-scan chain, whose order the spec leaves to the description file of the maker (R596): its length, and the cell
that drives LSG of a channel. -/
opaque bsLength : Nat
opaque bsLsg : Nat → Nat

end Sys2Proof.Config
end

