-- ==== Sys2Proof/Machine/Rings.lean ====
section
/-!
DEFINITION. Device-produced rings and telemetry: entries and lap bits, completions, captures, freshness
(Host Interface, Rings and Freshness, R316 to R343).
-/
namespace Sys2Proof.Machine

/-! ### Rings -/

/-- HIF_CTL.RUN. -/
def State.running (s : State) : Bool := s.rb A.hif 0

def ringType (s : State) (r : Nat) : Nat := s.rf (A.ring r) 2 1
def ringOn (s : State) (r : Nat) : Bool := s.running && s.rb (A.ring r) 0
/-- Entries of a ring, N = 2^LOG2N. -/
def ringN (s : State) (r : Nat) : Nat := 2 ^ s.rf (A.ring r) 7 4
/-- Entry size in bytes. -/
def ringBytes (s : State) (r : Nat) : Nat := if s.rb (A.ring r) 3 then 64 else 32
def ringBase (s : State) (r : Nat) : Nat :=
  (s.reg (A.ring r + 4)).toNat / 4096 * 4096 + 2 ^ 32 * (s.reg (A.ring r + 8)).toNat
/-- The device's index of a ring (HIF_RING_r_INDEX.DEV). -/
def ringDev (s : State) (r : Nat) : Nat := s.rf (A.ring r + 0xC) 15 0

/-- The lap bit of index i in a ring of n entries (R316). -/
def lapBit (n i : Nat) : Nat := 1 - (i / n) % 2

/-- Host address of index i of ring r. -/
def ringAddr (s : State) (r i : Nat) : Nat := ringBase s r + (i % ringN s r) * ringBytes s r

def State.echoBase (s : State) : Nat :=
  (s.reg 0x1010).toNat / 128 * 128 + 2 ^ 32 * (s.reg 0x1014).toNat

def State.doorbellBase (s : State) : Nat :=
  (s.reg 0x1008).toNat / 128 * 128 + 2 ^ 32 * (s.reg 0x100C).toNat

/-- A 16-bit echo word (table *Echo block*). -/
def echoBytes (i : Nat) : List Byte := [BitVec.ofNat 8 i, BitVec.ofNat 8 (i / 256)]

/-- The words of an entry with the lap bit of its index in bit 31 of the last one. -/
def withLap (n i : Nat) (ws : List Word) : List Word :=
  ws.dropLast ++ [setFld (ws.getLastD 0) 31 31 (lapBit n i)]

/-- The three posted writes of one entry: all words but the last, the last word with its lap bit, the echo word (R318). -/
def ringWrites (s : State) (r : Nat) (ws : List Word) : List Sent :=
  let i := ringDev s r
  let l := withLap (ringN s r) i ws
  [.write (ringAddr s r i) (wordsBytes l.dropLast),
   .write (ringAddr s r i + 4 * (l.length - 1)) (wordBytes (l.getLastD 0)),
   .write (s.echoBase + 2 * r) (echoBytes ((i + 1) % 65536))]

/-- The counters of a ring after one entry: DEV and ENTRIES move on. -/
def ringCount (s : State) (r : Nat) : Cells Word :=
  let a := A.ring r
  rset (rset s.regs (a + 0xC) (setFld (s.reg (a + 0xC)) 15 0 (ringDev s r + 1)))
    (a + 0x14) (setFld (s.reg (a + 0x14)) 15 0 (s.rf (a + 0x14) 15 0 + 1))

/-- The rank of a ring's entries: completions before telemetry and captures (R31). -/
def ringRank (s : State) (r : Nat) : Traffic := if ringType s r = 1 then .completion else .telemetry

/-- One entry of a device-produced ring and its interrupt source, as a batch of its own (R318, R407). -/
def ringEntry (s : State) (r : Nat) (ws : List Word) : State :=
  (({ s with regs := ringCount s r } : State).emit (ringRank s r) (ringWrites s r ws)).arrive (64 + r)

/-- A telemetry or capture entry: nothing when its ring is not running, discarded and counted while suspended (R307). -/
def ringOffer (s : State) (r : Nat) (ws : List Word) : State :=
  if ringOn s r then (if s.suspended then s.cntSat 0x1024 15 0 else ringEntry s r ws) else s

/-- A completion: it waits for the end of a suspension (R306). -/
def ringComplete (s : State) (r : Nat) (ws : List Word) : State :=
  if ringOn s r then
    (if s.suspended then { s with hif := { s.hif with backlog := s.hif.backlog ++ [(r, ws)] } } else ringEntry s r ws)
  else s

/-- The completions held during a suspension, written when it ends. -/
def flushBacklog (s : State) : State :=
  s.hif.backlog.foldl (fun s p => if ringOn s p.1 then ringEntry s p.1 p.2 else s) { s with hif := { s.hif with backlog := [] } }

/-! ### Telemetry -/

/-- Fields of a producer table entry (table *Producer table entry*). -/
def peRing (e : List Word) : Nat := fld (wordAt e 0) 30 25
def peKind (e : List Word) : Nat := fld (wordAt e 0) 23 16
def peInst (e : List Word) : Nat := fld (wordAt e 0) 15 8
def pePeriod (e : List Word) : Nat := (wordAt e 1).toNat
def peMaxAge (e : List Word) : Nat := (wordAt e 2).toNat
def peDom (e : List Word) : Nat := fld (wordAt e 3) 31 30
def peSub (e : List Word) : Nat := fld (wordAt e 3) 4 0

/-- The record kinds (R342). -/
def recordKind (k : Nat) : Bool := k == 1 || k == 2 || k == 3 || k == 0x20 || k == 0x24

/-- KIND, INSTANCE and SUB are defined (tables of telemetry kinds). -/
def peDefined (k i u : Nat) : Bool :=
  if recordKind k ∨ k = 0x11 ∨ k = 0x16 ∨ k = 0x21 ∨ k = 0x22 then i == 0 && u == 0
  else if k = 0x10 then decide (i < 4) && u == 0
  else if k = 0x12 then decide (i % 128 < 24) && u == 0
  else if k = 0x13 then decide (i < 64) && u == 0
  else if k = 0x14 then decide (i < 18) && decide (u < if i < 16 then 12 else 19)
  else if k = 0x23 then decide (i < 6) && u == 0
  else false

/-- DOMAIN, SYNC_CHECK and HEARTBEAT capture only at the expiries of their period (R338, R342). -/
def sampledKind (k : Nat) : Bool := k == 0x10 || k == 0x11 || k == 0x16

/-- The check of one enabled entry (R342). -/
def peGood (s : State) (e : List Word) : Bool :=
  ringOn s (peRing e) && ringType s (peRing e) == 2 && peDefined (peKind e) (peInst e) (peSub e) &&
  (wordAt e 0 &&& 0x010000FF) == 0 && (wordAt e 3 &&& 0x3FFFFFE0) == 0 &&
  (if recordKind (peKind e) then pePeriod e == 0 && peMaxAge e == 0
   else decide (max (pePeriod e) 10 ≤ peMaxAge e) && (!sampledKind (peKind e) || pePeriod e != 0))

def peEntry (s : State) (i : Nat) : List Word := s.words (0x82000 + 16 * i) 4

/-- The enabled entries of the table. -/
def peEnabled (s : State) : List (Nat × List Word) :=
  ((List.range 256).map (fun i => (i, peEntry s i))).filter (fun p => wbit (wordAt p.2 0) 31)

/-- The first enabled entry that fails R342. -/
def peFirstBad (s : State) : Option Nat := ((peEnabled s).find? (fun p => !peGood s p.2)).map (·.1)

/-- The first entry that fails R342, or of whose words some word written carries a reserved bit (R13). -/
def peFirstRefused (s : State) (l : List (Nat × Word)) : Option Nat :=
  (List.range 256).find? (fun i =>
    (wbit (wordAt (peEntry s i) 0) 31 && !peGood s (peEntry s i)) ||
    l.any (fun p => p.1 / 16 * 16 == 0x82000 + 16 * i &&
      (p.2 &&& (if p.1 % 16 = 0 then 0x010000FF else if p.1 % 16 = 12 then 0x3FFFFFE0 else 0)) != 0))

def noProducer : Nat → Producer := fun _ => {}
def Hif.prod (h : Hif) (i : Nat) : Producer := cget noProducer h.producers i
def State.setProd (s : State) (i : Nat) (p : Producer) : State :=
  { s with hif := { s.hif with producers := cset noProducer s.hif.producers i p } }

/-- A producer when the table is taken: its period restarts, and an entry that changed starts afresh (R338, R342). -/
def takeProducer (s : State) (p : Nat × List Word) : Nat × Producer :=
  let old := if s.hif.taken.contains p then s.hif.prod p.1 else {}
  (p.1, { old with nextAt := s.clk.now + usTicks (pePeriod p.2) })

/-- The device takes the producer table (R342). -/
def tableTake (s : State) : State :=
  { s with hif := { s.hif with taken := peEnabled s,
                               producers := ((peEnabled s).map (takeProducer s)).filter (fun p => p.2 ≠ {}) } }

/-- A producer table fails at entry i: before the seal CFG_ERR reports 8 with the entry (R342). -/
def tableFails (s : State) (i : Nat) : State :=
  if s.glb.isSealed then s else (s.setRf 0x1004 11 8 8).setRf 0x1004 21 16 (i % 64)

/-- The table is taken when it passes; a table that fails is not used (R342). -/
def tableCheckTake (s : State) : State :=
  match peFirstBad s with
  | none => tableTake s
  | some i => tableFails s i

/-- FRESH_UNTIL of a capture (R339). -/
def freshUntil (e : List Word) (c : Capture) : Nat := (c.dtime + 1000 * peMaxAge e) % 2 ^ 64

/-- STATE codes of a telemetry entry. -/
def pubCode : PubState → Nat
  | .stale => 1 | .undef => 2 | _ => 0

/-- Words 0 to 15 of a telemetry entry without its lap bit (table *Telemetry entry, 64 bytes*). -/
def tlmWords (i : Nat) (e : List Word) (pseq seq : Nat) (st : PubState) (c : Capture) (till : Nat) : List Word :=
  let val := if st = .fresh then c.value else []
  [packWord [(b2n (recordKind (peKind e)), 31), (b2n (c.angle != 0xFFFFFFFF), 30), (c.dom, 28), (c.qual, 26), (pubCode st, 24), (peKind e, 16), (i, 0)],
   packWord [(pseq % 65536, 16), (seq, 0)], lo32 c.dtime, hi32 c.dtime, ofNat32 c.angle, 0, lo32 till, hi32 till] ++
  (List.range 7).map (fun j => wordAt val j) ++ [0]

/-- One entry of producer i: PSEQ counts its records. A FRESH entry publishes the latest capture, and what an UNDEFINED one finds
unpublished stays so. -/
def publish (s : State) (i : Nat) (e : List Word) (st : PubState) (c : Capture) (till : Nat) : State :=
  let p := s.hif.prod i
  let ws := tlmWords i e p.pseq (ringDev s (peRing e)) st c till
  ringOffer (s.setProd i { p with pseq := (p.pseq + 1) % 65536, published := some c, pub := st, isNew := p.isNew && st == .stale })
    (peRing e) ws

/-- Publish a capture FRESH (R339); a record carries no deadline. -/
def publishFresh (s : State) (i : Nat) (e : List Word) (c : Capture) : State :=
  publish s i e .fresh c (if recordKind (peKind e) then 2 ^ 64 - 1 else freshUntil e c)

/-- A capture made now, stamped with the published angle of a domain. -/
def captureNow (s : State) (dom : Nat) (value : List Word) : Capture :=
  { dtime := s.dtime, qual := s.clk.qual, dom := dom, angle := s.angleWord dom, value := value }

/-- A record of a record kind: every producer of the kind publishes it. OUTCOME records name their own domain. -/
def tlmRecord (s : State) (kind : Nat) (dom : Option Nat) (ws : List Word) : State :=
  s.hif.taken.foldl (fun s p =>
    if peKind p.2 = kind then publishFresh s p.1 p.2 (captureNow s (dom.getD (peDom p.2)) ws) else s) s

/-- A value capture for one producer: published at once when PERIOD is 0 (R338). -/
def tlmCaptureOne (s : State) (i : Nat) (e : List Word) (c : Capture) : State :=
  let s := s.setProd i { s.hif.prod i with latest := some c, isNew := true }
  if pePeriod e = 0 then publishFresh s i e c else s

/-- The producers of a kind, instance and sub. -/
def peMatches (kind inst sub : Nat) (e : List Word) : Bool := peKind e == kind && peInst e == inst && peSub e == sub

/-- A capture of a value kind, as the domain of its angle stamp gives it. -/
def tlmCaptureWith (s : State) (kind inst sub : Nat) (mk : Nat → Capture) : State :=
  s.hif.taken.foldl (fun s p => if peMatches kind inst sub p.2 then tlmCaptureOne s p.1 p.2 (mk (peDom p.2)) else s) s

/-- A capture of a value kind made now. -/
def tlmCapture (s : State) (kind inst sub : Nat) (ws : List Word) : State :=
  tlmCaptureWith s kind inst sub (fun d => captureNow s d ws)

/-- The 64-bit FRESH_UNTIL of an UNDEFINED entry, which the spec does not state: a free value. -/
def freeDeadline (s : State) : Nat := (Config.freeWord s.free).toNat + 2 ^ 32 * (Config.freeWord (s.free + 1)).toNat

/-- The condition of the UNDEFINED column begins for one producer: one UNDEFINED entry (R340). -/
def tlmUndefOne (s : State) (i : Nat) (e : List Word) : State :=
  publish { s with free := s.free + 2 } i e .undef (captureNow s (peDom e) []) (freeDeadline s)

/-- The condition of the UNDEFINED column of a kind begins (R340): its producers publish it. The callers call it at that instant
alone. -/
def tlmUndef (s : State) (kind inst sub : Nat) : State :=
  s.hif.taken.foldl (fun s p => if peMatches kind inst sub p.2 then tlmUndefOne s p.1 p.2 else s) s

/-- The taken entry of producer i. -/
def Hif.entry (h : Hif) (i : Nat) : Option (List Word) := (h.taken.find? (fun p => p.1 == i)).map (·.2)

/-- The instant FRESH_UNTIL of producer i has come: a capture not yet published and not later is published, else a
STALE entry with the stamps of the lapsed one (R339). -/
def freshnessLapse (s : State) (i : Nat) (e : List Word) : State :=
  let p := s.hif.prod i
  match p.published with
  | some c =>
    if p.pub = .fresh ∧ ¬ recordKind (peKind e) ∧ freshUntil e c ≤ s.dtime then
      (match p.latest with
       | some n => if p.isNew ∧ c.dtime < n.dtime ∧ n.dtime ≤ freshUntil e c then publishFresh s i e n
                   else publish (s.cntSat 0x1024 31 16) i e .stale c (freshUntil e c)
       | none => publish (s.cntSat 0x1024 31 16) i e .stale c (freshUntil e c))
    else s
  | none => s

/-- The latest capture of producer i, when it is newer than the one last published (R338): a later capture, whatever steps DTIME
has made. -/
def publishLatest (s : State) (i : Nat) (e : List Word) : State :=
  match (s.hif.prod i).latest with
  | some c => if (s.hif.prod i).isNew then publishFresh s i e c else s
  | none => s

/-! ### Completions -/

/-- A completion record without its lap bit (table *Completion record, 32 bytes*). -/
def completionWords (s : State) (ring opcode cstat hstat tag idx : Nat) (r0 r1 : Word) : List Word :=
  [packWord [(opcode, 24), (cstat, 16), (hstat, 12), (ring, 6)], ofNat32 tag, packWord [(idx, 0)], r0, r1,
   lo32 s.dtime, hi32 s.dtime, packWord [(s.clk.qual, 0)]]

/-- A completion is written to the ring paired with the command ring, and counted as applied or refused
(HIF_CMD_CNT). `applied` says that the command took effect. -/
def complete (s : State) (ring opcode cstat hstat tag idx : Nat) (r0 r1 : Word) (applied : Bool) : State :=
  let s' := if applied then s.cntWrap 0x1028 15 0 else s.cntSat 0x1028 31 16
  ringComplete s' (s.rf (A.ring ring) 13 8) (completionWords s ring opcode cstat hstat tag idx r0 r1)

end Sys2Proof.Machine
end

