-- ==== Sys2Proof/Machine/Faults.lean ====
section
/-!
DEFINITION. Fault records: the fault log, the last record and its telemetry (Faults, Error Codes and Reflection, R474).
-/
namespace Sys2Proof.Machine

def noUnit : Nat → SUnit := fun _ => {}
def State.unit (s : State) (u : Nat) : SUnit := cget noUnit s.units u
def State.setUnit (s : State) (u : Nat) (x : SUnit) : State := { s with units := cset noUnit s.units u x }

/-- A register of the block that shows a unit: its counters stand with the unit (R443). -/
def SUnit.cntReg (x : SUnit) (o : Nat) : Word := cget (fun _ => (0 : Word)) x.cnt o
def SUnit.setCnt (x : SUnit) (o : Nat) (w : Word) : SUnit := { x with cnt := cset (fun _ => (0 : Word)) x.cnt o w }
/-- Count in a field of a unit's register, saturating at the field's largest value. -/
def SUnit.count (x : SUnit) (o hi lo : Nat) : SUnit :=
  x.setCnt o (setFld (x.cntReg o) hi lo (satAdd (2 ^ (hi + 1 - lo) - 1) (fld (x.cntReg o) hi lo) 1))
/-- Count wrapping. -/
def SUnit.countWrap (x : SUnit) (o hi lo : Nat) : SUnit := x.setCnt o (setFld (x.cntReg o) hi lo (fld (x.cntReg o) hi lo + 1))

/-! ### Roles and units (R442, R443) -/

/-- Unit in role n; 4 is the spare role. -/
def roleUnit (s : State) (n : Nat) : Nat := s.rf 0x3004 (3 * n + 2) (3 * n)
/-- State of unit u (table *Unit states*). -/
def unitState (s : State) (u : Nat) : Nat := s.rf 0x3008 (3 * u + 2) (3 * u)
/-- Role of unit u; 5 when it serves none. -/
def unitRole (s : State) (u : Nat) : Nat := ((List.range 5).find? (fun n => roleUnit s n == u)).getD 5
/-- HELD_ROLE: the role whose banks the spare holds. -/
def heldRole (s : State) : Nat := s.rf 0x3000 14 12
/-- The region whose slots unit u runs. -/
def unitRegion (s : State) (u : Nat) : Nat := if unitRole s u = 4 then heldRole s else unitRole s u
/-- Unit u serves: SERVING, or LENT once its first evaluation has come (R442, R492). -/
def unitServes (s : State) (u : Nat) : Bool := unitState s u == 0 || (unitState s u == 7 && s.wdn.takeover.isNone)
/-- Unit u evaluates its slots: it serves, has not stopped for Dusk (R545; the units vote after the Warden), and the chip
is not in its safe state. -/
def unitRuns (s : State) (u : Nat) : Bool :=
  unitServes s u && !s.glb.chipSafe && !(s.pwr.entry != 0 && decide (u + 1 < s.pwr.voter))
/-- The spare holds a role's banks (GLB_STATUS.MIRROR_BUSY). -/
def mirrorBusy (s : State) : Bool := unitState s (roleUnit s 4) == 0 || unitState s (roleUnit s 4) == 7

/-- Role n has no unit SERVING of its own (GLB_STATUS.REGION_OUT). -/
def roleOut (s : State) (n : Nat) : Bool := unitState s (roleUnit s n) != 0
/-- Role n is served, by its own unit or by the spare. -/
def roleServed (s : State) (n : Nat) : Bool := !roleOut s n || (mirrorBusy s && heldRole s == n)
/-- The unit that evaluates role n. -/
def servingUnit (s : State) (n : Nat) : Nat := if mirrorBusy s && heldRole s == n then roleUnit s 4 else roleUnit s n

def noRefl : Nat → Refl := fun _ => {}
def State.refl (s : State) (n : Nat) : Refl := cget noRefl s.wdn.refl n
def State.setRefl (s : State) (n : Nat) (r : Refl) : State := { s with wdn := { s.wdn with refl := cset noRefl s.wdn.refl n r } }

/-- WDN_STATUS.COVER: NONE, HOT, WARM, LENT. -/
def coverCode (s : State) : Nat :=
  match unitState s (roleUnit s 4) with
  | 1 => if s.glb.reflect = 1 then 2 else 1
  | 7 => 3
  | _ => 0

/-- WDN_STATUS as read. -/
def wdnStatusWord (s : State) : Word :=
  packWord [(s.rf 0x3000 31 24, 24), (match s.wdn.takeover with | some t => b2n (!t.lend && decide (0 < t.step)) | none => 0, 15),
            (heldRole s, 12), (coverCode s, 8), ((List.range 4).foldl (fun a n => a + b2n (s.refl n).covered * 2 ^ n) 0, 4)]

/-- The three words of the REFLECTION telemetry. -/
def reflWords (s : State) : List Word := [wdnStatusWord s, s.reg 0x3004, s.reg 0x3008]

/-- A change of WDN_STATUS, WDN_ROLE or WDN_UNIT is a capture of KIND REFLECTION. -/
def reflNotice (s : State) (before : List Word) : State := if reflWords s = before then s else tlmCapture s 0x21 0 0 (reflWords s)

/-- Levels of a fault record. -/
def lvMemory : Nat := 0
def lvBank : Nat := 1
def lvRegion : Nat := 2
def lvChip : Nat := 3

/-- Words 0 to 5 of a fault record (table *Fault record*). -/
def faultWords (s : State) (level code unit phys : Nat) (d0 d1 : Word) : List Word :=
  [packWord [(level, 30), (code, 16), (s.rf 0x3020 15 0, 0)], packWord [(phys, 8), (unit, 0)], d0, d1, lo32 s.dtime, hi32 s.dtime]

/-- The fault log entry of a record: words 0 to 5, the time quality, and a reserved word. -/
def faultEntry (s : State) (ws : List Word) : State :=
  s.putWords (0xA0000 + 32 * (s.rf 0x3020 15 0 % 64)) (ws ++ [ofNat32 s.clk.qual, 0])

/-- Words copied to consecutive registers. -/
def State.setRegs (s : State) (a : Nat) : List Word → State
  | [] => s
  | w :: t => (s.setReg a w).setRegs (a + 4) t

/-! ### The progress record (R566) -/

/-- Little-endian words of a byte list, in one pass. -/
def leWords : List Byte → List Word
  | a :: b :: c :: d :: t => BitVec.ofNat 32 (a.toNat + 2 ^ 8 * b.toNat + 2 ^ 16 * c.toNat + 2 ^ 24 * d.toNat) :: leWords t
  | _ => []

/-- Header fields of a slot. -/
def hdrWord (l : List Byte) (i : Nat) : Word := wordAt (leWords (l.take 64)) i
def slotSeq (l : List Byte) : Nat := (hdrWord l 1).toNat
def Journal.slot (j : Journal) (b : Bool) : List Byte := if b then j.slotB else j.slotA

/-- SEQ of the selected slot; 0 on a blank part. -/
def Journal.seq (j : Journal) : Nat := (j.sel.map (fun b => slotSeq (j.slot b))).getD 0

/-- The test of a unit. -/
def unitTest (s : State) (u : Nat) : Option UTest := cget (fun _ => none) s.wdn.tests u

/-- The test step of a unit; 0 when it is not under test or has passed its last step (step 7). -/
def testStep (s : State) (u : Nat) : Nat := ((unitTest s u).map (fun x => x.step % 7)).getD 0

/-- WDN_ROUND_STATUS as read; RSEQ and LAST_END are stored words. -/
def roundStatusWord (s : State) : Word :=
  let r := s.round
  packWord [(s.rf 0x3208 31 16, 16), (if r.phase = 0 then 0 else r.unit, 13), (if r.phase = 0 then 0 else r.role, 10),
            (if r.phase = 0 then 0 else testStep s r.unit, 6), (s.rf 0x3208 5 4, 4), (b2n r.waiting, 3), (r.phase, 1), (b2n (r.phase != 0), 0)]

/-- The newer of the two copies: the one with the higher PSEQ. -/
def Journal.newest (j : Journal) : Option Progress :=
  match j.copyA, j.copyB with
  | some a, some b => if a.pseq < b.pseq then some b else some a
  | some a, none => some a
  | none, b => b

/-- The progress record of the present state, as copy number `pseq` with base `base`. -/
def progressNow (s : State) (pseq base : Nat) : Progress :=
  { role := s.reg 0x3004, unit := s.reg 0x3008, held := heldRole s, round := roundStatusWord s, fseq := s.rf 0x3020 15 0,
    pseq := pseq, base := base }

/-- Write the progress record over the older copy (R566). -/
def progressWrite (s : State) (base : Nat) : State :=
  let n := ((s.jrn.newest.map (·.pseq)).getD 0) + 1
  let p := some (progressNow s n base)
  { s with jrn := if s.jrn.copyA = s.jrn.newest then { s.jrn with copyB := p } else { s.jrn with copyA := p } }

/-- The record is written in the cycle of each change of what it holds, with the BASE of the newest complete slot; before the
restore has taken the retained record nothing is written over it (log entry 10). -/
def progressNote (s : State) : State :=
  if s.rb 0x2004 9 then
    match s.jrn.newest with
    | some p => if progressNow s p.pseq s.jrn.seq = p then s else progressWrite s s.jrn.seq
    | none => progressWrite s s.jrn.seq
  else s

/-- One fault record (R474): log, last record, telemetry of KIND FAULT, source WDN_FAULT. -/
def faultRecord (s : State) (level code unit phys : Nat) (d0 d1 : Word := 0) : State :=
  let ws := faultWords s level code unit phys d0 d1
  let s := ((faultEntry s ws).setRegs 0x3024 ws).setRf 0x3020 15 0 (s.rf 0x3020 15 0 + 1)
  let s := progressNote { s with plan := { s.plan with faults := satAdd 65535 s.plan.faults 1 } }
  (tlmRecord s 0x20 none ws).arrive 2

/-- A record of a bank also asserts the error source of its region. -/
def bankFaultRecord (s : State) (b code : Nat) (d0 d1 : Word := 0) : State :=
  (faultRecord s lvBank code b 0 d0 d1).arrive (136 + b / 4)

/-- A record of a region role (4: the Mirror region) names the physical unit, whose LAST_CODE it sets. -/
def regionFaultRecord (s : State) (role u code : Nat) (d0 d1 : Word := 0) : State :=
  let s := s.setUnit u ((s.unit u).setCnt 0x1004 (setFld ((s.unit u).cntReg 0x1004) 23 16 code))
  (faultRecord s lvRegion code role u d0 d1).arrive (136 + role)

end Sys2Proof.Machine
end

