-- ==== Sys2Proof/Machine/Profile.lean ====
section
/-!
DEFINITION. Profiles and actuator models as data: their fields, their checks, bins and the choice of a closing delay
(Actuator Drive and Current Profiles R186 to R194, Sensing Closure and Closing the Loops R239 to R245).
-/
namespace Sys2Proof.Machine

/-! ### Profiles -/

def profAddr (c p : Nat) : Nat := 0x40000 + c * 0x400 + p * 0x40

/-- The 16 words of a profile as one number. -/
def wordsNat : List Word → Nat
  | [] => 0
  | w :: t => w.toNat + 2 ^ 32 * wordsNat t

/-- Phase entry q of a profile (table *Phase entry*). -/
def phEntry (ws : List Word) (q : Nat) : Nat := wordsNat ws / 2 ^ (128 + 48 * q) % 2 ^ 48

def bitsOf (n hi lo : Nat) : Nat := n / 2 ^ lo % 2 ^ (hi + 1 - lo)

def phKind (e : Nat) : Nat := bitsOf e 47 45
def phSrc (e : Nat) : Nat := bitsOf e 44 43
def phDecay (e : Nat) : Nat := bitsOf e 42 41
def phExit (e : Nat) : Nat := bitsOf e 40 39
def phHi (e : Nat) : Nat := bitsOf e 37 28
def phLo (e : Nat) : Nat := bitsOf e 27 18
def phDur (e : Nat) : Nat := bitsOf e 17 2
/-- DUR in ticks: units of 0.1 µs or 10 µs. -/
def phTicks (e : Nat) : Nat := phDur e * (if bitsOf e 38 38 = 1 then 4000 else 40)

def pfNph (ws : List Word) : Nat := fld (wordAt ws 0) 3 0
def pfEnd (ws : List Word) : Nat := fld (wordAt ws 0) 6 4
/-- MIX_FAST in ticks. -/
def pfMix (ws : List Word) : Nat := 40 * fld (wordAt ws 0) 15 8
def pfPtMin (ws : List Word) : Nat := fld (wordAt ws 1) 15 0
def pfPtMax (ws : List Word) : Nat := fld (wordAt ws 1) 31 16
/-- Half-period of the dither in ticks; 0 = none. -/
def pfDither (ws : List Word) : Nat := 4000 * fld (wordAt ws 2) 31 16
def pfAmp (ws : List Word) : Nat := fld (wordAt ws 2) 7 0
def pfKinkEn (ws : List Word) : Bool := wbit (wordAt ws 3) 31
def pfKinkLen (ws : List Word) : Nat := fld (wordAt ws 3) 25 16
def pfKinkDelay (ws : List Word) : Nat := fld (wordAt ws 3) 9 0

def pfPhases (ws : List Word) : List Nat := (List.range (min 8 (pfNph ws))).map (phEntry ws)

def pfReserved (ws : List Word) : Bool :=
  fld (wordAt ws 0) 31 16 == 0 && fld (wordAt ws 0) 7 7 == 0 && fld (wordAt ws 2) 15 8 == 0 &&
  fld (wordAt ws 3) 30 26 == 0 && fld (wordAt ws 3) 15 10 == 0 &&
  (List.range 8).all (fun q =>
    let e := phEntry ws q
    decide (phKind e ≤ 5) && decide (phSrc e ≤ 2) && decide (phDecay e ≤ 2) && decide (phExit e ≤ 2) && bitsOf e 1 0 == 0 &&
    (decide (q < pfNph ws) || e == 0))

def pfCount (ws : List Word) : Bool :=
  decide (1 ≤ pfNph ws ∧ pfNph ws ≤ 8) && decide (pfEnd ws < pfNph ws) && phKind (phEntry ws (pfEnd ws)) == 5

def pfKind (prop : Bool) (ws : List Word) : Bool :=
  (pfPhases ws).all (fun e => decide (1 ≤ phKind e ∧ phKind e ≤ 5)) &&
  (if prop then (pfPhases ws).all (fun e => phKind e == 4 || phKind e == 5)
   else phKind (phEntry ws 0) == 1 && (pfPhases ws).all (fun e => phKind e != 4) && (pfPhases ws).tail.all (fun e => phKind e != 1))

def phSource (e : Nat) : Bool :=
  match phKind e with
  | 1 | 2 => phSrc e == 1 || phSrc e == 2
  | 3 | 4 => phSrc e == 2
  | 5 => phSrc e == 0
  | _ => true

def phExitGood (e : Nat) : Bool :=
  (match phKind e with
   | 1 => phExit e == 0
   | 2 | 3 | 4 => phExit e != 0
   | 5 => phExit e == 0 || phExit e == 1
   | _ => true) && (phExit e != 1 || phDur e != 0)

def phBand (e : Nat) : Bool :=
  match phKind e with
  | 1 => phLo e == 0 && decide (0 < phHi e) && phDecay e == 0
  | 5 => phHi e == 0
  | 2 | 3 | 4 => decide (phLo e < phHi e)
  | _ => true

def pfClassDecay (prop : Bool) (ws : List Word) : Bool :=
  !prop || ((pfPhases ws).all (fun e => phDecay e == 0) && (fld (wordAt ws 2) 31 16 != 0 || pfAmp ws == 0))

def pfField (ws : List Word) : Bool :=
  (if pfKinkEn ws then decide (1 ≤ pfKinkLen ws ∧ pfKinkLen ws ≤ 1000 ∧ pfKinkDelay ws ≤ 1000)
   else pfKinkLen ws == 0 && pfKinkDelay ws == 0) &&
  (decide (pfPtMin ws < pfPtMax ws) || (pfPtMin ws == 0 && pfPtMax ws == 0))

/-- Status of a profile under R194: the first failing check, 0 when it passes. -/
def profStatus (prop : Bool) (ws : List Word) : Nat :=
  if ¬ pfReserved ws then 1
  else if ¬ pfCount ws then 2
  else if ¬ pfKind prop ws then 3
  else if ¬ (pfPhases ws).all phSource then 4
  else if ¬ (pfPhases ws).all phExitGood then 5
  else if ¬ (pfPhases ws).all phBand then 6
  else if ¬ pfClassDecay prop ws then 7
  else if ¬ pfField ws then 8
  else 0

/-! ### Actuator models -/

def modelAddr (c : Nat) : Nat := 0x60000 + c * 0x800
def modelCell (c i j : Nat) : Nat := modelAddr c + 0x40 + 32 * (4 * i + j)

def mhCorr (h : List Word) : Bool := wbit (wordAt h 0) 31
def mhWait (h : List Word) : Bool := wbit (wordAt h 0) 30
def mhLearn (h : List Word) : Bool := wbit (wordAt h 0) 29
def mhPolNeg (h : List Word) : Bool := wbit (wordAt h 0) 28
def mhMinGrade (h : List Word) : Nat := fld (wordAt h 0) 27 26
def mhMinSamples (h : List Word) : Nat := fld (wordAt h 0) 23 16
def mhDshift (h : List Word) : Nat := fld (wordAt h 0) 15 12
def mhPtFaultN (h : List Word) : Nat := fld (wordAt h 0) 11 8
def mhPsrc (h : List Word) : Nat := fld (wordAt h 0) 5 0
def mhLim (h : List Word) : Nat := fld (wordAt h 1) 31 16
def mhOutlier (h : List Word) : Nat := fld (wordAt h 1) 15 0
def mhPAge (h : List Word) : Nat := fld (wordAt h 5) 31 16
def mhShortT (h : List Word) : Nat := fld (wordAt h 7) 31 26
def mhOpenCode (h : List Word) : Nat := fld (wordAt h 7) 25 16
def mhIdleT (h : List Word) : Nat := fld (wordAt h 8) 15 8
def mhIdleCode (h : List Word) : Nat := fld (wordAt h 9) 9 0

/-- PB1 to PB7. -/
def mhPB (h : List Word) : List Nat :=
  [fld (wordAt h 2) 15 0, fld (wordAt h 2) 31 16, fld (wordAt h 3) 15 0, fld (wordAt h 3) 31 16,
   fld (wordAt h 4) 15 0, fld (wordAt h 4) 31 16, fld (wordAt h 5) 15 0]

/-- BB1 to BB3. -/
def mhBB (h : List Word) : List Nat := [fld (wordAt h 6) 11 0, fld (wordAt h 6) 23 12, fld (wordAt h 7) 11 0]

def rising : List Nat → Bool
  | a :: b :: t => decide (a < b) && rising (b :: t)
  | _ => true

/-- A model header passes R239. -/
def headerGood (h : List Word) : Bool :=
  fld (wordAt h 0) 25 24 == 0 && fld (wordAt h 0) 7 6 == 0 && fld (wordAt h 6) 31 24 == 0 && fld (wordAt h 7) 15 12 == 0 &&
  fld (wordAt h 8) 31 16 == 0 && fld (wordAt h 8) 7 0 == 0 && fld (wordAt h 9) 31 10 == 0 &&
  (h.drop 10).all (fun w => w == 0) &&
  mhMinGrade h != 0 && mhMinSamples h != 0 && decide (mhDshift h ≤ 8) && mhPtFaultN h != 0 && decide (mhPsrc h ≤ 35) &&
  decide (mhLim h ≤ 5000) && mhPAge h != 0 && mhShortT h != 0 && mhIdleT h != 0 && rising (mhPB h) && rising (mhBB h)

/-- The bin of a value: the number of bounds at or below it (R240). -/
def binOf (bounds : List Nat) (v : Nat) : Nat := (bounds.filter (fun b => decide (b ≤ v))).length

def State.header (s : State) (c : Nat) : List Word := s.words (modelAddr c) 16

/-! ### Model cells -/

def cellWord (s : State) (c i j k : Nat) : Word := s.word (modelCell c i j + 4 * k)
def nomDly (s : State) (c i j : Nat) : Nat := fld (cellWord s c i j 0) 31 16
def lrnDly (s : State) (c i j : Nat) : Nat := fld (cellWord s c i j 1) 31 16
def dCount (s : State) (c i j : Nat) : Nat := fld (cellWord s c i j 2) 31 16

/-- The cell has its own data (R244). -/
def ownData (s : State) (h : List Word) (c i j : Nat) : Bool := decide (mhMinSamples h ≤ dCount s c i j)

/-- The deviations of the neighbours with their own data. -/
def neighbourDevs (s : State) (h : List Word) (c i j : Nat) : List Int :=
  (([i - 1, i + 1].filter (fun k => decide (k ≠ i ∧ k < 8))).filter (fun k => ownData s h c k j)).map
    (fun k => (lrnDly s c k j : Int) - (nomDly s c k j : Int))

/-- SRC and DLY_eff of cell (i, j) (table *Closing delay source*). -/
def closingDelay (s : State) (h : List Word) (c i j : Nat) : Nat × Nat :=
  if ownData s h c i j then (0, lrnDly s c i j)
  else
    match neighbourDevs s h c i j with
    | [] => (2, nomDly s c i j)
    | [d] => (1, (clampI 0 65535 ((nomDly s c i j : Int) + d)).toNat)
    | d :: e :: _ => (1, (clampI 0 65535 ((nomDly s c i j : Int) + (d + e).tdiv 2)).toNat)

end Sys2Proof.Machine
end

