-- ==== Sys2Proof/Machine/TraceBuf.lean ====
section
/-!
DEFINITION. The cycle trace: records, positions, the rewind mark (Queues, Transfers and the Cycle Trace, R372 to R380).
-/
namespace Sys2Proof.Machine

def traceSize : Nat := 1048576

def zeroWord : Nat → Word := fun _ => 0

/-- Word of the buffer at byte count `p`. -/
def Trace.at32 (q : Trace) (p : Nat) : Word := cget zeroWord q.buf (p % traceSize / 4)

/-- Words stored upward from byte count `p`. -/
def tracePut (buf : Cells Word) (p : Nat) : List Word → Cells Word
  | [] => buf
  | w :: t => tracePut (cset zeroWord buf (p % traceSize / 4) w) (p + 4) t

/-- Before a record of n bytes the mark is overtaken (R377). -/
def Trace.overtakes (q : Trace) (n : Nat) : Bool := q.markValid && decide (traceSize < q.wr + n - q.mark)

def Trace.loseMark (q : Trace) (n : Nat) : Trace :=
  if q.overtakes n then { q with markValid := false, rewindLost := true, markLost := satAdd 65535 q.markLost 1 } else q

/-- The record that holds RD, once RD has moved to its end or beyond, is the one at RD. -/
def Trace.fromHead : Nat → Trace → Trace
  | 0, q => q
  | k + 1, q =>
    let h := q.head + 8 * fld (q.at32 q.head) 27 24
    if h ≤ q.rd ∧ q.head < h ∧ h ≤ q.wr then Trace.fromHead k { q with head := h } else q

/-- RD at a record boundary. -/
def Trace.readAt (q : Trace) (p : Nat) : Trace := { q with rd := p, head := p }

/-- RD moves forward record by record while the record does not fit (R375). -/
def Trace.dropOld (n : Nat) : Nat → Trace → Trace
  | 0, q => q
  | k + 1, q =>
    if traceSize < q.wr + n - q.rd then
      Trace.dropOld n k { q.readAt (q.head + 8 * fld (q.at32 q.head) 27 24) with dropped := satAdd 65535 q.dropped 1, overrun := true }
    else q

/-- Write one record of `units` 8-byte units at WR (R372). -/
def Trace.raw (q : Trace) (family units hi : Nat) (body : List Word) : Trace :=
  let n := 8 * units
  let q := Trace.dropOld n 6 (q.loseMark n)
  { q with buf := tracePut q.buf q.wr (packWord [(family, 28), (units, 24), (q.tseq, 0)] :: ofNat32 hi :: body),
           wr := q.wr + n, tseq := (q.tseq + 1) % 16777216 }

/-- Bytes left before the end of the buffer. -/
def Trace.room (q : Trace) : Nat := traceSize - q.wr % traceSize

/-- A PAD record fills the remainder when n bytes do not fit (R372). -/
def Trace.pad (q : Trace) (n hi : Nat) : Trace :=
  if q.room < n then q.raw 0 (q.room / 8) hi (List.replicate (q.room / 4 - 2) 0) else q

/-- One record; `mark` sets MARK to its header (R376). -/
def Trace.record (q : Trace) (family hi : Nat) (body : List Word) (mark : Bool) : Trace :=
  let n := 8 + 4 * body.length
  let q := q.pad n hi
  let p := q.wr
  let q := q.raw family (n / 8) hi body
  if mark then { q with mark := p, markValid := true } else q

/-- The place of a family among the records of one FCLK cycle (R374). -/
def familyRank (family : Nat) : Nat :=
  match family with
  | 5 => 0 | 6 => 1 | 7 => 2 | 1 => 3 | 2 => 4 | 3 => 5 | _ => 6

/-- A record takes its place after those that do not rank behind it. -/
def placeRec (r : TRec) : List TRec → List TRec
  | [] => [r]
  | a :: t => if r.key < a.key then r :: a :: t else a :: placeRec r t

/-- One more record of the FCLK cycle of tick `now`: `same` says that it has written others, which are then written again in order
unless a reader has gone into them. MARK_LOST counts from 0 here. -/
def Trace.add (q : Trace) (same : Bool) (now : Nat) (r : TRec) : Trace :=
  let again := same && decide (q.rd ≤ q.wr0)
  let recs := if again then placeRec r q.recs else [r]
  let q := if again then { q with wr := q.wr0, tseq := q.tseq0 } else { q with wr0 := q.wr, tseq0 := q.tseq }
  recs.foldl (fun q r => q.record r.family r.hi r.body r.mark) { q with recs := recs, cycAt := now, markLost := 0 }

/-- A record of the trace while QUE_TRACE_CFG.EN is 1, in the order of R374 by family and then by `sub`; overtaking the mark asserts
source 10 (R377). -/
def traceWrite (s : State) (family sub : Nat) (body : List Word) (mark : Bool := false) : State :=
  if s.rb A.que 0 then
    let r : TRec := { key := familyRank family * 65536 + sub, family := family, hi := s.dtime / 2 ^ 32, body := body, mark := mark }
    let q := s.trace.add (s.clk.sameCycle s.trace.cycAt s.clk.now) s.clk.now r
    let s' := { s with trace := { q with markLost := satAdd 65535 s.trace.markLost q.markLost } }
    if q.markLost ≠ 0 then s'.arrive 10 else s'
  else s

/-- A MARK record (table *Mark record body*). -/
def traceMark (s : State) (kind dom cyc : Nat) : State :=
  traceWrite s 7 dom [packWord [(kind, 30), (dom, 28), (cyc, 0)], lo32 s.dtime] true

/-- TRACE_REWIND (R378): CSTAT, and the trace after it. -/
def traceRewind (q : Trace) : Nat × Trace :=
  if q.owner.isSome then (4, q)
  else if q.markValid then (0, q.readAt q.mark)
  else (1, { q with rewindLost := false })

/-- Whether byte count `p` is a record boundary: walking records from one before it reaches it. -/
def Trace.boundary (q : Trace) : Nat → Nat → Nat → Bool
  | 0, _, _ => false
  | k + 1, from_, p =>
    if from_ = p then true
    else if p < from_ ∨ fld (q.at32 from_) 27 24 = 0 then false
    else q.boundary k (from_ + 8 * fld (q.at32 from_) 27 24) p

/-- TRACE_ADVANCE (R379): CSTAT, and the trace after it. -/
def traceAdvance (q : Trace) (from_ n : Nat) : Nat × Trace :=
  if q.owner.isSome then (4, q)
  else if q.rd % traceSize ≠ from_ then (1, q)
  else if q.wr < q.rd + n then (2, q)
  else if q.boundary ((q.rd + n - q.head) / 8 + 1) q.head (q.rd + n) then (0, q.readAt (q.rd + n))
  else (3, q)

/-- QUE_TRACE_STATUS, WR, RD, MARK, CNT and CNT2 as read. -/
def traceView (q : Trace) (o : Nat) : Option Word :=
  if o = 4 then some (packWord [(q.owner.getD 0, 4), (b2n q.owner.isSome, 3), (b2n q.overrun, 2), (b2n q.rewindLost, 1), (b2n q.markValid, 0)])
  else if o = 8 then some (ofNat32 (q.wr % traceSize))
  else if o = 0xC then some (ofNat32 (q.rd % traceSize))
  else if o = 0x10 then some (ofNat32 (q.mark % traceSize))
  else if o = 0x14 then some (ofNat32 q.tseq)
  else if o = 0x18 then some (packWord [(q.markLost, 16), (q.dropped, 0)])
  else none

end Sys2Proof.Machine
end

