-- ==== Sys2Proof/Machine/Queue.lean ====
section
/-!
DEFINITION. Queue cells: packing, the chain, the level notice, flush and readers, and the triggers of the transfer
channels that depend on them (Queues, Transfers and the Cycle Trace, R344 to R358, R363, R364).
-/
namespace Sys2Proof.Machine

def noQCell : Nat → QCell := fun _ => {}
def State.qcell (s : State) (q : Nat) : QCell := cget noQCell s.que q
def State.setQ (s : State) (q : Nat) (c : QCell) : State := { s with que := cset noQCell s.que q c }

def noXCh : Nat → XCh := fun _ => {}
def State.xch (s : State) (n : Nat) : XCh := cget noXCh s.xfr.chans n
def State.setX (s : State) (n : Nat) (c : XCh) : State := { s with xfr := { s.xfr with chans := cset noXCh s.xfr.chans n c } }

/-- Fields of a transfer descriptor (table *Transfer descriptor*). -/
def xdDir (d : List Word) : Bool := wbit (wordAt d 0) 31
def xdEsize (d : List Word) : Nat := 2 ^ fld (wordAt d 0) 27 25
def xdPace (d : List Word) : Nat := fld (wordAt d 0) 23 21
def xdPsrc (d : List Word) : Nat := fld (wordAt d 0) 20 16
def xdEp (d : List Word) : Nat := fld (wordAt d 0) 13 12
def xdEpi (d : List Word) : Nat := fld (wordAt d 0) 4 0
/-- A loop count; 0 means 65,536. -/
def loopCount (n : Nat) : Nat := if n = 0 then 65536 else n
def xdC0 (d : List Word) : Nat := loopCount (fld (wordAt d 1) 15 0)
def xdC1 (d : List Word) : Nat := loopCount (fld (wordAt d 1) 31 16)
def xdC2 (d : List Word) : Nat := loopCount (fld (wordAt d 2) 15 0)
def xdTotal (d : List Word) : Nat := xdC0 d * xdC1 d * xdC2 d
def pair64 (d : List Word) (i : Nat) : Nat := (wordAt d i).toNat + 2 ^ 32 * (wordAt d (i + 1)).toNat

/-- The channel is RUN, WAIT or PARKED. -/
def XCh.active (c : XCh) : Bool := c.st == .run || c.st == .wait || c.st == .parked

/-- The channel whose descriptor in hand reads the trace (R380). -/
def traceReader (s : State) : Option Nat :=
  (List.range 32).find? (fun n => (s.xch n).active && (s.xch n).desc != [] && xdEp (s.xch n).desc == 1)

def noteOwner (s : State) : State := { s with trace := { s.trace with owner := traceReader s } }

/-- Width in bytes of a cell's items (QUE_q_CFG.WIDTH). -/
def qWidth (s : State) (q : Nat) : Nat := 2 ^ s.rf (A.queue q) 3 2
def qEnabled (s : State) (q : Nat) : Bool := s.rb (A.queue q) 0
def qLevel (s : State) (q : Nat) : Nat := s.rf (A.queue q) 20 16

/-- The enabled cell fed by a producer (R344). -/
def qFor (s : State) (kind inst : Nat) : Option Nat :=
  (List.range 24).find? (fun q => qEnabled s q && s.rf (A.queue q) 6 4 == kind && s.rf (A.queue q) 12 8 == inst)

/-- LEVEL_NOW (R350). -/
def levelNow (s : State) (q : Nat) : Bool := qEnabled s q && decide (qLevel s q ≤ (s.qcell q).words.length)

/-- Host address of element k of a descriptor (R360). -/
def elemAddr (d : List Word) (k : Nat) : Nat :=
  let i0 := k % xdC0 d
  let i1 := k / xdC0 d % xdC1 d
  let i2 := k / (xdC0 d * xdC1 d)
  ((pair64 d 3 : Int) + i0 * (wordAt d 5).toInt + i1 * (wordAt d 6).toInt + i2 * (wordAt d 7).toInt).emod (2 ^ 64) |>.toNat

/-- Two accesses make one request: contiguous, no longer than the limit, within one 4 KiB page (R361). -/
def joins (limit a n b m : Nat) : Bool := b == a + n && decide (n + m ≤ limit) && a / 4096 == (b + m - 1) / 4096

/-- Writes of elements combined into requests (R361). -/
def joinWrites (limit : Nat) (a : Nat) (l : List Byte) : List (Nat × List Byte) → List (Nat × List Byte)
  | [] => [(a, l)]
  | (b, m) :: t => if joins limit a l.length b m.length then joinWrites limit a (l ++ m) t else (a, l) :: joinWrites limit b m t

/-- Reads of elements combined into requests (R361). -/
def joinReads (limit : Nat) (a n : Nat) : List (Nat × Nat) → List (Nat × Nat)
  | [] => [(a, n)]
  | (b, m) :: t => if joins limit a n b m then joinReads limit a (n + m) t else (a, n) :: joinReads limit b m t

/-- The write requests for a list of element writes. -/
def writeRequests (limit : Nat) : List (Nat × List Byte) → List Sent
  | [] => []
  | (a, l) :: t => (joinWrites limit a l t).map (fun p => Sent.write p.1 p.2)

/-- The read requests for a list of element reads. -/
def readRequests (limit : Nat) : List (Nat × Nat) → List Sent
  | [] => []
  | (a, n) :: t => (joinReads limit a n t).map (fun p => Sent.read p.1 p.2)

/-- The host reads of the read a channel has outstanding: 64 bytes of descriptor, its LINK, or the elements left in the
block (R368, R371, R361). -/
def XCh.reads (c : XCh) (mrrs : Nat) : List Sent :=
  match c.reading with
  | .quiet => []
  | .desc => [.read c.addr 64]
  | .link => [.read (c.addr + 56) 8]
  | .data => readRequests mrrs ((List.range c.blockLeft).map (fun i => (elemAddr c.desc (c.moved + i), xdEsize c.desc)))

/-- GEN_PARK as a read of LINK is issued: the GEN of the latest poll whose data has returned (R368). -/
def XCh.noteGen (c : XCh) (gen : Nat) : XCh := if c.reading = .link then { c with genPark := gen } else c

/-- A channel's read is issued, or waits for the end of a suspension (R306). -/
def issueRead (s : State) (n : Nat) (k : XRead) : State :=
  let c := ({ s.xch n with reading := k, unsent := s.suspended } : XCh).noteGen s.hif.gen
  if s.suspended then s.setX n c else (s.setX n c).emit .transfer (c.reads s.hif.pci.mrrs)

/-- The writes and reads that waited for the end of a suspension are issued. -/
def resumeReads (s : State) : State :=
  (List.range 32).foldl (fun s n =>
    if (s.xch n).unsent then (s.setX n ({ s.xch n with unsent := false }.noteGen s.hif.gen)).emit .transfer ((s.xch n).reads s.hif.pci.mrrs)
    else s) (({ s with xfr := { s.xfr with late := [] } } : State).emit .transfer s.xfr.late)

/-- Transfer requests are issued, or wait for the end of a suspension (R306). -/
def State.emitXfr (s : State) (l : List Sent) : State :=
  if s.suspended then { s with xfr := { s.xfr with late := s.xfr.late ++ l } } else s.emit .transfer l

/-- A block starts: the data of a host-to-device block is read (R363). -/
def blockStart (s : State) (n : Nat) : State :=
  let s := s.setX n { s.xch n with st := .run, blockLeft := xdC0 (s.xch n).desc }
  if xdDir (s.xch n).desc then issueRead s n .data else s

/-- A trigger starts one block, is held while the channel runs, and is counted when one is already held (R363). -/
def trigger (s : State) (n : Nat) : State :=
  let c := s.xch n
  match c.st with
  | .wait => blockStart s n
  | .run => s.setX n (if c.trig then { c with missed := satAdd 65535 c.missed 1 } else { c with trig := true })
  | _ => s

/-- The channels paced by `pace` from source `src` are triggered. -/
def xfrTrigger (s : State) (pace src : Nat) : State :=
  (List.range 32).foldl (fun s n =>
    if (s.xch n).desc ≠ [] ∧ xdPace (s.xch n).desc = pace ∧ xdPsrc (s.xch n).desc = src then trigger s n else s) s

/-- QLEVEL channels of cell q start a block while none runs and LEVEL_NOW is 1 (R364). -/
def qlevelStart (s : State) (q : Nat) : State :=
  if levelNow s q then
    (List.range 32).foldl (fun s n =>
      let c := s.xch n
      if c.desc ≠ [] ∧ xdPace c.desc = 3 ∧ xdEp c.desc = 0 ∧ xdEpi c.desc = q ∧ c.st = .wait then blockStart s n else s) s
  else s

/-- A word entering a full chain discards the word at the head (R348 step 4, R349), which a reader of the same FCLK cycle has taken
in step 1: it is kept as `shed`. -/
def QCell.enter (c : QCell) (width : Nat) (w : QWord) : QCell :=
  match c.words with
  | h :: t =>
    if c.words.length < 16 then { c with words := c.words ++ [w] }
    else { c with words := t ++ [w], lost := satAdd 65535 c.lost (h.valid / width), shed := some (h, c.lost), shedAt := w.entered }
  | [] => { c with words := [w] }

/-- The open word padded with zero bytes and tagged (R347). -/
def QCell.closed (c : QCell) (now : Nat) : QWord :=
  { bytes := c.opened ++ List.replicate (16 - c.opened.length) 0, valid := c.opened.length, entered := now }

/-- Close the open word; an empty one closes nothing (R347). -/
def QCell.close (c : QCell) (width now : Nat) : QCell :=
  if c.opened = [] then c else { (c.enter width (c.closed now)) with opened := [] }

/-- One item into the open word, which closes when its last byte is filled (R346). -/
def QCell.item (c : QCell) (width now : Nat) (bytes : List Byte) : QCell :=
  let c := { c with opened := c.opened ++ bytes, lastItem := now }
  if 16 ≤ c.opened.length then c.close width now else c

/-- The level notice after a change of cell q from `before` (R351). -/
def levelNotice (s : State) (q : Nat) (before : Bool) : State :=
  if levelNow s q ∧ ¬ before then
    let c := s.qcell q
    (s.setQ q { c with levelEvt := true, cross := satAdd 255 c.cross 1, crossAt := some s.clk.now, evtBefore := c.levelEvt,
                       crossBefore := c.cross }).arrive (224 + q)
  else s

/-- Cell q becomes `c`: the level notice and the QLEVEL starts follow. -/
def qChange (s : State) (q : Nat) (c : QCell) : State :=
  let before := levelNow s q
  qlevelStart (levelNotice (s.setQ q c) q before) q

/-- The low bytes of an item of the cell's width. -/
def itemBytes (width : Nat) (w : Word) : List Byte := (wordBytes w).take width

/-- Items of the newest group that have arrived by now: one in each FCLK cycle from the first. -/
def groupArrived (s : State) (c : QCell) : Nat := ((List.range c.groupN).filter (fun j => decide (c.groupAt + s.fclk j ≤ s.clk.now))).length

/-- Items of a flushed group that are still to come and to be discarded (R355). -/
def cutLeft (s : State) (c : QCell) : Nat := min c.cut (c.groupN - groupArrived s c)

/-- FLUSHED as it stands: the items of a flushed group that have arrived since are counted (R355). -/
def flushedNow (s : State) (c : QCell) : Nat := satAdd 65535 c.flushed (c.cut - cutLeft s c)

/-- A group of n items begins; what was left of a flushed one has arrived. -/
def QCell.newGroup (c : QCell) (now n : Nat) : QCell :=
  { c with flushed := satAdd 65535 c.flushed c.cut, cut := 0, groupAt := now, groupN := n }

/-- Items of a producer: into its cell, or discarded and counted (R344). `isGroup` says that they are a group, whose end closes the
word (R347). -/
def qProduce (s : State) (kind inst : Nat) (items : List Word) (isGroup : Bool := false) : State :=
  match qFor s kind inst with
  | none => s.setReg 0x9020 (ofNat32 (satAdd 0xFFFFFFFF (s.reg 0x9020).toNat items.length))
  | some q =>
    let w := qWidth s q
    let c := if isGroup then (s.qcell q).newGroup s.clk.now items.length else s.qcell q
    let c := items.foldl (fun c x => c.item w s.clk.now (itemBytes w x)) c
    qChange s q (if isGroup then c.close w s.clk.now else c)

/-- Close the open word of a producer's cell: the end of a burst (R347). -/
def qEndBurst (s : State) (kind inst : Nat) : State :=
  match qFor s kind inst with
  | none => s
  | some q => qChange s q ((s.qcell q).close (qWidth s q) s.clk.now)

/-- Items held by a cell, whole words and the open word (R354). -/
def QCell.items (c : QCell) (width : Nat) : Nat :=
  (c.words.foldl (fun n w => n + w.valid / width) 0) + c.opened.length / width

/-- A flush empties the cell and counts its items (R354); `left` items of a group are still to come (R355). -/
def QCell.flush (c : QCell) (width left : Nat) : QCell :=
  { c with words := [], opened := [], flushed := satAdd 65535 c.flushed (c.items width - left), cut := c.cut + min left (c.items width),
           shed := none }

/-- Items of the newest group that a flush finds still to come: those it has not already cut. -/
def groupLeft (s : State) (c : QCell) : Nat := if c.cut = 0 then c.groupN - groupArrived s c else 0

def qFlush (s : State) (q : Nat) : State := s.setQ q ((s.qcell q).flush (qWidth s q) (groupLeft s (s.qcell q)))

/-- The cell has crossed its level upward in the FCLK cycle that runs. -/
def crossedNow (s : State) (q : Nat) : Bool :=
  match (s.qcell q).crossAt with
  | some a => s.clk.sameCycle a s.clk.now
  | none => false

/-- LEVEL_EVT and CROSS_CNT cleared (R352); a crossing of the same FCLK cycle comes after that (R353). -/
def qAck (s : State) (q : Nat) : State :=
  s.setQ q { s.qcell q with levelEvt := crossedNow s q, cross := b2n (crossedNow s q), evtBefore := false, crossBefore := 0 }

/-- LEVEL_EVT and CROSS_CNT as an acknowledgement finds them: from before a crossing of the same FCLK cycle (R353). -/
def ackWord (s : State) (q : Nat) : Word :=
  let c := s.qcell q
  if crossedNow s q then packWord [(b2n c.evtBefore, 8), (c.crossBefore, 0)] else packWord [(b2n c.levelEvt, 8), (c.cross, 0)]

/-- The word discarded from the head in the FCLK cycle that runs. -/
def shedNow (s : State) (c : QCell) : Option (QWord × Nat) := if s.clk.sameCycle c.shedAt s.clk.now then c.shed else none

/-- The word that the reader finds at stage 0 in this FCLK cycle: the oldest word once 15 FCLK cycles have passed since it entered; a
reader takes one word in a cycle, ahead of what the cycle discards (R348). -/
def qHead (s : State) (q : Nat) : Option QWord :=
  let c := s.qcell q
  let w := match shedNow s c with
    | some p => some p.1
    | none => c.words.head?
  match w, c.tookAt with
  | some w, none => if w.entered + s.fclk 15 ≤ s.clk.now then some w else none
  | some w, some a => if w.entered + s.fclk 15 ≤ s.clk.now ∧ ¬ s.clk.sameCycle a s.clk.now then some w else none
  | none, _ => none

/-- The reader takes the word at stage 0 (R348 step 1). -/
def qTake (s : State) (q : Nat) : State :=
  let c := s.qcell q
  match shedNow s c with
  | some p => s.setQ q { c with shed := none, lost := p.2, tookAt := some s.clk.now }
  | none => s.setQ q { c with words := c.words.tail, tookAt := some s.clk.now }

/-- The capture ring that names cell q (R314, check 6). -/
def captureRing (s : State) (q : Nat) : Option Nat :=
  (List.range 64).find? (fun r => ringOn s r && ringType s r == 3 && s.rf (A.ring r) 28 24 == q)

/-- Words 0 to 6 of a capture (table *Capture entry*). -/
def captureWords (s : State) (q seq : Nat) (w : QWord) : List Word :=
  bytesWords w.bytes ++ [packWord [(q, 8), (w.valid, 0)], packWord [(seq, 0)], lo32 s.dtime]

def noRing : Nat → RingRt := fun _ => {}
def State.ring (s : State) (r : Nat) : RingRt := cget noRing s.hif.rings r
def State.setRing (s : State) (r : Nat) (x : RingRt) : State :=
  { s with hif := { s.hif with rings := cset noRing s.hif.rings r x } }

/-- A 64-byte capture entry with one or two words (R358); an absent second word has VALID_BYTES 0. -/
def capturePair (s : State) (r : Nat) (second : List Word) : State :=
  let x := s.ring r
  let l := x.first ++ [0] ++ (if second = [] then List.replicate 8 0 else second ++ [0])
  ringOffer (s.setRing r { x with first := [], firstAt := 0 }) r l

/-- A capture ring takes one word (R358). -/
def captureTake (s : State) (r q : Nat) (w : QWord) : State :=
  let ws := captureWords s q (ringDev s r) w
  if ringBytes s r = 32 then ringOffer s r (ws ++ [0])
  else if (s.ring r).first ≠ [] then capturePair s r ws
  else if w.valid < 16 then capturePair (s.setRing r { s.ring r with first := ws, firstAt := s.clk.now }) r []
  else s.setRing r { s.ring r with first := ws, firstAt := s.clk.now }

/-- QUEUE_CLOSE_TIMEOUT (R347): CLOSE_TO µs have passed without an item. -/
def queueCloseTimeout (s : State) (q : Nat) : State :=
  let closeTo := s.rf (A.queue q) 31 24
  if closeTo ≠ 0 ∧ (s.qcell q).opened ≠ [] ∧ (s.qcell q).lastItem + usTicks closeTo ≤ s.clk.now then
    qChange s q ((s.qcell q).close (qWidth s q) s.clk.now)
  else s

/-- QUE_q_STATUS and QUE_q_CNT as read. -/
def queView (s : State) (o : Nat) : Option Word :=
  if o < 0x100 then traceView s.trace o
  else if o < 0x400 ∧ o % 0x20 = 4 then
    let q := (o - 0x100) / 0x20
    let c := s.qcell q
    some (packWord [(c.cross, 24), (b2n c.levelEvt, 17), (b2n (levelNow s q), 16), (c.opened.length, 8), (c.words.length, 0)])
  else if o < 0x400 ∧ o % 0x20 = 8 then
    let c := s.qcell ((o - 0x100) / 0x20)
    some (packWord [(flushedNow s c, 16), (c.lost, 0)])
  else none

end Sys2Proof.Machine
end

