-- ==== Sys2Proof/Machine/Stage.lean ====
section
/-!
DEFINITION. Bank and channel outputs: gates, the high-side stage, regulation, and the records of a bank (Actuator Drive
and Current Profiles, R182 to R203, R216 to R220; Sensing Closure and Closing the Loops, R261).
-/
namespace Sys2Proof.Machine

def noCell : Nat → Cell := fun _ => {}
def noBank : Nat → Bank := fun _ => {}
def State.cell (s : State) (c : Nat) : Cell := cget noCell s.cells c
def State.setCell (s : State) (c : Nat) (x : Cell) : State := { s with cells := cset noCell s.cells c x }
def State.bank (s : State) (b : Nat) : Bank := cget noBank s.banks b
def State.setBank (s : State) (b : Nat) (x : Bank) : State := { s with banks := cset noBank s.banks b x }

/-- The four channels of a bank. -/
def chansOf (b : Nat) : List Nat := (List.range 4).map (4 * b + ·)

def chEn (s : State) (c : Nat) : Bool := s.rb (A.cell c) 0
def chProp (s : State) (c : Nat) : Bool := s.rb (A.cell c) 1
/-- A proportional bank (KIND of DRV_BANK_b_STATUS). -/
def bankProp (s : State) (b : Nat) : Bool := (chansOf b).any (fun c => chEn s c && chProp s c)
/-- A shot bank with at least one channel enabled. -/
def bankShot (s : State) (b : Nat) : Bool := (chansOf b).any (fun c => chEn s c && !chProp s c)

def State.shot (s : State) (c : Nat) : Option Shot := (s.cell c).run
def State.setShot (s : State) (c : Nat) (x : Shot) : State := s.setCell c { s.cell c with run := some x }

/-- The phase entry a shot is in. -/
def Shot.entry (x : Shot) : Nat := phEntry x.words x.phase
def Shot.kind (x : Shot) : Nat := phKind x.entry
def Shot.endPh (x : Shot) : Nat := pfEnd x.words
/-- SRC in force: WEAK_BOOST runs every boost-sourced phase from supply (R206). -/
def Shot.src (x : Shot) : Nat := if x.weak ∧ phSrc x.entry = 1 then 2 else phSrc x.entry
/-- A sourced phase: BOOST, PEAK, HOLD or PROPORTIONAL. -/
def Shot.sourced (x : Shot) : Bool := decide (1 ≤ x.kind ∧ x.kind ≤ 4)

/-! ### Gates -/

/-- Level of an output at a tick. -/
def Gate.levelAt (g : Gate) (tick : Nat) : Bool := if g.at_ ≤ tick then g.level else g.was

/-- A fall still to come is brought forward to tick `at_`: the output belongs low by then (R182). -/
def Gate.sooner (g : Gate) (level now_ : Bool) (at_ : Nat) : Bool := now_ && !level && !g.level && decide (at_ < g.at_)

/-- The tick of the last edge made by `now`. -/
def Gate.lastEdge (g : Gate) (now : Nat) : Nat := if g.at_ ≤ now ∧ g.was ≠ g.level then g.at_ else g.prevAt

/-- An output is to have a level from tick `at_`; a change not yet made is withdrawn, and a fall not yet made comes forward when
`now_` says that nothing holds it back. -/
def Gate.drive (g : Gate) (level now_ : Bool) (at_ now : Nat) : Gate :=
  if g.level = level then (if g.sooner level now_ at_ then { g with at_ := at_, fell := at_ } else g)
  else if now < g.at_ then { g with level := level, was := level, at_ := now }
  else { level := level, was := g.level, at_ := at_, fell := if level then g.fell else at_, prevAt := g.lastEdge now }

/-- The blanking that an edge of an output starts in windows `ws`, or that a withdrawn edge takes back. -/
def gateBlank (s : State) (ws : List Nat) (g : Gate) (level now_ : Bool) (at_ : Nat) : State :=
  if g.level = level then (if g.sooner level now_ at_ then ws.foldl (fun s w => blankEdge (unblankEdge s w) w at_) s else s)
  else if s.clk.now < g.at_ then ws.foldl unblankEdge s
  else ws.foldl (fun s w => blankEdge s w at_) s

/-- Channel c has entered the phase it is in by tick `at_`, or runs none: its outputs belong to it. -/
def chanSettled (s : State) (at_ c : Nat) : Bool := ((s.shot c).map (fun x => decide (x.phaseAt ≤ at_))).getD true

/-- LSG of channel c (R182); its own window may be blanked. -/
def setLsg (s : State) (c : Nat) (level : Bool) (at_ : Nat) : State :=
  let g := (s.cell c).lsg
  let now_ := chanSettled s at_ c
  let s := gateBlank s (if s.rb (A.win c) 0 then [c] else []) g level now_ at_
  s.setCell c { s.cell c with lsg := g.drive level now_ at_ s.clk.now }

/-- The windows an edge of HSB_b or HSS_b blanks: the bank's own, and the general and zero-cross ones that select it. -/
def hsBlanked (s : State) (b : Nat) (isHsb : Bool) : List Nat := bankBlanked s b isHsb ++ sourceBlanked s (33 + b)

/-- HSB_b or HSS_b, with the blanking its edges start. -/
def setHs (s : State) (b : Nat) (isHsb level : Bool) (at_ : Nat) : State :=
  let g := if isHsb then (s.bank b).hsb else (s.bank b).hss
  let now_ := (chansOf b).all (chanSettled s at_)
  let s := gateBlank s (hsBlanked s b isHsb) g level now_ at_
  let x := s.bank b
  s.setBank b (if isHsb then { x with hsb := g.drive level now_ at_ s.clk.now } else { x with hss := g.drive level now_ at_ s.clk.now })

/-! ### The high-side stage -/

/-- The rows of the table *High-side stage* (R200). `unstated` is a boost-sourced phase outside any boost period beside
another sourced phase, for which no row holds. -/
inductive StageCase where
  | quiet
  | boostOn (c : Nat)
  | boostOff (c : Nat)
  | single (c : Nat)
  | shared
  | unstated
  deriving DecidableEq, Repr

def sourcedIn (s : State) (b : Nat) : List Nat := (chansOf b).filter (fun c => ((s.shot c).map (·.sourced)).getD false)
def supplyIn (s : State) (b : Nat) : List Nat := (sourcedIn s b).filter (fun c => ((s.shot c).map (·.src)).getD 0 == 2)
def boostIn (s : State) (b : Nat) : List Nat := (sourcedIn s b).filter (fun c => ((s.shot c).map (·.src)).getD 0 == 1)
def shotOn (s : State) (c : Nat) : Bool := ((s.shot c).map (·.on)).getD false

/-- The channel in its boost period, when it is in a boost-sourced phase. -/
def boostChan (s : State) (b : Nat) : Option Nat :=
  match (s.bank b).boost with
  | some p => if (boostIn s b).contains (4 * b + p) then some (4 * b + p) else none
  | none => none

def stageCase (s : State) (b : Nat) : StageCase :=
  match boostChan s b, sourcedIn s b with
  | _, [] => .quiet
  | some c, l =>
    if shotOn s c then .boostOn c
    else if supplyIn s b ≠ [] then .boostOff c
    else match l with | [d] => .single d | _ => .unstated
  | none, [c] => .single c
  | none, _ => if boostIn s b = [] then .shared else .unstated

/-- Levels of HSB_b and HSS_b; a row the table does not give leaves them free, never both high (R202). -/
def stageLevels (s : State) (b : Nat) : Bool × Bool :=
  if bankProp s b then (false, (chansOf b).any (fun c => (s.shot c).isSome))
  else
    match stageCase s b with
    | .quiet => (false, false)
    | .boostOn _ => (true, false)
    | .boostOff _ => (false, true)
    | .single c => (shotOn s c && ((s.shot c).map (·.src)).getD 0 == 1, shotOn s c && ((s.shot c).map (·.src)).getD 0 == 2)
    | .shared => (false, true)
    | .unstated => (wbit (Config.freeWord s.free) 0, !wbit (Config.freeWord s.free) 0 && wbit (Config.freeWord s.free) 1)

/-- LSG in an off interval or DECAY phase by decay mode; SLOW holds the low side on while the node is not driven (R189,
R201). -/
def decayLsg (mode now since mix : Nat) (driven : Bool) : Bool :=
  match mode with
  | 0 => !driven
  | 1 => false
  | _ => if now < since + mix then false else !driven

/-- LSG of a running shot. -/
def lsgTarget (s : State) (b : Nat) (driven : Bool) (x : Shot) : Bool :=
  if x.withheld then false
  else if bankProp s b then x.kind != 5 && x.on
  else if x.kind = 5 then decayLsg (phDecay x.entry) s.clk.now x.phaseAt (pfMix x.words) driven
  else if x.on then true
  else
    match stageCase s b with
    | .single _ => decayLsg (phDecay x.entry) s.clk.now x.offAt (pfMix x.words) false
    | _ => false

/-- A DECAY phase whose SLOW part is forced to FAST is counted once (R201). -/
def countForced (s : State) (b c : Nat) (driven : Bool) (x : Shot) : State :=
  if x.kind = 5 ∧ driven ∧ ¬ bankProp s b ∧ ¬ x.forced ∧
      (phDecay x.entry = 0 ∨ (phDecay x.entry = 2 ∧ x.phaseAt + pfMix x.words ≤ s.clk.now)) then
    (s.setShot c { x with forced := true }).cntSat (A.cell c + 0x18) 15 0
  else s

/-- LSG of channel c follows its shot; an idle cell's output is low (R182). -/
def chanEval (b at_ : Nat) (driven : Bool) (s : State) (c : Nat) : State :=
  match s.shot c with
  | none => setLsg s c false at_
  | some x => countForced (setLsg s c (lsgTarget s b driven x) at_) b c driven x

/-- DEAD in ticks. -/
def deadTicks (s : State) (b : Nat) : Nat := 4 * s.rf (A.bank b + 0x404) 23 16

/-- The outputs of a bank follow its shots from `lat` ticks on: falling edges first, then rising ones after the dead
time (R200, R202). -/
def bankEval (s : State) (b lat : Nat) : State :=
  let at_ := s.clk.now + lat
  let (hb, hs) := stageLevels s b
  let s := if stageCase s b = .unstated then { s with free := s.free + 1 } else s
  let s := if hb then s else setHs s b true false at_
  let s := if hs then s else setHs s b false false at_
  let s := if hb then setHs s b true true (max at_ ((s.bank b).hss.fell + deadTicks s b)) else s
  let s := if hs then setHs s b false true (max at_ ((s.bank b).hsb.fell + deadTicks s b)) else s
  (chansOf b).foldl (chanEval b at_ (hb || hs)) s

/-- The high side is driven. -/
def driven (s : State) (b : Nat) : Bool := let l := stageLevels s b; l.1 || l.2

/-- A MIXED off interval or DECAY phase whose window is not acted on (R614): its FAST part, and the SLOW part until LSG is on and the
blanking that its edge starts has ended. A SLOW part forced to FAST (R201) and regulation by the own low side have no such part. -/
def inMixFast (s : State) (c : Nat) (x : Shot) : Bool :=
  let b := c / 4
  let fast := decide (s.clk.now < (if x.kind = 5 then x.phaseAt else x.offAt) + pfMix x.words)
  let slow := if x.kind = 5 then !driven s b else stageCase s b == .single c
  let blank := (s.win c).blanking s.clk.now || (s.win c).blanking (s.clk.now + 1)
  phDecay x.entry == 2 && !x.on && !bankProp s b && (if x.kind = 5 then fast || slow && (!x.withheld && !(s.cell c).lsg.level || blank)
                                                       else slow && (fast || !(s.cell c).lsg.level || blank))

/-- Regulation: on at BELOW, off at ABOVE, unchanged while INSIDE (R188). -/
def regulate (s : State) (c : Nat) : State :=
  match s.shot c with
  | none => s
  | some x =>
    if x.kind < 2 ∨ 4 < x.kind ∨ inMixFast s c x then s
    else if s.level c = 1 then s.setShot c { x with on := true }
    else if s.level c = 3 ∧ x.on then s.setShot c { x with on := false, offAt := s.clk.now }
    else s

/-! ### Thresholds -/

/-- LO and HI of the phase a shot is in (R184, R219, R232). -/
def shotThresholds (x : Shot) : Nat × Nat :=
  let e := x.entry
  if x.kind = 1 then (mhOpenCode x.hdr, phHi e)
  else if x.kind = 4 then
    let d : Int := if pfDither x.words = 0 then 0 else if x.dithPos then pfAmp x.words else -(pfAmp x.words : Int)
    ((clampI 0 1023 (phLo e + d)).toNat, (clampI 0 1023 (phHi e + d)).toNat)
  else (phLo e, phHi e)

/-- IDLE_CODE and IDLE_T in force: those of a header written by MODEL_WRITE come into force with the next admission (R243). -/
def idleCode (s : State) (c : Nat) : Nat := ((s.cell c).idleHdr.map (·.1)).getD (mhIdleCode (s.header c))
def idleTime (s : State) (c : Nat) : Nat := ((s.cell c).idleHdr.map (·.2)).getD (mhIdleT (s.header c))

/-- LO and HI as window w has them loaded: a cell's own, IDLE_CODE twice while it runs no profile (R236), or the THR register's. -/
def winSet (s : State) (w : Nat) : Nat × Nat :=
  if w < 64 then
    (if (s.shot w).isSome then ((s.win w).thrLo, (s.win w).thrHi) else (idleCode s w, idleCode s w))
  else (s.rf (A.win w + 4) 9 0, s.rf (A.win w + 4) 25 16)

/-- LO and HI in effect: newly loaded ones from the next ECLK edge on (R294). -/
def winThr (s : State) (w : Nat) : Nat × Nat :=
  if s.clk.now ≤ (s.win w).loadAt ∧ (s.win w).loadAt ≠ 0 then ((s.win w).oldLo, (s.win w).oldHi) else winSet s w

/-- Hysteresis of a window's LO and HI elements in mV. -/
def winHys (s : State) (w : Nat) : Nat × Nat :=
  if w < 80 then (s.rf (A.win w) 11 8, s.rf (A.win w) 15 12) else (s.rf (A.win w) 13 10, s.rf (A.win w) 17 14)

/-- The LO and HI elements of window w with the input at `uv` µV as each sees it, its own offset included (R291, R294; table *Comparator
characteristics*). -/
def winJudge (s : State) (w : Nat) (uv : Int × Int) : Bool × Bool :=
  (elementAt (winThr s w).1 (winHys s w).1 uv.1 (s.win w).lo, elementAt (winThr s w).2 (winHys s w).2 uv.2 (s.win w).hi)

/-- The elements at the initial decision (R296). -/
def winFirst (s : State) (w : Nat) (uv : Int × Int) : Bool × Bool :=
  (elementFirst (winThr s w).1 uv.1 (wbit (Config.freeWord s.free) 0), elementFirst (winThr s w).2 uv.2 (wbit (Config.freeWord s.free) 1))

def loadThresholds (s : State) (c at_ : Nat) : State :=
  match s.shot c with
  | none => s
  | some x => winLoad s c (winThr s c) (shotThresholds x) at_

/-- A cell that runs no profile any more loads IDLE_CODE (R236). -/
def loadIdle (s : State) (c : Nat) : State :=
  s.setWin c { s.win c with oldLo := (s.win c).thrLo, oldHi := (s.win c).thrHi, loadAt := s.clk.now }

/-- A write of THR of a boost, general or zero-cross window: the thresholds before it stand until the next ECLK edge (R294). -/
def winThrWrite (s : State) (w : Nat) (v : Word) : State :=
  let old := winThr s w
  let a := A.win w + 4
  (s.setWin w { s.win w with oldLo := old.1, oldHi := old.2, loadAt := s.clk.now }).setReg a (plainWrite a (s.reg a) v)

/-- CMP_CH_c_THR: the loaded thresholds. -/
def chanThr (s : State) (c : Nat) : Word := packWord [((winSet s c).2, 16), ((winSet s c).1, 0)]

/-! ### Records -/

/-- DELAY of a drive record: 10 ns units, saturating. -/
def delayField (s : State) (arrived : Nat) : Nat := min 65535 ((s.clk.now - arrived) / 4)

/-- Phase of a channel's profile; 0 when none runs. -/
def phaseNow (s : State) (c : Nat) : Nat := ((s.shot c).map (·.phase)).getD 0

/-- Words of a drive record (table *Drive record*). -/
def driveWords (s : State) (kind reason : Nat) (cmd : StartCmd) (delay other flags phase : Nat) : List Word :=
  [packWord [(kind, 28), (reason, 24), (cmd.region, 21), (cmd.chan, 10), (cmd.slot, 0)],
   packWord [(cmd.prof, 16), (delay, 0)], packWord [(other, 8), (flags, 4), (phase, 0)], lo32 s.dtime]

/-- A drive record: cycle trace, drive interrupt, outcome telemetry, LAST registers (R220). -/
def driveRecord (s : State) (kind reason : Nat) (cmd : StartCmd) (delay other flags : Nat) : State :=
  let b := cmd.chan / 4
  let ws := driveWords s kind reason cmd delay other flags (phaseNow s cmd.chan)
  ((tlmRecord (traceWrite s 2 cmd.chan ws) 2 none ws).setRegs (A.bank b + 0x420) ws).arrive (144 + b)

/-- A diagnostic record: cycle trace, drive interrupt, outcome telemetry (R261). -/
def diagRecord (s : State) (c code : Nat) (disabled escalated : Bool) (slot value run prof phase region : Nat) : State :=
  let ws := [packWord [(5, 28), (code, 20), (b2n disabled, 19), (b2n escalated, 18), (c, 10), (slot, 0)],
             packWord [(value, 16), (run, 8), (prof, 4), (phase, 0)], packWord [(region, 0)], lo32 s.dtime]
  (tlmRecord (traceWrite s 3 c ws) 3 none ws).arrive (144 + c / 4)

/-! ### The scheduler's running events, as a bank closes them -/

/-- The slot with a running event, or an event in its hold, of this channel and start closed. -/
def Slot.closeRun (x : Slot) (chan start : Nat) : Slot :=
  { x with running := x.running.filter (fun r => !(r.chan == chan && r.start == start)),
           held := x.held.filter (fun r => !(r.chan == chan && r.start == start)) }

def noSlot : Nat → Slot := fun _ => {}
def SUnit.slot (u : SUnit) (i : Nat) : Slot := cget noSlot u.slots i
def SUnit.setSlot (u : SUnit) (i : Nat) (x : Slot) : SUnit := { u with slots := cset noSlot u.slots i x }

/-- The running event of a start closes with no scheduler outcome (R192, R215, R237): every unit that holds it. -/
def evsClose (s : State) (cmd : StartCmd) : State :=
  (List.range 5).foldl (fun s u =>
    s.setUnit u ((s.unit u).setSlot cmd.slot (((s.unit u).slot cmd.slot).closeRun cmd.chan cmd.start))) s

end Sys2Proof.Machine
end

