-- ==== Sys2Proof/Machine/Sense.lean ====
section
/-!
DEFINITION. Closing windows, the kink detector, learning and peak times (Sensing Closure and Closing the Loops, R222 to
R260).
-/
namespace Sys2Proof.Machine

/-! ### The kink detector (R227 to R229) -/

def addL (a b : List Int) : List Int := List.zipWith (· + ·) a b
def subL (a b : List Int) : List Int := List.zipWith (· - ·) a b

/-- y, s and c of the detector. -/
def kinkY (x : List Int) : List Int := let z := addL x (x.drop 1); addL z (z.drop 2)
def kinkS (y : List Int) : List Int := subL (y.drop 4) y
def kinkC (sigma : Int) (x : List Int) : List Int :=
  let sl := kinkS (kinkY x)
  (subL (sl.drop 4) sl).map (fun v => sigma * v)

def maxL : List Int → Int
  | [] => 0
  | a :: t => t.foldl max a

/-- The lowest index of a value. -/
def indexOf (v : Int) (l : List Int) : Nat := (l.takeWhile (fun a => decide (a ≠ v))).length

/-- The curvatures outside k − 4 .. k + 4. -/
def kinkOutside (k : Nat) (c : List Int) : List Int :=
  ((c.zipIdx).filter (fun p => decide (p.2 + 4 < k ∨ k + 4 < p.2))).map (·.1)

/-- The quotient rounded to the nearest integer, halves away from zero. -/
def roundHalfAway (n d : Int) : Int :=
  let q : Int := ((2 * n.natAbs + d.natAbs) / (2 * d.natAbs) : Nat)
  if (n < 0) = (d < 0) then q else -q

/-- What the detector finds: k, r, r2, m, q and EDGE. -/
structure KinkFit where
  k : Nat
  r : Int
  r2 : Int
  m : Int
  q : Int
  edge : Bool
  deriving DecidableEq, Repr

/-- The vertex of the parabola through the three curvatures around k (R227). -/
def kinkVertex (c : List Int) (k : Nat) (r : Int) : Int :=
  let a := c.getD (k - 1) 0
  let d := c.getD (k + 1) 0
  let den := a - 2 * r + d
  if den = 0 then 0 else clampI (-2) 2 (roundHalfAway (2 * (a - d)) den)

/-- The detector; at behaviour level 1 q is 0 in every window (R604). -/
def kinkFit (level1 : Bool) (sigma : Int) (x : List Int) : KinkFit :=
  let c := kinkC sigma x
  let r := maxL c
  let k := indexOf r c
  let o := kinkOutside k c
  let m := max 1 ((o.foldl (fun acc v => acc + (v.natAbs : Int)) 0) / (o.length : Int))
  let atEdge := decide (k = 0 ∨ k + 1 = c.length)
  { k := k, r := r, r2 := maxL o, m := m, q := if atEdge || level1 then 0 else kinkVertex c k r, edge := atEdge }

/-- STATUS and GRADE of a fit (R228, R229); `worse` is DISTURBED or a sample with OVR. -/
def kinkGrade (f : KinkFit) (worse : Bool) : Nat × Nat :=
  if f.r ≤ 0 ∨ f.r < 2 * f.m then (1, 0)
  else
    let g := if 8 * f.m ≤ f.r ∧ 2 * f.r2 ≤ f.r then 3 else if 4 * f.m ≤ f.r ∧ 4 * f.r2 ≤ 3 * f.r then 2 else 1
    (0, if worse ∨ f.edge then 1 else g)

/-- TCLOSE in 0.25 µs units from t_e. -/
def kinkTclose (delay : Nat) (f : KinkFit) : Nat := (4 * (delay : Int) + 4 * (f.k : Int) + 22 + f.q).toNat

/-! ### Closing records -/

/-- The result of a window as its record carries it. -/
structure Closing where
  status : Nat
  grade : Nat := 0
  tclose : Nat := 0
  ratio : Nat := 0
  edge : Bool := false
  learned : Bool := false
  deriving DecidableEq, Repr

/-- Delivered duration: t_e − start instant + 100 × TCLOSE ticks, only when STATUS is OK. -/
def delivered (k : Kink) (r : Closing) : Nat := if r.status = 0 then k.te - k.shot.cmd.start + 100 * r.tclose else 0

/-- Words of a closing record (table *Closing record*). -/
def closingWords (s : State) (k : Kink) (r : Closing) : List Word :=
  let x := k.shot
  let d := x.cond
  [packWord [(1, 28), (r.grade, 26), (x.cause, 24), (x.cmd.region, 21), (b2n (d.src != 0), 20), (b2n k.disturbed, 19),
             (b2n r.edge, 18), (b2n k.ovr, 17), (b2n r.learned, 16), (x.cmd.chan, 10), (x.cmd.slot, 0)],
   packWord [(if r.status = 0 then r.tclose else 0, 16), (match x.peak with | some p => min 65535 (p / 40) | none => 65535, 0)],
   ofNat32 (delivered k r), ofInt32 x.tau,
   packWord [(r.ratio, 16), (r.status, 12), (d.pbin.getD 0, 9), (d.bbin, 7), (d.src, 5), (b2n x.weak, 4), (x.cmd.prof, 0)],
   packWord [(if d.pbin.isSome then d.dly else 0, 16), (b2n d.pbin.isNone, 0)],
   lo32 (s.dtimeOf k.te), hi32 (s.dtimeOf k.te)]

/-- GRADES counts every result by grade. -/
def countGrade (s : State) (c grade : Nat) : State := s.cntSat (A.sns c + 0x10) (8 * grade + 7) (8 * grade)

/-- A closing record: cycle trace, the bank's kink producer, LAST registers (R260). -/
def closingRecord (s : State) (k : Kink) (r : Closing) : State :=
  let c := k.shot.cmd.chan
  let ws := closingWords s k r
  ((qProduce (traceWrite (countGrade s c r.grade) 4 c ws) 3 (c / 4) ws true).setRegs (A.snsLast c) (ws.take 4))

/-- A window that ends: a high-side edge since its opening has disturbed it (R226), but for the one its own entry to END_PH decides, one
ECLK edge later (R193; DEDUCED: log entry 35). -/
def Kink.closed (k : Kink) (x : Bank) (now : Nat) : Kink :=
  { k with disturbed := decide (max k.te k.quietTo < x.hsb.lastEdge now) || decide (max k.te k.quietTo < x.hss.lastEdge now) }

/-- An open window is aborted (R225). -/
def kinkAbort (s : State) (b : Nat) : State :=
  match (s.bank b).kink with
  | none => s
  | some k =>
    closingRecord ((s.setBank b { s.bank b with kink := none }).cntSat (A.bank b + 0x704) 15 0) (k.closed (s.bank b) s.clk.now) { status := 3 }

/-- Channel c is in END_PH from `te` on (R222, R224): its window opens, or is reported BUSY. Its own entry moves the high side at the next
edge when the stage is to change. -/
def kinkOpen (s : State) (c te : Nat) : State :=
  match s.shot c with
  | none => s
  | some x =>
    let b := c / 4
    if chProp s c ∨ ¬ pfKinkEn x.words then s
    else
      match (s.bank b).kink with
      | some _ => closingRecord (s.cntSat (A.bank b + 0x704) 31 16) { shot := x, te := te } { status := 2 }
      | none =>
        let own := te == s.clk.now && stageLevels s b != ((s.bank b).hsb.level, (s.bank b).hss.level)
        s.setBank b { s.bank b with kink := some { shot := x, te := te, quietTo := if own then te + 1 else te } }

/-- A cell has entered a phase: the PHASE trigger of that instant (R268), and in END_PH the closing window. -/
def entryMade (s : State) (e : Nat × Nat × Nat) : State :=
  let s := phaseTrigger s e.1 e.2.1 e.2.2
  match s.shot e.1 with
  | some x => if e.2.1 = x.endPh then kinkOpen s e.1 e.2.2 else s
  | none => s

/-- The phase entries of bank b that were to come and have come by tick `upTo` (DESIGN CHOICE: log entry 72). -/
def bankSettle (s : State) (b upTo : Nat) : State :=
  match (s.bank b).entries with
  | [] => s
  | l =>
    (l.filter (fun e => decide (e.2.2 ≤ upTo))).foldl entryMade
      (s.setBank b { s.bank b with entries := l.filter (fun e => decide (upTo < e.2.2)) })

/-- Phase q of channel c is entered at `at_`, now or at the gate edge or END_PH entry still to come. -/
def entryAt (s : State) (c q at_ : Nat) : State :=
  let x := s.bank (c / 4)
  if at_ ≤ s.clk.now then entryMade s (c, q, at_)
  else s.setBank (c / 4) { x with entries := x.entries.filter (fun e => e.1 != c) ++ [(c, q, at_)] }

/-- Entries of channel c that are not to come any more. -/
def entryDrop (s : State) (c : Nat) : State :=
  let s := bankSettle s (c / 4) s.clk.now
  let x := s.bank (c / 4)
  if x.entries = [] then s else s.setBank (c / 4) { x with entries := x.entries.filter (fun e => e.1 != c) }

/-- The window of one channel is aborted when it is the open one. -/
def kinkAbortChan (s : State) (c : Nat) : State :=
  let s := bankSettle s (c / 4) s.clk.now
  match (s.bank (c / 4)).kink with
  | some k => if k.shot.cmd.chan = c then kinkAbort s (c / 4) else s
  | none => s

/-- One sample of the open window of bank b; the last one completes it (R223). -/
def kinkSample (s : State) (b code : Nat) (ovr : Bool) : State :=
  let s := bankSettle s b (s.clk.now - 1)
  match (s.bank b).kink with
  | none => s
  | some k =>
    let k := { k with codes := k.codes ++ [code], ovr := k.ovr || ovr }
    if pfKinkLen k.shot.words ≤ k.codes.length then
      s.setBank b { s.bank b with kink := none, done := (s.bank b).done ++ [k.closed (s.bank b) s.clk.now] }
    else s.setBank b { s.bank b with kink := some k }

/-- A sample falls due: the first at the first ADC clock edge at or after t_e + KINK_DELAY, the others back to back. -/
def kinkDue (s : State) (b : Nat) : Bool :=
  match (s.bank b).kink with
  | some k => decide (s.adcEdge (k.te + usTicks (pfKinkDelay k.shot.words)) ≤ s.clk.now)
  | none => false

/-! ### Learning -/

/-- asr towards a sample: v for the first one, else a step of 2^−shift, clamped to 16 bits (R247). -/
def learnStep (count old v shift : Nat) : Nat :=
  (clampI 0 65535 (if count = 0 then (v : Int) else (old : Int) + ((v : Int) - old) / (2 ^ shift : Nat))).toNat

def satInc16 (n : Nat) : Nat := min 65535 (n + 1)

/-- The device may learn for channel c with this header: LEARN_EN, a good header, no CAL_FAULT of the bank converter
(R239, R246, R441). -/
def mayLearn (s : State) (x : Shot) : Bool :=
  mhLearn x.hdr && !x.modelErr && !(s.conv (x.cmd.chan / 4)).calFault && !x.weak && x.cond.pbin.isSome

/-- A device update of word k of a model cell: an admission of this FCLK cycle does not see it (R250), and a BAR2 write of the same word in
it stands (R243). -/
def setCellWord (s : State) (c i j k : Nat) (w : Word) : State :=
  let a := modelCell c i j + 4 * k
  if s.sideWritten a then s else s.keepPast.putWords a [w]

/-- DTIME of the last learned sample. -/
def stampCell (s : State) (c i j : Nat) : State := setCellWord (setCellWord s c i j 6 (lo32 s.dtime)) c i j 7 (hi32 s.dtime)

/-- A peak time is learned (R249). -/
def learnPeak (s : State) (x : Shot) (peak : Nat) : State :=
  if mayLearn s x then
    let c := x.cmd.chan
    let i := x.cond.pbin.getD 0
    let j := x.cond.bbin
    let n := fld (cellWord s c i j 2) 15 0
    let v := peak * 4 / 25
    let s := setCellWord s c i j 1 (setFld (cellWord s c i j 1) 15 0 (learnStep n (fld (cellWord s c i j 1) 15 0) v (mhDshift x.hdr)))
    stampCell (setCellWord s c i j 2 (setFld (cellWord s c i j 2) 15 0 (satInc16 n))) c i j
  else s

/-- A closing result v is learned into its cell (R247). -/
def learnClose (s : State) (x : Shot) (v : Nat) : State :=
  let c := x.cmd.chan
  let i := x.cond.pbin.getD 0
  let j := x.cond.bbin
  let n := dCount s c i j
  let w (k : Nat) := cellWord s c i j k
  let p := x.cond.pval
  let bv := x.cond.bval
  let s' := setCellWord s c i j 1 (setFld (w 1) 31 16 (learnStep n (fld (w 1) 31 16) v (mhDshift x.hdr)))
  let s' := setCellWord s' c i j 2 (setFld (w 2) 31 16 (satInc16 n))
  let s' := setCellWord s' c i j 3 (if n = 0 then packWord [(p, 16), (p, 0)]
    else packWord [(max p (fld (w 3) 31 16), 16), (min p (fld (w 3) 15 0), 0)])
  let s' := setCellWord s' c i j 4 (if n = 0 then packWord [(bv, 16), (bv, 0)]
    else packWord [(max bv (fld (w 4) 27 16), 16), (min bv (fld (w 4) 11 0), 0)])
  stampCell (setCellWord s' c i j 5 (setFld (w 5) 15 8 0)) c i j

/-- An outlier is counted; the eighth in a row takes the cell's own data away (R248). -/
def learnOutlier (s : State) (x : Shot) : State :=
  let c := x.cmd.chan
  let i := x.cond.pbin.getD 0
  let j := x.cond.bbin
  let w5 := cellWord s c i j 5
  let run := fld w5 15 8 + 1
  let s := setCellWord s c i j 5 (packWord [(satInc16 (fld w5 31 16), 16), (if 8 ≤ run then 0 else run, 8)])
  if 8 ≤ run then
    let s := setCellWord s c i j 2 (setFld (cellWord s c i j 2) 31 16 0)
    let s := setCellWord (setCellWord s c i j 3 0) c i j 4 0
    diagRecord s c 17 false false x.cmd.slot 0 run x.cmd.prof (phaseNow s c) x.cmd.region
  else s

/-- Every condition of R246 but the outlier test. -/
def closeLearnable (s : State) (x : Shot) (r : Closing) : Bool :=
  mayLearn s x && r.status == 0 && decide (mhMinGrade x.hdr ≤ r.grade) && x.cause == 0

/-- The outlier test of R246 for v = 16 × TCLOSE. -/
def isOutlier (s : State) (x : Shot) (v : Nat) : Bool :=
  let i := x.cond.pbin.getD 0
  ownData s x.hdr x.cmd.chan i x.cond.bbin &&
  decide (16 * mhOutlier x.hdr < ((v : Int) - lrnDly s x.cmd.chan i x.cond.bbin).natAbs)

/-- RATIO of a fit; a negative quotient has no encoding the spec states, and is a free value. -/
def kinkRatio (s : State) (f : KinkFit) : Nat :=
  if f.r < 0 then (Config.freeWord s.free).toNat % 65536 else min 65535 (16 * f.r / f.m).toNat

/-- The detector's result for a complete window. -/
def kinkJudge (s : State) (k : Kink) : Closing :=
  let n := k.codes.length
  if n < 24 then { status := 4 }
  else
    let f := kinkFit (s.rf 4 1 0 == 1) (if mhPolNeg k.shot.hdr then -1 else 1) (k.codes.map Int.ofNat)
    let g := kinkGrade f (k.disturbed || k.ovr)
    { status := g.1, grade := g.2, tclose := if g.1 = 0 then kinkTclose (pfKinkDelay k.shot.words) f else 0,
      ratio := kinkRatio s f, edge := f.edge }

/-- The sensing registers after a result with STATUS OK. -/
def noteClose (s : State) (c tclose : Nat) : State :=
  (s.setReg (A.sns c) (ofNat32 tclose)).setCell c { s.cell c with closeAt := some s.clk.now }

/-- The result of a window is judged, learned and published (R227 to R230, R246 to R248). -/
def kinkPublish (s : State) (k : Kink) : State :=
  let r := kinkJudge s k
  let x := k.shot
  let v := 16 * r.tclose
  let s := { s with free := s.free + 1 }
  let s := if r.status = 0 then noteClose s x.cmd.chan r.tclose else s
  if closeLearnable s x r then
    (if isOutlier s x v then closingRecord (learnOutlier s x) k r
     else closingRecord (learnClose s x v) k { r with learned := true })
  else closingRecord s k r

/-- KINK_RESULT (R230): the oldest complete window of the bank. -/
def kinkResult (s : State) (b : Nat) : State :=
  match (s.bank b).done with
  | k :: rest => kinkPublish (s.setBank b { s.bank b with done := rest }) k
  | [] => s

end Sys2Proof.Machine
end

