-- ==== Sys2Proof/Machine/Drive.lean ====
section
/-!
DEFINITION. Channel and bank cells: phases, ends, faults, safe state, admission of starts (Actuator Drive and Current
Profiles, R188 to R215; Sensing Closure and Closing the Loops, R231 to R255; Faults, R437 to R439).
-/
namespace Sys2Proof.Machine

/-! ### Idle channels and bank fault detection -/

/-- A channel is idle or disabled (R235, R236), a disabled one also while its bank is safe. -/
def chanIdle (s : State) (c : Nat) : Bool :=
  (s.cell c).run.isNone && (s.cell c).wait.isNone && ((s.cell c).disabled || !(s.bank (c / 4)).safe)

/-- The tick since which a condition holds without a break. -/
def holdsSince (cond : Bool) (now : Nat) (since : Option Nat) : Option Nat :=
  if cond then some (since.getD now) else none

/-- The LEAK test watches an idle channel's window for ABOVE (R235). -/
def idleReview (s : State) (c : Nat) : State :=
  s.setCell c { s.cell c with idleSince := holdsSince (chanIdle s c && s.level c == 3) s.clk.now (s.cell c).idleSince }

/-- The channel regulates by the high side and is in an off interval with both outputs low (HS_SHORT of R437). -/
def hsWatched (s : State) (c : Nat) : Bool :=
  let b := c / 4
  !bankProp s b && !(s.bank b).safe && stageCase s b == .single c && !shotOn s c &&
  !((s.bank b).hsb.levelAt s.clk.now) && !((s.bank b).hss.levelAt s.clk.now)

/-- A watched channel's window reads INSIDE or BELOW with the thresholds of its phase in effect since `d` edges. -/
def hsSees (s : State) (c d : Nat) : Bool := hsWatched s c && decide (s.level c ≤ 2) && decide ((s.win c).loadAt + d < s.clk.now)

/-- Such a reading is kept for the HS_SHORT test. -/
def hsNote (s : State) (c d : Nat) : State :=
  if hsSees s c d then s.setBank (c / 4) { s.bank (c / 4) with hsSeen := insertNat (c % 4) (s.bank (c / 4)).hsSeen } else s

/-- The HS_SHORT test of one channel: first INSIDE or BELOW, then ABOVE without a break. -/
def hsReview (s : State) (c : Nat) : State :=
  let b := c / 4
  let x := s.bank b
  let old := cget (fun _ => none) x.hsAbove (c % 4)
  let set (v : Option Nat) := cset (fun _ => (none : Option Nat)) x.hsAbove (c % 4) v
  if ¬ hsWatched s c then s.setBank b { x with hsSeen := x.hsSeen.erase (c % 4), hsAbove := set none }
  else if s.level c ≤ 2 then hsNote (s.setBank b { x with hsAbove := set none }) c 0
  else if x.hsSeen.contains (c % 4) then s.setBank b { x with hsAbove := set (some (old.getD s.clk.now)) }
  else s

/-- The BOOST_COLLAPSE test watches the boost window of a shot bank for BELOW (R437). -/
def lowReview (s : State) (b : Nat) : State :=
  let x := s.bank b
  s.setBank b { x with lowSince := holdsSince (bankShot s b && !x.safe && s.level (64 + b) == 1) s.clk.now x.lowSince }

/-- Outputs and fault detection of a bank after a change; outputs change `lat` ticks from now. -/
def bankReview (s : State) (b lat : Nat) : State :=
  let s := bankEval s b lat
  let s := (chansOf b).foldl (fun s c => idleReview (hsReview s c) c) s
  lowReview s b

/-! ### Boost periods -/

def Cell.waitsAt (x : Cell) (reboost : Bool) : Bool := match x.wait with | some w => w.reboost == reboost | none => false

/-- The waiting channels of a bank at a step. -/
def waitersAt (s : State) (b : Nat) (reboost : Bool) : List Nat := (chansOf b).filter (fun c => (s.cell c).waitsAt reboost)

def waitSeq (s : State) (c : Nat) : Nat := ((s.cell c).wait.map (·.seq)).getD 0

/-- The first of some waiting channels in order of arrival at their step. -/
def firstWaiter (s : State) (l : List Nat) : Option Nat :=
  l.foldl (fun best c => match best with | none => some c | some d => if waitSeq s c < waitSeq s d then some c else some d) none

def setWait (s : State) (c : Nat) (w : Option Waiting) : State := s.setCell c { s.cell c with wait := w }

/-- A waiting start takes the next place in the order of arrival. -/
def takePlace (s : State) (c : Nat) (w : Waiting) : State :=
  let b := c / 4
  (setWait s c (some { w with seq := (s.bank b).seq })).setBank b { s.bank b with seq := (s.bank b).seq + 1 }

/-- FLAGS of a start that waits: what it carries, and the step it has waited at until now. -/
def waitFlags (w : Waiting) (now : Nat) : Nat := if w.stepAt < now then w.flags ||| (if w.reboost then 4 else 2) else w.flags

/-- A waiting start passes the overlap step (R208): REBOOST_WAIT runs from here (R209). -/
def passOverlap (s : State) (c : Nat) : State :=
  match (s.cell c).wait with
  | some w => takePlace s c { w with reboost := true, stepAt := s.clk.now, flags := waitFlags w s.clk.now }
  | none => s

/-- A start that waited at the overlap step stands at the re-boost step: the next one waits for its boost period (R208). -/
def overlapPassed (s : State) (b : Nat) : Bool :=
  (waitersAt s b true).any (fun c => ((s.cell c).wait.map (fun w => w.flags &&& 2 != 0)).getD false)

/-- With no boost period and none passed before it still to be admitted, the first start at the overlap step passes it (R208). -/
def passNext (s : State) (b : Nat) : State :=
  if (s.bank b).boost.isNone ∧ ¬ overlapPassed s b then
    (match firstWaiter s (waitersAt s b false) with | some c => passOverlap s c | none => s)
  else s

/-- Ticks of one plan period (WDN_PLAN_TIME.PLAN_PERIOD). -/
def planPeriod (s : State) : Nat := msTicks (s.rf 0x3108 31 16)

/-- A boost period of bank b ends (R486). -/
def boostEnded (s : State) (b : Nat) : Overlap :=
  let x := (s.bank b).ov
  { x with boosts := (s.clk.now, s.clk.now - x.boostFrom, 0) :: x.boosts.filter (fun p => decide (s.clk.now ≤ p.1 + planPeriod s)),
           recovering := s.level (64 + b) != 3 }

/-- The boost window reads ABOVE: the recovery of the last boost period is known (R486). -/
def boostRecovered (s : State) (b : Nat) : State :=
  let x := (s.bank b).ov
  match x.boosts with
  | (e, n, _) :: t =>
    if x.recovering ∧ s.level (64 + b) = 3 then
      s.setBank b { s.bank b with ov := { x with recovering := false, boosts := (e, n, s.clk.now - e) :: t } }
    else s
  | [] => s

/-- The boost period of channel c ends, when it has one (R199). -/
def boostRelease (s : State) (c : Nat) : State :=
  let b := c / 4
  if (s.bank b).boost = some (c % 4) then passNext (s.setBank b { s.bank b with boost := none, ov := boostEnded s b }) b else s

/-! ### Phases -/

/-- A shot as it enters phase q at tick `at_` (R188, R219). -/
def Shot.enter (x : Shot) (q at_ : Nat) : Shot :=
  let k := phKind (phEntry x.words q)
  { x with phase := q, phaseAt := at_, forced := false, on := if k = 5 then false else if k = 1 then true else x.on,
           offAt := if k = 5 then at_ else x.offAt, dithPos := true, dithAt := at_ + pfDither x.words }

/-- HS_SHORT watches each off interval afresh, and an off interval ends with its phase (R437). -/
def hsFresh (s : State) (c : Nat) : State :=
  let x := s.bank (c / 4)
  s.setBank (c / 4) { x with hsSeen := x.hsSeen.erase (c % 4), hsAbove := cset (fun _ => (none : Option Nat)) x.hsAbove (c % 4) none }

/-- Entry to a phase: thresholds, end of the boost period, first regulation, PHASE trigger and closing window (R184, R199, R222,
R268). -/
def phaseEnter (s : State) (c q at_ : Nat) : State :=
  match s.shot c with
  | none => s
  | some x =>
    let x' := x.enter q at_
    let s := bankSettle s (c / 4) s.clk.now
    let s := loadThresholds (hsFresh (s.setShot c x') c) c at_
    let s := if x'.kind = 3 ∨ x'.kind = 4 ∨ q = x'.endPh then boostRelease s c else s
    entryAt (regulate s c) c q at_

/-- A cell goes to phase END_PH with a cause, unless it is in that phase (R191, R213): it enters `lat` ticks from now and changes
its outputs `out` ticks from now. -/
def enterEnd (s : State) (c cause lat out : Nat) : State :=
  match s.shot c with
  | none => s
  | some x =>
    if x.phase = x.endPh then s
    else
      let at_ := s.clk.now + lat
      let s := s.setShot c { x with cause := cause, hold := none, withheld := decide (at_ ≤ x.gate) }
      bankReview (phaseEnter s c x.endPh at_) (c / 4) out

/-- What an idle cell keeps of its last shot. -/
def Cell.idle (x : Cell) : Cell :=
  match x.run with
  | some r => { x with run := none, lastSlot := r.cmd.slot, lastRegion := r.cmd.region, lastProf := r.cmd.prof }
  | none => x

/-- A running profile stops: its running event and boost period end (R192, R237, R438), and its window takes IDLE_CODE (R236). -/
def stopShot (s : State) (c : Nat) : State :=
  match s.shot c with
  | none => s
  | some x =>
    let s := entryDrop s c
    let s := loadIdle ((evsClose s x.cmd).setCell c (s.cell c).idle) c
    boostRelease s c

/-- Profile completion (R192); the outputs change one edge after the decision (R193). -/
def completeShot (s : State) (c : Nat) : State := bankReview (stopShot s c) (c / 4) 1

/-! ### Dropped starts -/

/-- A start is dropped (R215): its running event closes, it is counted and recorded, and the profile of a dropped
retrigger goes to END_PH (R213). -/
def dropStart (s : State) (w : Waiting) (reason : Nat) : State :=
  let c := w.cmd.chan
  let s := evsClose s w.cmd
  let s := (s.cntSat (A.cell c + 0x14) 31 16).cntSat (A.bank (c / 4) + 0x410) 31 16
  let s := driveRecord s 2 reason w.cmd (delayField s w.arrived) c (waitFlags w s.clk.now)
  enterEnd s c 2 0 0

/-- The waiting start of channel c is dropped, when there is one. -/
def dropWaiting (s : State) (c reason : Nat) : State :=
  match (s.cell c).wait with
  | none => s
  | some w => passNext (dropStart (setWait s c none) w reason) (c / 4)

/-! ### Bank safe state and channel faults -/

/-- One channel on entry to the bank's safe state (R438); the chip safe state writes no drive record (R464). -/
def safeChan (record : Bool) (s : State) (c : Nat) : State :=
  let s := stopShot s c
  match (s.cell c).wait with
  | none => s
  | some w =>
    if record then dropStart (setWait s c none) w 6
    else ((evsClose (setWait s c none) w.cmd).cntSat (A.cell c + 0x14) 31 16).cntSat (A.bank (c / 4) + 0x410) 31 16

/-- A bank in its safe state: no boost period, detection at its start. -/
def Bank.toSafe (x : Bank) : Bank := { x with safe := true, boost := none, lowSince := none, supRun := 0, hsSeen := [], hsAbove := [] }

/-- Entry to the bank's safe state without its fault record. -/
def bankToSafe (s : State) (b : Nat) (record : Bool) : State :=
  let s := s.setBank b { s.bank b with boost := none }
  let s := (chansOf b).foldl (safeChan record) s
  let s := kinkAbort s b
  bankReview ((s.setBank b (s.bank b).toSafe).cntSat (A.bankErr b + 8) 31 16) b 0

/-- A bank fault takes the bank to its safe state (R437, R438); a bank already safe stays as it is. -/
def bankSafe (s : State) (b code : Nat) (d0 d1 : Word := 0) : State :=
  if (s.bank b).safe then s else bankFaultRecord ((bankToSafe s b true).setRf (A.bankErr b + 8) 7 0 code) b code d0 d1

/-- A channel fault (R237, R238): codes of the table *Channel fault catalogue*. -/
def chanFault (s : State) (c code value run : Nat) : State :=
  let b := c / 4
  let x := s.cell c
  let slot := (x.run.map (·.cmd.slot)).getD x.lastSlot
  let region := (x.run.map (·.cmd.region)).getD x.lastRegion
  let prof := (x.run.map (·.cmd.prof)).getD x.lastProf
  let phase := phaseNow s c
  let escalated := decide (5 ≤ code) && !(s.bank b).safe
  let s := kinkAbortChan (stopShot s c) c
  let s := dropWaiting (s.setCell c { s.cell c with disabled := true, fault := if x.fault = 0 then code else x.fault, idleSince := none }) c 5
  let s := diagRecord s c code true escalated slot value run prof phase region
  let s := bankReview s b 0
  if escalated then bankSafe s b 4 (ofNat32 c) (ofNat32 code) else s

/-- RESUME (R439): a bank in its safe state leaves it. -/
def bankResume (s : State) (b : Nat) : State :=
  if (s.bank b).safe then bankReview (s.setBank b { s.bank b with safe := false }) b 0 else s

/-! ### Peak time (R231 to R235) -/

/-- VALUE of a diagnostic record for a peak time. -/
def peakValue : Option Nat → Nat
  | some p => min 65535 (p / 40)
  | none => 65535

/-- The side on which a shot is out of window: LOW, HIGH, or none (R233). -/
def ptSide (x : Shot) (peak : Option Nat) : Option Bool :=
  if x.weak ∨ pfPtMax x.words ≤ pfPtMin x.words then none
  else match peak with
    | some p => if p < 40 * pfPtMin x.words then some false else if 40 * pfPtMax x.words < p then some true else none
    | none => some true

/-- The shot is one whose peak time is checked. -/
def ptChecked (x : Shot) : Bool := !x.weak && decide (pfPtMin x.words < pfPtMax x.words)

/-- PT_RUN and the PT_OUT record of a checked shot (R234). -/
def ptCount (s : State) (c : Nat) (x : Shot) (peak : Option Nat) : State :=
  match ptSide x peak with
  | some high =>
    let y := s.cell c
    let run := if y.ptRun ≠ 0 ∧ y.ptHigh = high then min 255 (y.ptRun + 1) else 1
    diagRecord (s.setCell c { y with ptRun := run, ptHigh := high }) c 16 false false x.cmd.slot (peakValue peak) run x.cmd.prof x.phase x.cmd.region
  | none => if ptChecked x then s.setCell c { s.cell c with ptRun := 0 } else s

/-- PT_LOW or PT_HIGH when PT_RUN has reached PT_FAULT_N with this shot. -/
def ptFault (s : State) (c : Nat) (x : Shot) (peak : Option Nat) : Option Nat :=
  match ptSide x peak with
  | some high => if mhPtFaultN x.hdr ≤ (s.cell c).ptRun then some (if high then 4 else 3) else none
  | none => none

/-- A peak time is shown and learned (R249, DRV_SNS_c_PEAK). -/
def notePeak (s : State) (c : Nat) (x : Shot) (peak : Nat) : State :=
  let s := s.setRf (A.sns c + 4) 15 0 (min 65535 (peak / 40))
  learnPeak (s.setCell c { s.cell c with peakAt := some s.clk.now }) x peak

/-- Phase 0 of a shot-class profile ends at its HI threshold: peak time, its check, SHORT_LOAD (R231, R235). -/
def boostPeak (s : State) (c : Nat) (x : Shot) : State :=
  let peak := s.clk.now - x.gate
  let s := notePeak (s.setShot c { x with peak := some peak }) c x peak
  let s := ptCount s c x (some peak)
  if peak ≤ usTicks (mhShortT x.hdr) then chanFault s c 1 0 0
  else match ptFault s c x (some peak) with
    | some f => chanFault s c f (peakValue (some peak)) (s.cell c).ptRun
    | none => s

/-- Phase 0 ends by its limit: OPEN_LOAD with the window BELOW, else an out-of-window shot on the HIGH side (R233, R235). -/
def boostLimit (s : State) (c : Nat) (x : Shot) : State :=
  if s.level c = 1 then chanFault s c 2 0 0
  else
    let s := ptCount s c x none
    match ptFault s c x none with
    | some f => chanFault s c f 65535 (s.cell c).ptRun
    | none => s

/-! ### Phase exits -/

/-- A running shot past its boost period in a supply-sourced phase. -/
def inHold (s : State) (c : Nat) : Bool :=
  match s.shot c with
  | some x => x.sourced && x.src == 2 && (s.bank (c / 4)).boost != some (c % 4)
  | none => false

/-- Another channel's hold is truncated by channel c's (R203). -/
def truncateHold (c : Nat) (s : State) (o : Nat) : State :=
  if o ≠ c ∧ inHold s o then
    match s.shot o with
    | some x => enterEnd ((driveRecord s 4 0 x.cmd x.delay c x.flags).cntSat (A.bank (c / 4) + 0x414) 15 0) o 2 0 1
    | none => s
  else s

/-- EXCLUSIVE hold mode on entry to a supply-sourced phase (R203); proportional banks ignore it (R218). -/
def exclusiveHold (s : State) (c : Nat) : State :=
  let b := c / 4
  if ¬ bankProp s b ∧ ¬ s.rb (A.bank b + 0x400) 4 ∧ inHold s c then (chansOf b).foldl (truncateHold c) s else s

/-- The next phase is entered (R190); the exit before END_PH gives cause SEQUENCE. The outputs change at the next edge (R193). -/
def nextPhase (s : State) (c : Nat) (x : Shot) : State :=
  let q := x.phase + 1
  let s := if q = x.endPh then s.setShot c { x with cause := 3, hold := none } else s
  bankReview (exclusiveHold (phaseEnter s c q s.clk.now) c) (c / 4) 1

/-- During the hold of a corrected end the cell stays in its phase (R255); a peak of phase 0 is still seen (R231). -/
def heldExit (s : State) (c : Nat) (x : Shot) (byTimer : Bool) : State :=
  if ¬ byTimer ∧ x.phase = 0 ∧ x.kind = 1 ∧ x.peak.isNone then boostPeak s c x else s

/-- A phase exits by its threshold or by its timer (R188, R190, R235). -/
def exitPhase (s : State) (c : Nat) (byTimer : Bool) : State :=
  match s.shot c with
  | none => s
  | some x =>
    if x.phase = x.endPh then
      (if byTimer ∧ phExit x.entry = 0 ∧ ¬ chProp s c then chanFault s c 5 0 0 else completeShot s c)
    else if x.hold.isSome then heldExit s c x byTimer
    else if x.phase + 1 = pfNph x.words then completeShot s c
    else
      let s := if x.phase = 0 ∧ x.kind = 1 then (if byTimer then boostLimit s c x else boostPeak s c x) else s
      match s.shot c with
      | some y => nextPhase s c y
      | none => s

/-- The exit level of a phase with EXIT = THRESHOLD is presented, its own thresholds are in effect and no blanking runs
(R188). -/
def exitPresented (s : State) (c : Nat) (x : Shot) : Bool :=
  phExit x.entry == 0 && !(x.kind == 5 && inMixFast s c x) &&
  decide ((s.win c).loadAt < s.clk.now) && !(s.win c).blanking s.clk.now &&
  ((x.kind == 1 && s.level c == 3) || (x.kind == 5 && s.level c == 1))

/-- A cell acts on its window's output as presented (R293), and changes its outputs at the next edge (R193). -/
def cellReact (s : State) (c : Nat) : State :=
  match s.shot c with
  | none => bankReview s (c / 4) 0
  | some x => if exitPresented s c x then exitPhase s c false else bankReview (regulate s c) (c / 4) 1

/-! ### Admission -/

/-- The conditions of a shot at admission (R240 to R245, R254), from the cells and the trim as this FCLK cycle found them (R250, R259). -/
def shotCond (s : State) (c : Nat) (hdr : List Word) (w : Waiting) (gate : Nat) : Cond :=
  let o := s.before
  let j := binOf (mhBB hdr) (lastCode s (c / 4) 8)
  let bal := sext 32 (o.reg (A.sns c + 0xC)).toNat
  let tw : Int := if mhWait hdr then (gate : Int) - (w.cmd.start + 16 : Nat) else 0
  match w.press with
  | some p =>
    let i := binOf (mhPB hdr) p
    let d := closingDelay o hdr c i j
    { pbin := some i, pval := p, bbin := j, bval := lastCode s (c / 4) 8, src := d.1, dly := d.2, tauWait := tw,
      tauModel := (((nomDly o c i j : Int) - d.2) * 25).tdiv 4, bal := bal }
  | none => { bbin := j, bval := lastCode s (c / 4) 8, tauWait := tw, bal := bal }

/-- SRC, OOE_NOW and OOE_SHOTS follow the latest shot of a shot-class channel (R245). -/
def noteSource (s : State) (c : Nat) (d : Cond) : State :=
  if chProp s c then s
  else
    let s := s.setCell c { s.cell c with src := d.src, ooe := d.src != 0 }
    if d.src ≠ 0 then s.cntSat (A.sns c + 0x14) 31 16 else s

/-- The shot that an admission starts (R198, R206, R210); a profile or model written in the same FCLK cycle comes after it. -/
def newShot (s : State) (c : Nat) (w : Waiting) (weak : Bool) : Shot :=
  let gate := s.clk.now + 16
  let hdr := s.before.header c
  { cmd := w.cmd, words := s.before.words (profAddr c w.cmd.prof) 16, hdr := hdr, modelErr := (s.cell c).modelErr, gate := gate,
    capAt := gate + w.cmd.cap, phaseAt := gate, weak := weak, flags := waitFlags w s.clk.now ||| (if weak then 8 else 0), delay := delayField s w.arrived,
    cond := shotCond s c hdr w gate }

/-- Counters and record of an admission (R220). -/
def noteAdmit (s : State) (x : Shot) : State :=
  let c := x.cmd.chan
  let s := s.cntWrap (A.cell c + 0x10) 15 0
  let s := if x.flags % 2 = 1 then s.cntSat (A.cell c + 0x10) 31 16 else s
  let s := if x.weak then s.cntSat (A.cell c + 0x14) 15 0 else s
  let s := if x.flags &&& 6 ≠ 0 then s.cntSat (A.bank (c / 4) + 0x410) 15 0 else s
  if x.flags ≠ 0 then driveRecord s 1 0 x.cmd x.delay c x.flags else s

/-- The profile a retrigger abandons drives its outputs no more (R212); until the gate edge no phase drives them (DEDUCED:
log entry 36). -/
def abandonShot (s : State) (c : Nat) : State :=
  match s.shot c with
  | some x =>
    let s := evsClose (entryDrop s c) x.cmd
    bankEval (s.setCell c { s.cell c with run := none }) (c / 4) 0
  | none => s

/-- A start is admitted (R206, R212): the old profile is abandoned, the new one latched, the boost period begins. -/
def admitStart (s : State) (w : Waiting) (weak : Bool) : State :=
  let c := w.cmd.chan
  let b := c / 4
  let s := kinkAbortChan s c
  let s := abandonShot s c
  let x := newShot s c w weak
  let s := s.setCell c { s.cell c with run := some x, wait := none, idleSince := none, idleHdr := none }
  let s := if chProp s c then s else s.setBank b { s.bank b with boost := some (c % 4), ov := { (s.bank b).ov with boostFrom := s.clk.now } }
  let s := noteSource (phaseEnter s c 0 x.gate) c x.cond
  bankReview (noteAdmit s x) b 16

/-- The bank's overlap mode on a start at the overlap step (R207). -/
def overlapStep (s : State) (c : Nat) : State :=
  let b := c / 4
  match (s.bank b).boost with
  | none => passOverlap s c
  | some p =>
    let h := 4 * b + p
    if h = c then passOverlap s c
    else
      match s.rf (A.bank b + 0x400) 1 0, s.shot h with
      | 1, some x =>
        passOverlap (enterEnd ((driveRecord s 3 0 x.cmd x.delay c x.flags).cntSat (A.bank b + 0x414) 15 0) h 2 16 16) c
      | 2, _ => dropWaiting s c 2
      | _, _ => s

/-- A start at the re-boost step goes back to the overlap step (R209). -/
def backToOverlap (s : State) (c : Nat) : State :=
  match (s.cell c).wait with
  | some w => overlapStep (takePlace s c { w with reboost := false, stepAt := s.clk.now, flags := waitFlags w s.clk.now }) c
  | none => s

/-- The waiting channels of a list in order of arrival. -/
def bySeq (s : State) : Nat → List Nat → List Nat
  | 0, _ => []
  | n + 1, l => match firstWaiter s l with | some c => c :: bySeq s n (l.erase c) | none => []

/-- The starts at the re-boost step when another start is admitted from it (R209). -/
def returnOthers (s : State) (before : List Nat) : State :=
  before.foldl (fun s c => if (s.cell c).waitsAt true then backToOverlap s c else s) s

/-- The profile a waiting start names has a boost-sourced phase 0. -/
def boostSourced (s : State) (w : Waiting) : Bool := phSrc (phEntry (s.before.words (profAddr w.cmd.chan w.cmd.prof) 16) 0) == 1

/-- Admission from the re-boost step. -/
def admitFrom (s : State) (c : Nat) (weak : Bool) : State :=
  match (s.cell c).wait with
  | none => s
  | some w =>
    let others := bySeq s 4 ((waitersAt s (c / 4) true).erase c)
    let s := admitStart s w weak
    if chProp s c then s else returnOthers s others

/-- The starts that wait at the re-boost step of a bank for its boost window. -/
def boostWaiters (s : State) (b : Nat) : List Nat :=
  (waitersAt s b true).filter (fun c => ((s.cell c).wait.map (boostSourced s)).getD false)

/-- Past the overlap step, a start whose phase 0 needs no boost is admitted; the first of the others is when the boost window reads ABOVE
(R206, R209). -/
def tryAdmit (s : State) (c : Nat) : State :=
  match (s.cell c).wait with
  | some w =>
    if w.reboost ∧ (¬ boostSourced s w ∨ (firstWaiter s (boostWaiters s (c / 4)) = some c ∧ s.level (64 + c / 4) = 3)) then
      admitFrom s c false
    else s
  | none => s

/-- A start that finds its channel free to take it waits or is admitted (R206). -/
def acceptStart (s : State) (w : Waiting) : State :=
  let c := w.cmd.chan
  let s := dropWaiting s c 4
  if chProp s c then admitStart s w false
  else tryAdmit (overlapStep (takePlace s c w) c) c

/-- The spacing of the starts of different channels of a bank (R486). -/
def noteArrival (s : State) (c : Nat) : State :=
  let b := c / 4
  let x := (s.bank b).ov
  let gaps := match x.lastStart with
    | some p => if p.2 = c then x.gaps else (s.clk.now, s.clk.now - p.1) :: x.gaps.filter (fun g => decide (s.clk.now ≤ g.1 + planPeriod s))
    | none => x.gaps
  s.setBank b { s.bank b with ov := { x with lastStart := some (s.clk.now, c), gaps := gaps } }

/-- A start command reaches its bank (R204 to R206). -/
def startCommand (s : State) (cmd : StartCmd) (epoch : Nat) : State :=
  let c := cmd.chan
  let b := c / 4
  if epoch ≠ (s.bank b).epoch then s.cntSat (A.bank b + 0x414) 31 16
  else
    let s := noteArrival s c
    let x := s.cell c
    let w : Waiting := { cmd := cmd, arrived := s.clk.now, reboost := false, stepAt := s.clk.now, seq := 0,
                         flags := if x.run.isSome ∨ x.wait.isSome then 1 else 0,
                         press := pressureNow s (mhPsrc (s.header c)) (mhPAge (s.header c)) }
    if (s.bank b).safe then dropStart s w 6
    else if x.disabled ∨ ¬ chEn s c then dropStart s w 5
    else if ¬ x.pvalid.testBit cmd.prof then dropStart s w 7
    else bankReview (acceptStart s w) b 16

/-! ### End commands -/

/-- τ of an ended shot; `rem` is the remaining time in ticks (R254). -/
def shotTau (x : Shot) (now rem : Nat) : Int :=
  let e : Int := (now : Int) - x.cmd.start + rem
  let tb := (e * x.cond.bal).tdiv 1000000
  clampI (-(40 * mhLim x.hdr : Int)) (40 * mhLim x.hdr) (x.cond.tauWait + x.cond.tauModel + tb)

/-- The hold of a corrected shot begins (R254). -/
def beginHold (s : State) (c : Nat) (x : Shot) (rem : Nat) : State :=
  let tau := shotTau x s.clk.now rem
  let h := ((rem : Int) + tau).toNat
  (s.setShot c { x with hold := some (s.clk.now + 16 + h), tau := tau }).setReg (A.sns c + 8) (ofInt32 tau)

/-- An end command for a slot reaches channel c (R162, R214, R254); `rem` is present for a corrected end. -/
def endCommand (s : State) (c slot epoch : Nat) (rem : Option Nat) : State :=
  let b := c / 4
  if epoch ≠ (s.bank b).epoch then s.cntSat (A.bank b + 0x414) 31 16
  else
    match (s.cell c).wait with
    | some w => if w.cmd.slot = slot then bankReview (dropWaiting s c 3) b 0 else s
    | none =>
      match s.shot c with
      | none => s
      | some x =>
        if x.cmd.slot ≠ slot ∨ x.phase = x.endPh then s
        else
          match rem with
          | none => enterEnd s c 0 16 16
          | some r => if x.hold.isSome then s else beginHold s c x r

/-! ### Enabling and disabling channels -/

/-- DISABLE, or EN = 0 (R617). -/
def chanDisable (s : State) (c : Nat) : State :=
  let s := kinkAbortChan (stopShot s c) c
  let s := dropWaiting (s.setCell c { s.cell c with disabled := true }) c 5
  bankReview s (c / 4) 0

/-- REENABLE: it has no effect while EN = 0 (R617). -/
def chanReenable (s : State) (c : Nat) : State :=
  if chEn s c then bankReview (s.setCell c { s.cell c with disabled := false, fault := 0, ptRun := 0 }) (c / 4) 0 else s

/-- The profiles of channel c that pass R194 for its class. -/
def validProfiles (s : State) (c : Nat) : Nat :=
  (List.range 16).foldl (fun n p => if profStatus (chProp s c) (s.words (profAddr c p) 16) = 0 then n + 2 ^ p else n) 0

/-- Another enabled channel of the bank has the other class (R185). -/
def classClash (s : State) (c : Nat) : Bool := (chansOf (c / 4)).any (fun o => o != c && chEn s o && (chProp s o != chProp s c))

/-- A write of EN from 0 to 1 (R185, R195, R239, R617). -/
def chanEnable (s : State) (c : Nat) : State :=
  if classClash s c then s.setCell c { s.cell c with cfgErr := true }
  else
    let s := s.setRf (A.cell c) 0 0 1
    bankReview (s.setCell c { s.cell c with cfgErr := false, disabled := false, fault := 0, ptRun := 0, pvalid := validProfiles s c,
                                            modelErr := !headerGood (s.header c) }) (c / 4) 0

/-- A write of DRV_CH_c_CFG: GAIN and CLASS by their ranges, CLASS only while EN = 0, then EN (R185, R221, R617). -/
def chanCfgWrite (s : State) (c : Nat) (v : Word) : State :=
  let a := A.cell c
  let s := if fld v 3 2 ≤ 2 then s.setRf a 3 2 (fld v 3 2) else s
  let s := if chEn s c then s else s.setRf a 1 1 (fld v 1 1)
  if wbit v 0 then (if chEn s c then s.setCell c { s.cell c with cfgErr := false } else chanEnable s c)
  else if chEn s c then chanDisable (s.setRf a 0 0 0) c else s

/-- A write of DRV_CH_c_CTL: DISABLE takes effect alone (R617). -/
def chanCtlWrite (s : State) (c : Nat) (v : Word) : State :=
  if wbit v 1 then chanDisable s c else if wbit v 0 then chanReenable s c else s

/-! ### Timed and outside events of cells and banks -/

/-- PHASE_TIMER_EXPIRY (R188): DUR after phase entry. -/
def phaseTimer (s : State) (c : Nat) : State :=
  match s.shot c with
  | some x =>
    if phExit x.entry ≠ 2 ∧ phDur x.entry ≠ 0 ∧ x.phaseAt + phTicks x.entry ≤ s.clk.now then exitPhase s c true else s
  | none => s

/-- The time cap of channel c's shot has expired (R160, R191). -/
def capDue (s : State) (c : Nat) : Bool := ((s.shot c).map (fun x => decide (x.capAt ≤ s.clk.now))).getD false

/-- MIX_FAST_EXPIRY (R189): at the start of the SLOW part the outputs are evaluated again. -/
def mixExpiry (s : State) (c : Nat) : State :=
  match s.shot c with
  | some x =>
    if phDecay x.entry = 2 ∧ ¬ x.on ∧ (if x.kind = 5 then x.phaseAt else x.offAt) + pfMix x.words ≤ s.clk.now then
      cellReact (bankReview s (c / 4) 1) c
    else s
  | none => s

/-- DITHER_HALF_PERIOD (R219). -/
def ditherHalf (s : State) (c : Nat) : State :=
  match s.shot c with
  | some x =>
    if x.kind = 4 ∧ pfDither x.words ≠ 0 ∧ x.dithAt ≤ s.clk.now then
      loadThresholds (s.setShot c { x with dithPos := !x.dithPos, dithAt := x.dithAt + pfDither x.words }) c s.clk.now
    else s
  | none => s

/-- HOLD_EXPIRY (R254). -/
def holdExpiry (s : State) (c : Nat) : State :=
  match s.shot c with
  | some x => (match x.hold with | some d => if d ≤ s.clk.now then enterEnd s c 0 0 0 else s | none => s)
  | none => s

/-- OVERLAP_TIMEOUT (R207, R208). -/
def overlapTimeout (s : State) (c : Nat) : State :=
  match (s.cell c).wait with
  | some w =>
    if ¬ w.reboost ∧ s.rf (A.bank (c / 4) + 0x400) 1 0 = 0 ∧ w.arrived + usTicks (s.rf (A.bank (c / 4) + 0x404) 7 0) ≤ s.clk.now then
      bankReview (dropWaiting s c 1) (c / 4) 0
    else s
  | none => s

/-- REBOOST_WAIT_EXPIRY (R206, R209): WEAK_BOOST when the boost window still does not read ABOVE. -/
def reboostExpiry (s : State) (c : Nat) : State :=
  match (s.cell c).wait with
  | some w =>
    if w.reboost ∧ boostSourced s w ∧ firstWaiter s (boostWaiters s (c / 4)) = some c ∧
        w.stepAt + usTicks (s.rf (A.bank (c / 4) + 0x404) 15 8) ≤ s.clk.now then
      bankReview (admitFrom s c (s.level (64 + c / 4) != 3)) (c / 4) 16
    else s
  | none => s

/-- LEAK_TIMEOUT (R235). -/
def leakTimeout (s : State) (c : Nat) : State :=
  match (s.cell c).idleSince with
  | some k => if k + usTicks (idleTime s c) ≤ s.clk.now then chanFault s c 6 0 0 else s
  | none => s

/-- HS_SHORT (R437). -/
def hsShort (s : State) (c : Nat) : State :=
  match cget (fun _ => none) (s.bank (c / 4)).hsAbove (c % 4) with
  | some k => if k + usTicks (s.rf (A.bankErr (c / 4)) 13 8) ≤ s.clk.now then bankSafe s (c / 4) 1 else s
  | none => s

/-- BOOST_COLLAPSE (R437). -/
def boostCollapse (s : State) (b : Nat) : State :=
  match (s.bank b).lowSince with
  | some k => if k + usTicks (s.rf (A.bankErr b) 31 16) ≤ s.clk.now then bankSafe s b 2 else s
  | none => s

/-- The users of a window act on its output as presented (R293). -/
def winUsers (s : State) (w : Nat) : State :=
  if w < 64 then cellReact s w else if w < 80 then lowReview s (w - 64) else s

/-- What a channel window read until this edge counts for the HS_SHORT test of its channel. -/
def hsBefore (s : State) (w : Nat) : State := if w < 64 then hsNote s w 1 else s

/-- A boost window has moved: its recovery time is known. -/
def boostNotice (s : State) (w : Nat) : State := if 64 ≤ w ∧ w < 80 then boostRecovered s (w - 64) else s

/-- WINDOW_CROSSING: the input of a window at `uv` µV, as its LO and its HI element see it, each with its own offset, against the thresholds in effect (R291 to R294). -/
def windowCrossing (s : State) (w : Nat) (uv : Int × Int) : State :=
  if winEnabled s w ∧ (s.win w).out ≠ 0 then
    let s := hsBefore s w
    boostNotice (winUsers (winElements s w uv (winJudge s w uv)) w) w
  else s

/-- BLANKING_END (R295): the elements as the input last seen and the thresholds in effect have them. -/
def blankingEnd (s : State) (w : Nat) : State :=
  if winEnabled s w ∧ (s.win w).out ≠ 0 ∧ ¬ (s.win w).blanking s.clk.now then
    let s := hsBefore s w
    boostNotice (winUsers (winElements s w (s.win w).uv (winJudge s w (s.win w).uv)) w) w
  else s

/-- INITIAL_DECISION (R296): T_INIT after the window lost its decision, presented and acted on as a level. An input exactly at a threshold
decides its element either way, which is a free value. -/
def initialDecision (s : State) (w : Nat) (uv : Int × Int) : State :=
  if winEnabled s w ∧ (s.win w).out = 0 ∧ (s.win w).undecAt + Config.tInit.val ≤ s.clk.now then
    let e := winFirst s w uv
    boostNotice (winUsers (winDecide { s with free := s.free + 1 } w uv e) w) w
  else s

/-! ### Register views -/

/-- STATE of DRV_CH_c_STATUS. -/
def chanState (s : State) (c : Nat) : Nat :=
  let x := s.cell c
  if x.disabled then 4
  else if (s.bank (c / 4)).safe then 5
  else match x.run, x.wait with
    | some _, some _ => 3
    | some _, none => 1
    | none, some _ => 2
    | none, none => 0

def chanStatus (s : State) (c : Nat) : Word :=
  let x := s.cell c
  let prof := match x.run, x.wait with | some r, _ => r.cmd.prof | none, some w => w.cmd.prof | _, _ => 0
  packWord [(x.fault, 16), (b2n x.cfgErr, 12), (prof, 8), (phaseNow s c, 4), (b2n ((x.run.map (·.weak)).getD false), 3), (chanState s c, 0)]

/-- DRV_CH_c_SLOT: the start that end commands are matched against (R162, R214). -/
def chanSlot (s : State) (c : Nat) : Word :=
  let x := s.cell c
  match x.wait, x.run with
  | some w, _ => packWord [(w.cmd.region, 10), (w.cmd.slot, 0)]
  | none, some r => packWord [(r.cmd.region, 10), (r.cmd.slot, 0)]
  | none, none => packWord [(x.lastRegion, 10), (x.lastSlot, 0)]

def bankMask (s : State) (b : Nat) (f : Cell → Bool) : Nat :=
  (List.range 4).foldl (fun n p => if f (s.cell (4 * b + p)) then n + 2 ^ p else n) 0

def bankStatus (s : State) (b : Nat) : Word :=
  let x := s.bank b
  packWord [(b2n x.mirror, 17), (b2n (bankProp s b), 16), (bankMask s b (fun c => c.wait.isSome), 12),
            (bankMask s b (fun c => c.run.isSome), 8), (x.boost.getD 0, 4), (b2n x.boost.isSome, 3),
            (b2n (x.hss.levelAt s.clk.now), 2), (b2n (x.hsb.levelAt s.clk.now), 1), (b2n x.safe, 0)]

def kinkStatus (s : State) (b : Nat) : Word :=
  match (s.bank b).kink with
  | some k => packWord [(k.codes.length, 3), (k.shot.cmd.chan % 4, 1), (1, 0)]
  | none => 0

/-- Reads of a channel's sensing registers. -/
def snsView (s : State) (c o : Nat) : Option Word :=
  let x := s.cell c
  match o with
  | 0x00 => some (packWord [(ageOf s.clk.now x.closeAt 400000 65535, 16), (s.rf (A.sns c) 15 0, 0)])
  | 0x04 => some (packWord [(ageOf s.clk.now x.peakAt 400000 65535, 16), (s.rf (A.sns c + 4) 15 0, 0)])
  | 0x14 => some (packWord [(s.rf (A.sns c + 0x14) 31 16, 16), (x.ptRun, 8), (b2n x.modelErr, 3), (x.src, 1), (b2n x.ooe, 0)])
  | _ => none

/-- Reads of the computed registers of bank b, its converter excepted. -/
def driveView (s : State) (b o : Nat) : Option Word :=
  if o < 0x400 then
    let c := 4 * b + o / 0x100
    match o % 0x100 with
    | 0x04 => some (chanStatus s c)
    | 0x08 => some (chanSlot s c)
    | 0x1C => some (ofNat32 (s.cell c).pvalid)
    | _ => none
  else if o = 0x408 then some (bankStatus s b)
  else if o = 0x40C then some (ofNat32 (s.bank b).epoch)
  else if o = 0x700 then some (kinkStatus (bankSettle s b s.clk.now) b)
  else if 0x740 ≤ o ∧ o < 0x7C0 then snsView s (4 * b + (o - 0x740) / 0x20) (o % 0x20)
  else if 0x800 ≤ o ∧ o < 0x850 then
    let w := if o < 0x840 then 4 * b + (o - 0x800) / 0x10 else 64 + b
    (if o % 0x10 = 8 then some (winState s w) else if o % 0x10 = 4 ∧ o < 0x840 then some (chanThr s w) else none)
  else none

end Sys2Proof.Machine
end

