-- ==== Sys2Proof/Machine/LinkOps.lean ====
section
/-!
DEFINITION. Vangic Link: ports, frames and their checks, sending, wrapping, and what the chip safe state does to the link
(Vangic Link, R504 to R516, R522, R525, R527).
-/
namespace Sys2Proof
open Machine

/-! ### Frames (R507) -/

def Frame.type (f : Frame) : Nat := fld f.w0 31 28
def Frame.bcast (f : Frame) : Bool := wbit f.w0 27
def Frame.dirB (f : Frame) : Bool := wbit f.w0 26
def Frame.dest (f : Frame) : Nat := fld f.w0 25 16
def Frame.src (f : Frame) : Nat := fld f.w0 15 6
def Frame.len (f : Frame) : Nat := fld f.w0 5 0
def Frame.hops (f : Frame) : Nat := fld f.w1 31 21
def Frame.seq (f : Frame) : Nat := fld f.w1 15 0
def Frame.pay (f : Frame) (i : Nat) : Word := wordAt f.payload i
/-- A 64-bit payload value, low word first. -/
def Frame.pay64 (f : Frame) (i : Nat) : Nat := (f.pay i).toNat + 2 ^ 32 * (f.pay (i + 1)).toNat

/-- LEN of each TYPE (table *Frame types*); no length for a reserved one. -/
def lenGood (ty n : Nat) : Bool :=
  match ty with
  | 1 => n == 2 | 2 => n == 1 | 3 => n == 5 | 4 => n == 2 | 5 => n == 5 | 6 => n == 5 | 7 => n == 6 | 8 => n == 1
  | 9 => decide (2 ≤ n) && decide (n ≤ 9) | 10 => n == 1 | 11 => n == 1 | _ => false

/-- The reserved bits of payload word i of each TYPE. -/
def payReserved (ty i : Nat) : Word :=
  match ty, i with
  | 1, 1 => 0xFFFFFFFC
  | 2, 0 | 3, 0 => 0xFFFF0000
  | 4, 0 => 0x0FFF0000
  | 4, 1 => 0x00800FFC
  | 6, 0 | 7, 0 => 0x000F0000
  | 7, 5 => 0xFFFF0000
  | 8, 0 => 0x3FFF0000
  | 9, 0 => 0x0FC0FFFF
  | 10, 0 => 0x1FFFFFFF
  | 11, 0 => 0xFFFFFC00
  | _, _ => 0

def Frame.reservedClear (f : Frame) : Bool :=
  fld f.w1 20 16 == 0 && (List.range f.payload.length).all (fun i => (f.pay i &&& payReserved f.type i) == 0)

/-- TYPE is one of the table's. -/
def Frame.known (f : Frame) : Bool := decide (1 ≤ f.type) && decide (f.type ≤ 11)

/-- CRC, LEN and reserved bits of a frame pass (R507). -/
def Frame.sound (f : Frame) : Bool := f.crcOk && lenGood f.type f.len && f.payload.length == f.len && f.reservedClear

/-- The frame may be taken: it passes and did not end in EBAD (R507). -/
def Frame.good (f : Frame) : Bool := f.sound && f.eof

end Sys2Proof

namespace Sys2Proof.Machine

def State.setV (s : State) (v : Vlk) : State := { s with vlk := v }
def noPort : Nat → Port := fun _ => {}
def Vlk.port (v : Vlk) (p : Nat) : Port := cget noPort v.ports p
def Vlk.setPort (v : Vlk) (p : Nat) (x : Port) : Vlk := { v with ports := cset noPort v.ports p x }

/-- VLK_CFG.EN, NODE_ID and the port enables. -/
def linkEn (s : State) : Bool := s.rb A.vlk 0
def linkNode (s : State) : Nat := s.rf A.vlk 25 16
def portEn (s : State) (p : Nat) : Bool := s.rb A.vlk (1 + p)

/-- Ticks of one ANN_PERIOD. -/
def annPeriod (s : State) : Nat := msTicks (s.rf 0xA00C 23 16)

/-- The two roles by number: 0 TIME, 1 MAINS. -/
def Vlk.role (v : Vlk) (r : Nat) : LRole := if r = 0 then v.time else v.mains
def Vlk.setRole (v : Vlk) (r : Nat) (x : LRole) : Vlk := if r = 0 then { v with time := x } else { v with mains := x }
def State.role (s : State) (r : Nat) : LRole := s.vlk.role r
def State.setRole (s : State) (r : Nat) (x : LRole) : State := s.setV (s.vlk.setRole r x)

/-! ### Sending -/

def State.linkOut (s : State) (l : List LinkSent) : State := { s with out := { s.out with link := s.out.link ++ l } }

/-- The port that a frame for direction A (or B) leaves by, and whether it then travels in direction B: a wrapped port turns it
round (R508, R514). -/
def exitPort (v : Vlk) (dirB : Bool) : Nat × Bool :=
  let p := if dirB then 0 else 1
  if (v.port p).wrapped then (1 - p, !dirB) else (p, dirB)

/-- Header word 0 of a frame of this part, without DIRB. -/
def headWord (s : State) (ty : Nat) (bcast : Bool) (dest len : Nat) : Nat :=
  ty * 2 ^ 28 + b2n bcast * 2 ^ 27 + dest * 2 ^ 16 + linkNode s * 2 ^ 6 + len

/-- A frame with a given FSEQ leaves in direction A, subject to the wrap rule. -/
def putFrame (s : State) (head seq : Nat) (pay : List Word) : State :=
  let x := exitPort s.vlk false
  s.linkOut [.frame x.1 (setFld (ofNat32 head) 26 26 (b2n x.2)) (ofNat32 (seq % 65536)) pay true]

/-- The next FSEQ is taken. -/
def State.countFrame (s : State) : State := s.setV { s.vlk with fseq := (s.vlk.fseq + 1) % 65536 }

/-- A frame that this part sends: nothing while the link is off. -/
def sendFrame (s : State) (ty : Nat) (bcast : Bool) (dest : Nat) (pay : List Word) : State :=
  if linkEn s then (putFrame s (headWord s ty bcast dest pay.length) s.vlk.fseq pay).countFrame else s

/-- A part with a duplicate node ID sends only BEACONs (R512). -/
def sendUnlessDup (s : State) (ty : Nat) (bcast : Bool) (dest : Nat) (pay : List Word) : State :=
  if s.vlk.dup then s else sendFrame s ty bcast dest pay

/-- A hop-local frame leaves by the port itself (R517). -/
def sendLocal (s : State) (p ty : Nat) (pay : List Word) : State :=
  if linkEn s ∧ ¬ s.vlk.dup then
    (s.linkOut [.frame p (ofNat32 (headWord s ty false (s.vlk.port p).neighbour pay.length + (1 - p) * 2 ^ 26))
      (ofNat32 s.vlk.fseq) pay true]).countFrame
  else s

/-- TOPO broadcast (R514, R515). -/
def sendTopo (s : State) (event p : Nat) : State := sendUnlessDup s 10 true 0 [packWord [(event, 30), (p, 29)]]

/-- ANNOUNCE of a role with a STATUS (table *Frame types*). -/
def sendAnnounce (s : State) (r status : Nat) : State :=
  let x := s.role r
  sendUnlessDup s 4 true 0
    [packWord [(r, 30), (status, 28), (x.epoch, 0)],
     packWord [(s.rf 0xA00C (8 * r + 7) (8 * r), 24), (b2n x.bkValid, 22), (if x.bkValid then x.backup else 0, 12), (s.clk.qual, 0)]]

/-- A change of master, backup or own status of role r asserts VLK_3 or VLK_4. -/
def roleNotice (s : State) (r : Nat) (b : LRole) : State :=
  let a := s.role r
  if a.own = b.own ∧ a.valid = b.valid ∧ a.master = b.master ∧ a.bkValid = b.bkValid ∧ a.backup = b.backup then s else s.arrive (371 + r)

/-- Role r becomes x, with its notice. -/
def changeRole (s : State) (r : Nat) (x : LRole) : State := roleNotice (s.setRole r x) r (s.role r)

/-- The part resigns role r when it holds it as MASTER (R523, R527): RESIGNING, then candidate. -/
def resign (s : State) (r : Nat) : State :=
  if (s.role r).own = 1 then
    changeRole (sendAnnounce s r 3) r { (s.role r) with own := 0, valid := false, heardAt := s.clk.now }
  else s

/-- The chip safe state resigns every master role (R527). -/
def linkSafe (s : State) : State := resign (resign s 0) 1

end Sys2Proof.Machine
end

