-- ==== Sys2Proof/Machine/ReelOps.lean ====
section
/-!
DEFINITION. Reel engines: engine cycles, the instruction set, shifting, queues, pins, flags, starts and holds
(Reel Engines, R409 to R435).
-/
namespace Sys2Proof.Machine

def noEngine : Nat → Engine := fun _ => {}
def noPin : Nat → RpPin := fun _ => {}
def Reel.eng (r : Reel) (e : Nat) : Engine := cget noEngine r.engines e
def Reel.setEng (r : Reel) (e : Nat) (g : Engine) : Reel := { r with engines := cset noEngine r.engines e g }
def Reel.pin (r : Reel) (p : Nat) : RpPin := cget noPin r.pins p
def State.setReel (s : State) (r : Reel) : State := { s with reel := r }

/-! ### Configuration of an engine -/

def reelEn (s : State) (e : Nat) : Bool := s.rb (A.eng e) 0
def reelStartAddr (s : State) (e : Nat) : Nat := s.rf (A.eng e) 13 8
def reelJoin (s : State) (e : Nat) : Nat := s.rf (A.eng e) 3 2
/-- RXMODE = REGISTER. -/
def reelRegMode (s : State) (e : Nat) : Bool := s.rb (A.eng e) 1
def reelDiv (s : State) (e : Nat) : Nat := s.rf (A.eng e + 4) 23 0
/-- The group's pins in ascending number (R416). -/
def reelGroup (s : State) (e : Nat) : List Nat := (List.range 32).filter (fun p => wbit (s.reg (A.eng e + 8)) p)
/-- SYM_W; 0 means 32 (R419). -/
def reelSymW (s : State) (e : Nat) : Nat := let w := s.rf (A.eng e + 0xC) 4 0; if w = 0 then 32 else w
def reelLsbFirst (s : State) (e : Nat) : Bool := s.rb (A.eng e + 0xC) 8
def reelRefill (s : State) (e : Nat) : Bool := s.rb (A.eng e + 0xC) 9
def reelDeposit (s : State) (e : Nat) : Bool := s.rb (A.eng e + 0xC) 10
/-- Entries of the OUT and IN queues under JOIN (table *Queue joining*). -/
def reelOutCap (s : State) (e : Nat) : Nat := match reelJoin s e with | 0 => 4 | 1 => 8 | _ => 0
def reelInCap (s : State) (e : Nat) : Nat := match reelJoin s e with | 0 => 4 | 1 => 0 | _ => 8
/-- Engine e drives pin p (R414). -/
def reelOwns (s : State) (e p : Nat) : Bool := s.rb (A.pin p) 4 && s.rf (A.pin p) 3 0 == e
/-- Instruction memory word a of engine e. -/
def reelImem (s : State) (e a : Nat) : Nat := (s.word (0x84000 + e * 0x100 + 4 * a)).toNat

/-- The hold condition (R430). -/
def reelHold (s : State) : Bool := !s.clk.pll || s.glb.safeHold || s.glb.chipSafe

/-- An action of the Reel block is taken in its place of an FCLK cycle: in the cycle after, when the block has acted at a later place in this
one (R429; DESIGN CHOICE: log entry 74). -/
def State.reelTurn (s : State) (rank : Nat) : State :=
  let s := if s.clk.sameCycle s.reel.cycAt s.clk.now ∧ rank < s.reel.cycRank then s.tick s.clk.nextCycle else s
  s.setReel { s.reel with cycAt := s.clk.now, cycRank := rank }

/-! ### The instruction word -/

/-- Bits hi..lo of an instruction word. -/
def ifld (w hi lo : Nat) : Nat := (w / 2 ^ lo) % 2 ^ (hi + 1 - lo)

def reelOp (w : Nat) : Nat := ifld w 23 20

/-- The operand check of each opcode (R415, tables *Opcodes*, *Branch conditions*, *Await kinds*). -/
def reelOperandGood (w : Nat) : Bool :=
  match reelOp w with
  | 0x0 =>
    let c := ifld w 9 6
    let p := ifld w 14 10
    decide (c ≤ 12) && (c == 6 || c == 7 || (c == 12 && decide (p < 16)) || p == 0)
  | 0x1 =>
    let k := ifld w 14 12
    let i := ifld w 4 0
    ifld w 11 5 == 0 && (if k = 4 ∨ k = 5 then decide (i < 16) else if k = 6 then decide (i < 17) else if k = 7 then i == 0 else true)
  | 0x2 => ifld w 14 5 == 0
  | 0x3 => ifld w 14 5 == 0
  | 0x4 => ifld w 13 0 == 0
  | 0x5 => ifld w 14 5 == 0 && ifld w 3 0 == 0
  | 0x6 => ifld w 14 6 == 0 && ifld w 3 0 == 0
  | 0x7 => ifld w 11 5 == 0 && (ifld w 12 12 == 0 || ifld w 4 0 == 0)
  | 0x8 => ifld w 14 14 == 0
  | 0x9 => ifld w 14 11 == 0 && decide (ifld w 10 8 ≤ 3) && ifld w 7 3 == 0 && decide (ifld w 2 0 ≤ 6)
  | 0xA => ifld w 14 7 == 0 && decide (ifld w 6 5 ≤ 2) && ifld w 4 4 == 0
  | 0xB => ifld w 14 14 == 0 && decide (ifld w 13 12 ≤ 2) && (ifld w 13 12 != 0 || ifld w 11 0 == 0)
  | _ => false

/-- A memory word passes R415 when bits 31:24 are zero as well. -/
def reelWordGood (w : Nat) : Bool := decide (w < 2 ^ 24) && reelOperandGood w

/-! ### Pins -/

/-- The filtered level of pin p at a tick (R412). -/
def RpPin.levelAt (p : RpPin) (tick : Nat) : Bool := if p.changed ≤ tick then p.level else p.prev

/-- A pin driven by engine e: nothing when the engine does not own it (R414); the level appears at `tick` (R412). -/
def pinDrive (s : State) (r : Reel) (e p : Nat) (level isOut : Bool) (tick : Nat) : Reel :=
  if reelOwns s e p then
    { r with pins := cset noPin r.pins p { r.pin p with outLevel := level, isOut := isOut, outAt := tick } }
  else r

/-- An edge of RP_p blanks the windows that select it (BLANK_SRC, R295). -/
def pinEdge (s : State) (p at_ : Nat) : State := (sourceBlanked s (1 + p)).foldl (fun s w => blankEdge s w at_) s

/-- The edges that newly driven levels make. -/
def drivenEdges (s : State) (old : Reel) : State :=
  (List.range 32).foldl (fun s p =>
    let x := s.reel.pin p
    if x.isOut ∧ x.outLevel ≠ (if (old.pin p).isOut then (old.pin p).outLevel else (old.pin p).level) then pinEdge s p x.outAt else s) s

/-! ### Engine cycles -/

/-- The ECLK edge that begins the engine's next cycle (R411). -/
def cycleTick (s : State) (e : Nat) (g : Engine) : Nat := g.startAt + g.cycle * reelDiv s e / 256

/-- The ECLK edge that begins the cycle after it. -/
def nextCycleTick (s : State) (e : Nat) (g : Engine) : Nat := g.startAt + (g.cycle + 1) * reelDiv s e / 256

/-- The engine is running and its next cycle has begun. -/
def cycleDue (s : State) (e : Nat) : Bool :=
  let g := s.reel.eng e
  g.st != .disabled && !s.reel.held && decide (cycleTick s e g ≤ s.clk.now)

/-- The word the engine would fetch: the pending injection, else memory at PC (R423). -/
def fetchWord (s : State) (e : Nat) : Nat := (s.reel.eng e).inj.getD (reelImem s e (s.reel.eng e).pc)

/-- The span counter advances with every engine cycle, saturating (R420). -/
def spanNext (n : Nat) : Nat := min 0xFFFFFFFF (n + 1)

/-- The level pin p reads in the engine's cycle: the filtered level two ECLK cycles before it (R412). -/
def readPin (s : State) (e : Nat) (g : Engine) (p : Nat) : Bool := (s.reel.pin p).levelAt (cycleTick s e g - 2)

/-- A branch condition (table *Branch conditions*). -/
def branchHolds (s : State) (e : Nat) (g : Engine) (c p : Nat) : Bool :=
  match c with
  | 0 => true
  | 1 => g.l != 0
  | 2 => g.l == 0
  | 3 => g.v == 0
  | 4 => decide (g.v.toNat < g.lim)
  | 5 => decide (g.lim ≤ g.v.toNat)
  | 6 => readPin s e g p
  | 7 => !readPin s e g p
  | 8 => decide (reelSymW s e ≤ g.sc)
  | 9 => g.sc == 0
  | 10 => g.outq.isEmpty
  | 11 => decide (reelInCap s e ≤ g.inq.length)
  | _ => s.reel.flags.contains p

/-- The AWAIT in progress, with the level read in this cycle added (R417). -/
def awaitUpdate (s : State) (e : Nat) (g : Engine) (w : Nat) : Awaiting :=
  let base := match g.await with
    | some a => if a.word = w then a else ⟨w, cycleTick s e g, false, false⟩
    | none => ⟨w, cycleTick s e g, false, false⟩
  let b := readPin s e g (ifld w 4 0)
  { base with sawLow := base.sawLow || !b, sawHigh := base.sawHigh || b }

/-- Whether the AWAIT completes in this cycle (table *Await kinds*). -/
def awaitDone (s : State) (e : Nat) (g : Engine) (w : Nat) : Bool :=
  let i := ifld w 4 0
  let a := awaitUpdate s e g w
  match ifld w 14 12 with
  | 0 => readPin s e g i
  | 1 => !readPin s e g i
  | 2 => a.sawLow && readPin s e g i
  | 3 => a.sawHigh && !readPin s e g i
  | 4 => s.reel.flags.contains i
  | 5 => !s.reel.flags.contains i
  | 6 => (match cget (fun _ => none) s.reel.events i with
          | some o => decide (a.from_ ≤ o ∧ o < cycleTick s e g)
          | none => false)
  | _ => decide (g.v.toNat ≤ g.span)

/-- Bit shifted out of SR (R418). -/
def outBit (s : State) (e : Nat) (sr : Word) : Bool := if reelLsbFirst s e then wbit sr 0 else wbit sr (reelSymW s e - 1)

/-- SR after one bit shifted in (R418). -/
def shiftIn (s : State) (e : Nat) (sr : Word) (b : Bool) : Word :=
  if reelLsbFirst s e then ofNat32 (sr.toNat / 2 + b2n b * 2 ^ (reelSymW s e - 1)) else ofNat32 (sr.toNat * 2 + b2n b)

/-- SR after one bit shifted out (R418). -/
def shiftOut (s : State) (e : Nat) (sr : Word) : Word :=
  if reelLsbFirst s e then ofNat32 (sr.toNat / 2) else ofNat32 (sr.toNat * 2)

/-- SR becomes a new IN entry; SR and SC are cleared. -/
def giveSr (g : Engine) (burstEnd : Bool) : Engine := { g with inq := g.inq ++ [(g.sr, burstEnd)], sr := 0, sc := 0 }

def inFull (s : State) (e : Nat) (g : Engine) : Bool := decide (reelInCap s e ≤ g.inq.length)

/-- A read of `n` bits: the engine after the shift and the deposit that falls due, none when it stalls (R419, R422). -/
def takeBits (s : State) (e : Nat) (g : Engine) (sr : Word) (n : Nat) : Option Engine :=
  let g' := { g with sr := sr, sc := min 32 (g.sc + n) }
  if reelDeposit s e ∧ reelSymW s e ≤ g'.sc then (if inFull s e g then none else some (giveSr g' false)) else some g'

/-- The engine after the refill a shift out may need, none when it stalls (R419). -/
def refillFirst (s : State) (e : Nat) (g : Engine) : Option Engine :=
  if reelRefill s e ∧ g.sc = 0 then
    (match g.outq with | w :: rest => some { g with sr := w, sc := reelSymW s e, outq := rest } | [] => none)
  else some g

/-- The value of MOVE's source (R420). -/
def moveSource (s : State) (e : Nat) (g : Engine) : Nat → Word
  | 0 => g.v
  | 1 => g.sr
  | 2 => ofNat32 g.span
  | 3 => lo32 (s.dtimeAt (cycleTick s e g))
  | 4 => 0
  | 5 => ~~~ g.v
  | _ => ofNat32 g.sc

/-- MOVE (R420): a source of SPAN restarts the span counter. -/
def moveTo (s : State) (e : Nat) (g : Engine) (dst src : Nat) : Engine :=
  let x := moveSource s e g src
  let g := if src = 2 then { g with span := 0 } else g
  match dst with
  | 0 => { g with v := x }
  | 1 => { g with sr := x, sc := reelSymW s e }
  | 2 => { g with lim := x.toNat % 65536 }
  | _ => { g with l := x.toNat % 65536 }

/-- DRIVE's level and direction for a pin (R416). -/
def driveOne (s : State) (e : Nat) (mode tick : Nat) (r : Reel) (p : Nat) : Reel :=
  match mode with
  | 0 => pinDrive s r e p false true tick
  | 1 => pinDrive s r e p true true tick
  | 2 => pinDrive s r e p (!(r.pin p).outLevel) true tick
  | _ => pinDrive s r e p (r.pin p).outLevel false tick

/-- What an executed instruction leaves: the engine, the block (pins and flags), whether it raised its source. -/
structure ReelResult where
  g : Engine
  r : Reel
  raise : Bool := false

/-- GOTO changes no register; the jump itself is made by `afterExec`. -/
def doGoto (s : State) (g : Engine) : Option ReelResult := some { g := g, r := s.reel }

def doAwait (s : State) (e : Nat) (g : Engine) (w : Nat) : Option ReelResult :=
  if awaitDone s e g w then some { g := g, r := s.reel } else none

def doBitin (s : State) (e : Nat) (g : Engine) (w : Nat) : Option ReelResult :=
  (takeBits s e g (shiftIn s e g.sr (readPin s e g (ifld w 4 0))) 1).map (fun g => { g := g, r := s.reel })

def doBitout (s : State) (e : Nat) (g : Engine) (w : Nat) : Option ReelResult :=
  (refillFirst s e g).map (fun g' =>
    { g := { g' with sr := shiftOut s e g'.sr, sc := g'.sc - 1 },
      r := pinDrive s s.reel e (ifld w 4 0) (outBit s e g'.sr) true (nextCycleTick s e g) })

/-- The group's levels as a number, group bit i in bit i (R418). -/
def groupValue (s : State) (e : Nat) (g : Engine) : Nat :=
  ((reelGroup s e).zipIdx).foldl (fun acc p => acc + b2n (readPin s e g p.1) * 2 ^ p.2) 0

/-- GROUP (R416, R418): an empty group executes with no effect. -/
def doGroup (s : State) (e : Nat) (g : Engine) (w : Nat) : Option ReelResult :=
  let n := (reelGroup s e).length
  if n = 0 then some { g := g, r := s.reel }
  else if ifld w 14 14 = 0 then
    (takeBits s e g (ofNat32 (g.sr.toNat * 2 ^ n + groupValue s e g)) n).map (fun g => { g := g, r := s.reel })
  else
    (refillFirst s e g).map (fun g' =>
      { g := { g' with sr := ofNat32 (g'.sr.toNat / 2 ^ n), sc := g'.sc - n },
        r := ((reelGroup s e).zipIdx).foldl (fun r p => pinDrive s r e p.1 (wbit g'.sr p.2) true (nextCycleTick s e g)) s.reel })

def doFill (s : State) (e : Nat) (g : Engine) (w : Nat) : Option ReelResult :=
  match g.outq with
  | x :: rest => some { g := { g with sr := x, sc := reelSymW s e, outq := rest }, r := s.reel }
  | [] => if ifld w 4 4 = 1 then none else some { g := g, r := s.reel }

def doDrain (s : State) (e : Nat) (g : Engine) (w : Nat) : Option ReelResult :=
  if inFull s e g then
    (if ifld w 4 4 = 1 then none
     else some { g := { g with sr := 0, sc := 0, rxDrop := satAdd 65535 g.rxDrop 1 }, r := s.reel })
  else some { g := giveSr g (ifld w 5 5 == 1), r := s.reel }

def doDrive (s : State) (e : Nat) (g : Engine) (w : Nat) : Option ReelResult :=
  let pins := if ifld w 12 12 = 1 then reelGroup s e else [ifld w 4 0]
  some { g := g, r := pins.foldl (driveOne s e (ifld w 14 13) (nextCycleTick s e g)) s.reel }

def doLoad (s : State) (g : Engine) (w : Nat) : Option ReelResult :=
  let imm := ifld w 11 0
  let g' := match ifld w 13 12 with
    | 0 => { g with v := ofNat32 imm }
    | 1 => { g with v := ofNat32 (g.v.toNat * 4096 + imm) }
    | 2 => { g with lim := imm }
    | _ => { g with l := imm }
  some { g := g', r := s.reel }

def doMove (s : State) (e : Nat) (g : Engine) (w : Nat) : Option ReelResult :=
  some { g := moveTo s e g (ifld w 10 8) (ifld w 2 0), r := s.reel }

def doFlag (s : State) (g : Engine) (w : Nat) : Option ReelResult :=
  let i := ifld w 3 0
  match ifld w 6 5 with
  | 0 => some { g := g, r := { s.reel with flags := insertNat i s.reel.flags } }
  | 1 => some { g := g, r := { s.reel with flags := s.reel.flags.filter (fun x => x != i) } }
  | _ => some { g := { g with lastRaise := i }, r := s.reel, raise := true }

def doAdjust (s : State) (g : Engine) (w : Nat) : Option ReelResult :=
  let imm := ofNat32 (ifld w 11 0)
  let g' := match ifld w 13 12 with
    | 0 => { g with l := (g.l + 65535) % 65536 }
    | 1 => { g with v := g.v + imm }
    | _ => { g with v := g.v - imm }
  some { g := g', r := s.reel }

/-- One instruction: none when it stalls (R422). -/
def doInstr (s : State) (e : Nat) (g : Engine) (w : Nat) : Option ReelResult :=
  match reelOp w with
  | 0x0 => doGoto s g
  | 0x1 => doAwait s e g w
  | 0x2 => doBitin s e g w
  | 0x3 => doBitout s e g w
  | 0x4 => doGroup s e g w
  | 0x5 => doFill s e g w
  | 0x6 => doDrain s e g w
  | 0x7 => doDrive s e g w
  | 0x8 => doLoad s g w
  | 0x9 => doMove s e g w
  | 0xA => doFlag s g w
  | _ => doAdjust s g w

/-- A GOTO whose condition holds, judged on the engine before the instruction. -/
def jumps (s : State) (e : Nat) (g : Engine) (w : Nat) : Bool :=
  reelOp w == 0 && branchHolds s e g (ifld w 9 6) (ifld w 14 10)

/-- The pending wrap pair becomes active (R424). -/
def activateWrap (s : State) (e : Nat) (g : Engine) : Engine :=
  { g with actTop := s.rf (A.eng e + 0x10) 13 8, actTarget := s.rf (A.eng e + 0x10) 5 0, wrapPend := false }

/-- PC, wrap pair, injection and delay after an executed instruction (R423). -/
def afterExec (s : State) (e : Nat) (before : Engine) (w : Nat) (g : Engine) : Engine :=
  let injected := before.inj.isSome
  let g := { g with inj := none, await := none, delay := ifld w 19 15,
                    st := if ifld w 19 15 = 0 then .run else .delay, cycle := before.cycle + 1 }
  let g := if jumps s e before w then { g with pc := ifld w 5 0 }
    else if injected then g
    else if before.pc = before.actTop then
      (let g' := if before.wrapPend then activateWrap s e g else g
       { g' with pc := g'.actTarget })
    else { g with pc := (before.pc + 1) % 64 }
  { g with span := spanNext g.span }

/-- A cycle in which the fetched instruction stalls (R422): only the cycle is spent. -/
def afterStall (s : State) (e : Nat) (g : Engine) (w : Nat) : Engine :=
  { g with st := .stall, stalls := if g.st = .stall then g.stalls else satAdd 65535 g.stalls 1, cycle := g.cycle + 1,
           span := spanNext g.span, await := if reelOp w = 1 then some (awaitUpdate s e g w) else none }

/-- The engine cycle that runs, which fetches w (R422, R423). -/
def reelCycle (s : State) (e : Nat) : State :=
  let g := s.reel.eng e
  let w := fetchWord s e
  match doInstr s e g w with
  | some x =>
    let s' := drivenEdges (s.setReel (x.r.setEng e (afterExec s e g w x.g))) s.reel
    if x.raise then s'.arrive (352 + e) else s'
  | none => s.setReel (s.reel.setEng e (afterStall s e g w))

/-- One engine cycle that fetches an instruction with opcode `op` (R423), in its place of the FCLK cycle; nothing when no such cycle is due. -/
def reelInstr (s : State) (e op : Nat) : State :=
  if cycleDue s e ∧ (s.reel.eng e).delay = 0 ∧ reelOp (fetchWord s e) = op then reelCycle (s.reelTurn (1 + e)) e else s

/-- An idle engine cycle counts the delay down (R423). -/
def reelIdle (s : State) (e : Nat) : State :=
  let g := s.reel.eng e
  if cycleDue s e ∧ 0 < g.delay then
    let s := s.reelTurn (1 + e)
    s.setReel (s.reel.setEng e { g with delay := g.delay - 1, st := if g.delay = 1 then .run else .delay,
                                        cycle := g.cycle + 1, span := spanNext g.span })
  else s

/-! ### Starting, stopping, holding -/

/-- A start of an engine (R426); the cycle count restarts at the first ECLK edge after this FCLK cycle (R411). -/
def engineStart (s : State) (e : Nat) (g : Engine) : Engine :=
  activateWrap s e { g with st := .run, pc := reelStartAddr s e, sr := 0, sc := 0, v := 0, lim := 0, l := 0, span := 0, delay := 0,
                            inj := none, await := none, startAt := s.clk.now + s.fclk 1, cycle := 0 }

/-- EN written from 0 to 1: the engine starts unless it is held (R426, R430). -/
def reelEnable (s : State) (e : Nat) : State :=
  let s' := s.setRf (A.eng e) 0 0 1
  if reelEn s e then s
  else if s.reel.held then s'
  else s'.setReel (s'.reel.setEng e (engineStart s' e (s'.reel.eng e)))

/-- EN written to 0 stops the engine at once; pins and queues stay (R428). -/
def reelDisable (s : State) (e : Nat) : State :=
  let s := s.setRf (A.eng e) 0 0 0
  s.setReel (s.reel.setEng e { s.reel.eng e with st := .disabled, delay := 0, inj := none, await := none })

/-- REEL_RESTART (R427): it acts on a running engine. -/
def reelRestart (s : State) (e : Nat) : State :=
  let g := s.reel.eng e
  if g.st = .disabled then s
  else s.setReel (s.reel.setEng e (activateWrap s e { g with st := .run, pc := reelStartAddr s e, sr := 0, sc := 0, delay := 0, inj := none, await := none }))

def reelFlushIn (s : State) (e : Nat) : State := s.setReel (s.reel.setEng e { s.reel.eng e with inq := [] })
def reelFlushOut (s : State) (e : Nat) : State := s.setReel (s.reel.setEng e { s.reel.eng e with outq := [] })

/-- An engine under a hold: stopped, its queues empty (R430). -/
def Engine.hold (g : Engine) : Engine :=
  { g with st := .disabled, outq := [], inq := [], delay := 0, inj := none, await := none }

/-- A hold begins: every engine executes nothing, its queues are empty, every RP pin is an input (R430). -/
def reelHoldBegin (s : State) : State :=
  let es := (s.reel.engines.map (fun p => (p.1, p.2.hold))).filter (fun p => p.2 ≠ {})
  let ps := (s.reel.pins.map (fun p => (p.1, { p.2 with isOut := false }))).filter (fun p => p.2 ≠ {})
  s.setReel { s.reel with held := true, engines := es, pins := ps }

/-- The hold ends: each engine with EN = 1 starts (R426, R430). -/
def reelHoldEnd (s : State) : State :=
  (List.range 16).foldl (fun s e => if reelEn s e then s.setReel (s.reel.setEng e (engineStart s e (s.reel.eng e))) else s)
    (s.setReel { s.reel with held := false })

/-- After a change of clock source, SAFE_HOLD or CHIP_SAFE the hold follows (R430). -/
def reelReview (s : State) : State :=
  if reelHold s = s.reel.held then s else if reelHold s then reelHoldBegin s else reelHoldEnd s

/-- An occurrence of event i (R417): angle marks 0 to 15, SYNC_FIRE 16. -/
def reelEvent (s : State) (i : Nat) : State :=
  s.setReel { s.reel with events := cset (fun _ => none) s.reel.events i (some s.clk.now) }

/-- The filter time of pin p: FILT × 40 ns (R413). -/
def pinFilt (s : State) (p : Nat) : Nat := 16 * s.rf (A.pin p) 11 8

/-- RP pin p, whose input has stood at `level` since tick ts, takes that level once it has held for the filter time (R413). -/
def rpPin (s : State) (p ts : Nat) (level : Bool) : State :=
  let x := s.reel.pin p
  let at_ := ts + pinFilt s p
  if x.level = level ∨ s.clk.now < at_ then s
  else
    let s := s.setReel { s.reel with pins := cset noPin s.reel.pins p { x with prev := x.level, level := level, changed := at_ } }
    if x.isOut then s else pinEdge s p at_

/-! ### Queues, flags, memory -/

/-- The free places of the OUT queue; none under a hold, which keeps the queues empty (R430, DEDUCED: log entry 75). -/
def reelOutRoom (s : State) (e : Nat) : Nat := if s.reel.held then 0 else reelOutCap s e - (s.reel.eng e).outq.length

/-- Entries appended to the OUT queue. -/
def reelAppend (s : State) (e : Nat) (ws : List Word) : State :=
  s.setReel (s.reel.setEng e { s.reel.eng e with outq := (s.reel.eng e).outq ++ ws })

/-- A REEL_e_TX write (R432). -/
def reelTx (s : State) (e : Nat) (v : Word) : State :=
  if reelOutRoom s e = 0 then s.setReel (s.reel.setEng e { s.reel.eng e with txDrop := satAdd 65535 (s.reel.eng e).txDrop 1 })
  else reelAppend s e [v]

/-- A read of REEL_e_RX (R431): the oldest IN entry in REGISTER mode, 0 when there is none. -/
def reelRx (s : State) (e : Nat) : State :=
  match (s.reel.eng e).inq with
  | (w, _) :: rest =>
    if reelRegMode s e then (s.setReel (s.reel.setEng e { s.reel.eng e with inq := rest })).answer [w] else s.answer [0]
  | [] => s.answer [0]

/-- The engine has moved an IN entry in the FCLK cycle that runs. -/
def inMoved (s : State) (e : Nat) : Bool :=
  match (s.reel.eng e).inAt with | some n => s.clk.sameCycle n s.clk.now | none => false

/-- One IN entry moves to the engine's queue cell, one per FCLK cycle and after the engine cycles of it (R421, R429, R431). -/
def reelInTransfer (s : State) (e : Nat) : State :=
  match (s.reel.eng e).inq with
  | (w, fin) :: rest =>
    if reelRegMode s e then s
    else
      let s := (if inMoved s e then s.tick s.clk.nextCycle else s).reelTurn 17
      let s := qProduce (s.setReel (s.reel.setEng e { s.reel.eng e with inq := rest, inAt := some s.clk.now })) 2 e [w]
      if fin then qEndBurst s 2 e else s
  | [] => s

/-- A pending injection is placed when the word passes R415 and the engine runs (R425). -/
def reelInject (s : State) (e w : Nat) : State :=
  if reelOperandGood w ∧ w < 2 ^ 24 ∧ reelEn s e then s.setReel (s.reel.setEng e { s.reel.eng e with inj := some w })
  else s

/-- A pending wrap pair (R424). -/
def reelWrapSet (s : State) (e top target : Nat) : State :=
  let s := (s.setRf (A.eng e + 0x10) 13 8 top).setRf (A.eng e + 0x10) 5 0 target
  s.setReel (s.reel.setEng e { s.reel.eng e with wrapPend := true })

def flagsOf (v : Nat) : List Nat := (List.range 16).filter (fun i => v.testBit i)

/-- Flags set and cleared by a register write or a command; a flag in both is set (table *Reel commands*). -/
def reelFlagWrite (s : State) (set clr : Nat) : State :=
  let kept := s.reel.flags.filter (fun i => !(flagsOf clr).contains i)
  s.setReel { s.reel with flags := (flagsOf set).foldl (fun l i => insertNat i l) kept }

/-- A BAR2 write of an instruction memory word: stored when it passes R415, else discarded and counted (R434). -/
def reelImemWord (s : State) (a : Nat) (w : Word) : State :=
  if reelWordGood w.toNat then s.putWords a [w]
  else
    let e := (a - 0x84000) / 0x100
    s.setReel (s.reel.setEng e { s.reel.eng e with imemDisc := satAdd 65535 (s.reel.eng e).imemDisc 1 })

/-- At the prepare phase of Dusk entry the Reel block refuses while an engine holds entries (R433). -/
def reelRefuses (s : State) : Bool :=
  (List.range 16).any (fun e => reelEn s e &&
    (!(s.reel.eng e).outq.isEmpty || (!(s.reel.eng e).inq.isEmpty && !reelRegMode s e)))

/-! ### Register views -/

/-- STATE code of an engine. -/
def reelCode (s : State) (e : Nat) : Nat :=
  if ¬ reelEn s e then 0 else if s.reel.held then 4
  else match (s.reel.eng e).st with | .disabled => 0 | .run => 1 | .delay => 2 | .stall => 3

def reelRunning (s : State) : Nat :=
  (List.range 16).foldl (fun n e => let c := reelCode s e; if c = 0 ∨ c = 4 then n else n + 2 ^ e) 0

/-- Active pair in REEL_e_WRAP layout. -/
def wrapWord (s : State) (e : Nat) : Word :=
  packWord [(b2n (s.reel.eng e).wrapPend, 31), ((s.reel.eng e).actTop, 24), ((s.reel.eng e).actTarget, 16),
            (s.rf (A.eng e + 0x10) 13 8, 8), (s.rf (A.eng e + 0x10) 5 0, 0)]

def engView (s : State) (e o : Nat) : Option Word :=
  let g := s.reel.eng e
  match o with
  | 0x0C => some (setFld (s.reg (A.eng e + 0xC)) 20 16 (reelGroup s e).length)
  | 0x10 => some (wrapWord s e)
  | 0x18 => some (packWord [(g.sc % 64, 26), (g.inq.length, 16), (g.outq.length, 12), (reelCode s e, 8), (b2n g.inj.isSome, 7), (g.pc, 0)])
  | 0x28 => some g.v
  | 0x2C => some (packWord [(g.lim, 16), (g.l, 0)])
  | 0x30 => some (packWord [(g.rxDrop, 16), (g.imemDisc, 0)])
  | 0x34 => some (packWord [(g.stalls, 16), (g.txDrop, 0)])
  | 0x38 => some (ofNat32 g.lastRaise)
  | _ => none

def reelView (s : State) (o : Nat) : Option Word :=
  if o = 0 then some (packWord [(b2n s.reel.held, 16), (reelRunning s, 0)])
  else if o = 4 then some (packWord (s.reel.flags.map (fun i => (1, i))))
  else if 0x80 ≤ o ∧ o < 0x100 then
    let p := (o - 0x80) / 4
    some (s.reg (A.pin p) ||| packWord [(b2n (s.reel.pin p).isOut, 17), (b2n (s.reel.pin p).level, 16)])
  else if 0x400 ≤ o ∧ o < 0x800 then engView s ((o - 0x400) / 0x40) (o % 0x40)
  else none

end Sys2Proof.Machine
end

