-- ==== Sys2Proof/Machine/Fatal.lean ====
section
/-!
DEFINITION. The chip safe state (Faults, Error Codes and Reflection, R463 to R465).
-/
namespace Sys2Proof.Machine

/-- A slot as the chip safe state leaves it: no armed occurrence and no running event (R464). -/
def Slot.toSafe (x : Slot) : Slot :=
  { x with running := none, st := match x.st with | .armed | .frozen => .wait | st => st }

/-- A scheduling unit as the chip safe state leaves it. -/
def SUnit.toSafe (u : SUnit) : SUnit :=
  { u with slots := (u.slots.map (fun p => (p.1, p.2.toSafe))).filter (fun p => p.2 ≠ {}), queue := [] }

def unitsToSafe (s : State) : State := (List.range 5).foldl (fun s u => s.setUnit u (s.unit u).toSafe) s

/-- Every bank takes its safe state without fault or drive records (R464). -/
def banksToSafe (s : State) : State :=
  (List.range 16).foldl (fun s b => if (s.bank b).safe then s else bankToSafe s b false) s

/-- A chip-level fatal condition (R463, R464); in the chip safe state no further one is taken. -/
def chipFatal (s : State) (code : Nat) (d0 d1 : Word := 0) : State :=
  if s.glb.chipSafe then s
  else
    let s := linkSafe (banksToSafe (unitsToSafe s))
    let s := reelReview { s with glb := { s.glb with chipSafe := true } }
    (faultRecord (s.setRf 0x3000 31 24 code) lvChip code 0 0 d0 d1).arrive 1

/-- A fatal condition found outside the Warden's own actions: its change of WDN_STATUS is captured (table *Fault and reflection
telemetry*). -/
def fatalNow (s : State) (code : Nat) : State := reflNotice (chipFatal s code) (reflWords s)

end Sys2Proof.Machine
end

