-- ==== Sys2Proof/Machine/Sched.lean ====
section
/-!
DEFINITION. Event schedulers: slots, angle updates, starts and ends, late events, hand-over, changes of sync state,
outcomes (Scheduling Events in Angle, R143 to R181; per-shot correction, R251 to R253).
-/
namespace Sys2Proof.Machine

/-! ### Domains as the schedulers see them -/

/-- Sync state of domain d. -/
def syncOf (s : State) (d : Nat) : SyncSt := if d < 2 then (s.dom d).st else (s.el d).st

/-- One revolution in AU, and the wrap length L of a domain (table *Angle domains and their inputs*). -/
def oneRev : Nat := 0x01680000
def twoStroke (s : State) (d : Nat) : Bool := s.rb (A.dom d) 3
def domL (s : State) (d : Nat) : Nat := if d < 2 ∧ ¬ twoStroke s d then 2 * oneRev else oneRev

/-- The state a domain held before its STALL. -/
def heldSync (s : State) (d : Nat) : SyncSt := if d < 2 then (if (s.dom d).heldCycle then .cycle else .rev) else (s.el d).held

/-- INC in force in a domain; 0 without a trajectory. -/
def incOf (s : State) (d : Nat) : Nat := if d < 2 then (((s.dom d).traj).map (·.inc)).getD 0 else (s.el d).inc

def cycleNo (s : State) (d : Nat) : Nat := cget zeroNat s.cycno d

/-- The update from a to b passes x (R146). -/
def passes (L a b x : Nat) : Bool := decide (0 < fdist L a x ∧ fdist L a x ≤ fdist L a b)

/-- LATE_TOL that unit u applies. -/
def lateTol (s : State) (u : Nat) : Nat := s.rf (A.region (unitRegion s u)) 15 0

/-! ### Event slots -/

def slEn (w : List Word) : Bool := wbit (wordAt w 0) 31
def slSkip (w : List Word) : Bool := wbit (wordAt w 0) 30
def slEndEn (w : List Word) : Bool := wbit (wordAt w 0) 29
def slArmDef (w : List Word) : Bool := wbit (wordAt w 0) 28
def slSdom (w : List Word) : Nat := fld (wordAt w 0) 27 26
def slEdom (w : List Word) : Nat := fld (wordAt w 0) 25 24
def slChan (w : List Word) : Nat := fld (wordAt w 0) 21 16
def slProf (w : List Word) : Nat := fld (wordAt w 0) 15 12
def slMlen (w : List Word) : Nat := let m := fld (wordAt w 0) 4 0; if m = 0 then 32 else m
def slStart (w : List Word) : Nat := (wordAt w 1).toNat
def slEnd (w : List Word) : Nat := (wordAt w 2).toNat
def slArmWord (w : List Word) : Nat := (wordAt w 3).toNat
def slTcap (w : List Word) : Nat := (wordAt w 4).toNat
def slMask (w : List Word) : Word := wordAt w 5

/-- The arm angle in force (R143). -/
def slArm (s : State) (w : List Word) : Nat :=
  if slArmDef w then fdist (domL s (slSdom w)) 0x005A0000 (slStart w) else slArmWord w

/-- Check 1 and check 2 of the table *Slot set checks*. -/
def setAngleGood (s : State) (w : List Word) : Bool :=
  decide (slStart w < domL s (slSdom w)) && decide (slArmWord w < domL s (slSdom w)) && decide (slEnd w < domL s (slEdom w))
def setReservedGood (w : List Word) : Bool :=
  fld (wordAt w 0) 23 22 == 0 && fld (wordAt w 0) 11 5 == 0 && wordAt w 6 == 0 &&
  (slEndEn w || (slEdom w == 0 && slEnd w == 0)) && (!slArmDef w || slArmWord w == 0)

/-- Status of a set held by region n (R144). -/
def setStatus (s : State) (n : Nat) (w : List Word) : Nat :=
  if ¬ setAngleGood s w then 1
  else if ¬ setReservedGood w then 2
  else if slChan w / 16 ≠ n then 3
  else if slTcap w < 400 ∨ fdist (domL s (slSdom w)) (slArm s w) (slStart w) < 0x10000 ∨
      (slEndEn w ∧ slEdom w = slSdom w ∧ slEnd w = slStart w) then 4
  else 0

/-- A set of zeros is not listed. -/
def normSet (w : List Word) : List Word := if w.all (fun x => x == 0) then [] else w.take 7

/-- The mask admits the occurrence of index i (R153). -/
def maskBit (w : List Word) (i : Nat) : Bool := wbit (slMask w) (i % slMlen w)

/-- The mask at the angle `at_` where the slot becomes ARMED, with the cycle count in force there (R153). -/
def maskAdmits (w : List Word) (cyc at_ : Nat) : Bool := maskBit w (cyc + if slStart w < at_ then 1 else 0)

/-! ### Outcomes (R181) -/

/-- REGION of a record of unit u: its role, or 4 for the spare. -/
def regionCode (s : State) (u : Nat) : Nat := unitRole s u

/-- Words of an event outcome record. -/
def outcomeWords (s : State) (u kind reason dom chan slot occ take late : Nat) : List Word :=
  [packWord [(kind, 28), (reason, 24), (regionCode s u, 21), (dom, 19), (chan, 10), (slot, 0)],
   packWord [(occ, 16), (take, 0)], ofNat32 late, lo32 s.dtime]

/-- The counter of an outcome kind: offset and lowest bit in the unit's registers. -/
def outcomeCounter : Nat → Nat × Nat
  | 1 => (0x18, 0) | 2 => (0x18, 16) | 3 => (0x1C, 0) | 4 => (0x1C, 16) | _ => (0x20, 16)

/-- LAST_OUT of a unit. -/
def SUnit.lastOut (x : SUnit) (ws : List Word) : SUnit :=
  (List.range 4).foldl (fun x i => x.setCnt (0x40 + 4 * i) (wordAt ws i)) x

/-- One outcome, with the slot's TAKE as it stands: counted, in the cycle trace, on the outcome ring, with its interrupt source (R181). -/
def outcome (s : State) (u kind reason dom chan slot occ late : Nat) : State :=
  let ws := outcomeWords s u kind reason dom chan slot occ ((s.unit u).slot slot).take late
  let k := outcomeCounter kind
  let s := s.setUnit u (((s.unit u).count k.1 (k.2 + 15) k.2).lastOut ws)
  (tlmRecord (traceWrite s 1 ((dom * 8 + regionCode s u) * 64 + chan) ws) 1 (some dom) ws).arrive (128 + regionCode s u)

/-! ### Starting -/

/-- ADV in AU and END_ADV of a corrected event (R252). -/
def endAdv (s : State) (w : List Word) (lim : Nat) : Nat :=
  let L := domL s (slEdom w)
  let adv := (lim * 40 * incOf s (slEdom w) + 65535) / 65536
  let u := if slEdom w = slSdom w then min adv (fdist L (slStart w) (slEnd w) - 1) else adv
  fdist L (u % L) (slEnd w)

/-- The event is corrected (R251). -/
def isCorrected (s : State) (w : List Word) : Bool :=
  let c := slChan w
  !chProp s c && mhCorr (s.header c) && !(s.cell c).modelErr && slEndEn w && decide (slEdom w < 2)

/-- The running event a start opens `late` AU past START (R156): a corrected one whose END_ADV has gone by too is overdue (R255). -/
def newRunning (s : State) (w : List Word) (occ late : Nat) : Running :=
  let corr := isCorrected s w
  let e := if corr then endAdv s w (mhLim (s.header (slChan w))) else slEnd w
  { chan := slChan w, prof := slProf w, endEn := slEndEn w, sdom := slSdom w, edom := slEdom w, ende := slEnd w, endAngle := e,
    corrected := corr, cap := slTcap w, start := s.clk.now, occ := occ,
    overdue := corr && slEdom w == slSdom w && decide (fdist (domL s (slSdom w)) (slStart w) e ≤ late) }

/-- Every running event of the unit on a channel closes without an end command (R163). -/
def SUnit.closeChan (x : SUnit) (c : Nat) : SUnit :=
  let l := x.slots.map (fun p =>
    (p.1, { p.2 with running := p.2.running.filter (fun r => r.chan != c), held := p.2.held.filter (fun r => r.chan != c) }))
  { x with slots := l.filter (fun p => p.2 ≠ {}) }

/-- The running event of a slot is closed in its unit. -/
def closeSlotRun (s : State) (u slot : Nat) : State :=
  s.setUnit u ((s.unit u).setSlot slot { (s.unit u).slot slot with running := none })

/-- The unit that holds the running event of a start. -/
def runHolder (s : State) (cmd : StartCmd) : Option (Nat × Running) :=
  (List.range 5).findSome? (fun u => match ((s.unit u).slot cmd.slot).running with
    | some r => if r.chan = cmd.chan ∧ r.start = cmd.start ∧ unitServes s u then some (u, r) else none
    | none => none)

/-- TIME_CAP_EXPIRY (R160, R191): the scheduler closes the running event, with outcome CAP_END when it has an end by
angle, and the cell goes to END_PH unless it is there. -/
def timeCapExpiry (s : State) (c : Nat) : State :=
  if ¬ capDue s c then s
  else match s.shot c with
    | none => s
    | some x =>
      let s' := match runHolder s x.cmd with
        | some (u, r) =>
          let s := closeSlotRun s u x.cmd.slot
          if r.endEn then outcome s u 5 0 r.edom r.chan x.cmd.slot r.occ 0 else s
        | none => s
      enterEnd s' c 1 0 1

/-- What bank b has due at this instant: it comes before the starts of the instant (R205, R208). -/
def bankDue (s : State) (b : Nat) : State :=
  let s := (chansOf b).foldl (fun s c => leakTimeout (phaseTimer (holdExpiry (timeCapExpiry s c) c) c) c) s
  boostCollapse ((chansOf b).foldl hsShort s) b

/-- Start units free at this instant (R168). -/
def SUnit.freeUnits (x : SUnit) (now : Nat) : Nat := 8 - (x.busy.filter (fun t => decide (now < t))).length

/-- A start is issued `late` AU past START (R156, R163, R168): the running event opens and the bank takes the command, after what else the
instant brings it. -/
def issueStart (s : State) (u slot : Nat) (w : List Word) (occ late : Nat) : State :=
  let s := bankDue s (slChan w / 4)
  let r := newRunning s w occ late
  let x := (s.unit u).closeChan r.chan
  let x := x.setSlot slot { x.slot slot with running := some r, held := none }
  let x := { x with busy := (x.busy.filter (fun t => decide (s.clk.now < t))) ++ [s.clk.now + s.fclk 500] }
  startCommand (s.setUnit u x)
    { slot := slot, region := regionCode s u, chan := r.chan, prof := r.prof, cap := r.cap, start := s.clk.now, corrected := r.corrected }
    x.epoch

/-- FIRE_NOW with END also passed (R167). -/
def endPassed (s : State) (w : List Word) (late : Nat) : Bool :=
  slEndEn w && slEdom w == slSdom w && decide (fdist (domL s (slSdom w)) (slStart w) (slEnd w) ≤ late)

/-! ### Start units -/

/-- The first waiting start in order of original start instant and slot (R169). -/
def firstQueued (q : List Queued) : Option Queued :=
  q.foldl (fun best x => match best with
    | none => some x
    | some y => if x.start < y.start ∨ (x.start = y.start ∧ x.slot < y.slot) then some x else some y) none

/-- A waiting start is issued or skipped at the instant a unit is free (R169). While its SDOM publishes no angle, R167 is judged with the
word 0xFFFFFFFF that is read then, and nothing takes a waiting start back (DESIGN CHOICE: log entry 70). -/
def issueQueued (s : State) (u : Nat) (q : Queued) : State :=
  let th := s.angleWord (slSdom q.set)
  let late := fdist (domL s (slSdom q.set)) (slStart q.set) th
  let x := s.unit u
  let s := s.setUnit u { x with queue := x.queue.erase q }
  if endPassed s q.set late then outcome s u 2 5 (slSdom q.set) (slChan q.set) q.slot q.occ late
  else outcome (issueStart s u q.slot q.set q.occ late) u 1 q.reason (slSdom q.set) (slChan q.set) q.slot q.occ late

/-- Waiting starts while a unit is free. -/
def drainQueue (u : Nat) : Nat → State → State
  | 0, s => s
  | n + 1, s =>
    if (s.unit u).freeUnits s.clk.now = 0 then s
    else match firstQueued (s.unit u).queue with
      | some q => drainQueue u n (issueQueued s u q)
      | none => s

/-- The waiting starts of a unit go ahead of any new one. -/
def drainWaiting (s : State) (u : Nat) : State := drainQueue u (s.unit u).queue.length s

/-- START_UNIT_FREE (R169). -/
def startUnitFree (s : State) (u : Nat) : State := if unitRuns s u then drainWaiting s u else s

/-- A start that finds no unit free waits (R169). -/
def queueStart (s : State) (u slot reason : Nat) (w : List Word) (occ : Nat) : State :=
  let x := (s.unit u).count 0x20 15 0
  s.setUnit u { x with queue := x.queue ++ [{ slot := slot, start := s.clk.now, reason := reason, set := w, occ := occ }] }

/-- A late start with its reason and lateness (R165 to R167, R169). -/
def lateStart0 (s : State) (u slot reason late : Nat) (w : List Word) (occ : Nat) : State :=
  let out (kind r : Nat) (s : State) := outcome s u kind r (slSdom w) (slChan w) slot occ late
  if slSkip w then out 2 reason s
  else if endPassed s w late then out 2 5 s
  else
    let s := drainWaiting s u
    if (s.unit u).freeUnits s.clk.now = 0 then queueStart s u slot reason w occ else out 1 reason (issueStart s u slot w occ late)

/-- A late start; one with reason RESUME is counted for the TAKEOVER record. -/
def lateStart (s : State) (u slot reason late : Nat) (w : List Word) (occ : Nat) : State :=
  let s := lateStart0 s u slot reason late w occ
  if reason = 4 then s.setUnit u { s.unit u with resumed := (s.unit u).resumed + 1 } else s

/-- An on-time start (R155, R169). -/
def onTimeStart (s : State) (u slot late : Nat) (w : List Word) (occ : Nat) : State :=
  let s := drainWaiting s u
  if (s.unit u).freeUnits s.clk.now ≠ 0 then issueStart s u slot w occ late
  else if slSkip w then
    outcome (s.setUnit u ((s.unit u).count 0x20 15 0)) u 2 3 (slSdom w) (slChan w) slot occ late
  else queueStart s u slot 3 w occ

/-- The update in which a scheduler acts: domain, its end angle, the size judged against LATE_TOL, and the late reason
of a start passed in it (JUMP, or RESUME under R170), and the cycle count before it. -/
structure Upd where
  d : Nat
  a : Nat
  b : Nat
  step : Nat
  reason : Nat
  cyc : Nat
  deriving DecidableEq, Repr

/-- An update passes START of an ARMED slot (R152, R154). While the clocks run from FIO no event starts (R40). -/
def passStart (s : State) (u slot : Nat) (v : Upd) : State :=
  let y := (s.unit u).slot slot
  let w := y.set
  let late := fdist (domL s v.d) (slStart w) v.b
  let s := s.setUnit u ((s.unit u).setSlot slot { y with st := .wait })
  if ¬ s.clk.pll then s
  else if v.step ≤ lateTol s u ∨ v.b = slStart w then onTimeStart s u slot late w y.occ
  else lateStart s u slot v.reason late w y.occ

/-! ### Arming and the hand-over -/

/-- The slot after its mask is decided. -/
def Slot.judged (y : Slot) (admits : Bool) : Slot := { y with st := if admits then .armed else .wait }

/-- The active set replaced by the committed shadow set (R172). -/
def Slot.handOver (y : Slot) : Slot :=
  match y.shadow with
  | some w => { y with set := normSet w, take := (y.take + 1) % 65536, shadow := none }
  | none => y

/-- The start that a hand-over places as already passed (R173): at behaviour level 1 there is none (R604). -/
def handoverLate (s : State) (w : List Word) (x : Nat) : Bool :=
  let L := domL s (slSdom w)
  let D := fdist L (slArm s w) (slStart w)
  decide (fdist L (slStart w) x ≤ (L - D) / 2) && s.rf 4 1 0 != 1

/-- A hand-over at angle x of domain d with cycle count `cyc` of the new set's domain, in an update that ends at b
(R173). -/
def placeSlot (s : State) (u slot : Nat) (x b cyc : Nat) : State :=
  let y := (s.unit u).slot slot
  let w := y.set
  let L := domL s (slSdom w)
  let put (y' : Slot) := s.setUnit u ((s.unit u).setSlot slot y')
  if ¬ slEn w then put { y with st := .off }
  else
    let y := { y with occ := (y.occ + 1) % 65536 }
    if syncOf s (slSdom w) ≠ .cycle then put { y with st := .defer }
    else if fdist L (slArm s w) x ≤ fdist L (slArm s w) (slStart w) then put (y.judged (maskAdmits w cyc x))
    else if handoverLate s w x then
      let i : Int := ((cyc : Int) - (if x < slStart w then 1 else 0)).emod (slMlen w : Int)
      let s := put { y with st := .wait }
      if maskBit w i.toNat ∧ s.clk.pll then lateStart s u slot 2 (fdist L (slStart w) b) w y.occ else s
    else put { y with st := .defer }

/-- The hand-over of a slot at the arm point x of domain d. -/
def handOver (s : State) (u slot : Nat) (v : Upd) (x cyc : Nat) : State :=
  let y := ((s.unit u).slot slot).handOver
  let s := s.setUnit u ((s.unit u).setSlot slot y)
  let d' := slSdom y.set
  if d' = v.d then placeSlot s u slot x v.b cyc
  else placeSlot s u slot (s.angleWord d') (s.angleWord d') (cycleNo s d')

/-- An update passes the arm point of a slot (table *Slot transitions*). -/
def passArm (s : State) (u slot : Nat) (v : Upd) (x cyc : Nat) : State :=
  let y := (s.unit u).slot slot
  if y.st ≠ .defer ∧ y.shadow.isSome then handOver s u slot v x cyc
  else
    let y := if y.st = .wait then { y with occ := (y.occ + 1) % 65536 } else y
    s.setUnit u ((s.unit u).setSlot slot (y.judged (maskAdmits y.set cyc x)))

/-! ### Ending -/

/-- REM of a corrected end in ticks: remaining angle at the issuing update divided by INC; 0 when the update has also
passed END (R253, R254). -/
def remTicks (s : State) (r : Running) (a b : Nat) : Nat :=
  let L := domL s r.edom
  let rem := if passes L a b r.ende then 0 else fdist L b r.ende
  rem * 65536 / max 1 (incOf s r.edom)

/-- An end by angle (R159, R253). -/
def endByAngle (s : State) (u slot : Nat) (v : Upd) : State :=
  match ((s.unit u).slot slot).running with
  | none => s
  | some r =>
    let y := { (s.unit u).slot slot with running := none, held := if r.corrected then some r else none }
    endCommand (s.setUnit u ((s.unit u).setSlot slot y)) r.chan slot (s.unit u).epoch (if r.corrected then some (remTicks s r v.a v.b) else none)

/-- An end at once (R177, END_NOW): outcome ENDED. -/
def endAtOnce (s : State) (u slot reason : Nat) : State :=
  match ((s.unit u).slot slot).running with
  | none => s
  | some r => outcome (endCommand (closeSlotRun s u slot) r.chan slot (s.unit u).epoch none) u 4 reason r.sdom r.chan slot r.occ 0

/-- An end at once for an event whose cell holds after its end command (R177, R255): the hold is cancelled; the event has ended by angle,
so that no outcome is reported (DEDUCED: log entry 73). -/
def endHeld (s : State) (u d slot : Nat) : State :=
  match ((s.unit u).slot slot).held with
  | none => s
  | some r =>
    if r.sdom = d ∨ r.edom = d then
      let s := s.setUnit u ((s.unit u).setSlot slot { (s.unit u).slot slot with held := none })
      if (s.shot r.chan).any (fun x => x.cmd.start == r.start && x.hold.isSome) then endCommand s r.chan slot (s.unit u).epoch none else s
    else s

/-! ### One update of a domain -/

/-- An action of a slot in an update: distance from a, kind (0 end, 1 arm, 2 start), slot (R147). -/
structure Act where
  dist : Nat
  kind : Nat
  slot : Nat
  deriving DecidableEq, Repr

def Act.lt (x y : Act) : Bool :=
  decide (x.dist < y.dist) || (x.dist == y.dist && (decide (x.kind < y.kind) || (x.kind == y.kind && decide (x.slot < y.slot))))

/-- An angle passed by the update, as an action. -/
def actAt (L : Nat) (v : Upd) (kind slot x : Nat) : List Act :=
  if passes L v.a v.b x then [{ dist := fdist L v.a x, kind := kind, slot := slot }] else []

/-- The actions a slot offers in an update, as it stands. -/
def slotActs (s : State) (v : Upd) (slot : Nat) (y : Slot) : List Act :=
  let L := domL s v.d
  (match y.running with
   | some r =>
     if r.endEn ∧ r.edom = v.d ∧ r.start < s.clk.now then
       (if r.overdue then [{ dist := 0, kind := 0, slot := slot }] else actAt L v 0 slot r.endAngle)
     else []
   | none => []) ++
  (match y.st with
   | .wait | .defer => if slSdom y.set = v.d then actAt L v 1 slot (slArm s y.set) else []
   | .off => (match y.shadow with
              | some w => if slSdom w = v.d then actAt L v 1 slot (slArm s w) else []
              | none => [])
   | .armed => if slSdom y.set = v.d then actAt L v 2 slot (slStart y.set) else []
   | .frozen => [])

/-- An action comes after the last one taken. -/
def Act.after (x : Act) : Option Act → Bool
  | some l => Act.lt l x
  | none => true

/-- An action comes before the best one found. -/
def Act.before (x : Act) : Option Act → Bool
  | some y => Act.lt x y
  | none => true

/-- The first action of a unit after `last` in the order of R147. -/
def nextAct (s : State) (u : Nat) (v : Upd) (last : Option Act) : Option Act :=
  ((s.unit u).slots.flatMap (fun p => slotActs s v p.1 p.2)).foldl
    (fun best x => if x.after last && x.before best then some x else best) none

/-- The cycle count in force at a distance in an update: one more from angle 0 on (R150). -/
def cycAt (s : State) (v : Upd) (dist : Nat) : Nat :=
  let L := domL s v.d
  (v.cyc + (if passes L v.a v.b 0 ∧ fdist L v.a 0 ≤ dist then 1 else 0)) % 2 ^ 32

def doAct (s : State) (u : Nat) (v : Upd) (x : Act) : State :=
  let ang := (v.a + x.dist) % domL s v.d
  match x.kind with
  | 0 => endByAngle s u x.slot v
  | 1 => passArm s u x.slot v ang (cycAt s v x.dist)
  | _ => passStart s u x.slot v

/-- The actions of one unit in an update, in order; `n` bounds their number. -/
def unitUpdate (u : Nat) (v : Upd) : Nat → Option Act → State → State
  | 0, _, s => s
  | n + 1, last, s =>
    match nextAct s u v last with
    | some x => unitUpdate u v n (some x) (doAct s u v x)
    | none => s

/-- The schedulers act on an update of domain d, which passes angles only while the domain is in CYCLE (R146 to R150);
in SAFE_HOLD they take no action (R571). -/
def schedUpdate (s : State) (v : Upd) : State :=
  if syncOf s v.d ≠ .cycle ∨ v.a = v.b then s
  else
    let s' := if s.glb.safeHold then s
              else (List.range 5).foldl (fun s u => if unitRuns s u then unitUpdate u v (6 * (s.unit u).slots.length + 6) none s else s) s
    if passes (domL s v.d) v.a v.b 0 then { s' with cycno := cset zeroNat s'.cycno v.d ((cycleNo s v.d + 1) % 2 ^ 32) } else s'

/-! ### Changes of sync state (R177) -/

/-- An armed occurrence is cancelled. -/
def cancelSlot (s : State) (u slot reason : Nat) : State :=
  let y := (s.unit u).slot slot
  outcome (s.setUnit u ((s.unit u).setSlot slot { y with st := .wait })) u 3 reason (slSdom y.set) (slChan y.set) slot y.occ 0

/-- One slot on entry of its domain to REVERSE, LOST or NONE. -/
def slotLost (s : State) (u d slot : Nat) : State :=
  let y := (s.unit u).slot slot
  let s := if slSdom y.set = d then
      (match y.st with
       | .armed | .frozen => cancelSlot s u slot 6
       | .defer => s.setUnit u ((s.unit u).setSlot slot { y with st := .wait })
       | _ => s)
    else s
  let s := endHeld s u d slot
  match y.running with
  | some r => if r.sdom = d ∨ r.edom = d then endAtOnce s u slot 6 else s
  | none => s

/-- One slot on a change of its domain's sync state. -/
def slotSync (s : State) (u d : Nat) (old new : SyncSt) (slot : Nat) : State :=
  let y := (s.unit u).slot slot
  let mine := slSdom y.set == d
  match new with
  | .stall => if mine ∧ y.st = .armed then s.setUnit u ((s.unit u).setSlot slot { y with st := .frozen }) else s
  | .reverse | .lost | .quiet => slotLost s u d slot
  | .tooth | .rev | .cycle =>
    if old = .stall ∧ mine ∧ y.st = .frozen then
      (if new = heldSync s d then s.setUnit u ((s.unit u).setSlot slot { y with st := .armed }) else cancelSlot s u slot 7)
    else s

def unitSync (s : State) (u d : Nat) (old new : SyncSt) : State :=
  ((s.unit u).slots.map (·.1)).foldl (fun s i => slotSync s u d old new i) s

/-- What the Warden notes of a change of sync state: for a takeover in progress the change itself (R455), for every
reflection a domain that leaves CYCLE other than by a stall. -/
def wdnNoteSync (s : State) (d : Nat) (old new : SyncSt) : State :=
  let leaves := new != .cycle && new != .stall
  let mark (r : Refl) : Refl := if leaves then { r with left := insertNat d r.left } else r
  { s with wdn := { s.wdn with
      refl := s.wdn.refl.map (fun p => (p.1, mark p.2)),
      takeover := s.wdn.takeover.map (fun t => { t with changes := t.changes ++ [(d, old, new)], ckpt := mark t.ckpt }) } }

/-- The schedulers on a change of a domain's sync state; CYCLE entered from TOOTH or REV sets CYCNO to 0 (R150). -/
def schedSync (s : State) (d : Nat) (old new : SyncSt) : State :=
  let s := wdnNoteSync s d old new
  let s := (List.range 5).foldl (fun s u => if unitServes s u then unitSync s u d old new else s) s
  if new = .cycle ∧ (old = .tooth ∨ old = .rev) then { s with cycno := cset zeroNat s.cycno d 0 } else s

/-! ### Slots by command (table *Slot commands*) -/

def SlotSt.code : SlotSt → Nat
  | .off => 0 | .wait => 1 | .armed => 2 | .frozen => 3 | .defer => 4

/-- SLOT_WRITE with IMMEDIATE is allowed: OFF, or WAIT with its SDOM not in CYCLE. -/
def immediateOk (s : State) (y : Slot) : Bool := y.st == .off || (y.st == .wait && syncOf s (slSdom y.set) != .cycle)

/-- A hand-over at once (R152): OCC unchanged. -/
def Slot.immediate (y : Slot) (w : List Word) : Slot :=
  { y with set := normSet w, take := (y.take + 1) % 65536, shadow := none, st := if slEn w then .wait else .off }

/-- SLOT_WRITE of a set in unit u for region n: status and state (R171). -/
def slotWrite (s : State) (u n slot : Nat) (w : List Word) (imm : Bool) : Nat × State :=
  let y := (s.unit u).slot slot
  if setStatus s n w ≠ 0 then (setStatus s n w, s)
  else if imm then
    (if immediateOk s y then (0, s.setUnit u ((s.unit u).setSlot slot (y.immediate w))) else (5, s))
  else (0, s.setUnit u ((s.unit u).setSlot slot { y with shadow := some (w.take 7) }))

/-- SHADOW_DROP. -/
def shadowDrop (s : State) (u slot : Nat) : Nat × State :=
  let y := (s.unit u).slot slot
  if y.shadow.isSome then (0, s.setUnit u ((s.unit u).setSlot slot { y with shadow := none })) else (6, s)

/-- SLOT_CANCEL of one slot: whether an armed occurrence was cancelled. -/
def slotCancel (s : State) (u slot : Nat) (endNow : Bool) : Bool × State :=
  let y := (s.unit u).slot slot
  let armed := y.st == .armed || y.st == .frozen
  let s := if armed then cancelSlot s u slot 8 else s
  (armed, if endNow then endAtOnce s u slot 8 else s)

/-- DOMAIN_CANCEL: every slot of the unit whose SDOM is the domain; the number of slots cancelled. -/
def domainCancel (s : State) (u d : Nat) (endNow : Bool) : Nat × State :=
  (((s.unit u).slots.filter (fun p => slSdom p.2.set == d)).map (·.1)).foldl
    (fun (acc : Nat × State) i => let r := slotCancel acc.2 u i endNow; (if r.1 then acc.1 + 1 else acc.1, r.2)) (0, s)

/-! ### BAR2 event tables (R145) -/

/-- Word k of a slot as BAR2 shows it (R143). -/
def Slot.word (y : Slot) (k : Nat) : Word := if k = 7 then packWord [(y.occ, 16), (y.take, 0)] else wordAt y.set k

/-- The slot after an accepted BAR2 write. -/
def Slot.rewritten (y : Slot) (new : List Word) : Slot :=
  { y with set := normSet new, st := if slEn new then (if y.st = .off then .wait else y.st) else .off }

/-! ### Register views of a region block -/

/-- The unit that the block of role n shows (R443). -/
def shownUnit (s : State) (n : Nat) : Nat := roleUnit s n

def SUnit.runningCount (x : SUnit) : Nat := (x.slots.filter (fun p => p.2.running.isSome)).length
def SUnit.armedCount (x : SUnit) : Nat := (x.slots.filter (fun p => p.2.st == .armed || p.2.st == .frozen)).length

/-- Reads of the EVS registers of the block of role n; counters stand with the unit shown. -/
def evsView (s : State) (n o : Nat) : Option Word :=
  let u := shownUnit s n
  let x := s.unit u
  if o = 4 then some (packWord [(x.runningCount, 16), (x.armedCount, 0)])
  else if 8 ≤ o ∧ o < 0x18 then some (ofNat32 (cycleNo s ((o - 8) / 4)))
  else if o = 0x34 then
    let y := x.slot (s.rf (A.region n + 0x30) 9 0)
    some (packWord [(b2n y.running.isSome, 4), (b2n y.shadow.isSome, 3), (y.st.code, 0)])
  else if 0x18 ≤ o ∧ o < 0x50 ∧ o ≠ 0x30 then some (x.cntReg o)
  else none

end Sys2Proof.Machine
end

