-- ==== Sys2Proof/Machine/Wheel.lean ====
section
/-!
DEFINITION. Wheels: tooth and cam tables, spans, gap tests, the wheel table checks (Wheels and Angle Domains, R61 to R66)
and the wheel profile (Prediction Between Teeth, R106, R107).
-/
namespace Sys2Proof.Machine

/-- BAR2 base of the wheel table block of domain d. -/
def wheelBase (d : Nat) : Nat := 0x50000 + d * 0x4000

def positions (s : State) (d : Nat) : Nat := s.rf (A.dom d + 0x10) 25 16
def camEdges (s : State) (d : Nat) : Nat := s.rf (A.dom d + 0x10) 6 0
def toothWord (s : State) (d i : Nat) : Word := s.word (wheelBase d + 4 * i)
def camWord (s : State) (d i : Nat) : Word := s.word (wheelBase d + 0x800 + 4 * i)
def isGap (s : State) (d i : Nat) : Bool := wbit (toothWord s d i) 31
def toothAng (s : State) (d i : Nat) : Nat := fld (toothWord s d i) 24 0
def camAng (s : State) (d i : Nat) : Nat := fld (camWord s d i) 25 0
def camPol (s : State) (d i : Nat) : Bool := wbit (camWord s d i) 31
/-- CAM_TOL in AU (0.25 °CA each). -/
def camTol (s : State) (d : Nat) : Nat := s.rf (A.dom d + 8) 31 24 * 16384

/-- The next non-gap position after i. -/
def nextTooth (s : State) (d i : Nat) : Nat :=
  let p := max 1 (positions s d)
  (((List.range p).map (fun k => (i + 1 + k) % p)).find? (fun j => !isGap s d j)).getD i

/-- The previous non-gap position before i. -/
def prevTooth (s : State) (d i : Nat) : Nat :=
  let p := max 1 (positions s d)
  (((List.range p).map (fun k => (i + p - 1 - k % p) % p)).find? (fun j => !isGap s d j)).getD i

/-- The span S_i in AU. -/
def spanAt (s : State) (d i : Nat) : Nat := fdist oneRev (toothAng s d (prevTooth s d i)) (toothAng s d i)

/-- The ratio figure RE_i. -/
def ratioFig (s : State) (d i : Nat) : Nat := 64 * spanAt s d i / spanAt s d (prevTooth s d i)

/-- Position i closes a gap: the first tooth after a run of gap positions. -/
def gapCloses (s : State) (d i : Nat) : Bool :=
  let p := max 1 (positions s d)
  !isGap s d i && isGap s d ((i + p - 1) % p)

/-- The gap-closing positions of the wheel. -/
def closings (s : State) (d : Nat) : List Nat := (List.range (positions s d)).filter (fun i => gapCloses s d i)

/-- The period test of R64 with the RE of position g. -/
def gapTest (s : State) (d g p p' : Nat) : Bool :=
  decide (ratioFig s d g * s.rf (A.dom d + 0xC) 7 0 * p' ≤ 4096 * p ∧ 4096 * p ≤ ratioFig s d g * s.rf (A.dom d + 0xC) 15 8 * p')

/-- Number of teeth from position a forward to position b. -/
def teethBetween (s : State) (d a b : Nat) : Nat :=
  let p := max 1 (positions s d)
  ((List.range (fdist p a b)).filter (fun k => !isGap s d ((a + 1 + k) % p))).length

/-- Number of teeth in a revolution. -/
def teethCount (s : State) (d : Nat) : Nat := ((List.range (positions s d)).filter (fun i => !isGap s d i)).length

/-! ### Wheel table checks (R63) -/

def toothList (s : State) (d : Nat) : List Word := (List.range (positions s d)).map (toothWord s d)
def camList (s : State) (d : Nat) : List Word := (List.range (camEdges s d)).map (camWord s d)

def strictRising : List Nat → Bool
  | a :: b :: t => decide (a < b) && strictRising (b :: t)
  | _ => true

/-- The length of the gap run that ends just before position i. -/
def gapRun (s : State) (d i : Nat) : Nat :=
  let p := max 1 (positions s d)
  (((List.range p).map (fun k => isGap s d ((i + p - 1 - k) % p))).takeWhile (fun g => g)).length

/-- Teeth between the run that closes at g and the run before it. -/
def teethSince (s : State) (d g : Nat) : Nat :=
  let p := max 1 (positions s d)
  let i := g + p - gapRun s d g
  (((List.range p).map (fun k => isGap s d ((i + p - 1 - k) % p))).takeWhile (fun g => !g)).length

def pairwise {α : Type} (f : α → α → Bool) : List α → Bool
  | [] => true
  | a :: t => t.all (fun b => f a b) && pairwise f t

/-- Distance of two angles modulo one revolution, the shorter way round. -/
def arc (a b : Nat) : Nat := min (fdist oneRev a b) (fdist oneRev b a)

/-- The checks of the table *Wheel table checks*, in its order. -/
def wheelCheck (s : State) (d : Nat) : Nat → Bool
  | 1 => decide (8 ≤ positions s d ∧ positions s d ≤ 512 ∧ camEdges s d ≤ 64) && (twoStroke s d || decide (0 < camEdges s d))
  | 2 => (toothList s d).all (fun w => fld w 30 25 == 0) && (camList s d).all (fun w => fld w 30 26 == 0)
  | 3 => strictRising ((toothList s d).map (fun w => fld w 24 0)) && (toothList s d).all (fun w => decide (fld w 24 0 < oneRev))
  | 4 => !(closings s d).isEmpty &&
         (closings s d).all (fun g => decide (gapRun s d g ≤ 4 ∧ ((closings s d).length = 1 ∨ 2 ≤ teethSince s d g)))
  | 5 => pairwise (fun a b => a != b) ((closings s d).map (fun g => (gapRun s d g, teethSince s d g)))
  | 6 => let m := (((List.range (positions s d)).filter (fun i => !isGap s d i && !gapCloses s d i)).map (ratioFig s d)).foldl max 0
         (closings s d).all (fun g => decide (96 ≤ ratioFig s d g ∧ 3 * m / 2 ≤ ratioFig s d g))
  | 7 => strictRising ((camList s d).map (fun w => fld w 25 0)) && (camList s d).all (fun w => decide (fld w 25 0 < domL s d))
  | 8 => twoStroke s d || pairwise (fun (a b : Word) => wbit a 31 != wbit b 31 || decide (2 * camTol s d < arc (fld a 25 0) (fld b 25 0))) (camList s d)
  | 9 => decide (s.rf (A.dom d + 0xC) 7 0 < s.rf (A.dom d + 0xC) 15 8)
  | _ => true

/-- TABLE_ERR: the first failing check, 0 when all pass. -/
def tableErr (s : State) (d : Nat) : Nat := ((List.range 10).find? (fun k => !wheelCheck s d k)).getD 0

/-! ### Wheel profile -/

/-- The profile table of BAR2 as the profile in use takes it, by word (R107). -/
def profileSnapshot (s : State) (d : Nat) : Cells Word :=
  (List.range 256).foldl (fun c m => cset zeroWord c m (s.word (wheelBase d + 0x1000 + 4 * m))) []

/-- Correction W_i of position i in a profile. -/
def profileW (c : Cells Word) (i : Nat) : Int :=
  let w := cget zeroWord c (i / 2)
  sext 16 (if i % 2 = 0 then fld w 15 0 else fld w 31 16)

/-- True span T (R106). -/
def trueSpan (c : Cells Word) (S i : Nat) : Nat := ((S : Int) + ((S : Int) * profileW c i).fdiv (2 ^ 18)).toNat

/-! ### Revolutions of a domain -/

/-- Revolutions a domain tracks: two in CYCLE of a four-stroke domain (and with a provisional position taken from CYCLE). -/
def trackRevs (s : State) (d : Nat) (m : Mech) : Nat :=
  if twoStroke s d then 1
  else match m.st with
    | .cycle => 2
    | .tooth => if m.prov ∧ m.heldCycle then 2 else 1
    | .stall => if m.heldCycle then 2 else 1
    | _ => 1

/-- History index of position i in revolution r. -/
def histIdx (i r : Nat) : Nat := r * 512 + i

/-- The tooth after (i, r). -/
def stepTooth (s : State) (d : Nat) (m : Mech) (i r : Nat) : Nat × Nat :=
  let j := nextTooth s d i
  (j, if j ≤ i then (r + 1) % trackRevs s d m else r)

/-- The angle a trajectory gives at tick t (R119), in wrap length L. -/
def Traj.at_ (y : Traj) (L t : Nat) : Nat := (y.ang + min (y.inc * (t - y.ts) / 65536) (y.span - 1)) % L

end Sys2Proof.Machine
end

