-- ==== Sys2Proof/Machine/Predict.lean ====
section
/-!
DEFINITION. Prediction between teeth (R103 to R119): the periods' history, the cycle term, the short-term term, their
blend, plausibility, and the registers' own numbers. A quotient the spec does not state (a divisor of 0) is a free value
(log entry 3).
-/
namespace Sys2Proof.Machine

/-- A quotient; for a divisor of 0 the free value f. -/
def quot (f : Word) (a b : Nat) : Nat := if b = 0 then f.toNat else a / b

def sat32 (n : Nat) : Nat := min n 0xFFFFFFFF
def sat48 (n : Nat) : Nat := min n (2 ^ 48 - 1)

/-- The wheel fields of ATU_DOM_n_PREDCFG, BLEND and RAMP. -/
def meanN (s : State) (d : Nat) : Nat := s.rf (A.dom d + 0x4C) 7 0
def reseedThr (s : State) (d : Nat) : Nat := s.rf (A.dom d + 0x4C) 15 8
/-- The TRACK setting in force (R116): true is AGILE. -/
def trackNow (s : State) (m : Mech) : Bool := m.agile.getD (s.rb 8 4)
def modeWeight (s : State) (d : Nat) (agile : Bool) : Nat := if agile then s.rf (A.dom d + 0x40) 24 16 else s.rf (A.dom d + 0x40) 8 0
def modeRamp (s : State) (d : Nat) (agile : Bool) : Nat := if agile then s.rf (A.dom d + 0x44) 15 8 else s.rf (A.dom d + 0x44) 7 0

/-- History value of an index. -/
def Mech.histAt (m : Mech) (j : Nat) : Nat := cget zeroNat m.hist j

/-- The mean window: the n teeth accepted last, of those kept (R109). -/
def Mech.meanWin (m : Mech) (n : Nat) : List Tooth := m.window.drop (m.window.length - n)

/-- The cycle term is valid for a history value H (R110). -/
def cycTermValid (n : Nat) (m : Mech) (h : Nat) : Bool :=
  m.st == .cycle && h != 0 && (m.meanWin n).length == n && (m.meanWin n).all (fun k => k.cyc && k.old != 0)

/-- The cycle term Pcyc over the mean window l (R109). -/
def cycTerm (f : Word) (l : List Tooth) (h : Nat) : Nat :=
  let now := sat48 ((l.map (·.p)).sum)
  let prev := sat48 ((l.map (·.old)).sum)
  let rho := sat32 (quot f (now * 2 ^ 24 + prev / 2) prev)
  sat32 ((h * rho + 2 ^ 23) / 2 ^ 24)

/-- The short-term rate u_st (R112), clamped. -/
def shortRate : List Nat → Nat
  | [] => 0
  | [u1] => u1
  | [u1, u2] => (clampI (u1 / 2 : Nat) (2 * u1 : Nat) ((u1 : Int) + (u1 - u2))).toNat
  | u1 :: u2 :: u3 :: _ =>
    (clampI (u1 / 2 : Nat) (2 * u1 : Nat) ((u1 : Int) + (u1 - u2) + ((u1 : Int) - 2 * u2 + u3).fdiv 2)).toNat

/-- The short-term term Pst for the next tooth's true span (R112). -/
def shortTerm (us : List Nat) (t : Nat) : Nat := sat32 ((shortRate us * t + 2 ^ 23) / 2 ^ 24)

/-- The blend (R114). -/
def blendPeriod (w pcyc pst : Nat) : Nat := (w * pcyc + (256 - w) * pst + 128) / 256

/-- u of a tooth (R111). -/
def toothRate (f : Word) (p t : Nat) : Nat := sat48 (quot f (p * 2 ^ 24) t)

/-- The prediction of a suspect's next tooth (R126, test 2): P' from its period and the two true spans. -/
def suspectPred (f : Word) (p1 t t' : Nat) : Nat := (quot f (p1 * 2 ^ 24) t * t' + 2 ^ 23) / 2 ^ 24

/-- The plausibility window of a domain with a widening of LO and HI (R124, R485). -/
def widened (s : State) (d : Nat) (w : Nat × Nat) : Nat × Nat :=
  let lo := s.rf (A.dom d + 0x48) 6 0
  let hi := s.rf (A.dom d + 0x48) 24 16
  (if w.1 = 0 then lo else max 25 (lo - w.1), if w.2 = 0 then hi else min 400 (hi + w.2))

/-- The window in force: the set one, widened by the plan; the widening changes only at a publication (R124, R485: log entry 32). -/
def plausLo (s : State) (d : Nat) : Nat := (widened s d (s.plan.widen.getD d (0, 0))).1
def plausHi (s : State) (d : Nat) : Nat := (widened s d (s.plan.widen.getD d (0, 0))).2

/-- A period is plausible against a prediction (R123). -/
def plausible (s : State) (d p pred : Nat) : Bool := decide (plausLo s d * pred ≤ 100 * p ∧ 100 * p ≤ plausHi s d * pred)

/-- The prediction after a tooth at (i, r): its weight, whether the cycle term was valid, P_pred and the trajectory
(R114, R119). -/
def predictNext (s : State) (d : Nat) (m : Mech) (i r ts : Nat) : Mech :=
  let f := Config.freeWord s.free
  let nx := stepTooth s d m i r
  let h := m.histAt (histIdx nx.1 nx.2)
  let ok := cycTermValid (meanN s d) m h
  let w := if ok then min (modeWeight s d (trackNow s m)) m.ramp else 0
  let span := spanAt s d nx.1
  let pst := shortTerm m.us (trueSpan m.prof span nx.1)
  let pred := blendPeriod w (cycTerm f (m.meanWin (meanN s d)) h) pst
  { m with pred := pred, weight := w, cycValid := ok,
           traj := some { ang := toothAng s d i + r * oneRev, ts := ts, span := span,
                          inc := if m.us = [] then 0 else quot f (span * 65536) pred } }

/-- SPEED over teeth of a span and a period (R128). -/
def speedOf (f : Word) (span p : Nat) : Nat := sat32 (quot f (span * 200000000) (3 * p))

/-- SPEED over the mean window. -/
def windowSpeed (f : Word) (l : List Tooth) : Nat := speedOf f ((l.map (·.span)).sum) ((l.map (·.p)).sum)

/-- Integer square root (ATU_PERR_n_RMS). -/
def isqrt (n : Nat) : Nat := ((List.range 33).reverse).foldl (fun a k => if (a + 2 ^ k) * (a + 2 ^ k) ≤ n then a + 2 ^ k else a) 0

end Sys2Proof.Machine
end

