-- ==== Sys2Proof/Machine/Atu.lean ====
section
/-!
DEFINITION. The mechanical domains of the angle tracker: edges, the gap, sync states, cam resolution, suspects, accepted
teeth, learning, angle updates and marks (Wheels and Angle Domains, R51 to R82, R94, R99 to R101; Prediction Between
Teeth, R103 to R136).
-/
namespace Sys2Proof.Machine

/-! ### The published angle -/

def noAngle : Nat → Option Nat := fun _ => none
def State.angle (s : State) (d : Nat) : Option Nat := cget noAngle s.angles d
/-- The published angle changes; what it was is kept while a conversion may still be stamped with it (R263). -/
def setAngle (s : State) (d : Nat) (a : Option Nat) : State :=
  if s.angle d = a then s else
  { s with angles := cset noAngle s.angles d a,
           angLog := (d, s.clk.now, s.angleWord d) :: s.angLog.filter (fun x => decide (s.clk.now ≤ x.2.1 + 1600)) }

/-- Wrap length of the angle a mechanical domain tracks: one revolution in REV. -/
def trackL (s : State) (d : Nat) (m : Mech) : Nat := oneRev * trackRevs s d m

/-- An entry of the cam table in an update in CYCLE: seen or missed once passed by more than CAM_TOL (R78). -/
def camPassOne (s : State) (d a b : Nat) (m : Mech) (i : Nat) : Mech :=
  let L := domL s d
  if passes L a b ((camAng s d i + camTol s d + 1) % L) then
    (if m.camSeen.contains i then { m with camSeen := m.camSeen.filter (fun k => k != i) } else { m with camMissing := true, camFull := false })
  else m

/-- CAM_MISSING over an update in CYCLE; it clears after a full cycle with every entry seen (R78). -/
def camPass (s : State) (d a b : Nat) : State :=
  let m := (List.range (camEdges s d)).foldl (camPassOne s d a b) (s.dom d)
  s.setDom d (if passes (domL s d) a b 0 then { m with camMissing := m.camMissing && !m.camFull, camFull := true } else m)

def markEn (s : State) (d m : Nat) : Bool := s.rb (A.mark m) 0 && s.rf (A.mark m) 2 1 == d

/-- Mark m fires (R94): its interrupt source, the angle event of Reel engines, converters and transfer channels. -/
def fireMark (s : State) (m : Nat) : State := (xfrTrigger (markTrigger (reelEvent s m) m) 2 m).arrive (40 + m)

/-- The marks an update passes. -/
def marksPassed (s : State) (d a b : Nat) : State :=
  (List.range 16).foldl (fun s m => if markEn s d m && passes (domL s d) a b (s.reg (A.mark m + 4)).toNat then fireMark s m else s) s

/-- The MARK record of a cycle start of MARK_DOM (R376). -/
def autoMark (s : State) (d : Nat) : State :=
  if s.rb A.que 1 ∧ s.rf A.que 3 2 = d then traceMark s 0 d ((cycleNo s d + 1) % 65536) else s

/-- The published angle of domain d moves to b in one update, judged with the size `step`; `enters` says that the
domain comes back to CYCLE with it, so that no mark fires (R94, R146). -/
def moveAngle (s : State) (d b step : Nat) (enters : Bool) : State :=
  match s.angle d with
  | none => setAngle s d (some b)
  | some a =>
    let s := setAngle s d (some b)
    if a = b ∨ syncOf s d ≠ .cycle then s
    else
      let s := if d < 2 then camPass s d a b else s
      let s := if passes (domL s d) a b 0 then autoMark s d else s
      let s := if enters then s else marksPassed s d a b
      schedUpdate s { d := d, a := a, b := b, step := step, reason := 1, cyc := cycleNo s d }

/-! ### Changes of sync state (R68) -/

def SyncSt.code : SyncSt → Nat
  | .quiet => 0 | .tooth => 1 | .rev => 2 | .cycle => 3 | .stall => 4 | .reverse => 5 | .lost => 6

/-- A domain that predicts no longer (R105); CYC_VALID and WEIGHT fall to 0 with the prediction they described (DESIGN CHOICE,
log entry 70). -/
def Mech.stopPredict (m : Mech) : Mech :=
  { m with suspect := none, traj := none, oldTraj := none, pred := 0, us := [], ramp := 0, weight := 0, cycValid := false }

/-- The gap search starts afresh. -/
def Mech.noGap (m : Mech) : Mech := { m with prev := none, cand := [], unres := none }

/-- The cam search starts afresh. -/
def Mech.noCam (m : Mech) : Mech := { m with camRun := 0, contra := 0, camSeen := [], camFull := false }

/-- The profile in use as REV or CYCLE begins: found anew from TOOTH without a provisional position, no revolution was running and
every change made before is in force; with one, the revolution that runs keeps its own (R107, DEDUCED: log entry 33). -/
def firstProfile (old : SyncSt) (m : Mech) (s : State) (d : Nat) : Cells Word :=
  if old = .tooth ∧ ¬ m.prov then profileSnapshot s d else m.prof

/-- The domain as it enters a state. -/
def Mech.enter (m : Mech) (s : State) (d : Nat) (new : SyncSt) : Mech :=
  let old := m.st
  let m := { m with st := new }
  match new with
  | .quiet =>
    { (((m.stopPredict).noGap).noCam) with edges := 0, lastEdge := none, prov := false, dirKnown := false, hist := [], window := [],
                                           vpkCrank := 0, vpkCam := 0, agile := none, cycClean := false, revClean := false }
  | .tooth => { ((m.stopPredict).noCam) with prof := profileSnapshot s d, edges := 0, cand := [], unres := none, prov := false, dirKnown := s.rf (A.dom d) 6 5 != 0, agile := none }
  | .rev => { m with prof := firstProfile old m s d, camRun := 0, prov := false, agile := none, afterStall := old == .stall }
  | .cycle =>
    { m with prof := firstProfile old m s d, prov := false, contra := 0, camFull := false, agile := some (s.rb 8 4), afterStall := old == .stall,
             hist := if old = .stall then m.hist else [], cycClean := false, cycTeeth := if old = .stall then m.cycTeeth else [],
             errMax := 0, errSq := 0, errN := 0 }
  | .stall => { (m.stopPredict) with us := m.us, ramp := m.ramp, heldCycle := old == .cycle, vpkCrank := 0, vpkCam := 0, cycClean := false, revClean := false, agile := none }
  | .reverse =>
    { (((m.stopPredict).noGap).noCam) with edges := 0, lastEdge := none, prov := false, vpkCrank := 0, vpkCam := 0, agile := none,
                                           cycClean := false, revClean := false }
  | .lost => { (((m.stopPredict).noGap).noCam) with edges := 0, prov := false, agile := none, cycClean := false, revClean := false }

/-- The entry counter of a state (R69); all saturate, which the register table states of LOST_CNT alone (DESIGN CHOICE, log entry
70). -/
def countEntry (s : State) (d : Nat) : SyncSt → State
  | .stall => s.cntSat (A.dom d + 0x2C) 15 8
  | .reverse => s.cntSat (A.dom d + 0x2C) 23 16
  | .lost => s.cntSat (A.dom d + 0x2C) 31 24
  | _ => s

def noiseCount (s : State) (d : Nat) : State := s.cntSat (A.dom d + 0x6C) 7 0

/-- Learning aborts (R134). -/
def learnAbort (s : State) (d : Nat) : State :=
  let m := s.dom d
  if m.learning ∨ m.learnWait then
    (s.setDom d { m with learning := false, learnWait := false, aborted := true }).arrive (26 + 4 * d)
  else s

/-- States in which a mechanical domain publishes an angle; STALL holds the one it had. -/
def SyncSt.publishes : SyncSt → Bool
  | .rev | .cycle | .stall => true
  | _ => false

/-- The sync state changes: counters, the held suspect (R127), learning (R134), the published angle (R67), the interrupt
source, the schedulers (R177). -/
def setSync (s : State) (d : Nat) (new : SyncSt) : State :=
  let m := s.dom d
  if m.st = new then s
  else
    let s := if m.suspect.isSome ∧ new ≠ .rev ∧ new ≠ .cycle then noiseCount s d else s
    let s := if m.learning then learnAbort s d else s
    let s := countEntry s d new
    let s := s.setDom d ((s.dom d).enter s d new)
    let s := if new.publishes then s else setAngle s d none
    schedSync (s.arrive (24 + 4 * d)) d m.st new

/-! ### Learning and cycle ends -/

/-- The estimate e_i of a tooth (R133). -/
def learnEst (trev : Nat) (k : CTooth) : Int := (k.p * oneRev * 2 ^ 18 / (trev * k.span) : Nat) - (2 ^ 18 : Int)

/-- W_i after the estimate (R133), as a 16-bit entry of the profile table. -/
def learnPut (s : State) (d : Nat) (trev : Nat) (k : CTooth) : State :=
  let a := wheelBase d + 0x1000 + 2 * k.pos
  let w := sext 16 ((s.byte a).toNat + 256 * (s.byte (a + 1)).toNat)
  let v := clampI (-32767) 32767 (w + (learnEst trev k - w).fdiv (2 ^ s.rf (A.dom d + 0x70) 19 16))
  let n := (v.emod 65536).toNat
  s.putBytes a [BitVec.ofNat 8 n, BitVec.ofNat 8 (n / 256)]

/-- A learning revolution is accepted (R132). -/
def learnAccepts (s : State) (d : Nat) (m : Mech) (trev : Nat) : Bool :=
  m.revClean && m.revTeeth.length == teethCount s d &&
  (match m.trevPrev with
   | some q => decide (10000 * ((trev : Int) - q).natAbs ≤ s.rf (A.dom d + 0x70) 27 20 * q)
   | none => false) &&
  m.revTeeth.all (fun k => decide ((learnEst trev k).natAbs ≤ 32767))

/-- One learning revolution is judged (R132 to R134). -/
def learnJudge (s : State) (d : Nat) : State :=
  let m := s.dom d
  let trev := (m.revTeeth.map (·.p)).sum
  if learnAccepts s d m trev then
    let s := m.revTeeth.foldl (fun s k => learnPut s d trev k) s
    let s := s.setDom d { m with remaining := m.remaining - 1, learning := decide (1 < m.remaining) }
    if m.remaining ≤ 1 then s.arrive (26 + 4 * d) else s
  else s.setDom d { m with rejected := satAdd 255 m.rejected 1 }

/-- A speed signature entry (R136). -/
def sigEntry (f : Word) (k : CTooth) : Word :=
  if k.valid then packWord [(1, 31), (min 0x7FFFFFFF (quot f (k.t * 200000000) (3 * k.p)), 0)] else 0

/-- At a cycle start in CYCLE: signature, prediction error registers, the cycle for its contribution, TRACK (R116, R136). No
telemetry kind carries the signature, so none is captured (DESIGN CHOICE, log entry 70). -/
def cycleStart (s : State) (d : Nat) : State :=
  let m := s.dom d
  let f := Config.freeWord s.free
  let whole := m.cycClean && m.cycTeeth.length == teethCount s d * (if twoStroke s d then 1 else 2) && m.cycTeeth.all (·.valid)
  let s := (s.setReg (A.perr d) (ofNat32 (min 65535 m.errMax))).setReg (A.perr d + 4) (ofNat32 (min 65535 (isqrt (quot f m.errSq m.errN))))
  let s := s.setReg (A.perr d + 8) (ofNat32 (min 65535 m.errN))
  s.setDom d { m with sig := m.cycTeeth.foldl (fun c k => cset zeroWord c k.idx (sigEntry f k)) [],
                      cycDone := some (m.cycTeeth, whole), cycTeeth := [], cycClean := true, agile := some (s.rb 8 4),
                      errMax := 0, errSq := 0, errN := 0, errAt := some s.clk.now }

/-- At a revolution start: learning, the revolution's time, the profile in use (R107, R131 to R134). -/
def revStart (s : State) (d : Nat) : State :=
  let m := s.dom d
  let cyc := m.st == .cycle
  let s := if m.learning then learnJudge s d
           else if m.learnWait ∧ cyc then s.setDom d { m with learnWait := false, learning := true } else s
  s.setDom d { s.dom d with trevPrev := if m.revTeeth.length = teethCount s d then some (m.revTeeth.map (·.p)).sum else none,
                            revTeeth := [], revClean := cyc, prof := profileSnapshot s d }

/-! ### Accepted teeth -/

/-- A tooth to accept: position, revolution, timestamp, period, HOW of its record, whether it re-seeds (R117), whether it
is the first in REV or CYCLE, the trajectory its jump is measured against with a held angle in its place (R121), and
whether it moves nothing yet (R126, outcome 2). -/
structure Accept where
  i : Nat
  r : Nat
  ts : Nat
  p : Nat
  how : Nat := 0
  force : Bool := false
  first : Bool := false
  jtraj : Option Traj := none
  held : Option Nat := none
  quiet : Bool := false

/-- Whether the tooth re-seeds the predictor (R117). -/
def reseeds (s : State) (d : Nat) (m : Mech) (x : Accept) : Bool :=
  x.force || (m.pred != 0 && decide (reseedThr s d * m.pred < 1024 * ((x.p : Int) - m.pred).natAbs))

/-- Predictor, history, mean window, cycle and revolution of the domain after the tooth (R108, R111, R113, R115). -/
def Mech.takeTooth (m : Mech) (s : State) (d : Nat) (x : Accept) : Mech :=
  let f := Config.freeWord s.free
  let S := spanAt s d x.i
  let T := trueSpan m.prof S x.i
  let cyc := m.st == .cycle
  let j := histIdx x.i x.r
  let re := reseeds s d m x
  let win := m.window ++ [{ p := x.p, span := S, old := if cyc then m.histAt j else 0, cyc := cyc }]
  let ct : CTooth := { idx := j, pos := x.i, ang := toothAng s d x.i + x.r * oneRev, t := T, span := S, p := x.p, valid := cyc && !m.afterStall }
  let e := if m.pred = 0 then 0 else 100000 * ((x.p : Int) - m.pred).natAbs / m.pred
  let counts := cyc && m.pred != 0
  { m with pos := x.i, revn := x.r, lastEdge := some x.ts, lastAny := some x.ts, prev := some x.p, edges := 0,
           us := if re then [toothRate f x.p T] else (toothRate f x.p T :: m.us).take 3,
           ramp := if re then 0 else min 256 (m.ramp + modeRamp s d (trackNow s m)),
           window := win.drop (win.length - 255),
           hist := if cyc then cset zeroNat m.hist j (if m.afterStall then 0 else x.p) else m.hist,
           afterStall := false,
           revTeeth := m.revTeeth ++ [ct], cycTeeth := if cyc then m.cycTeeth ++ [ct] else m.cycTeeth,
           revClean := m.revClean && !re, cycClean := m.cycClean && !re,
           errMax := if counts then max m.errMax e else m.errMax, errSq := if counts then m.errSq + e * e else m.errSq,
           errN := if counts then m.errN + 1 else m.errN }

/-- SPEED after the tooth, with MEAN_N = n (R128, R129). -/
def Mech.withSpeed (m : Mech) (s : State) (n : Nat) : Mech :=
  let f := Config.freeWord s.free
  match m.st with
  | .tooth => (match m.window.getLast? with | some k => { m with speed := speedOf f k.span k.p } | none => m)
  | _ => { m with speed := windowSpeed f (m.meanWin n) }

/-- A TOOTH record (table *Tooth record body*). -/
def toothRecord (s : State) (d : Nat) (x : Accept) (re : Bool) (pred : Nat) : State :=
  if s.rb A.que (4 + d) then
    traceWrite s 5 d [packWord [(d, 30), (b2n re, 29), (x.how, 27), (((s.dom d).st).code, 24), (x.r, 10), (x.i, 0)],
                    ofNat32 x.p, ofNat32 pred, lo32 (s.dtimeAt x.ts)]
  else s

/-- A reported jump (R122). -/
def jumpReport (s : State) (d : Nat) (x : Accept) (j : Nat) : State :=
  let a := A.dom d
  let s := (s.setReg (a + 0x64) (ofNat32 (j % 2 ^ 25))).setReg (a + 0x68)
    (packWord [(satAdd 65535 (s.rf (a + 0x68) 31 16) 1, 16), (x.r, 10), (x.i, 0)])
  let s := s.setDom d { s.dom d with cycClean := false }
  (traceWrite s 6 d [packWord [(d, 30), (x.r, 10), (x.i, 0)], ofNat32 (j % 2 ^ 25), lo32 (s.dtimeAt x.ts), 0]).arrive (25 + 4 * d)

/-- The angle the jump is measured from. -/
def jumpFrom (L : Nat) (x : Accept) : Option Nat :=
  match x.jtraj with
  | some y => some (y.at_ L x.ts)
  | none => x.held

/-- The jump of the tooth is judged and, when large enough, reported (R121, R122). -/
def jumpCheck (s : State) (d : Nat) (x : Accept) : State :=
  let L := trackL s d (s.dom d)
  match jumpFrom L x with
  | some o =>
    let j := fdist L o (toothAng s d x.i + x.r * oneRev)
    if s.rf (A.dom d + 0x50) 23 0 ≤ j then jumpReport s d x j else s
  | none => s

/-- After a re-seed RESEED_CNT counts (R117). -/
def reseedCount (s : State) (d : Nat) (re : Bool) : State := if re then s.cntSat (A.dom d + 0x6C) 31 24 else s

/-- The angle update of an accepted tooth (R120). A tooth that brings the domain to its position publishes without
passing an angle. -/
def toothMove (s : State) (d : Nat) (x : Accept) : State :=
  let m := s.dom d
  let L := trackL s d m
  match m.traj with
  | some y =>
    let b := y.at_ L s.clk.now
    if x.first then setAngle s d (some b)
    else moveAngle s d b (fdist (domL s d) ((s.angle d).getD b) b) x.held.isSome
  | none => s

/-- Tooth k is accepted in a domain that predicts (R103 to R122). -/
def acceptTooth (s : State) (d : Nat) (x : Accept) : State :=
  let m0 := s.dom d
  let turn := (!x.first || x.jtraj.isSome) && decide (x.i ≤ m0.pos)
  let s := if turn then revStart s d else s
  let s := if turn ∧ ¬ x.first ∧ m0.st = .cycle ∧ x.r = 0 then cycleStart s d else s
  let m := s.dom d
  let re := reseeds s d m x
  let m1 := (m.takeTooth s d x).withSpeed s (meanN s d)
  let m2 := predictNext s d m1 x.i x.r x.ts
  let m3 := if x.quiet then m2 else { m2 with oldTraj := x.jtraj, swAt := s.clk.now }
  let s := (reseedCount (s.setDom d m3) d re).setReg (A.dom d + 0x5C) (ofNat32 x.p)
  let s := toothRecord { s with free := s.free + 1 } d x re m.pred
  if x.quiet then s else toothMove (jumpCheck s d x) d x

/-! ### The gap (R64 to R66) -/

/-- What one forward edge with period p does to the gap search: the domain, the position it identifies, and whether a
candidate was rejected. -/
def gapStep (s : State) (d : Nat) (m : Mech) (p : Nat) : Mech × Option Nat × Bool :=
  match m.prev with
  | none => ({ m with cand := [] }, none, false)
  | some q =>
    let conf := m.cand.filter (fun g => gapTest s d (nextTooth s d g) p q)
    let un := m.unres.map (fun c => (c.1, c.2 + 1))
    match conf with
    | [] =>
      ({ m with cand := (closings s d).filter (fun g => gapTest s d g p q), unres := un }, none, !m.cand.isEmpty)
    | [g] => ({ m with cand := [], unres := none }, some (nextTooth s d g), false)
    | _ =>
      let good := match un with
        | some c => conf.filter (fun g => c.1.any (fun g0 => teethBetween s d (nextTooth s d g0) (nextTooth s d g) % max 1 (teethCount s d) == c.2 % max 1 (teethCount s d)))
        | none => []
      match good with
      | [g] => ({ m with cand := [], unres := none }, some (nextTooth s d g), false)
      | _ => ({ m with cand := [], unres := some (conf, 0) }, none, false)

def gapReject (s : State) (d : Nat) (rej : Bool) : State := if rej then s.cntSat (A.dom d + 0x30) 15 8 else s

/-- A confirmed gap puts the domain at position i: REV, or CYCLE in a two-stroke domain (R68, R117); `jtraj` is the trajectory of
a provisional position that it confirms (R121). -/
def enterTracking (s : State) (d i r ts p : Nat) (cyc : Bool) (jtraj : Option Traj := none) : State :=
  let s := setSync s d (if cyc then .cycle else .rev)
  let s := s.setDom d { (((s.dom d).noCam).noGap) with prev := (s.dom d).prev, window := [], us := [], revTeeth := [], trevPrev := none, revClean := false }
  acceptTooth s d { i := i, r := r, ts := ts, p := p, force := true, first := true, jtraj := jtraj }

/-! ### Edges by state -/

/-- Period of an edge from the last accepted one (R103). -/
def Mech.periodTo (m : Mech) (ts : Nat) : Option Nat := m.lastEdge.map (fun e => min (ts - e) 0xFFFFFFFF)

def edgeTo (s : State) (d : Nat) : Nat := msTicks (s.rf (A.dom d + 0x14) 15 0)

/-- An edge outside the predicting states: its period and SPEED from it alone (R129). -/
def bareEdge (s : State) (d ts : Nat) : State :=
  let m := s.dom d
  match m.periodTo ts with
  | some p =>
    (s.setDom d { m with lastEdge := some ts, lastAny := some ts, prev := some p,
                         speed := speedOf (Config.freeWord s.free) (oneRev / max 1 (positions s d)) p }).setReg (A.dom d + 0x5C) (ofNat32 p)
  | none => s.setDom d { m with lastEdge := some ts, lastAny := some ts }

/-- An edge in NONE (R68, R615). -/
def edgeNone (s : State) (d ts : Nat) (fwd : Bool) : State :=
  let m := s.dom d
  if ¬ fwd then s.setDom d { m with edges := 0, lastAny := some ts, lastEdge := none, prev := none }
  else
    let near := m.edges != 0 && (match m.lastEdge with | some e => decide (ts - e ≤ edgeTo s d) | none => false)
    let n := if near then m.edges + 1 else 1
    let s := bareEdge (s.setDom d { m with lastEdge := if near then m.lastEdge else none, prev := if near then m.prev else none }) d ts
    if s.rf (A.dom d + 8) 11 8 ≤ n then setSync s d .tooth else s.setDom d { s.dom d with edges := n }

/-- An edge in TOOTH without a provisional position (R64 to R66, R615). -/
def edgeTooth (s : State) (d ts : Nat) (fwd : Bool) : State :=
  let m := s.dom d
  if ¬ fwd then s.setDom d { (m.noGap) with lastEdge := none, lastAny := some ts }
  else match m.periodTo ts with
    | none => bareEdge s d ts
    | some p =>
      let g := gapStep s d m p
      let s := bareEdge (gapReject (s.setDom d g.1) d g.2.2) d ts
      (match g.2.1 with
       | some i => enterTracking s d i 0 ts p (twoStroke s d)
       | none => s)

/-- PROV is discarded (R100, R101). -/
def provFail (s : State) (d : Nat) : State :=
  let m := s.dom d
  let s := if m.suspect.isSome then noiseCount s d else s
  setAngle ((s.setDom d { (m.stopPredict) with prov := false }).cntSat (A.dom d + 0x30) 23 16) d none

/-- What the first confirmed gap does to a provisional position at (i, r) (R100). -/
def provJudge (s : State) (d i r ts p : Nat) (x : Accept) (found : Nat) : State :=
  let m := s.dom d
  if found = i then enterTracking s d i (if m.heldCycle ∧ m.duskDir then r else 0) ts p (twoStroke s d || (m.heldCycle && m.duskDir)) m.traj
  else enterTracking (provFail s d) d found 0 x.ts x.p (twoStroke s d)

/-- A tooth accepted at the provisional position; the gap search runs with it (R100). -/
def acceptProv (s : State) (d : Nat) (x : Accept) : State :=
  let g := gapStep s d (s.dom d) x.p
  let s := gapReject (s.setDom d g.1) d g.2.2
  match g.2.1 with
  | some found => provJudge s d x.i x.r x.ts x.p x found
  | none => acceptTooth s d x

/-- A tooth is accepted in a predicting state. -/
def acceptAny (s : State) (d : Nat) (x : Accept) : State := if (s.dom d).st = .tooth then acceptProv s d x else acceptTooth s d x

/-- The first edge after a wake with a provisional position: the position advances and its angle holds. The ATU has measured no
period for it, so that of its record is a free value (R100, R103, R373: log entry 45). -/
def provFirst (s : State) (d ts : Nat) : State :=
  let m := s.dom d
  let n := stepTooth s d m m.pos m.revn
  let x : Accept := { i := n.1, r := n.2, ts := ts, p := (Config.freeWord s.free).toNat, jtraj := m.traj }
  let y : Traj := { ang := toothAng s d n.1 + n.2 * oneRev, ts := ts, span := 1, inc := 0 }
  let s := if n.1 ≤ m.pos then revStart s d else s
  let s := s.setDom d { s.dom d with pos := n.1, revn := n.2, lastEdge := some ts, lastAny := some ts, traj := some y, oldTraj := m.traj, swAt := s.clk.now }
  let s := jumpCheck (toothRecord { s with free := s.free + 1 } d x false 0) d x
  setAngle s d (some (y.ang % trackL s d m))

/-- The gap check of R70 on an edge judged as position i with period p: in REV and CYCLE at gap-closing positions. -/
def gapFails (s : State) (d i p : Nat) : Bool :=
  let m := s.dom d
  (m.st == .rev || m.st == .cycle) && gapCloses s d i && (match m.prev with | some q => !gapTest s d i p q | none => false)

/-- An edge judged as the next tooth: gap check failure, suspect, or accepted (R70, R125). -/
def judgeEdge (s : State) (d ts how : Nat) (jtraj : Option Traj) : State :=
  let m := s.dom d
  let n := stepTooth s d m m.pos m.revn
  match m.periodTo ts with
  | none => provFirst s d ts
  | some p =>
    if gapFails s d n.1 p then setSync (s.setDom d { s.dom d with lastAny := some ts }) d .lost
    else if m.pred ≠ 0 ∧ ¬ plausible s d p m.pred then
      s.setDom d { m with suspect := some (ts, p), lastAny := some ts, revClean := false, cycClean := false }
    else acceptAny s d { i := n.1, r := n.2, ts := ts, p := p, how := how, jtraj := jtraj }

/-- The suspect accepted as tooth k at its own timestamp (R126). -/
def acceptSuspect (s : State) (d ts1 p1 how : Nat) (quiet : Bool) : State :=
  let m := s.dom d
  let n := stepTooth s d m m.pos m.revn
  acceptAny (s.setDom d { m with suspect := none }) d
    { i := n.1, r := n.2, ts := ts1, p := p1, how := how, force := true, jtraj := m.traj, quiet := quiet }

/-- Test 2 of the table *Suspect resolution*. -/
def suspectConfirmed (s : State) (d : Nat) (m : Mech) (p1 p2 : Nat) : Bool :=
  let k := stepTooth s d m m.pos m.revn
  let k' := stepTooth s d m k.1 k.2
  plausible s d p2 (suspectPred (Config.freeWord s.free) p1 (trueSpan m.prof (spanAt s d k.1) k.1) (trueSpan m.prof (spanAt s d k'.1) k'.1))

/-- The edge E2 after a suspect E1 (R126). At behaviour level 1 there is no first test (R604). -/
def resolveSuspect (s : State) (d ts ts1 p1 : Nat) : State :=
  let m := s.dom d
  let p2 := ts - ts1
  let both := match m.periodTo ts with | some p => p | none => p1 + p2
  if s.rf 4 1 0 ≠ 1 ∧ plausible s d both m.pred then
    judgeEdge (noiseCount (s.setDom d { m with suspect := none }) d) d ts 3 m.traj
  else if suspectConfirmed s d m p1 p2 then
    judgeEdge ((acceptSuspect s d ts1 p1 1 true).cntSat (A.dom d + 0x6C) 15 8) d ts 0 m.traj
  else
    let s := (acceptSuspect s d ts1 p1 2 false).cntSat (A.dom d + 0x6C) 23 16
    judgeEdge s d ts 0 (s.dom d).traj

/-- A forward edge in a predicting state. -/
def trackForward (s : State) (d ts : Nat) : State :=
  let m := s.dom d
  match m.suspect with
  | some e => resolveSuspect s d ts e.1 e.2
  | none => judgeEdge s d ts 0 m.traj

/-- A forward edge returns the domain from STALL to the state it held, as the next position (R80, R117, R118). -/
def stallReturn (s : State) (d ts : Nat) : State :=
  let m := s.dom d
  let n := stepTooth s d m m.pos m.revn
  let p := (m.periodTo ts).getD 0xFFFFFFFF
  let held := s.angle d
  let s := setSync s d (if m.heldCycle then .cycle else .rev)
  acceptTooth s d { i := n.1, r := n.2, ts := ts, p := p, force := true, held := some (held.getD (toothAng s d m.pos)) }

/-- Direction mode of a domain: 0 NONE, 1 LEVEL, 2 WIDTH. -/
def dirMode (s : State) (d : Nat) : Nat := s.rf (A.dom d) 6 5

def edgeStall (s : State) (d ts : Nat) (fwd : Bool) : State :=
  if ¬ fwd then setSync (s.setDom d { s.dom d with lastAny := some ts }) d .reverse
  else if dirMode s d = 0 then setSync (bareEdge s d ts) d .tooth
  else stallReturn s d ts

def edgeReverse (s : State) (d ts : Nat) (fwd : Bool) : State :=
  let m := s.dom d
  if ¬ fwd then s.setDom d { m with edges := 0, lastAny := some ts, lastEdge := none, prev := none }
  else
    let s := bareEdge s d ts
    if s.rf (A.dom d + 8) 11 8 ≤ m.edges + 1 then setSync s d .tooth else s.setDom d { s.dom d with edges := m.edges + 1 }

def edgeLost (s : State) (d ts : Nat) (fwd : Bool) : State :=
  if s.rb (A.dom d) 7 then s.setDom d { s.dom d with lastAny := some ts }
  else edgeNone (setSync s d .quiet) d ts fwd

/-- An active crank edge of known direction is processed (R68, R73). -/
def processEdge (s : State) (d ts : Nat) (fwd : Bool) : State :=
  match (s.dom d).st with
  | .quiet => edgeNone s d ts fwd
  | .tooth =>
    if (s.dom d).prov then
      (if fwd then trackForward s d ts else edgeTooth (provFail s d) d ts false)
    else edgeTooth s d ts fwd
  | .rev | .cycle => if fwd then trackForward s d ts else setSync (s.setDom d { s.dom d with lastAny := some ts }) d .reverse
  | .stall => edgeStall s d ts fwd
  | .reverse => edgeReverse s d ts fwd
  | .lost => edgeLost s d ts fwd

/-! ### Crank input -/

/-- The domain is enabled. -/
def domEn (s : State) (d : Nat) : Bool := s.rb (A.dom d) 0

/-- The angle of a mechanical domain's trajectory at tick t. -/
def mechAngle (s : State) (d t : Nat) : Option Nat :=
  let m := s.dom d
  m.traj.map (fun y => y.at_ (trackL s d m) t)

/-- The published angle of a mechanical domain advances on its trajectory to now, as one update (R119). Its size against
LATE_TOL is that of the last ECLK edge. -/
def mechAdvance (s : State) (d : Nat) : State :=
  match mechAngle s d s.clk.now, mechAngle s d (s.clk.now - 1) with
  | some b, some b1 =>
    moveAngle s d b (min (fdist (domL s d) ((s.angle d).getD b) b) (fdist (domL s d) b1 b)) false
  | _, _ => s

/-- A VR input has armed since its last edge; a digital input needs none (R54). -/
def crankArmed (s : State) (d : Nat) : Bool := !s.rb (A.dom d + 4) 8 || (s.dom d).armCrank

/-- CRK_FILT and CAM_FILT in ticks (R52). -/
def crkFilt (s : State) (d : Nat) : Nat := 40 * s.rf (A.dom d + 4) 23 20
def camFilt (s : State) (d : Nat) : Nat := 40 * s.rf (A.dom d + 4) 19 16

/-- The level an input takes at an input voltage of `lv` × 0.1 mV, from the level before: a digital input switches high above
1.6 V and low below 1.2 V (R587), the zero-crossing detector of a VR input has 5 mV of hysteresis centred on 0 V (R56). -/
def inputLevel (vr was : Bool) (lv : Int) : Bool :=
  if vr then (if 25 ≤ lv then true else if lv ≤ -25 then false else was)
  else if 16000 < lv then true else if lv < 12000 then false else was

/-- The ECLK edge at or before a tick, the timestamp of what is seen then (R52); on FIO edges come every 10 ns (R40). -/
def eclkEdge (s : State) (t : Nat) : Nat :=
  if s.clk.pll ∨ t < s.clk.since then t else s.clk.since + (t - s.clk.since) / 4 * 4

/-- An active edge past the filter: the minimum distance of R53. -/
def fastEdge (s : State) (d ts : Nat) : Bool :=
  match (s.dom d).fastTs with
  | some f => decide (ts < f + 1000)
  | none => false

/-- Direction of an edge in the modes that know it at once (R58). `dir` is the DIR level held for the 200 ns before it, none
when DIR changed in that time. -/
def edgeDir (s : State) (d : Nat) (dir : Option Bool) : Bool :=
  if dirMode s d = 1 then (match dir with | some v => v == s.rb (A.dom d) 4 | none => (s.dom d).lastFwd) else true

/-- The direction of the edge is kept; one not known clears DIR_KNOWN. -/
def noteDir (s : State) (d : Nat) (fwd known : Bool) : State :=
  s.setDom d { s.dom d with lastFwd := fwd, dirKnown := (s.dom d).dirKnown && known }

/-- An active crank edge past its filter (R51 to R60): in WIDTH mode the edge waits for its direction. -/
def crankActive (s : State) (d ts : Nat) (dir : Option Bool) : State :=
  let s := s.setDom d { s.dom d with armCrank := false }
  if fastEdge s d ts then s.cntSat (A.dom d + 0x30) 7 0
  else
    let s := s.setDom d { s.dom d with fastTs := some ts }
    if dirMode s d = 2 then s.setDom d { s.dom d with pulses := (s.dom d).pulses ++ [ts] }
    else
      let fwd := edgeDir s d dir
      processEdge (noteDir (mechAdvance s d) d fwd (dirMode s d != 0 && dir.isSome)) d ts fwd

/-- The limit of a pulse in WIDTH mode (R60). -/
def widthLimit (s : State) (d ts : Nat) : Nat := ts + usTicks (s.rf (A.dom d + 4) 31 24)

/-- V_arm in mV times 8 (R54, R55). -/
def vArm8 (s : State) (d vpk : Nat) : Nat :=
  max (8 * 25 * (s.rf (A.dom d + 4) 15 12 + 1)) ((s.rf (A.dom d + 4) 11 10 + 1) * vpk)

/-! ### Cam input (R55, R75 to R78, R81) -/

/-- The published angle at tick t: the trajectory before the one in force until that was taken up (R76, R120). -/
def angleAtTs (s : State) (d t : Nat) : Nat :=
  let m := s.dom d
  let y := if t < m.swAt ∧ m.oldTraj.isSome then m.oldTraj else m.traj
  match y with
  | some y => y.at_ (trackL s d m) t
  | none => (s.angle d).getD 0

/-- Cam entries of a polarity within CAM_TOL of an angle, in wrap length L. -/
def camMatches (s : State) (d L ang : Nat) (pol : Bool) : List Nat :=
  (List.range (camEdges s d)).filter (fun i =>
    camPol s d i == pol && decide (min (fdist L (camAng s d i % L) ang) (fdist L ang (camAng s d i % L)) ≤ camTol s d))

/-- A matching cam edge in REV (R77). The revolution found is that of the published angle; the last tooth stands in the one before
when the angle has passed 0 since it. An edge that matches several entries, which only a CAM_TOL raised since R63 allows, restarts
the count and is no error (DESIGN CHOICE, log entry 70). -/
def camInRev (s : State) (d : Nat) (l : List Nat) : State :=
  let m := s.dom d
  match l with
  | [i] =>
    let r := camAng s d i / oneRev
    let n := if m.camRun ≠ 0 ∧ m.camRev = r then m.camRun + 1 else 1
    if s.rf (A.dom d + 8) 15 12 ≤ n then
      let a := (s.angle d).map (fun a => a % oneRev)
      let q := if a.getD oneRev < toothAng s d m.pos then (r + 1) % 2 else r
      let s := setSync s d .cycle
      let s := s.setDom d { s.dom d with revn := q, camSeen := [i], camRun := 0,
                                         traj := (s.dom d).traj.map (fun y => { y with ang := y.ang % oneRev + q * oneRev }),
                                         oldTraj := none }
      setAngle s d (a.map (fun a => a + r * oneRev))
    else s.setDom d { m with camRun := n, camRev := r }
  | [] => (s.setDom d { m with camRun := 0 }).cntSat (A.dom d + 0x2C) 7 0
  | _ => s.setDom d { m with camRun := 0 }

/-- A cam edge in CYCLE (R78). -/
def camInCycle (s : State) (d ang : Nat) (pol : Bool) : State :=
  let m := s.dom d
  let L := domL s d
  match camMatches s d L ang pol with
  | i :: l => s.setDom d { m with camSeen := (i :: l).foldl (fun c k => insertNat k c) m.camSeen, contra := 0 }
  | [] =>
    if camMatches s d L ((ang + oneRev) % L) pol ≠ [] then
      (if s.rf (A.dom d + 8) 15 12 ≤ m.contra + 1 then setSync s d .lost else s.setDom d { m with contra := m.contra + 1 })
    else (s.setDom d { m with contra := 0 }).cntSat (A.dom d + 0x2C) 7 0

/-- A cam edge past the filter in an enabled domain (R51, R76, R81). -/
def camJudge (s : State) (d ts : Nat) (pol : Bool) : State :=
  let m := s.dom d
  if m.st ≠ .rev ∧ m.st ≠ .cycle then s
  else
    let s := mechAdvance s d
    let L := trackL s d m
    let ang := angleAtTs s d ts
    let own := camMatches s d L ang pol
    if own = [] ∧ camMatches s d L ang (!pol) ≠ [] then setSync s d .reverse
    else if m.st = .rev then camInRev s d own
    else camInCycle s d ang pol

/-- A cam edge is processed. -/
def camTake (s : State) (d ts : Nat) (pol : Bool) : State :=
  if (List.range (camEdges s d)).any (fun i => camPol s d i == pol) then camJudge s d ts pol else s

/-- A cam edge that waits is behind no pulse whose direction is open. -/
def camFree (s : State) (d : Nat) (c : Nat × Bool) : Bool := !(s.dom d).pulses.contains c.1

/-- The waiting cam edges that satisfy p are processed. -/
def camRelease (s : State) (d : Nat) (p : Nat × Bool → Bool) : State :=
  let m := s.dom d
  if m.camHeld.any p then
    (m.camHeld.filter p).foldl (fun s c => camTake s d c.1 c.2) (s.setDom d { m with camHeld := m.camHeld.filter (fun c => !p c) })
  else s

/-- A cam edge waits until no crank edge of its timestamp can be recognised any more (R75). -/
def camDue (s : State) (d : Nat) : State := camRelease s d (fun c => camFree s d c && decide (c.1 + crkFilt s d < s.clk.now))

/-- CAM_EDGE (R52, R55, R75): the accepted level changes; a VR cam input needs an arming before its edge. -/
def camEdge (s : State) (d ts : Nat) (lv : Int) : State :=
  let ts := eclkEdge s ts
  let m := s.dom d
  let pol := inputLevel (s.rb (A.dom d + 4) 9) m.camLevel lv
  if s.clk.now < ts + camFilt s d ∨ pol = m.camLevel then s
  else
    let s := s.setDom d { m with camLevel := pol }
    if ¬ domEn s d ∨ (s.rb (A.dom d + 4) 9 ∧ ¬ m.armCam) then s
    else
      let s := camDue (s.setDom d { s.dom d with armCam := false, camTs := some ts }) d
      if (s.dom d).pulses.contains ts ∨ s.clk.now ≤ ts + crkFilt s d then
        s.setDom d { s.dom d with camHeld := (s.dom d).camHeld ++ [(ts, pol)] }
      else camTake s d ts pol

/-- The crank level that an edge of input voltage `lv` brings. -/
def crankLevel (s : State) (d : Nat) (lv : Int) : Bool := inputLevel (s.rb (A.dom d + 4) 8) (s.dom d).crkLevel lv

/-- A new level of the crank input has held for the filter time (R52). -/
def crankAccepted (s : State) (d ts : Nat) (lv : Int) : Bool :=
  decide (eclkEdge s ts + crkFilt s d ≤ s.clk.now) && crankLevel s d lv != (s.dom d).crkLevel

/-- The accepted level is an active edge of an enabled domain: it is that of CRK_POL, and a VR input is armed (R51, R54). -/
def crankIsActive (s : State) (d ts : Nat) (lv : Int) : Bool :=
  crankAccepted s d ts lv && domEn s d && crankLevel s d lv == s.rb (A.dom d + 4) 5 && crankArmed s d

/-- CRANK_EDGE (R51, R52): the accepted level changes, and the change to the level of CRK_POL is an active edge. Cam edges of earlier
timestamps go before it and those of its own after it (R75). -/
def crankEdge (s : State) (d ts : Nat) (lv : Int) (dir : Option Bool) : State :=
  if ¬ crankAccepted s d ts lv then s
  else
    let active := crankIsActive s d ts lv
    let s := s.setDom d { s.dom d with crkLevel := crankLevel s d lv }
    if ¬ active then s
    else
      let ts := eclkEdge s ts
      let s := camRelease s d (fun c => camFree s d c && (decide (c.1 < ts) || decide (c.1 + crkFilt s d < s.clk.now)))
      let s := crankActive s d ts dir
      camRelease s d (fun c => camFree s d c && decide (c.1 ≤ ts))

/-! ### Pulses of WIDTH mode (R59, R60) -/

/-- The oldest waiting pulse is processed with its direction, then the cam edges of its timestamp (R75). -/
def pulseDone (s : State) (d ts : Nat) (fwd : Bool) : State :=
  let s := s.setDom d { s.dom d with pulses := (s.dom d).pulses.tail }
  let s := processEdge (noteDir (mechAdvance s d) d fwd true) d ts fwd
  camRelease s d (fun c => camFree s d c && c.1 == ts)

/-- CRANK_TRAILING_EDGE (R52, R59, R60): the accepted level returns; timestamped before the limit, the pulse is forward. -/
def crankTrailing (s : State) (d ts : Nat) : State :=
  let ts := eclkEdge s ts
  if s.clk.now < ts + crkFilt s d then s
  else
    let s := s.setDom d { s.dom d with crkLevel := !s.rb (A.dom d + 4) 5 }
    match (s.dom d).pulses with
    | p :: _ => if p ≤ ts ∧ ts < widthLimit s d p then pulseDone s d p true else s
    | [] => s

/-- WIDTH_LIMIT_EXPIRY (R60): the limit plus the filter time has passed, the pulse is backward. -/
def widthExpiry (s : State) (d : Nat) : State :=
  match (s.dom d).pulses with
  | p :: _ => if widthLimit s d p + crkFilt s d ≤ s.clk.now then pulseDone s d p false else s
  | [] => s

/-! ### Timeouts -/

def olderThan (s : State) (ts : Option Nat) (n : Nat) : Bool :=
  match ts with
  | some e => decide (e + n ≤ s.clk.now)
  | none => false

/-- More than n ticks have passed since `ts`; without one, more than any number. -/
def longerThan (s : State) (ts : Option Nat) (n : Nat) : Bool :=
  match ts with
  | some e => decide (e + n < s.clk.now)
  | none => true

/-- V_pk of an input that has had no edge for longer than EDGE_TO is reset (R57). -/
def vrIdle (s : State) (d : Nat) : State :=
  let m := s.dom d
  s.setDom d { m with vpkCrank := if longerThan s m.lastAny (edgeTo s d) then 0 else m.vpkCrank,
                      vpkCam := if longerThan s m.camTs (edgeTo s d) then 0 else m.vpkCam }

/-- The crank input arms on the excursion before its active edge, a cam input on either (R54, R55). -/
def armsOn (s : State) (d : Nat) (cam : Bool) (mv : Int) : Bool := cam || decide (mv < 0) == s.rb (A.dom d + 4) 5

/-- The accepted level of a VR input follows its excursion (R56). -/
def vrLevel (m : Mech) (cam : Bool) (mv : Int) : Mech :=
  if cam then { m with camLevel := inputLevel true m.camLevel (10 * mv) } else { m with crkLevel := inputLevel true m.crkLevel (10 * mv) }

/-- VR_ARM (R54 to R57): an excursion that peaks at `mv` arms the input beyond V_arm; V_pk saturates at the 900 mV clamp. -/
def vrArm (s : State) (d : Nat) (cam : Bool) (mv : Int) : State :=
  if ¬ s.rb (A.dom d + 4) (if cam then 9 else 8) then s
  else
    let s := vrIdle s d
    let m := vrLevel (s.dom d) cam mv
    if ¬ armsOn s d cam mv ∨ 8 * mv.natAbs ≤ vArm8 s d (if cam then m.vpkCam else m.vpkCrank) then s.setDom d m
    else if cam then s.setDom d { m with armCam := true, vpkCam := min 900 mv.natAbs }
    else s.setDom d { m with armCrank := true, vpkCrank := min 900 mv.natAbs }

/-- VR_ARM in Dusk: a VR crank input arms beyond VR_MIN (R96). -/
def duskArm (s : State) (d : Nat) (cam : Bool) (mv : Int) : State :=
  if cam ∨ ¬ s.rb (A.dom d + 4) 8 then s
  else
    let m := vrLevel (s.dom d) false mv
    s.setDom d (if armsOn s d false mv ∧ vArm8 s d 0 < 8 * mv.natAbs then { m with armCrank := true } else m)

/-- An active edge that is seen but not processed yet counts as in time (R72): a pulse that waits for its direction, or a crank level
first seen at `raw` and still in its filter. -/
def edgeInTime (s : State) (d : Nat) (raw : Option Nat) (deadline : Nat) : Bool :=
  (s.dom d).pulses.any (fun p => decide (p ≤ deadline)) ||
  (match raw with
   | some r => decide (r ≤ deadline ∧ s.clk.now < r + crkFilt s d)
   | none => false)

/-- A timeout of n ticks from `ts` has run out with no edge in time. -/
def timedOut (s : State) (d : Nat) (raw ts : Option Nat) (n : Nat) : Bool := olderThan s ts n && !edgeInTime s d raw (ts.getD 0 + n)

/-- The instant EDGE_TO runs from: the last active edge, or the wake while the provisional position it gave has had none (DESIGN
CHOICE, log entry 70). -/
def edgeFrom (s : State) (m : Mech) : Option Nat := if m.prov ∧ m.lastEdge = none then some s.pwr.wokeAt else m.lastAny

/-- EDGE_TIMEOUT (R57, R68, R72). -/
def edgeTimeout (s : State) (d : Nat) (raw : Option Nat) : State :=
  let s := vrIdle (camDue s d) d
  let m := s.dom d
  if timedOut s d raw (edgeFrom s m) (edgeTo s d) then
    (match m.st with
     | .tooth | .reverse => setSync s d .quiet
     | .lost => if s.rb (A.dom d) 7 then s else setSync s d .quiet
     | .quiet => s.setDom d { m with edges := 0 }
     | _ => s)
  else s

/-- The stall timeout of R71 in ticks. -/
def stallTime (s : State) (d : Nat) : Nat := max (s.rf (A.dom d + 8) 7 4 * (s.dom d).pred) 400000

/-- STALL_TIMEOUT (R71, R72, R79, R127). -/
def stallTimeout (s : State) (d : Nat) (raw : Option Nat) : State :=
  let s := camDue s d
  let m := s.dom d
  if (m.st = .rev ∨ m.st = .cycle) ∧ timedOut s d raw m.lastEdge (stallTime s d) then setSync (mechAdvance s d) d .stall else s

/-! ### Enabling -/

/-- DOMAIN_ENABLE of a mechanical domain (R63): EN stays set only when every check passes; TABLE_ERR reports the first that
fails. -/
def mechEnable (s : State) (d : Nat) : State :=
  let e := tableErr s d
  let s := s.setDom d { s.dom d with tableErr := e }
  s.setRf (A.dom d) 0 0 (if e = 0 then 1 else 0)

/-- LEARN.START (R131, R134). -/
def learnStart (s : State) (d : Nat) : State :=
  let m := s.dom d
  s.setDom d { m with learnWait := !m.learning, remaining := s.rf (A.dom d + 0x70) 15 8, rejected := 0, aborted := false }

/-- Any write to the wheel profile other than learning aborts learning (R134). -/
def profileTouched (s : State) (d : Nat) : State := if (s.dom d).learning then learnAbort s d else s

/-! ### Views -/

def stateAge (s : State) (ts : Option Nat) : Nat := ageOf s.clk.now ts 400 0xFFFF

/-- The edge AGE counts from: in REV, CYCLE and STALL the last one accepted as a tooth, elsewhere the last that passed the filter
    (DEDUCED: log entry 31). -/
def ageEdge (m : Mech) : Option Nat :=
  match m.st with
  | .rev | .cycle | .stall => m.lastEdge.orElse (fun _ => m.lastAny)
  | _ => m.lastAny

/-- Reads of the registers of a mechanical domain that are not stored words. -/
def mechView (s : State) (d o : Nat) : Option Word :=
  let m := s.dom d
  match o with
  | 0x1C => some (packWord [(stateAge s (ageEdge m), 16), (m.tableErr, 12), (b2n m.prov, 11), (b2n m.camMissing, 9), (b2n m.dirKnown, 8), (m.st.code, 0)])
  | 0x20 => some (ofNat32 (s.angleWord d))
  | 0x24 => some (match m.st with | .tooth | .rev | .cycle => ofNat32 m.speed | _ => 0)
  | 0x28 => some (packWord [(m.revn, 10), (m.pos, 0)])
  | 0x34 => some (packWord [(b2n m.duskOver, 17), (b2n m.duskDir, 16), ((m.duskCount.emod 65536).toNat, 0)])
  | 0x54 => some (packWord [(plausHi s d, 16), (plausLo s d, 0)])
  | 0x58 => some (ofNat32 m.pred)
  | 0x60 => some (packWord [(b2n m.suspect.isSome, 13), (b2n m.cycValid, 12), (m.us.length, 10), (b2n (trackNow s m), 9), (m.weight, 0)])
  | 0x74 => some (packWord [(m.rejected, 24), (m.remaining, 16), (b2n m.aborted, 1), (b2n m.learning, 0)])
  | 0x78 => some (setFld (s.reg (A.dom d + 0x78)) 5 5 (b2n m.cfgErr))
  | _ => none

/-- ATU_PERR_n_MAX with its AGE in ms. -/
def perrView (s : State) (n : Nat) : Word := setFld (s.reg (A.perr n)) 31 16 (ageOf s.clk.now (s.dom n).errAt 400000 0xFFFF)

end Sys2Proof.Machine
end

