-- ==== Sys2Proof/Machine/Electrical.lean ====
section
/-!
DEFINITION. The electrical domains, D3 from the link, and the synchronizing check (Wheels and Angle Domains, R83 to R93;
Vangic Link, R530, R531).
-/
namespace Sys2Proof.Machine

/-- D3 takes its angle from the link (R89). -/
def onLink (s : State) (d : Nat) : Bool := d == 3 && s.rb (A.dom 3) 1

/-- The angle of the newest MAINS frame at the DTIME `dt`; F counts as 0 in STALL (R530). -/
def MainsIn.angleAt (x : MainsIn) (stalled : Bool) (dt : Nat) : Nat :=
  ((x.ang : Int) + if stalled then 0 else ((x.speed : Int) * ((dt : Int) - x.tcap) * 360).fdiv 1000000000).emod (oneRev : Int) |>.toNat

/-- The angle of an electrical domain on its trajectory at tick t, none where it has none (R87, R530). -/
def elecAngle (s : State) (d t : Nat) : Option Nat :=
  let x := s.el d
  if onLink s d then
    (match x.st, x.mains with
     | .tooth, some m | .cycle, some m => some (m.angleAt false (s.dtimeOf t))
     | .stall, some m => some (m.angleAt true 0)
     | _, _ => none)
  else if x.st = .cycle then x.zc.map (fun z => ((s.reg (A.dom d + 8)).toNat + min (x.inc * (t - z) / 65536) (oneRev - 1)) % oneRev)
  else none

/-- The published angle of an electrical domain advances to now, as one update. -/
def elecAdvance (s : State) (d : Nat) : State :=
  match elecAngle s d s.clk.now, elecAngle s d (s.clk.now - 1) with
  | some b, some b1 => moveAngle s d b (min (fdist oneRev ((s.angle d).getD b) b) (fdist oneRev b1 b)) false
  | _, _ => s

/-- ANGLE_UPDATE (R119, R146): one ECLK edge of a domain's trajectory. -/
def angleStep (s : State) (d : Nat) : State := if d < 2 then mechAdvance (camDue s d) d else elecAdvance s d

/-- The domains below n advance to now, in the order of R148. -/
def anglesTo (s : State) (n : Nat) : State := (List.range n).foldl angleStep s

/-- ANGLE_UPDATE of domain d: the domains before it take their update of the instant first (R148). -/
def angleUpdate (s : State) (d : Nat) : State := angleStep (anglesTo s d) d

/-- Domain d leaves CYCLE: the synchronizing check's telemetry becomes UNDEFINED when the other of D2 and D3 is in CYCLE (R340). -/
def syncUndef (s : State) (d : Nat) : State := if (s.el (5 - d)).st = .cycle then tlmUndef s 0x11 0 0 else s

/-- The sync state of an electrical domain changes (R88): counters, interrupt source, published angle, schedulers. -/
def setElecSync (s : State) (d : Nat) (new : SyncSt) : State :=
  let x := s.el d
  if x.st = new then s
  else
    let s := countEntry s d new
    let s := s.setEl d { s.el d with st := new, lock := 0, held := if new = .stall then x.st else x.held }
    let s := match new with
      | .quiet | .lost => setAngle s d none
      | .tooth => if onLink s d then s else setAngle s d none
      | _ => s
    let s := if x.st = .cycle then syncUndef s d else s
    schedSync (s.arrive (24 + 4 * d)) d x.st new

/-! ### Zero crossings -/

/-- The last sample before the comparator event with a code below BIAS (R84). -/
def sampleBelow (l : List (Nat × Nat)) (bias at_ : Nat) : Option (Nat × Nat) :=
  (l.filter (fun p => decide (p.1 < at_ ∧ p.2 < bias))).getLast?

/-- The first sample at or after the comparator event with a code not below BIAS (R84). -/
def sampleAbove (l : List (Nat × Nat)) (bias at_ : Nat) : Option (Nat × Nat) :=
  l.find? (fun p => decide (at_ ≤ p.1 ∧ bias ≤ p.2))

/-- t_a + (t_b − t_a) × (BIAS − v_a) / (v_b − v_a) to the nearest tick, ties up (R84). -/
def refinedTick (a b : Nat × Nat) (bias : Nat) : Nat :=
  let n := (b.1 - a.1) * (bias - a.2)
  let k := b.2 - a.2
  a.1 + (2 * n + k) / (2 * k)

/-- Ticks from the hold of a sample to the end of its conversion, when the sample is known. -/
def sampleLag (s : State) : Nat := if s.clk.pll then 300 else 1200

/-- The tick of a crossing whose comparator event came at tick `ev`, and whether it is refined; none while the second
sample may still come (R84, R85). 50 µs are 20,000 ticks. -/
def crossingTick (s : State) (d ev : Nat) : Option (Nat × Bool) :=
  let bias := s.rf (A.dom d + 4) 27 16
  let l := (s.el d).vel
  match sampleBelow l bias ev with
  | none => some (ev, false)
  | some a =>
    if 20000 < ev - a.1 then some (ev, false)
    else match sampleAbove l bias ev with
      | some b => if 20000 < b.1 - ev then some (ev, false) else some (refinedTick a b bias, true)
      | none => if ev + 20000 + sampleLag s < s.clk.now then some (ev, false) else none

/-- A period of n ticks lies between 1/FMAX and 1/FMIN. -/
def periodInRange (s : State) (d n : Nat) : Bool :=
  decide (400000000 ≤ n * s.rf (A.dom d + 4) 15 8 ∧ n * s.rf (A.dom d + 4) 7 0 ≤ 400000000)

def absDiff (a b : Nat) : Nat := ((a : Int) - b).natAbs

/-- The lock count after a period in TOOTH (R88). -/
def lockAfter (s : State) (d : Nat) (x : Elec) (n : Nat) : Nat :=
  if ¬ periodInRange s d n then 0
  else if x.lock = 0 then 1
  else if 1000 * absDiff n x.period ≤ s.rf (A.dom d) 23 16 * x.period then x.lock + 1
  else 1

/-- What a crossing with period n does to the sync state (table *Electrical sync transitions*). -/
def crossingSync (s : State) (d : Nat) (x : Elec) (n : Option Nat) : State :=
  match x.st, n with
  | .tooth, some n =>
    let k := lockAfter s d x n
    if s.rf (A.dom d) 11 8 ≤ k then setElecSync s d .cycle else s.setEl d { s.el d with lock := k }
  | .cycle, some n =>
    if ¬ periodInRange s d n ∨ s.rf (A.dom d) 31 24 * x.period < 200 * absDiff n x.period then setElecSync s d .lost else s
  | .quiet, _ | .stall, _ | .lost, _ => setElecSync s d .tooth
  | _, _ => s

/-- The peak of the period just ended. -/
def peakTake (s : State) (d : Nat) : State :=
  let x := s.el d
  (s.setEl d { x with peakRun := 0, peakAt := some s.clk.now }).setRf (A.dom d + 0x28) 11 0 x.peakRun

/-- A crossing at tick z (R86, R88): period, INC, angle OFFSET, sync state, as one angle update. -/
def crossing (s : State) (d z : Nat) (refined : Bool) : State :=
  let s := peakTake s d
  if onLink s d then s
  else
    let x := s.el d
    let n := x.zc.map (fun e => z - e)
    let f := Config.freeWord s.free
    let x' := match n with
      | some n => { x with zc := some z, zcAny := some z, refined := refined, period := n, inc := quot f (oneRev * 65536) n }
      | none => { x with zc := some z, zcAny := some z, refined := refined }
    let s := crossingSync ({ s with free := s.free + 1 }.setEl d x') d x n
    match elecAngle s d s.clk.now, s.angle d with
    | some b, some a => moveAngle s d b (fdist oneRev a b) false
    | some b, none => setAngle s d (some b)
    | none, _ => s

/-- ZERO_CROSSING of D2 or D3 (R83 to R88): the first ABOVE of its zero-cross window after a BELOW. -/
def zeroCrossing (s : State) (d : Nat) : State :=
  let w := 96 + (d - 2)
  let x := s.win w
  if ¬ x.crossing then s
  else if ¬ domEn s d then s.setWin w { x with crossing := false }
  else match crossingTick s d x.crossAt with
    | some p =>
      let s := elecAdvance (s.setWin w { x with crossing := false }) d
      crossing s d p.1 p.2
    | none => s

/-- A crossing whose time is still being refined has come in time for a deadline (R72). -/
def crossingInTime (s : State) (d deadline : Nat) : Bool :=
  let w := s.win (96 + (d - 2))
  w.crossing && decide (w.crossAt ≤ deadline)

/-- ELECTRICAL_STALL_TIMEOUT (R72, R88). -/
def elecStall (s : State) (d : Nat) : State :=
  let x := s.el d
  let n := max (2 * x.period) 400000
  if x.st = .cycle ∧ ¬ onLink s d ∧ olderThan s x.zc n ∧ ¬ crossingInTime s d (x.zc.getD 0 + n) then setElecSync (elecAdvance s d) d .stall else s

/-- No crossing within 3/FMIN. -/
def elecIdle (s : State) (d : Nat) : Bool :=
  match (s.el d).zc with
  | some z => decide (1200000000 ≤ (s.clk.now - z) * s.rf (A.dom d + 4) 7 0) &&
      !((s.win (96 + (d - 2))).crossing && decide (((s.win (96 + (d - 2))).crossAt - z) * s.rf (A.dom d + 4) 7 0 ≤ 1200000000))
  | none => false

/-- ELECTRICAL_NONE_TIMEOUT (R88). -/
def elecNone (s : State) (d : Nat) : State :=
  let x := s.el d
  if (x.st = .tooth ∨ x.st = .stall ∨ x.st = .lost) ∧ ¬ onLink s d ∧ elecIdle s d then setElecSync s d .quiet else s

/-! ### D3 from the link (R530, R531) -/

/-- MAINS_TO in ticks. -/
def mainsTo (s : State) : Nat := msTicks (s.rf 0xA014 31 24)

/-- The state of D3 from its newest MAINS frame (table *D3 from the link*). -/
def linkSt (s : State) : SyncSt :=
  match (s.el 3).mains with
  | none => .quiet
  | some m =>
    if s.clk.qual ≠ 3 ∨ m.qual ≠ 3 then .lost
    else if m.at_ + mainsTo s ≤ s.clk.now then .stall
    else match m.state with
      | 1 => .tooth | 3 => .cycle | 4 => .stall | 6 => .lost | _ => .quiet

/-- D3 follows the link: state, then angle, as one update; the one that enters CYCLE fires no mark, and from TOOTH it passes no
angle (R94, R146). -/
def linkReview (s : State) : State :=
  if ¬ onLink s 3 ∨ ¬ domEn s 3 then s
  else
    let old := s.angle 3
    let was := (s.el 3).st
    let s := setElecSync s 3 (linkSt s)
    let s := if linkSt s = .quiet then s.setEl 3 { s.el 3 with mains := none } else s
    match elecAngle s 3 s.clk.now, old with
    | some b, some a =>
      if was = .tooth ∧ (s.el 3).st = .cycle then setAngle s 3 (some b) else moveAngle s 3 b (fdist oneRev a b) (was ≠ .cycle)
    | some b, none => setAngle s 3 (some b)
    | none, _ => s

/-! ### RESYNC and EN -/

/-- A mechanical domain returns to NONE; already there, its count of edges begins anew (R68, R74). -/
def mechToNone (s : State) (d : Nat) : State :=
  let s := setSync s d .quiet
  s.setDom d ((s.dom d).enter s d .quiet)

/-- The domain returns to NONE (R68, R88). -/
def toNone (s : State) (d : Nat) : State :=
  if d < 2 then mechToNone s d
  else setElecSync (s.setEl d { s.el d with zc := none, mains := none }) d .quiet

/-- EN of a domain becomes 1: a mechanical domain checks its tables (R63). -/
def domainEnable (s : State) (d : Nat) : State := if d < 2 then mechEnable s d else s.setRf (A.dom d) 0 0 1

/-- The edges that a disabled domain held are dropped. -/
def dropEdges (s : State) (d : Nat) : State := if d < 2 then s.setDom d { s.dom d with pulses := [], camHeld := [] } else s

/-- EN of a domain becomes 0 (R68). -/
def domainDisable (s : State) (d : Nat) : State := dropEdges (toNone (s.setRf (A.dom d) 0 0 0) d) d

/-! ### Synchronizing check (R90 to R93) -/

/-- A phase wrapped into ±180 °el. -/
def wrapPhase (x : Int) : Int := (x + 0xB40000).emod (oneRev : Int) - 0xB40000

/-- A quotient to the nearest whole number; the free value decides a tie, which the spec leaves open (log entry 3). -/
def nearest (f : Word) (a b : Int) : Int :=
  let q := (2 * a + b).fdiv (2 * b)
  if (2 * a + b).emod (2 * b) = 0 ∧ wbit f 0 then q - 1 else q

/-- The phase; a free value where an angle is not published. -/
def syncPhase (s : State) : Int :=
  match s.angle 2, s.angle 3 with
  | some a, some b => wrapPhase ((a : Int) - b)
  | _, _ => wrapPhase (Config.freeWord s.free).toNat

/-- Frequency in mHz of an electrical domain; on the link that of its frame, else of its period; none without one. -/
def freqMilli (s : State) (d : Nat) (f : Word) : Option Int :=
  let x := s.el d
  if onLink s d then x.mains.map (fun m => nearest f ((m.speed : Int) * 1000) 65536)
  else if x.period = 0 then none
  else some (nearest f 400000000000 x.period)

/-- Slip in mHz; a free value where a period is not known. -/
def syncSlip (s : State) : Int :=
  match freqMilli s 2 (Config.freeWord (s.free + 1)), freqMilli s 3 (Config.freeWord (s.free + 1)) with
  | some a, some b => a - b
  | _, _ => (Config.freeWord (s.free + 2)).toInt

/-- ΔV in 0.1 %; a free value for a peak of 0. -/
def syncVolt (s : State) : Int :=
  let p2 : Int := s.rf (A.dom 2 + 0x28) 11 0
  let p3 : Int := s.rf (A.dom 3 + 0x28) 11 0
  if p3 = 0 then (Config.freeWord (s.free + 3)).toInt else ((p2 - p3) * 1000).tdiv p3

/-- φc: the phase predicted at the moment the breaker closes. -/
def syncPredicted (s : State) (phi slip : Int) : Int :=
  wrapPhase (phi + nearest (Config.freeWord (s.free + 4)) (slip * s.rf 0xC50C 19 0 * 23592960) 1000000000)

/-- The check is permissive (R90). -/
def syncOk (s : State) (phi slip dv : Int) : Bool :=
  (s.el 2).st == .cycle && (s.el 3).st == .cycle &&
  decide (10 * phi.natAbs ≤ s.rf 0xC504 7 0 * 65536 ∧ slip.natAbs ≤ s.rf 0xC508 15 0 ∧ dv.natAbs ≤ s.rf 0xC504 15 8)

/-- φc has changed sign or reached zero since the previous evaluation (R91). -/
def signTurned (prev : Option Int) (c : Int) : Bool :=
  c == 0 || (match prev with | some p => decide ((p < 0 ∧ 0 < c) ∨ (0 < p ∧ c < 0)) | none => false)

/-- Firing (R92). -/
def syncFire (s : State) : State :=
  let s := (s.setRf 0xC510 2 2 1).setReg 0xC520 (lo32 s.dtime)
  let s := s.setReg 0xC524 (hi32 s.dtime)
  (reelEvent { s with sync := { s.sync with armed := false } } 16).arrive 11

/-- One evaluation: the registers, the telemetry capture it leaves, and firing (R90 to R92). -/
def syncEval (s : State) : State :=
  let phi := syncPhase s
  let slip := syncSlip s
  let dv := syncVolt s
  let c := syncPredicted s phi slip
  let ok := syncOk s phi slip dv
  let fires := s.sync.armed && ok && decide (10 * c.natAbs ≤ s.rf 0xC504 23 16 * 65536) &&
    (signTurned s.sync.prevPhic c || decide (slip.natAbs ≤ s.rf 0xC504 31 24))
  let s := (((s.setReg 0xC514 (ofInt32 phi)).setReg 0xC518 (ofInt32 slip)).setReg 0xC51C (ofNat32 (dv.emod 65536).toNat)).setRf 0xC510 0 0 (b2n ok)
  let s := { s with free := s.free + 5, sync := { s.sync with prevPhic := some c, evalAt := some s.clk.now } }
  if fires then syncFire s else s

/-- DTIME at the tick before. -/
def State.dtimeBefore (s : State) : Nat := { s with clk := { s.clk with now := s.clk.now - 1 } }.dtime

/-- SYNC_CHECK_EVAL: at DTIME multiples of 10,000 ns. -/
def syncCheckEval (s : State) : State := if s.dtime / 10000 ≠ s.dtimeBefore / 10000 then syncEval s else s

/-- SYNC_CHECK_ARM (R91, R93); written while armed, it begins ARM_TO anew (DESIGN CHOICE, log entry 70). -/
def syncArm (s : State) : State := { s with sync := { s.sync with armed := true, until_ := s.clk.now + 1000 * msTicks (s.rf 0xC500 15 8) } }

/-- SYNC_CHECK_CANCEL. -/
def syncCancel (s : State) : State := { s with sync := { s.sync with armed := false } }

/-- SYNC_CHECK_TIMEOUT (R93). -/
def syncTimeout (s : State) : State :=
  if s.sync.armed ∧ s.sync.until_ ≤ s.clk.now then { s with sync := { s.sync with armed := false } }.setRf 0xC510 3 3 1 else s

/-! ### Views -/

/-- SPEED of an electrical domain in Hz, U16.16. -/
def elecSpeed (s : State) (d : Nat) : Word :=
  let x := s.el d
  match x.st with
  | .tooth | .cycle =>
    if onLink s d then ofNat32 ((x.mains.map (·.speed)).getD 0) else if x.period = 0 then 0 else ofNat32 (sat32 (400000000 * 65536 / x.period))
  | _ => 0

/-- Reads of an electrical domain's registers that are not stored words. -/
def elecView (s : State) (d o : Nat) : Option Word :=
  let x := s.el d
  match o with
  | 0x1C => some (packWord [(stateAge s (if onLink s d then x.mains.map (·.at_) else x.zcAny), 16), (b2n x.refined, 10), (x.st.code, 0)])
  | 0x20 => some (ofNat32 (s.angleWord d))
  | 0x24 => some (elecSpeed s d)
  | 0x28 => some (setFld (s.reg (A.dom d + 0x28)) 31 16 (ageOf s.clk.now x.peakAt 400 0xFFFF))
  | _ => none

/-- Reads of the ATU block; `o` is the offset in it. -/
def atuView (s : State) (o : Nat) : Option Word :=
  if o = 0 then some (packWord ((List.range 4).map (fun d => ((syncOf s d).code, 4 * d))))
  else if 0x100 ≤ o ∧ o < 0x300 then mechView s (o / 0x100 - 1) (o % 0x100)
  else if 0x300 ≤ o ∧ o < 0x500 then elecView s (o / 0x100 - 1) (o % 0x100)
  else if o = 0x510 then some (setFld (setFld (s.reg 0xC510) 1 1 (b2n s.sync.armed)) 31 16 (ageOf s.clk.now s.sync.evalAt 400 0xFFFF))
  else if o = 0x800 ∨ o = 0x810 then some (perrView s ((o - 0x800) / 0x10))
  else none

end Sys2Proof.Machine
end

