-- ==== Sys2Proof/Machine/Contribution.lean ====
section
/-!
DEFINITION. Cylinder contributions (Prediction Between Teeth, R137 to R140) and cylinder balance (Sensing Closure, R256 to
R258).
-/
namespace Sys2Proof.Machine

def ncyl (s : State) (d : Nat) : Nat := s.rf (A.dom d + 0x78) 4 0
def cylTdc (s : State) (d c : Nat) : Nat := fld (s.word (wheelBase d + 0x3800 + 4 * c)) 25 0
/-- Base of the contribution result of a cylinder. -/
def resultBase (d c : Nat) : Nat := wheelBase d + 0x3900 + 16 * c

/-- A window bound of ATU_DOM_n_CONTRIB_WIN in AU: signed, 0.5 °CA. -/
def winBound (s : State) (d lo : Nat) : Int := sext 8 (s.rf (A.dom d + 0x7C) (lo + 7) lo) * 32768

/-- The cycle angle `ang` lies in [θ + a, θ + b) by forward distance (R138). -/
def inSegment (L theta : Nat) (a b : Int) (ang : Nat) : Bool :=
  decide ((((ang : Int) - theta - a).emod (L : Int)) < b - a)

/-- A segment of a cylinder among some teeth. -/
def segTeeth (s : State) (d c lo hi : Nat) (l : List CTooth) : List CTooth :=
  l.filter (fun k => inSegment (domL s d) (cylTdc s d c) (winBound s d lo) (winBound s d hi) k.ang)

/-- The nominal cycle angles of every tooth of a cycle. -/
def cycleAngles (s : State) (d : Nat) : List Nat :=
  let l := ((List.range (positions s d)).filter (fun i => !isGap s d i)).map (toothAng s d)
  if twoStroke s d then l else l ++ l.map (· + oneRev)

/-- A segment is not empty and its first bound is below its second. -/
def segGood (s : State) (d c lo hi : Nat) : Bool :=
  decide (winBound s d lo < winBound s d hi) &&
  (cycleAngles s d).any (fun a => inSegment (domL s d) (cylTdc s d c) (winBound s d lo) (winBound s d hi) a)

/-- The segment check of R140. -/
def segmentsGood (s : State) (d : Nat) : Bool := (List.range (ncyl s d)).all (fun c => segGood s d c 0 8 && segGood s d c 16 24)

/-- Speed over some teeth by their true spans (R138). -/
def segSpeed (f : Word) (l : List CTooth) : Int := quot f ((l.map (·.t)).sum * 200000000) (3 * (l.map (·.p)).sum)

/-- Δ_c of one cylinder. -/
def cylDelta (s : State) (d c : Nat) (l : List CTooth) : Int :=
  let f := Config.freeWord s.free
  segSpeed f (segTeeth s d c 16 24 l) - segSpeed f (segTeeth s d c 0 8 l)

/-- DEV_c in ppm (R138); a cycle speed of 0 gives a free value. -/
def cylDev (s : State) (delta mean w : Int) : Int := if w = 0 then (Config.freeWord s.free).toInt else ((delta - mean) * 1000000).tdiv w

/-- F_c as it stands in the result table, and after an accepted cycle (R139). -/
def cylF (s : State) (d c : Nat) : Int := (s.word (resultBase d c)).toInt
def filtered (s : State) (d : Nat) (first : Bool) (f dev : Int) : Int :=
  if first then dev else f + (dev - f).fdiv (2 ^ s.rf (A.dom d + 0x78) 15 12)

/-- The result of one cylinder is written, and captured as telemetry. -/
def putResult (s : State) (d c : Nat) (first : Bool) (delta dev : Int) : State :=
  let n := if first then 0 else satAdd 65535 (fld (s.word (resultBase d c + 8)) 15 0) 1
  let ws := [ofInt32 (filtered s d first (cylF s d c) dev), ofInt32 delta, ofNat32 n, 1]
  tlmCapture (s.putWords (resultBase d c) ws) 0x12 (128 * d + c) 0 ws

/-! ### Balance -/

/-- The Warden's own activities pause: a firmware restart runs (R502), or the Warden has voted for Dusk (R544). -/
def wardenPaused (s : State) : Bool := s.fw.restart.isSome || (s.pwr.entry != 0 && decide (0 < s.pwr.voter))

def balWord (s : State) (k : Nat) : Word := s.word (0x81000 + 4 * k)
def balEn (s : State) : Bool := wbit (balWord s 0) 31
def balDom (s : State) : Nat := fld (balWord s 0) 30 30
def zeroInt : Nat → Int := fun _ => 0
def balOf (s : State) (c : Nat) : Int := cget zeroInt s.balance c

/-- Channels enabled in word 2 + c of a balance table. -/
def balChannels (w : Word) : List Nat := ((List.range 4).filter (fun k => wbit w (24 + k))).map (fun k => fld w (6 * k + 5) (6 * k))

/-- B_c written to DRV_SNS_c_BAL of the enabled channels of cylinder c, each write a capture (R257). -/
def balPublish (s : State) (c : Nat) (b : Int) : State :=
  (balChannels (balWord s (2 + c))).foldl (fun s ch =>
    tlmCapture (s.keepPast.setReg (A.sns ch + 0xC) (ofInt32 b)) 0x13 ch 0 [ofInt32 b]) { s with balance := cset zeroInt s.balance c b }

/-- B_c after step 1 of R257. -/
def balStep (s : State) (d c : Nat) : Int :=
  let f := cylF s d c
  let dead := fld (balWord s 0) 15 0
  if dead < f.natAbs then balOf s c - (f * (fld (balWord s 0) 23 16 : Nat)).tdiv 1024 else balOf s c

/-- The update of every B_c (R257). -/
def balUpdate (s : State) (d : Nat) : State :=
  let n := ncyl s d
  let l := (List.range n).map (balStep s d)
  let mean := l.sum.tdiv n
  let lim : Int := 100 * (fld (balWord s 1) 15 0 : Nat)
  (List.range n).foldl (fun s c => balPublish s c (clampI (-lim) lim (l.getD c 0 - mean))) s

/-- Every B_c becomes 0 (R258). -/
def balClear (s : State) : State :=
  (List.range 24).foldl (fun s c =>
    (balChannels (balWord s (2 + c))).foldl (fun s ch => s.setReg (A.sns ch + 0xC) 0) s) { s with balance := [] }

/-! ### One update -/

/-- CONTRIBUTION_UPDATE (R137 to R139, R257): the completed cycle is accepted or counted as rejected. -/
def contributionUpdate (s : State) (d : Nat) : State :=
  let m := s.dom d
  match m.cycDone with
  | none => s
  | some (l, whole) =>
    let s := s.setDom d { m with cycDone := none }
    if ¬ whole ∨ m.cfgErr ∨ ncyl s d = 0 then s.cntSat (A.dom d + 0x80) 31 16
    else
      let n := ncyl s d
      let w := segSpeed (Config.freeWord s.free) l
      let ds := (List.range n).map (fun c => cylDelta s d c l)
      let mean := ds.sum.tdiv n
      let first := !m.contribSet
      let s' := (List.range n).foldl (fun s' c => putResult s' d c first (ds.getD c 0) (cylDev s (ds.getD c 0) mean w)) s
      let s' := ({ s' with free := s.free + 1 }.setDom d { s'.dom d with contribSet := true }).cntSat (A.dom d + 0x80) 15 0
      if balEn s' ∧ balDom s' = d ∧ ¬ wardenPaused s' then balUpdate s' d else s'

/-- The cylinders of a domain whose contributions are defined, NCYL being `n`: no CFG_ERR, and VALID (table *Telemetry kinds*). -/
def contribDefined (s : State) (d n : Nat) : List Nat :=
  if n = 0 ∨ (s.dom d).cfgErr then [] else (List.range 24).filter (fun c => wbit (s.word (resultBase d c + 12)) 0)

/-- The contributions of some cylinders of a domain are UNDEFINED from now on. -/
def contribUndef (s : State) (d : Nat) (l : List Nat) : State := l.foldl (fun s c => tlmUndef s 0x12 (128 * d + c) 0) s

/-- VALID of every result is cleared. -/
def resultsClear (s : State) (d : Nat) : State := (List.range 24).foldl (fun s c => s.putWords (resultBase d c + 12) [0]) s

/-- After a write that gives NCYL (R139, R140, R258). `old` is the NCYL before. -/
def ncylWritten (s : State) (d old : Nat) : State :=
  let n := ncyl s d
  let was := contribDefined s d old
  let s := if n ≠ old ∧ balDom s = d then balClear s else s
  if n = 0 then
    contribUndef (resultsClear (s.setDom d { s.dom d with cfgErr := false, contribSet := false, cycDone := none }) d) d was
  else
    let bad := !segmentsGood s d
    let s := s.setDom d { s.dom d with cfgErr := bad, contribSet := (s.dom d).contribSet && old != 0 }
    if bad then contribUndef s d was else s

end Sys2Proof.Machine
end

