-- ==== Sys2Proof/Machine/Sha.lean ====
section
/-!
DEFINITION. SHA-256 over bytes, as the journal's CHECK and the configuration digest use it (Dusk, Reset and Retained
State, R564; FIPS 180-4).
-/
namespace Sys2Proof.Machine

/-! ### The constants, by their definition: fractions of roots of the first primes -/

/-- A number below 19 * 19 is prime when no smaller number from 2 to 18 divides it. -/
def smallPrime (n : Nat) : Bool := decide (2 ≤ n) && (List.range 17).all (fun k => decide (n ≤ k + 2) || n % (k + 2) != 0)

/-- The largest r with r ^ k ≤ n, binary digit by binary digit below 2 ^ 35. -/
def natRoot (k n : Nat) : Nat := (List.range 35).reverse.foldl (fun r i => if (r + 2 ^ i) ^ k ≤ n then r + 2 ^ i else r) 0

/-- The first 32 bits of the fraction of the k-th root of p. -/
def rootFraction (k p : Nat) : Word := BitVec.ofNat 32 (natRoot k (p * 2 ^ (32 * k)))

/-- The 64 round constants: cube roots of the primes up to 311. -/
def roundConsts : List Word := ((List.range 312).filter smallPrime).map (rootFraction 3)

/-- The eight working words. -/
structure Sha where
  a : Word
  b : Word
  c : Word
  d : Word
  e : Word
  f : Word
  g : Word
  h : Word
  deriving DecidableEq, Repr

/-- The initial words: square roots of the first eight primes. -/
def shaInit : Sha :=
  let r := rootFraction 2
  ⟨r 2, r 3, r 5, r 7, r 11, r 13, r 17, r 19⟩

/-- One round with its constant and message word. -/
def shaRound (x : Sha) (k w : Word) : Sha :=
  let s1 := x.e.rotateRight 6 ^^^ x.e.rotateRight 11 ^^^ x.e.rotateRight 25
  let t1 := x.h + s1 + ((x.e &&& x.f) ^^^ (~~~ x.e &&& x.g)) + k + w
  let s0 := x.a.rotateRight 2 ^^^ x.a.rotateRight 13 ^^^ x.a.rotateRight 22
  let t2 := s0 + ((x.a &&& x.b) ^^^ (x.a &&& x.c) ^^^ (x.b &&& x.c))
  ⟨t1 + t2, x.a, x.b, x.c, x.d + t1, x.e, x.f, x.g⟩

/-- The message schedule, newest word first. -/
def shaExtend : Nat → List Word → List Word
  | 0, l => l
  | n + 1, l =>
    let w15 := l.getD 14 0
    let w2 := l.getD 1 0
    let s0 := w15.rotateRight 7 ^^^ w15.rotateRight 18 ^^^ (w15 >>> 3)
    let s1 := w2.rotateRight 17 ^^^ w2.rotateRight 19 ^^^ (w2 >>> 10)
    shaExtend n ((l.getD 15 0 + s0 + l.getD 6 0 + s1) :: l)

def shaAdd (x y : Sha) : Sha := ⟨x.a + y.a, x.b + y.b, x.c + y.c, x.d + y.d, x.e + y.e, x.f + y.f, x.g + y.g, x.h + y.h⟩

/-- One block of 16 big-endian words, given newest first. -/
def shaBlock (x : Sha) (ws : List Word) : Sha :=
  shaAdd x (((shaExtend 48 ws).reverse.zip roundConsts).foldl (fun y p => shaRound y p.2 p.1) x)

/-- Bytes taken four at a time into big-endian words, gathered newest first, one block at each sixteenth; the bytes are a
whole number of blocks. -/
def shaBytes : List Byte → Nat → List Word → Sha → Sha
  | a :: b :: c :: d :: t, n, ws, x =>
    let w : Word := BitVec.ofNat 32 (a.toNat * 2 ^ 24 + b.toNat * 2 ^ 16 + c.toNat * 2 ^ 8 + d.toNat)
    if n = 15 then shaBytes t 0 [] (shaBlock x (w :: ws)) else shaBytes t (n + 1) (w :: ws) x
  | _, _, _, x => x

/-- The eight bytes of a bit length, highest first. -/
def shaLen (n : Nat) : List Byte := (List.range 8).map (fun i => BitVec.ofNat 8 (n / 2 ^ (8 * (7 - i))))

def shaPad (l : List Byte) : List Byte :=
  l ++ [0x80] ++ List.replicate ((119 - l.length % 64) % 64) 0 ++ shaLen (8 * l.length)

/-- The eight result words. -/
def Sha.words (x : Sha) : List Word := [x.a, x.b, x.c, x.d, x.e, x.f, x.g, x.h]

def sha256 (l : List Byte) : Sha := shaBytes (shaPad l) 0 [] shaInit

/-- The first eight bytes of the SHA-256, byte 0 in bits 63:56 (R564). -/
def sha8 (l : List Byte) : Nat := (sha256 l).a.toNat * 2 ^ 32 + (sha256 l).b.toNat

end Sys2Proof.Machine
end

