-- ==== Sys2Proof/Machine/Journal.lean ====
section
/-!
DEFINITION. The journal: configuration image and digest, slots and their validity, writes, and the restore (Dusk, Reset
and Retained State, R560 to R570; Faults, Error Codes and Reflection, R444, R618).
-/
namespace Sys2Proof.Machine

/-! ### The configuration image (R564) -/

/-- A retained field that the digest covers; the retained read-only fields are the ones it excludes. -/
def Fld.covered (f : Fld) : Bool := f.kept && f.acc == .seal
def Fld.excluded (f : Fld) : Bool := f.kept && f.acc == .ro

/-- The bits of a register that hold fields a test selects. -/
def fieldMask (sel : Fld → Bool) (a : Nat) : Word :=
  (regFields a).foldl (fun w f => if sel f then setFld w f.hi f.lo (2 ^ (f.hi + 1 - f.lo) - 1) else w) 0

/-- The BAR0 words, ascending, that hold a field a test selects. -/
def wordsWith (sel : Fld → Bool) : List Nat :=
  ((List.range 0x18000).map (fun i => 4 * i)).filter (fun a => (regFields a).any sel)

/-- Sections of (offset, masked word) pairs. -/
def coveredAddrs : List Nat := (wordsWith Fld.covered).filter (fun a => a != 4)
def excludedAddrs : List Nat := wordsWith Fld.excluded

def regPairs (s : State) (sel : Fld → Bool) (l : List Nat) : List Word :=
  l.flatMap (fun a => [ofNat32 a, s.reg a &&& fieldMask sel a])

/-- The latest written set of a slot with word 7 zero (section 3). -/
def latestSet (y : Slot) : List Word := let w := y.shadow.getD y.set; (List.range 8).map (fun k => if k = 7 then 0 else wordAt w k)

def tableSection (s : State) (n : Nat) : List Word :=
  (List.range 1024).flatMap (fun i => latestSet ((s.unit (servingUnit s n)).slot i))

/-- Bytes of BAR2 from `a`. -/
def State.bytes (s : State) (a n : Nat) : List Byte := (List.range n).map (fun i => s.byte (a + i))

/-- Sections 5: tooth and cam tables, then contribution tables. -/
def wheelSection (s : State) : List Byte :=
  s.bytes 0x50000 0x900 ++ s.bytes 0x54000 0x900 ++ s.bytes 0x53800 0x60 ++ s.bytes 0x57800 0x60

/-- Section 6: of each model its header and word 0 of each of its cells, other words zero. -/
def modelSection (s : State) : List Byte :=
  (List.range 64).flatMap (fun c => (List.range 512).flatMap (fun k =>
    wordBytes (if k < 16 ∨ (k % 8 = 0) then s.word (0x60000 + 0x800 * c + 4 * k) else 0)))

/-- The configuration image of the configuration in force. -/
def configImage (s : State) : List Byte :=
  wordBytes (s.reg 4 &&& 3) ++ wordsBytes (regPairs s Fld.covered coveredAddrs) ++
  wordsBytes ((List.range 4).flatMap (tableSection s)) ++ s.bytes 0x40000 0x10000 ++ wheelSection s ++ modelSection s ++
  s.bytes 0x80000 0x20000

/-- The digest of an image. -/
def digestOf (image : List Byte) : Nat := sha8 image

/-- The factory configuration image. -/
def factoryImage : List Byte := configImage State.reset

/-- The committed configuration image (R563). -/
def committedImage (s : State) : List Byte := s.jrn.committed.getD factoryImage

/-- The configuration in force has changed: its digest is computed anew (R565). -/
def State.configChanged (s : State) : State := { s with glb := { s.glb with digestDue := true } }

/-- DIGEST_DONE (R565). -/
def digestDone (s : State) : State :=
  if s.glb.digestDue then { s with glb := { s.glb with digest := digestOf (configImage s), digestDue := false } } else s

/-! ### Slots -/

/-- Eight bytes of a number, lowest first. -/
def bytes8 (n : Nat) : List Byte := wordBytes (lo32 n) ++ wordBytes (hi32 n)
/-- The CHECK of the bytes before it: the first eight bytes of their SHA-256 in their order. -/
def checkBytes (l : List Byte) : List Byte := (bytes8 (sha8 l)).reverse

/-- The progress record in a slot (R566): eight words (log entry 12). -/
def progressWords (p : Progress) : List Word :=
  [p.role, p.unit, ofNat32 p.held, p.round, ofNat32 p.fseq, ofNat32 p.pseq, ofNat32 p.base, 0]

/-- The retained state section with a given progress record. -/
def retainedSection (s : State) (p : Progress) : List Byte :=
  wordsBytes (regPairs s Fld.excluded excludedAddrs) ++ s.bytes 0x51000 0x400 ++ s.bytes 0x55000 0x400 ++ s.bytes 0x60000 0x20000 ++
  wordsBytes (progressWords p)

/-- A body filled with zero bytes to a multiple of 16. -/
def padBody (l : List Byte) : List Byte := l ++ List.replicate ((16 - l.length % 16) % 16) 0

/-- The 64 header bytes (table *Journal slot*). -/
def slotHeader (seq len level reason digest dtime : Nat) : List Byte :=
  wordBytes 0x4A524E31 ++ wordBytes (ofNat32 seq) ++ wordBytes (ofNat32 len) ++
  [BitVec.ofNat 8 level, 1, BitVec.ofNat 8 reason, 0] ++ bytes8 digest ++ bytes8 dtime ++ List.replicate 32 0

/-- A whole slot. -/
def slotOf (seq level reason digest dtime : Nat) (body : List Byte) : List Byte :=
  let l := slotHeader seq body.length level reason digest dtime ++ body
  l ++ checkBytes l

/-- Header fields of a slot. -/
def slotLen (l : List Byte) : Nat := (hdrWord l 2).toNat
def slotLevel (l : List Byte) : Nat := fld (hdrWord l 3) 1 0
def slotBody (l : List Byte) : List Byte := (l.drop 64).take (slotLen l)

/-- MAGIC, FORMAT and LEN of a slot. -/
def slotFormatOk (l : List Byte) : Bool :=
  hdrWord l 0 == 0x4A524E31 && fld (hdrWord l 3) 15 8 == 1 && decide (slotLen l ≤ 786304) && slotLen l % 16 == 0

/-- CHECK of a slot matches. -/
def slotCheckOk (l : List Byte) : Bool := (l.drop (64 + slotLen l)).take 8 == checkBytes (l.take (64 + slotLen l))

/-- The part supports the slot's level (R605, R606). -/
def slotLevelOk (l : List Byte) : Bool := slotLevel l == 1 || slotLevel l == 2

/-- A slot is valid (R560). -/
def slotValid (l : List Byte) : Bool := slotFormatOk l && slotCheckOk l && slotLevelOk l

/-- Sequence a is newer than b (R560). -/
def seqNewer (a b : Nat) : Bool := let d := ((a : Int) - b).emod (2 ^ 32 : Int); decide (1 ≤ d ∧ d ≤ 2 ^ 31 - 1)

/-- The slot the restore selects: false A, true B. -/
def slotSelect (j : Journal) : Option Bool :=
  match slotValid j.slotA, slotValid j.slotB with
  | true, true => some (seqNewer (slotSeq j.slotB) (slotSeq j.slotA))
  | true, false => some false
  | false, true => some true
  | false, false => none

/-- The bytes of the selected slot; none on a blank part. -/
def Journal.selected (j : Journal) : List Byte := (j.sel.map j.slot).getD []

/-! ### Writing (R561 to R563) -/

/-- The slot bytes of a write that begins now. -/
def slotNow (s : State) (reason : Nat) : List Byte :=
  let img := committedImage s
  let p := progressNow s (((s.jrn.newest.map (·.pseq)).getD 0)) s.jrn.seq
  slotOf ((s.jrn.seq + 1) % 2 ^ 32) (s.rf 4 1 0) reason (digestOf img) s.dtime (padBody (img ++ retainedSection s p))

/-- An export stream defers journal writes (R610), and so does the write of an imported slot. -/
def State.journalHeld (s : State) : Bool := s.side.stream.isSome || s.side.imp == 2

/-- A journal write is wanted with a REASON: it begins now, or waits behind the one in progress (R562). -/
def journalRequest (s : State) (reason : Nat) : State :=
  { s with jrn := if s.jrn.writing.isSome ∨ s.journalHeld then { s.jrn with queued := some reason }
                  else { s.jrn with writing := some (slotNow s reason) } }

/-- A write that waits begins when nothing holds it. -/
def journalNext (s : State) : State :=
  match s.jrn.queued with
  | some r => if s.jrn.writing.isSome ∨ s.journalHeld then s
              else { s with jrn := { s.jrn with queued := none, writing := some (slotNow s r) } }
  | none => s

/-- The slot becomes complete and selected. -/
def Journal.store (j : Journal) (l : List Byte) : Journal :=
  let b := match j.sel with | some b => !b | none => false
  if b then { j with slotB := l, sel := some true, writing := none } else { j with slotA := l, sel := some false, writing := none }

/-- JOURNAL_WRITE_DONE (R561, R566). -/
def journalWriteDone (s : State) : State :=
  match s.jrn.writing with
  | some l =>
    let s := ({ s with jrn := s.jrn.store l }).cntSat 0x202C 31 16
    journalNext (progressWrite s (slotSeq l))
  | none => s

/-- The configuration in force becomes the committed one and a slot is written (R563). -/
def journalCommit (s : State) (reason : Nat) : State :=
  journalRequest { s with jrn := { s.jrn with committed := some (configImage s) } } reason

/-- SEQ of the slot that a request made now will write. -/
def nextSeq (s : State) : Nat := (s.jrn.seq + if s.jrn.writing.isSome then 2 else 1) % 2 ^ 32

/-! ### Restoring (R567 to R570) -/

/-- The selected fields of a register loaded from a word. -/
def loadFields (sel : Fld → Bool) (a : Nat) (old v : Word) : Word :=
  (regFields a).foldl (fun w f => if sel f then setFld w f.hi f.lo (fld v f.hi f.lo) else w) old

/-- Registers loaded from `n` pairs of offset and word. -/
def loadPairs (sel : Fld → Bool) : Nat → List Word → State → State
  | n + 1, a :: v :: t, s => loadPairs sel n t (s.setReg a.toNat (loadFields sel a.toNat (s.reg a.toNat) v))
  | _, _, s => s

/-- Lengths in words of the sections of an image and of a retained state section. -/
def lenPairs : Nat := 2 * coveredAddrs.length
def lenKept : Nat := 2 * excludedAddrs.length
def lenImage : Nat := 1 + lenPairs + 0x8000 + 0x4000 + 0x4B0 + 0x8000 + 0x8000

/-- A slot of an event table as loaded: WAIT or OFF, no running event. -/
def loadedSlot (w : List Word) : Slot := { set := normSet w, st := if slEn w then .wait else .off }

/-- Slots of one table from its words. -/
def loadSlots : Nat → Nat → List Word → Cells Slot
  | 0, _, _ => []
  | n + 1, i, l => let y := loadedSlot (l.take 8); if y = {} then loadSlots n (i + 1) (l.drop 8) else (i, y) :: loadSlots n (i + 1) (l.drop 8)

/-- The event table of role n in an image. -/
def imageTable (img : List Word) (n : Nat) : Cells Slot := loadSlots 1024 0 ((img.drop (1 + lenPairs + 0x2000 * n)).take 0x2000)

/-- BAR2 sections of an image. -/
def loadImageMem (s : State) (img : List Word) : State :=
  let l := img.drop (1 + lenPairs + 0x8000)
  let s := s.putWords 0x40000 (l.take 0x4000)
  let l := l.drop 0x4000
  let s := (((s.putWords 0x50000 (l.take 0x240)).putWords 0x54000 ((l.drop 0x240).take 0x240)).putWords 0x53800 ((l.drop 0x480).take 0x18)).putWords
    0x57800 ((l.drop 0x498).take 0x18)
  let l := l.drop 0x4B0
  (s.putWords 0x60000 (l.take 0x8000)).putWords 0x80000 ((l.drop 0x8000).take 0x8000)

/-- The model words that the image does not carry (R568 step 2). -/
def loadModels (s : State) (l : List Word) : State :=
  (List.range 0x8000).foldl (fun s i => if i % 512 < 16 ∨ i % 8 = 0 then s else s.putWords (0x60000 + 4 * i) [wordAt l i]) s

/-- The image, then the retained state, of a slot body (R568 step 2); the event tables follow once the roles are known. -/
def loadBody (s : State) (b : List Word) : State :=
  let s := loadImageMem (loadPairs Fld.covered coveredAddrs.length (b.drop 1) s) (b.take lenImage)
  let r := b.drop lenImage
  let s := loadPairs Fld.excluded excludedAddrs.length r s
  let r := r.drop lenKept
  loadModels ((s.putWords 0x51000 (r.take 0x100)).putWords 0x55000 ((r.drop 0x100).take 0x100)) (r.drop 0x200)

/-- The progress record of a slot body. -/
def bodyProgress (b : List Word) : Progress :=
  let r := b.drop (lenImage + lenKept + 0x200 + 0x8000)
  { role := wordAt r 0, unit := wordAt r 1, held := (wordAt r 2).toNat, round := wordAt r 3, fseq := (wordAt r 4).toNat,
    pseq := (wordAt r 5).toNat, base := (wordAt r 6).toNat }

/-- The progress record in use (R567): the newest copy whose BASE is the selected slot's SEQ, else the slot's. -/
def progressUsed (j : Journal) (b : List Word) : Option Progress :=
  match [j.copyA, j.copyB].filterMap (fun p => p.filter (fun p => p.base == j.seq)) with
  | [] => if j.sel.isSome then some (bodyProgress b) else none
  | [p] => some p
  | p :: q :: _ => some (if p.pseq < q.pseq then q else p)

/-- The registers that a progress record sets: roles, unit states, held role, RSEQ, LAST_END and FSEQ. -/
def applyProgress (s : State) (p : Progress) : State :=
  (((((s.setReg 0x3004 p.role).setReg 0x3008 p.unit).setRf 0x3000 14 12 p.held).setRf 0x3208 31 16 (fld p.round 31 16)).setRf
    0x3208 5 4 (fld p.round 5 4)).setRf 0x3020 15 0 p.fseq

/-- State of unit u set. -/
def setUnitState (s : State) (u st : Nat) : State := s.setRf 0x3008 (3 * u + 2) (3 * u) st

/-- The Round phase in a progress record, with its role. -/
def progressPhase (p : Progress) : Nat := fld p.round 2 1
def progressRole (p : Progress) : Nat := fld p.round 12 10

/-- The rules of R444 for a unit whose state no Round rule gives: FAILED, REVIVED and TESTING come back FAILED. -/
def unitRule (s : State) (u : Nat) : State := if unitState s u = 2 ∨ unitState s u = 3 ∨ unitState s u = 4 then setUnitState s u 2 else s

/-- The Round rule (R569). -/
def roundRule (s : State) (p : Progress) : State :=
  if progressPhase p = 2 then
    let n := progressRole p
    ((setUnitState (setUnitState s (roleUnit s n) 6) (roleUnit s 4) 0).setRf 0x3000 14 12 n).setRf 0x3208 5 4 2
  else if progressPhase p = 3 then setUnitState s (roleUnit s 4) 6
  else s

/-- Step 3 of the restore for the units. -/
def unitRules (s : State) (p : Progress) : State :=
  let r := roundRule s p
  (List.range 5).foldl (fun s u => if unitState r u = unitState s u then unitRule s u else setUnitState s u (unitState r u))
    { s with regs := rset (rset s.regs 0x3000 (r.reg 0x3000)) 0x3208 (r.reg 0x3208) }

/-- The serving rules of R618: owners, and the banks of a role without a unit in their safe state. -/
def servingRules (s : State) : State :=
  (List.range 16).foldl (fun s b =>
    let n := b / 4
    if mirrorBusy s ∧ heldRole s = n then s.setBank b { s.bank b with mirror := true }
    else if roleOut s n then bankToSafe s b false
    else s) s

/-- UNVERIFIED units begin their test as soon as the restore ends (R570): the test's role is the one the spare holds, when
the unit is that role's. -/
def beginUnverified (s : State) (u : Nat) : State :=
  if unitState s u = 6 then
    let role := if mirrorBusy s ∧ roleUnit s (heldRole s) = u then some (heldRole s) else none
    { s with wdn := { s.wdn with tests := cset (fun _ => none) s.wdn.tests u (some { step := 1, at_ := s.clk.now, role := role }) } }
  else s

/-- Event tables of an image given to the units that serve the roles. -/
def loadTables (s : State) (img : List Word) : State :=
  (List.range 4).foldl (fun s n => s.setUnit (servingUnit s n) { s.unit (servingUnit s n) with slots := imageTable img n }) s

/-- Channel c as its restored configuration leaves it. -/
def restoreChan (s : State) (c : Nat) : State :=
  if chEn s c then s.setCell c { s.cell c with pvalid := validProfiles s c, modelErr := !headerGood (s.header c) } else s

/-- Step 5: domains and channels as configured (R63, R195, R239). -/
def enableConfigured (s : State) : State :=
  let s := (List.range 2).foldl (fun s d => if domEn s d then mechEnable s d else s) s
  (List.range 64).foldl restoreChan s

/-- The spare begins its copies (R450): no role is COVERED. -/
def coverRestart (s : State) : State := { s with wdn := { s.wdn with refl := [], grid := s.clk.now } }

/-- Step 1: the slot is selected (R560). -/
def restoreSelect (s : State) : State := { s with jrn := { s.jrn with sel := slotSelect s.jrn } }

/-- Step 2: image and retained state loaded, or factory values with BLANK set (R558). -/
def restoreLoad (s : State) : State :=
  let slot := s.jrn.selected
  let body := slotBody slot
  if s.jrn.sel.isNone then { s with glb := { s.glb with cause := s.glb.cause ||| 1 } }
  else loadBody (({ s with jrn := { s.jrn with committed := some (body.take (4 * lenImage)) } }).setRf 4 1 0 (slotLevel slot)) (leWords body)

/-- Step 3: progress record, unit rules, event tables of the serving units, serving rules. -/
def restoreUnits (s : State) : State :=
  let b := leWords (slotBody s.jrn.selected)
  let s := match progressUsed s.jrn b with
    | some p => unitRules (applyProgress s p) p
    | none => s
  servingRules (if s.jrn.sel.isNone then s else loadTables s (b.take lenImage))

/-- Step 4: the digest. -/
def restoreDigest (s : State) : State := { s with glb := { s.glb with digest := digestOf (configImage s), digestDue := false } }

/-- Step 5; a domain whose tables fail its checks changes the configuration. -/
def restoreEnable (s : State) : State :=
  let s' := enableConfigured s
  if decide (s'.regs = s.regs) then s' else s'.configChanged

/-- The journal restore of a device just reset (R568, R570). -/
def restore (s : State) : State :=
  let s := restoreEnable (restoreDigest (restoreUnits (restoreLoad (restoreSelect s))))
  coverRestart ((List.range 5).foldl beginUnverified (s.setRf 0x2004 9 9 1))

/-! ### Views -/

/-- The journal registers of PWR as read. -/
def journalView (s : State) (o : Nat) : Option Word :=
  let j := s.jrn
  let dg := digestOf (committedImage s)
  if o = 0x2C then
    some (packWord [(s.rf 0x202C 31 16, 16), (b2n j.queued.isSome, 3), (b2n j.writing.isSome, 2), (b2n (j.sel.getD false), 1),
                    (match j.sel with | some b => b2n (slotValid (j.slot (!b))) | none => 0, 0)])
  else if o = 0x30 then some (ofNat32 j.seq)
  else if o = 0x34 then some (lo32 dg)
  else if o = 0x38 then some (hi32 dg)
  else none

end Sys2Proof.Machine
end

