-- ==== Sys2Proof/Machine/Plan.lean ====
section
/-!
DEFINITION. Ageing monitors, the margin plan, the clock step, guard bands and modes (Ageing, Margins and the Round, R475 to
R487; Architecture, R36 to R39).
-/
namespace Sys2Proof.Machine

/-! ### Monitors -/

def noAge : Nat → AgeUnit := fun _ => {}
def State.ageUnit (s : State) (u : Nat) : AgeUnit := cget noAge s.plan.units u
def State.setAgeUnit (s : State) (u : Nat) (x : AgeUnit) : State := { s with plan := { s.plan with units := cset noAge s.plan.units u x } }

/-- AGE of one ring-oscillator sensor in ppm (R476). -/
def roAge (now fac : Nat) : Nat := if fac = 0 then 0 else (fac - now) * 1000000 / fac

def maxNat (l : List Nat) : Nat := l.foldl max 0

/-- The highest temperature since the last history entry. -/
def Plan.noteTemp (p : Plan) (t : Int) : Plan := { p with tmax := some (match p.tmax with | some m => max m t | none => t) }

/-- The delay readings of a sample, when it has any: eight path-margin monitors. -/
def AgeUnit.takeDelay (x : AgeUnit) (now period : Nat) (l : List Nat) : AgeUnit :=
  if l = [] then x else { x with reads := (now, maxNat l) :: x.reads.filter (fun p => decide (now ≤ p.1 + period)) }

/-- The ring-oscillator readings: four frequencies, then their four factory frequencies. -/
def AgeUnit.takeRo (x : AgeUnit) (l : List Nat) : AgeUnit :=
  if l.length < 8 then x else { x with age := maxNat ((List.range 4).map (fun i => roAge (l.getD i 0) (l.getD (4 + i) 0))) }

/-- MONITOR_SAMPLE (R475, R476): readings in the order of log entry 15; those that a sample lacks leave their values. -/
def monitorSample (s : State) (u : Nat) (r : List Nat) : State :=
  let x := ((s.ageUnit u).takeDelay s.clk.now (planPeriod s) (r.take 8)).takeRo ((r.drop 8).take 8)
  let s := match (r.drop 16).head? with
    | some t => { (s.setAgeUnit u { x with temp := sext 16 t, tempAt := some s.clk.now }) with
                  plan := ((s.setAgeUnit u { x with temp := sext 16 t, tempAt := some s.clk.now }).plan).noteTemp (sext 16 t) }
    | none => s.setAgeUnit u x
  match (r.drop 17).head? with
  | some t => { s with plan := { (s.plan.noteTemp (sext 16 t)) with temp5 := sext 16 t, temp5At := some s.clk.now } }
  | none => s

/-- D_u: the largest reading over the last plan period (R475); the one in force when there is none. -/
def AgeUnit.delayNow (x : AgeUnit) (now period : Nat) : Nat :=
  let l := (x.reads.filter (fun p => decide (now ≤ p.1 + period))).map (·.2)
  if l = [] then x.delay else maxNat l

/-- D_pred_u in ps (R475). -/
def dPred (s : State) (u : Nat) : Int :=
  let x := s.ageUnit u
  let t := x.temp.tdiv 4
  (x.delay : Int) + (if 125 ≤ t then 0 else ((125 - t) * (s.rf 0x3104 31 24 : Nat)).tdiv 10)

/-- A unit in service: SERVING, SPARE or LENT (R480). -/
def inService (s : State) (u : Nat) : Bool := unitState s u == 0 || unitState s u == 1 || unitState s u == 7

/-- The units in service. -/
def unitsInService (s : State) : List Nat := (List.range 5).filter (inService s)

/-- The largest predicted delay and its unit. -/
def worstPred (s : State) : Int × Nat :=
  (unitsInService s).foldl (fun (a : Int × Nat) u => if a.1 < dPred s u then (dPred s u, u) else a) (0, 0)

/-- Period used of an FCLK step in ps, and its capacity (table *FCLK steps*). -/
def stepPeriod : Nat → Int
  | 0 => 2500 | 1 => 2631 | 2 => 2777 | _ => 2941
def stepCapacity : Nat → Nat
  | 0 => 64 | 1 => 60 | 2 => 57 | _ => 54

/-- The slack S at a step (R480). -/
def slack (s : State) (i : Nat) : Int := stepPeriod i - (worstPred s).1

/-- REF_DRIFT (R478): the truncated mean over the checks gathered. -/
def refDrift (s : State) : Int :=
  if s.ref.ons = [] then 0 else ((s.ref.ons.map (fun (c : Nat) => (c : Int) - 2048)).foldl (· + ·) 0).tdiv s.ref.ons.length

/-- WDN_GD_WEAK: mean above the factory value by more than GD_LIM % (R477). -/
def gdWeak (s : State) (c : Nat) : Bool :=
  decide (Config.gateFac c * (100 + s.rf 0x311C 23 16) < Config.gateMean s.plan.evals c * 100)

/-- WDN_PT_AGED of a channel (R477). -/
def ptAged (s : State) (c : Nat) : Bool :=
  (List.range 8).any (fun i => (List.range 4).any (fun j =>
    decide (mhMinSamples (s.header c) ≤ fld (cellWord s c i j 2) 15 0) &&
    decide (fld (cellWord s c i j 0) 15 0 * (100 + s.rf 0x311C 31 24) < fld (cellWord s c i j 1) 15 0 * 100)))

/-- A word with one bit for each of 32 channels from `base`. -/
def chanBits (f : Nat → Bool) (base : Nat) : Word := packWord ((List.range 32).map (fun i => (b2n (f (base + i)), i)))

/-! ### Modes (R37 to R39) -/

def reqPower (s : State) : Bool := s.rb 8 12
def reqMargin (s : State) : Nat := s.rf 8 9 8
def reqTrack (s : State) : Bool := s.rb 8 4
def reqReflect (s : State) : Nat := s.rf 8 1 0

/-- GLB_MODE_NOW.TRACK (R116): the requested setting once every enabled mechanical domain has it in force. -/
def trackInForce (s : State) : Bool :=
  if (List.range 2).all (fun d => !domEn s d || (trackNow s (s.dom d) == reqTrack s)) then reqTrack s else s.glb.agile

/-- GLB_MODE_NOW as read. -/
def modeNowWord (s : State) : Word :=
  packWord [(b2n s.glb.tempered, 12), (b2n s.glb.broad, 8), (b2n (trackInForce s), 4), (s.glb.reflect, 0)]

/-- REFLECT after a request that stood at `old` (R38): WARM at once, HOT once the four reflections are loaded; during a lend the Round
keeps LENT, and the reflections of a new HOT are still to load after it. -/
def reflectRequest (s : State) (old : Nat) : State :=
  if reqReflect s = 1 then
    { s with glb := { s.glb with reflect := if s.glb.reflect = 2 then 2 else 1 }, wdn := { s.wdn with hotLoad := [] } }
  else if old = 1 ∧ s.wdn.hotLoad = [] then { s with wdn := { s.wdn with hotLoad := [0, 1, 2, 3] } }
  else s

/-- A new request in GLB_MODE. -/
def modeRequest (s : State) (v : Word) : State :=
  let was := trackInForce s
  let t := s.setReg 8 (plainWrite 8 (s.reg 8) v)
  reflNotice (reflectRequest { t with glb := { t.glb with agile := was } } (reqReflect s)) (reflWords s)

/-! ### The margin plan -/

/-- D_u of every unit for this evaluation. -/
def takeDelays (s : State) : State :=
  (List.range 5).foldl (fun s u => s.setAgeUnit u { s.ageUnit u with delay := (s.ageUnit u).delayNow s.clk.now (planPeriod s) }) s

def planGuard (s : State) : Int := s.rf 0x3104 9 0
def planHyst (s : State) : Int := s.rf 0x3104 19 10

/-- The fastest step that meets GUARD; none when none does (R480). -/
def leanWanted (s : State) : Option Nat := (List.range 4).find? (fun i => decide (planGuard s ≤ slack s i))

/-- The runs of evaluations that met GUARD + HYST, by step. -/
def upRunsNext (s : State) : List Nat :=
  (List.range 4).map (fun i => if planGuard s + planHyst s ≤ slack s i then min 15 (s.plan.upRuns.getD i 0 + 1) else 0)

/-- The LEAN step in force after an evaluation (R481). -/
def leanNext (s : State) (runs : List Nat) : Nat :=
  let w := (leanWanted s).getD 3
  let l := s.plan.lean
  if l < w then w
  else if 0 < l ∧ w < l ∧ s.rf 0x3104 23 20 ≤ runs.getD (l - 1) 0 then l - 1
  else l

/-- A condition under which AUTO selects BROAD (R482). -/
def autoCondition (s : State) : Bool :=
  (unitsInService s).any (fun u => decide (s.rf 0x310C 31 16 ≤ (s.ageUnit u).age)) ||
  decide (slack s s.plan.lean < 2 * planGuard s) ||
  (List.range 5).any (fun u => (s.ageUnit u).tempAt.isSome && decide (4 * (s.rf 0x3108 15 8 : Int) ≤ (s.ageUnit u).temp)) ||
  (s.plan.temp5At.isSome && decide (4 * (s.rf 0x3108 15 8 : Int) ≤ s.plan.temp5))

/-- The MARGIN in force: BROAD or not (R482). -/
def broadNext (s : State) : Bool := reqMargin s == 1 || (reqMargin s == 2 && s.plan.autoBroad)

/-- The step that the modes in force call for (R482). -/
def stepWanted (s : State) : Nat := if s.glb.tempered then 3 else if s.glb.broad then min 3 (s.plan.lean + 1) else s.plan.lean

/-- The modes in force at a reset are the requested ones, and the FCLK step is theirs (R37). -/
def modesAtReset (s : State) : State :=
  let t := { s with glb := { s.glb with reflect := reqReflect s, agile := reqTrack s, tempered := reqPower s, broad := reqMargin s == 1 } }
  { t with clk := { t.clk with step := stepWanted t } }

/-- The clock follows: a slower step is published at once, a faster one once the PLL has slewed (R483). -/
def stepMove (s : State) : State :=
  let w := stepWanted s
  if s.clk.step < w then { s with clk := { s.clk with step := w }, plan := { s.plan with slew := none } }
  else if w < s.clk.step then { s with plan := { s.plan with slew := some w } }
  else { s with plan := { s.plan with slew := none } }

/-- The widening of LO and HI of D0 and D1 at a publication (R485). -/
def widenNow (s : State) (d : Nat) : Nat × Nat :=
  if s.glb.broad ∨ s.rf 0x3110 31 16 < s.rf (A.perr d) 15 0 then (s.rf 0x3110 7 0, s.rf 0x3110 15 8) else (0, 0)

/-- OG_b in 0.1 µs (R486): the longest boost period of the last plan period, its recovery, and the guard. -/
def overlapGuard (s : State) (b : Nat) : Nat :=
  let l := (s.bank b).ov.boosts.filter (fun p => decide (s.clk.now ≤ p.1 + planPeriod s))
  let best := l.foldl (fun (a : Nat × Nat) p => if a.1 < p.2.1 then p.2 else a) (0, 0)
  (best.1 + best.2) / 40 + 10 * (if s.glb.broad then s.rf 0x3114 23 16 else s.rf 0x3114 31 24)

/-- CLOSE of bank b. -/
def closeStarts (s : State) (b : Nat) : Bool :=
  ((s.bank b).ov.gaps.filter (fun g => decide (s.clk.now ≤ g.1 + planPeriod s))).any (fun g => decide (g.2 < 40 * overlapGuard s b))

/-- G_c in 0.1 µs (R487). -/
def chanGuard (s : State) (c : Nat) : Nat :=
  (match (s.cell c).src with | 0 => s.rf 0x3118 11 2 | 1 => s.rf 0x3118 21 12 | _ => s.rf 0x3118 31 22) +
  (if s.glb.broad then s.rf 0x3118 11 2 else 0)

/-- The plan area (table *Plan area*). -/
def planArea (s : State) : List Word :=
  ((List.range 16).map (fun b => packWord [(b2n (closeStarts s b), 16), (min 65535 (overlapGuard s b), 0)])) ++
  ((List.range 64).map (fun c => packWord [((s.cell c).src, 16), (min 65535 (chanGuard s c), 0)]))

/-- WDN_PLAN without PLAN_SEQ. -/
def planWord (s : State) : Word :=
  packWord [(b2n (decide (slack s 3 < 0)), 5), (b2n (leanWanted s).isNone, 4), (b2n s.glb.broad, 2), (s.plan.lean, 0)]

/-- LO_NOW and HI_NOW of a domain as a telemetry word. -/
def plausWord (s : State) (d : Nat) : Word :=
  packWord [((widened s d (widenNow s d)).2, 16), ((widened s d (widenNow s d)).1, 0)]

/-- The items of the plan (log entry 16). -/
def planItems (s : State) : List Word :=
  [planWord s, ofNat32 (stepWanted s), packWord [(b2n s.glb.tempered, 0)], plausWord s 0, plausWord s 1] ++ planArea s

def oozeCount (s : State) : Nat := ((List.range 64).filter (fun c => (s.cell c).ooe)).length

/-- Words 8 to 14 of the margin plan value. -/
def planValue (s : State) : List Word :=
  [packWord [(s.rf 0x3100 31 16, 16), (stepCapacity s.clk.step, 8), (b2n (decide (slack s 3 < 0)), 6), (b2n (leanWanted s).isNone, 5),
             (b2n s.glb.tempered, 4), (b2n s.glb.broad, 2), (s.clk.step, 0)],
   packWord [((worstPred s).2, 16), (min 65535 (worstPred s).1.toNat, 0)], ofInt32 (slack s s.clk.step), plausWord s 0, plausWord s 1,
   packWord ((List.range 16).map (fun b => (b2n (closeStarts s b), b))),
   packWord [(min 65535 (maxNat ((List.range 64).map (chanGuard s))), 16), (oozeCount s, 0)]]

/-- The AGEING telemetry of one evaluation. -/
def ageingTlm (s : State) : State :=
  let s := (List.range 5).foldl (fun s u =>
    if unitState s u = 5 then s
    else tlmCapture s 0x23 u 0 [ofNat32 (s.ageUnit u).delay, ofInt32 (dPred s u), ofNat32 (s.ageUnit u).age, ofInt32 (s.ageUnit u).temp]) s
  tlmCapture s 0x23 5 0 [s.reg 0x3190, s.reg 0x3194, s.reg 0x3198, s.reg 0x319C, ofInt32 (refDrift s), ofInt32 s.plan.temp5]

/-- The publication of an evaluation (R479): WDN_PLAN, the windows in force, the plan area, PLAN_SEQ and MARGIN on a change. -/
def planPublish (s : State) : State :=
  let items := planItems s
  let changed := decide (items ≠ s.plan.last)
  let seq := s.rf 0x3100 31 16 + b2n changed
  let s := s.setReg 0x3100 (setFld (planWord s) 31 16 seq)
  let s := { s with plan := { s.plan with widen := (List.range 2).map (widenNow s) } }
  let s := (s.putWords 0xA1000 (planArea s))
  let s := { s with plan := { s.plan with last := items } }
  let s := ageingTlm (tlmCapture s 0x22 0 0 (planValue s))
  if changed then s.arrive 4 else s

/-- The LEAN step and the runs of evaluations that a step up needs (R481). -/
def planLean (s : State) : State :=
  { s with plan := { s.plan with lean := leanNext s (upRunsNext s), upRuns := upRunsNext s, evals := s.plan.evals + 1 } }

/-- The channels that the plan names (R477, R478). -/
def planChannels (s : State) : State :=
  (((s.setReg 0x3190 (chanBits (gdWeak s) 0)).setReg 0x3194 (chanBits (gdWeak s) 32)).setReg 0x3198 (chanBits (ptAged s) 0)).setReg
    0x319C (chanBits (ptAged s) 32)

/-- Whether AUTO selects BROAD (R482). -/
def planAuto (s : State) : State :=
  { s with plan := { s.plan with autoBroad := reqMargin s == 2 && (s.plan.autoBroad || autoCondition s) } }

/-- The modes the plan puts in force. -/
def planModes (s : State) : State := { s with glb := { s.glb with tempered := reqPower s, broad := broadNext s } }

/-- One evaluation of the plan (R479 to R487). -/
def planEvaluate (s : State) : State := planPublish (stepMove (planModes (planAuto (planChannels (planLean (takeDelays s))))))

/-- PLAN_EVALUATION: every PLAN_PERIOD ms. -/
def planEvaluation (s : State) : State :=
  if s.plan.nextAt ≤ s.clk.now ∧ ¬ wardenPaused s then
    planEvaluate { s with plan := { s.plan with nextAt := s.clk.now + planPeriod s } }
  else s

/-- FCLK_SLEW_DONE (R483): the faster step is published once the slew is complete. -/
def fclkSlewDone (s : State) : State :=
  match s.plan.slew with
  | some w => { s with clk := { s.clk with step := w }, plan := { s.plan with slew := none } }
  | none => s

/-- AUTO returns to LEAN at the end of a Round after which no condition holds (R482). -/
def autoRelease (s : State) : State := if autoCondition s then s else { s with plan := { s.plan with autoBroad := false } }

/-- S_3 in ps, for the test step MARGIN. -/
def slack3 (s : State) : Word := ofInt32 (slack s 3)

/-! ### Views -/

/-- AGE of a reading in ms. -/
def readAge (s : State) (t : Option Nat) : Nat := ageOf s.clk.now t 400000 65535

/-- The ageing registers as read. -/
def planView (s : State) (o : Nat) : Option Word :=
  if 0x120 ≤ o ∧ o < 0x138 ∧ o % 4 = 0 then
    let i := (o - 0x120) / 4
    if i = 5 then some (packWord [(readAge s s.plan.temp5At, 16), ((s.plan.temp5.emod 65536).toNat, 0)])
    else some (packWord [(readAge s (s.ageUnit i).tempAt, 16), (((s.ageUnit i).temp.emod 65536).toNat, 0)])
  else if 0x140 ≤ o ∧ o < 0x190 ∧ o % 16 = 0 then
    some (packWord [(min 65535 (dPred s ((o - 0x140) / 16)).toNat, 16), (min 65535 (s.ageUnit ((o - 0x140) / 16)).delay, 0)])
  else if 0x140 ≤ o ∧ o < 0x190 ∧ o % 16 = 4 then some (ofNat32 (s.ageUnit ((o - 0x140) / 16)).age)
  else if o = 0x1A0 then
    some (packWord [(b2n (decide (s.rf 0xD000 23 16 < (refDrift s).natAbs * 2)), 16), (((refDrift s).emod 65536).toNat, 0)])
  else none

end Sys2Proof.Machine
end

