-- ==== Sys2Proof/Machine/Warden.lean ====
section
/-!
DEFINITION. The Warden: fences, takeover, unit tests, the Round, reflection, the scrubber (Faults, Error Codes and
Reflection, R442 to R473; Ageing, Margins and the Round, R488 to R499; Service Life and Replacement, R601, R602).
-/
namespace Sys2Proof.Machine

/-! ### Units, epochs, tests -/

def State.setTakeover (s : State) (t : Option Takeover) : State := { s with wdn := { s.wdn with takeover := t } }
def State.setRound (s : State) (r : Round) : State := { s with round := r }
def setTest (s : State) (u : Nat) (x : Option UTest) : State := { s with wdn := { s.wdn with tests := cset (fun _ => none) s.wdn.tests u x } }

/-- The banks of role n. -/
def banksOf (n : Nat) : List Nat := (List.range 4).map (4 * n + ·)

/-- The epochs of role n's banks increment, wrapping at 65,536 (R446). -/
def epochsUp (s : State) (n : Nat) : State :=
  (banksOf n).foldl (fun s b => s.setBank b { s.bank b with epoch := ((s.bank b).epoch + 1) % 65536 }) s

/-- DRV_BANK_b_STATUS.OWNER of role n's banks. -/
def setOwner (s : State) (n : Nat) (mirror : Bool) : State := (banksOf n).foldl (fun s b => s.setBank b { s.bank b with mirror := mirror }) s

/-- The unit in the spare role. -/
def spareUnit (s : State) : Nat := roleUnit s 4
def setRoleUnit (s : State) (n u : Nat) : State := s.setRf 0x3004 (3 * n + 2) (3 * n) u
/-- No role is COVERED (R450). -/
def uncoverAll (s : State) : State := { s with wdn := { s.wdn with refl := [] } }

/-- Every role other than n has a serving unit. -/
def othersServed (s : State) (n : Nat) : Bool := (List.range 4).all (fun m => m == n || roleServed s m)

/-- R452, first row. -/
def takeoverOk (s : State) (n : Nat) : Bool :=
  unitState s (spareUnit s) == 1 && othersServed s n && (s.refl n).covered

/-- A unit's test begins (R460); `role` is the role it is tested for. -/
def startTest (s : State) (u : Nat) (role : Option Nat) : State :=
  setTest (setUnitState s u 4) u (some { step := 1, at_ := s.clk.now, role := role })

/-! ### Round records and the end of a Round -/

/-- Words of a Round record (table *Round record*). -/
def roundWords (s : State) (event step unit role fin dur : Nat) (detail : Word) : List Word :=
  [packWord [(event, 28), (step, 24), (unit, 21), (role, 18), (fin, 16), (s.rf 0x3208 31 16, 0)], ofNat32 dur, detail, lo32 s.dtime]

/-- A Round record: telemetry of KIND ROUND and source ROUND. -/
def roundRecord (s : State) (event step unit role fin dur : Nat) (detail : Word := 0) : State :=
  (tlmRecord s 0x24 none (roundWords s event step unit role fin dur detail)).arrive 5

/-- Words of an ageing history entry (table *Ageing history entry*). -/
def ageingWords (s : State) (fin : Nat) : List Word :=
  [packWord [(1, 28), (fin, 26), (s.rf 0x3208 31 16, 0)], ofNat32 s.plan.hseq, lo32 s.dtime, hi32 s.dtime,
   packWord [(s.clk.qual, 6), (b2n s.glb.broad, 4), (s.clk.step, 0)]] ++
  (List.range 5).map (fun u => packWord [(min 65535 (dPred s u).toNat, 16), (min 65535 (s.ageUnit u).age, 0)]) ++
  [packWord [(((s.plan.tmax.getD 0).emod 65536).toNat, 16), (((refDrift s).emod 65536).toNat, 0)],
   s.reg 0x3190, s.reg 0x3194, s.reg 0x3198, s.reg 0x319C,
   packWord [(s.plan.faults, 16), (oozeCount s, 8), ((List.range 5).foldl (fun a u => a + b2n (unitState s u == 5) * 2 ^ u) 0, 0)]]

/-- AGEING_HISTORY_APPEND (R601, R602): the entry of a Round end. -/
def ageingAppend (s : State) (fin : Nat) : State :=
  let s' := s.putWords (0x400000 + 64 * (s.plan.hseq % 16384)) (ageingWords s fin)
  { s' with plan := { s'.plan with hseq := s.plan.hseq + 1, faults := 0, tmax := none } }

/-- Ticks of ROUND_PERIOD hours. -/
def roundPeriod (s : State) : Nat := 3600000 * msTicks 1 * s.rf 0x3200 31 16

/-- The end of a Round: 0 COMPLETE, 1 FAILED, 2 ABORTED, 3 POSTPONED (R496, R601, R562). A lent REFLECT returns to the requested mode;
HOT waits for its first full reflection (R38). -/
def roundEnd (s : State) (fin : Nat) : State :=
  let r := s.round
  let s := (roundRecord s 5 0 r.unit r.role fin 0).setRf 0x3208 5 4 fin
  let s := { s with glb := { s.glb with reflect := if s.glb.reflect ≠ 2 then s.glb.reflect else if s.wdn.hotLoad ≠ [] then 1 else reqReflect s } }
  let s := ageingAppend (autoRelease s) fin
  journalRequest (s.setRound { nextDue := some (s.clk.now + roundPeriod s) }) 4

/-- The turn of role n begins (R489). -/
def roundTurn (s : State) (n : Nat) : State :=
  s.setRound { phase := 1, role := n, unit := roleUnit s n, turnAt := s.clk.now, waiting := true, nextDue := s.round.nextDue }

/-- A Round begins: RSEQ counts it (R488). -/
def roundBegin (s : State) : State := roundTurn (s.setRf 0x3208 31 16 (s.rf 0x3208 31 16 + 1)) 0

/-! ### Quiet points (R491) -/

/-- The role that a command is addressed to. -/
def cmdRole (ws : List Word) : Option Nat :=
  let op := fld (wordAt ws 0) 7 0
  if 0x10 ≤ op ∧ op ≤ 0x14 then some (fld (wordAt ws 2) 12 10) else none

/-- Commands of role n waiting at the rings (EVS_ARB_STATUS.HELD while the role is fenced, R456). -/
def heldFor (s : State) (n : Nat) : Nat :=
  (s.hif.rings.flatMap (fun p => p.2.fetched.filter (fun c => cmdRole c.words == some n))).length

/-- Angle x of domain d is predicted to be passed within `w` ticks. -/
def soon (s : State) (d x w : Nat) : Bool :=
  syncOf s d == .cycle && decide (fdist (domL s d) (s.angleWord d) x * 65536 ≤ incOf s d * w)

/-- A slot has an arm point, START, END or END_ADV within `w` ticks. -/
def slotSoon (s : State) (w : Nat) (y : Slot) : Bool :=
  (slEn y.set && (soon s (slSdom y.set) (slArm s y.set) w || soon s (slSdom y.set) (slStart y.set) w)) ||
  (match y.shadow with | some x => slEn x && soon s (slSdom x) (slArm s x) w | none => false) ||
  (match y.running with | some r => r.endEn && (soon s r.edom r.ende w || soon s r.edom r.endAngle w) | none => false)

/-- A quiet point of role n. -/
def quietPoint (s : State) (n : Nat) : Bool :=
  heldFor s n == 0 && !(s.unit (servingUnit s n)).slots.any (fun p => slotSoon s (usTicks (10 * s.rf 0x3200 15 8)) p.2)

/-! ### Lend and hand-back (R489 to R495) -/

/-- The conditions of R489. -/
def lendOk (s : State) : Bool :=
  unitState s (spareUnit s) == 1 && (List.range 4).all (fun n => (s.refl n).covered) && s.wdn.takeover.isNone && !s.rb 0x3240 3 &&
  (List.range 5).all (fun u => unitState s u != 3 && unitState s u != 4)

/-- The search for a quiet point begins when nothing else is awaited, and lapses with the conditions. -/
def roundPoll (s : State) : State :=
  if s.round.phase = 1 then
    (if lendOk s && (reqReflect s == 0 || s.round.loaded) then
       (if s.round.search.isNone then s.setRound { s.round with search := some s.clk.now } else s)
     else s.setRound { s.round with search := none })
  else s

/-! ### The wrapper of every Warden action -/

/-- A Warden action: the Round's search, the progress record, the REFLECTION capture, and a journal slot for a change of
unit states that is not the Round's own (R562, R566). -/
def wardenAct (byRound : Bool) (f : State → State) (s : State) : State :=
  let s' := roundPoll (f s)
  let s' := if s'.reg 0x3008 ≠ s.reg 0x3008 ∧ ¬ byRound then journalRequest s' 3 else s'
  reflNotice (progressNote s') (reflWords s)

/-- A checkpoint as it is written now: published angles and sync states of the four domains. -/
def checkpointNow (s : State) (r : Refl) : Refl :=
  { r with angles := (List.range 4).map (fun d => s.angle d), syncs := (List.range 4).map (syncOf s), at_ := some s.clk.now, left := [] }

/-- The spare's table takes slots and start unit occupancy. -/
def loadSpare (s : State) (slots : Cells Slot) (busy : List Nat) : State :=
  let v := spareUnit s
  s.setUnit v { s.unit v with slots := slots, busy := busy, queue := [] }

/-- A lend of the role in turn (R492): the spare's first evaluation follows as at a takeover. -/
def lend (s : State) : State :=
  let n := s.round.role
  let u := roleUnit s n
  let t : Takeover := { role := n, unit := u, at_ := s.clk.now, step := 4, lend := true, warm := false, slots := (s.unit u).slots,
                        busy := (s.unit u).busy, ckpt := checkpointNow s (s.refl n) }
  let s := setOwner (epochsUp (loadSpare s t.slots t.busy) n) n true
  let s := startTest (setUnitState (s.setRf 0x3000 14 12 n) (spareUnit s) 7) u (some n)
  let s := (s.setTakeover (some t)).setRefl n {}
  { s with glb := { s.glb with reflect := 2 },
           round := { s.round with phase := 2, unit := u, search := none, waiting := false, lendAt := s.clk.now } }

/-- The role returns to unit n in step with the spare (R495). -/
def giveBack (s : State) (n : Nat) : State :=
  let u := roleUnit s n
  let v := spareUnit s
  let s := setOwner (epochsUp s n) n false
  let x := s.unit v
  let s := s.setUnit u { s.unit u with slots := x.slots, busy := x.busy, queue := x.queue, epoch := (s.bank (4 * n)).epoch, beatAt := s.clk.now }
  let s := s.setUnit v { s.unit v with slots := [], busy := [], queue := [], beatAt := s.clk.now }
  let s := setTest (setUnitState (setUnitState s u 0) v 1) u none
  (s.setTakeover none).setRefl n {}

/-- A hand-back with its record. -/
def handBackRecord (s : State) (n : Nat) : State := roundRecord (giveBack s n) 3 0 (roleUnit s n) n 0 0

/-- After a hand-back in a Round: the next role's turn, the spare's own test after role 3, or the end of an aborted Round. -/
def afterHandBack (s : State) : State :=
  if s.round.aborting then roundEnd s 2
  else if s.round.role < 3 then roundTurn s (s.round.role + 1)
  else
    let v := spareUnit s
    uncoverAll ((startTest s v none).setRound { s.round with phase := 3, role := 4, unit := v, search := none, waiting := false })

/-- The role whose tested unit waits for its hand-back, in a Round or after a restore (R495, R570). -/
def handBackRole (s : State) : Option Nat :=
  if mirrorBusy s then
    (match unitTest s (roleUnit s (heldRole s)) with
     | some x => if x.step = 7 ∧ x.role = some (heldRole s) then some (heldRole s) else none
     | none => none)
  else none

/-- The hand-back that waits takes place. -/
def handBackNow (s : State) (n : Nat) : State :=
  let s' := handBackRecord s n
  if s.round.phase = 2 then afterHandBack s' else uncoverAll (s'.setRound { s'.round with search := none })

/-- ROUND_LEND. -/
def roundLend (s : State) : State := if s.round.phase = 1 ∧ s.round.search.isSome ∧ lendOk s ∧ quietPoint s s.round.role then lend s else s

/-- ROUND_HAND_BACK. -/
def roundHandBack (s : State) : State :=
  match handBackRole s with
  | some n => if quietPoint s n then handBackNow s n else s
  | none => s

/-- QUIET_WAIT ms have passed since the search began. -/
def quietWaited (s : State) : Bool :=
  match s.round.search with
  | some k => decide (k + msTicks (s.rf 0x3204 15 0) ≤ s.clk.now)
  | none => false

/-- QUIET_WAIT_EXPIRY (R491). -/
def quietWaitExpiry (s : State) : State :=
  if quietWaited s then
    (match handBackRole s with
     | some n => handBackNow s n
     | none => if s.round.phase = 1 ∧ lendOk s then lend s else s)
  else s

/-- SPARE_LOAD_DONE (R490). -/
def spareLoadDone (s : State) : State :=
  if s.round.phase = 1 ∧ reqReflect s = 1 ∧ lendOk s then s.setRound { s.round with loaded := true } else s

/-- ROUND_DUE (R488, R571). -/
def roundDue (s : State) : State :=
  let reached := match s.round.nextDue with | some k => s.rb 0x3200 0 && decide (k ≤ s.clk.now) | none => false
  if (reached || s.round.due) ∧ s.round.phase = 0 ∧ ¬ s.glb.safeHold ∧ ¬ wardenPaused s then roundBegin s else s

/-- ROUND_POSTPONED (R489): 60 s without the conditions. -/
def roundPostponed (s : State) : State :=
  if s.round.phase = 1 ∧ ¬ lendOk s ∧ s.round.turnAt + msTicks 60000 ≤ s.clk.now then roundEnd s 3 else s

/-- ROUND_START: CSTAT and state. -/
def roundStart (s : State) : Nat × State :=
  if s.round.phase ≠ 0 then (1, s)
  else if s.glb.safeHold then (0, s.setRound { s.round with due := true })
  else (0, wardenAct true roundBegin s)

/-- ROUND_ABORT (R499). -/
def roundAbort (s : State) : Nat × State :=
  match s.round.phase with
  | 0 => (1, s)
  | 1 => (0, wardenAct true (fun s => roundEnd s 2) s)
  | _ => (0, s.setRound { s.round with aborting := true })

/-- The Round's due time starts with the first ARM after a reset (R488). -/
def roundArmed (s : State) : State :=
  if s.round.nextDue.isNone then s.setRound { s.round with nextDue := some (s.clk.now + roundPeriod s) } else s

/-! ### Fences (R445 to R447, R452, R498) -/

/-- Role n is left without a serving unit (R452). -/
def uncover (s : State) (n u : Nat) : State :=
  (banksOf n).foldl (fun s b => bankSafe s b 0x19) (regionFaultRecord s n u 0x19)

/-- The unit is fenced off role n's banks and becomes FAILED (R446). -/
def fenceOff (s : State) (n role u code : Nat) (d0 d1 : Word) : State :=
  let s := setUnitState (epochsUp s n) u 2
  regionFaultRecord { s with wdn := { s.wdn with tests := cset (fun _ => none) s.wdn.tests u none } } role u code d0 d1

/-- A takeover of role n begins to be counted (R453). -/
def takeoverFrom (s : State) (n u : Nat) (warm : Bool) : State :=
  (s.setTakeover (some { role := n, unit := u, at_ := s.clk.now, step := 0, lend := false, warm := warm, slots := (s.unit u).slots,
                         busy := (s.unit u).busy, ckpt := s.refl n })).setRefl n {}

/-- The result of a fence of the unit of role n while no lend is in force (table *Result of a fence*). -/
def fenceResult (s : State) (n u : Nat) (warm : Bool) : State :=
  let sp := unitState s (spareUnit s)
  if ¬ othersServed s n ∨ sp = 0 then chipFatal s 0x33
  else if sp = 1 ∧ (s.refl n).covered then takeoverFrom s n u warm
  else uncover s n u

/-- A fence of the unit of role m while role n is lent: role n is handed back at once, and the spare takes role m over (R498). -/
def fenceDuringLend (s : State) (m u : Nat) : State :=
  fenceResult (roundEnd (handBackRecord s (heldRole s)) 2) m u true

/-- A fence of a unit that serves role n. -/
def fenceServing (s : State) (n u code : Nat) (d0 d1 : Word) : State :=
  let ph := s.round.phase
  let s := fenceOff s n n u code d0 d1
  if unitState s (spareUnit s) = 7 then fenceDuringLend s n u
  else
    let s := fenceResult s n u (s.glb.reflect != 0)
    if ph = 3 then roundEnd s 2 else s

/-- A fence of the unit in the spare role. -/
def fenceSpare (s : State) (u code : Nat) (d0 d1 : Word) : State :=
  let n := heldRole s
  match unitState s u with
  | 1 =>
    let s := startTest (uncoverAll (regionFaultRecord (setUnitState s u 2) 4 u code d0 d1)) u none
    (match s.wdn.takeover with
     | some t => uncover (s.setTakeover none) t.role t.unit
     | none => s)
  | 7 =>
    let step := ((unitTest s (roleUnit s n)).map UTest.step).getD 0
    if step < 6 then chipFatal (uncoverAll (fenceOff s n 4 u code d0 d1)) 0x33
    else
      let s := handBackRecord s n
      roundEnd (uncoverAll (regionFaultRecord (setUnitState s u 2) 4 u code d0 d1)) 2
  | _ =>
    let s := setOwner (uncoverAll (fenceOff s n 4 u code d0 d1)) n false
    if othersServed s n then startTest (uncover s n u) u none else chipFatal s 0x33

/-- A unit is fenced at a detection (R445): only a unit that serves a role. -/
def fence (s : State) (u code : Nat) (d0 d1 : Word := 0) : State :=
  if s.glb.chipSafe then s
  else if unitRole s u = 4 then
    (if unitState s u = 0 ∨ unitState s u = 1 ∨ unitState s u = 7 then fenceSpare s u code d0 d1 else s)
  else if unitState s u = 0 then fenceServing s (unitRole s u) u code d0 d1
  else s

/-! ### Takeover steps (R453 to R458) -/

def takeoverStep (s : State) (t : Takeover) (n : Nat) : State := s.setTakeover (some { t with step := n })

/-- TAKEOVER_BEGIN; a firmware restart holds it back (R502). -/
def takeoverBegin (s : State) : State :=
  match s.wdn.takeover with
  | some t => if t.step = 0 ∧ s.fw.restart.isNone then takeoverStep s t 1 else s
  | none => s

/-- SPARE_POWERED: in WARM only. -/
def sparePowered (s : State) : State :=
  match s.wdn.takeover with
  | some t => if t.step = 1 ∧ t.warm then takeoverStep s t 2 else s
  | none => s

/-- REFLECTION_VERIFIED. -/
def reflectionVerified (s : State) : State :=
  match s.wdn.takeover with
  | some t => if t.step = (if t.warm then 2 else 1) then takeoverStep s t 3 else s
  | none => s

/-- SLOTS_LOADED. -/
def slotsLoaded (s : State) : State :=
  match s.wdn.takeover with
  | some t => if t.step = 3 then takeoverStep (loadSpare s t.slots t.busy) t 4 else s
  | none => s

/-- The cell runs the start of a slot from region n (R454). -/
def cellRuns (s : State) (n slot : Nat) (r : Running) : Bool :=
  match (s.cell r.chan).run with
  | some x => x.cmd.slot == slot && x.cmd.region == n
  | none => false

/-- A slot whose running event the cell does not run. -/
def isStray (s : State) (n : Nat) (p : Nat × Slot) : Bool := match p.2.running with | some r => !cellRuns s n p.1 r | none => false

/-- RECONCILIATION (R454). -/
def reconcile (s : State) : State :=
  match s.wdn.takeover with
  | some t =>
    if t.step = 4 then
      let v := spareUnit s
      let l := (s.unit v).slots
      let keep := (l.map (fun p => if isStray s t.role p then (p.1, { p.2 with running := none }) else p)).filter (fun p => p.2 ≠ {})
      takeoverStep (s.setUnit v { s.unit v with slots := keep }) { t with reconciled := (l.filter (isStray s t.role)).length } 5
    else s
  | none => s

/-- The resume update of one domain from the last checkpoint (R455 step 2, R170): it has stayed in CYCLE since, apart from a stall it
returned from. -/
def resumeDomain (v : Nat) (ck : Refl) (s : State) (d : Nat) : State :=
  match ck.angles.getD d none, s.angle d with
  | some a, some b =>
    if (ck.syncs.getD d .quiet = .cycle ∨ ck.syncs.getD d .quiet = .stall) ∧ syncOf s d = .cycle ∧ ¬ ck.left.contains d ∧ a ≠ b ∧ ¬ s.glb.safeHold then
      let L := domL s d
      unitUpdate v { d := d, a := a, b := b, step := fdist L a b, reason := 4,
                     cyc := (cycleNo s d + (if passes L a b 0 then 2 ^ 32 - 1 else 0)) % 2 ^ 32 } (6 * (s.unit v).slots.length + 6) none s
    else s
  | _, _ => s

/-- The spare becomes the role's scheduler (R458). -/
def adoptRole (s : State) (t : Takeover) : State :=
  let v := spareUnit s
  let s := s.setUnit v { s.unit v with epoch := (s.bank (4 * t.role)).epoch, resumed := 0 }
  let s := setOwner ((if t.lend then s else setUnitState s v 0).setRf 0x3000 14 12 t.role) t.role true
  s.setTakeover none

/-- The missed sync changes, then the resume updates of D0 to D3 in order (R455, R148). -/
def catchUp (s : State) (t : Takeover) : State :=
  let v := spareUnit s
  let s := t.changes.foldl (fun s c => unitSync s v c.1 c.2.1 c.2.2) s
  (List.range 4).foldl (resumeDomain v t.ckpt) s

/-- The TAKEOVER record with its copies in WDN_TAKEOVER_LAST, and source MIRROR (log entry 18). -/
def takeoverRecord (s : State) (t : Takeover) (held : Nat) : State :=
  let v := spareUnit s
  let d0 := packWord [(min 65535 (s.unit v).resumed, 16), (min 65535 ((s.clk.now - t.at_) / 400), 0)]
  let d1 := packWord [(min 65535 t.reconciled, 16), (min 65535 held, 0)]
  (regionFaultRecord (uncoverAll ((s.setReg 0x3040 d0).setReg 0x3044 d1)) t.role v 0x18 d0 d1).arrive 3

/-- FIRST_EVALUATION (R455, R456, R458; the first evaluation of a lend, R492). -/
def firstEvaluation (s : State) : State :=
  match s.wdn.takeover with
  | some t =>
    if t.step = 5 then
      let held := heldFor s t.role
      let s := catchUp (adoptRole s t) t
      if t.lend then roundRecord s 1 0 t.unit t.role 0 ((s.clk.now - t.at_) / 400) else takeoverRecord s t held
    else s
  | none => s

/-! ### Tests of units (R459 to R462, R493 to R496, R570) -/

/-- A FAILED unit that speaks is REVIVED and its test starts at once (R459, R460). -/
def unitSpeaks (s : State) (u : Nat) : State :=
  if unitState s u = 2 then startTest (regionFaultRecord (setUnitState s u 3) (unitRole s u) u 0x1A) u none else s

/-- The event table of role n as the latest journal slot holds it (R462). -/
def journalTable (s : State) (n : Nat) : Cells Slot :=
  if s.jrn.sel.isNone then [] else imageTable (leWords (slotBody s.jrn.selected)) n

/-- A unit that passed takes role n, which has no serving unit (R462). -/
def takeEmptyRole (s : State) (u n : Nat) : State :=
  let f := roleUnit s n
  let was := unitRole s u
  let s := setRoleUnit (setRoleUnit s was f) n u
  let s := setOwner (epochsUp (setUnitState s u 0) n) n false
  let x := s.unit u
  let s := s.setUnit u { x with slots := journalTable s n, busy := [], queue := [], epoch := (s.bank (4 * n)).epoch, beatAt := s.clk.now }
  regionFaultRecord s n u 0x1B 2

/-- The roles swap: the spare's unit takes the role it holds and the tested unit becomes the spare (R461). -/
def swapRoles (s : State) (u : Nat) : State :=
  let n := heldRole s
  let v := spareUnit s
  let s := setOwner (setUnitState (setUnitState (setRoleUnit (setRoleUnit s n v) 4 u) v 0) u 1) n false
  let s := uncoverAll (s.setUnit u { s.unit u with slots := [], busy := [], queue := [], beatAt := s.clk.now })
  regionFaultRecord s 4 u 0x1B 1

/-- A tested unit in the spare role becomes the spare. -/
def becomeSpare (s : State) (u : Nat) : State :=
  let s := uncoverAll (setUnitState s u 1)
  s.setUnit u { s.unit u with slots := [], busy := [], queue := [], beatAt := s.clk.now }

/-- A unit passes its test outside a Round (R461, R462). -/
def testPassed (s : State) (u : Nat) : State :=
  let s := setTest s u none
  match (List.range 4).find? (fun n => !roleServed s n) with
  | some n => takeEmptyRole s u n
  | none =>
    if mirrorBusy s then swapRoles s u
    else regionFaultRecord (becomeSpare s u) 4 u 0x1B 0

/-- The last step of a unit without a role: in the Round's own test of the spare the Round ends (R496, R499). -/
def testComplete (s : State) (u : Nat) : State :=
  if s.round.phase = 3 then roundEnd (becomeSpare (setTest s u none) u) (if s.round.aborting then 2 else 0)
  else testPassed s u

/-- Unit u becomes RETIRED, and its AGEING telemetry UNDEFINED (R340, R494). -/
def retire (s : State) (u : Nat) : State := tlmUndef (setUnitState s u 5) 0x23 u 0

/-- A unit fails a step (R494): RETIRED; in a Round with a lent role the spare keeps the role as SERVING. -/
def testFails (s : State) (u : Nat) (x : UTest) : State :=
  let s := setTest (regionFaultRecord (retire s u) (unitRole s u) u 0x1C (ofNat32 x.step)) u none
  let s := if x.role.isSome ∧ unitState s (spareUnit s) = 7 then uncoverAll (setUnitState s (spareUnit s) 0) else s
  if s.round.phase ≠ 0 ∧ s.round.unit = u then roundEnd (roundRecord s 4 x.step u (x.role.getD 4) 0 ((s.clk.now - x.at_) / 400)) 1 else s

/-- The next step of a test; RELOAD copies role n's state from the spare into the unit. -/
def nextStep (s : State) (u : Nat) (x : UTest) : State :=
  let s := if x.step = 5 then s.setUnit u { s.unit u with slots := (s.unit (spareUnit s)).slots, busy := (s.unit (spareUnit s)).busy, queue := [] } else s
  let s := setTest s u (some { x with step := x.step + 1, at_ := s.clk.now })
  if x.step = 6 then s.setRound { s.round with search := some s.clk.now, waiting := decide (s.round.phase = 2) } else s

/-- A step of an aborted Round ends: the unit is reloaded and waits for its hand-back, or the spare's test ends (R499). -/
def abortStep (s : State) (u : Nat) (x : UTest) : State :=
  if x.role.isSome then (setTest s u (some { x with step := 7 })).setRound { s.round with search := some s.clk.now, waiting := true }
  else testComplete s u

/-- TEST_STEP_DONE (R493). -/
def testStepDone (s : State) (u : Nat) (pass : Bool) : State :=
  match unitTest s u with
  | some x =>
    if 7 ≤ x.step then s
    else if ¬ pass then testFails s u x
    else
      let inRound := s.round.phase != 0 && s.round.unit == u
      let s := if inRound then roundRecord s 2 x.step u (x.role.getD 4) 0 ((s.clk.now - x.at_) / 400) (if x.step = 4 then slack3 s else 0) else s
      if inRound ∧ s.round.aborting then abortStep s u x
      else if x.role.isNone ∧ x.step = 4 then testComplete s u
      else nextStep s u x
  | none => s

/-! ### Heartbeats -/

/-- Ticks of one heartbeat period. -/
def hbPeriod (s : State) : Nat := usTicks (s.rf 0x300C 7 0)

/-- Count missed intervals (EVS_HB.MISSED). -/
def SUnit.missed (x : SUnit) (n : Nat) : SUnit :=
  x.setCnt 0x100C (setFld (x.cntReg 0x100C) 31 16 (satAdd 65535 (fld (x.cntReg 0x100C) 31 16) n))

/-- HEARTBEAT. -/
def heartbeat (s : State) (u : Nat) : State :=
  let x := (s.unit u).countWrap 0x100C 15 0
  let s' := s.setUnit u { (x.missed ((s.clk.now - x.beatAt) / max 1 (hbPeriod s) - 1)) with beatAt := s.clk.now }
  unitSpeaks s' u

/-- HEARTBEAT_TIMEOUT (R445): HB_MISS periods without a heartbeat; heartbeat checking pauses during a firmware restart (R502). -/
def heartbeatTimeout (s : State) (u : Nat) : State :=
  if (unitState s u = 0 ∨ unitState s u = 1 ∨ unitState s u = 7) ∧ (s.unit u).beatAt + s.rf 0x300C 11 8 * hbPeriod s ≤ s.clk.now ∧
      s.fw.restart.isNone ∧ unitRole s u < 5 then
    fence (s.setUnit u ((s.unit u).missed (s.rf 0x300C 11 8))) u 0x11
  else s

/-! ### Reflection (R448 to R451) -/

/-- The spare receives items: it is SPARE or LENT. -/
def spareReflects (s : State) : Bool := unitState s (spareUnit s) == 1 || unitState s (spareUnit s) == 7

/-- Ticks between checkpoints. -/
def ckptPeriod (s : State) : Nat := usTicks (if s.glb.reflect = 0 then 1 else s.rf 0x300C 23 16)

/-- REFLECTION_CHECKPOINT: at the edges of the grid. -/
def reflectionCheckpoint (s : State) (u : Nat) : State :=
  let n := unitRole s u
  if n < 4 ∧ unitState s u = 0 ∧ spareReflects s ∧ (s.clk.now - s.wdn.grid) % ckptPeriod s = 0 then s.setRefl n (checkpointNow s (s.refl n)) else s

/-- The role that the spare copies: the lowest one that needs a copy (R450). -/
def copyNext (s : State) : Option Nat := (List.range 4).find? (fun n => unitState s (roleUnit s n) == 0 && !(s.refl n).covered)

/-- REFLECTION_COPY_DONE (R450); a load into the live scheduler for HOT counts the roles down (R38). -/
def reflectionCopyDone (s : State) (n : Nat) : State :=
  if ¬ spareReflects s then s
  else if copyNext s = some n then s.setRefl n { s.refl n with covered := true }
  else if s.wdn.hotLoad.head? = some n ∧ s.glb.reflect = 1 then
    let l := s.wdn.hotLoad.tail
    { s with wdn := { s.wdn with hotLoad := l }, glb := { s.glb with reflect := if l = [] then 0 else 1 } }
  else s

/-- The reflection of role n is lost to an uncorrectable error (R451). -/
def reflectionLost (s : State) (n : Nat) (a syn : Word) : State :=
  regionFaultRecord (s.setRefl n { s.refl n with covered := false }) 4 (spareUnit s) 0x1D a syn

/-! ### The (144,128) code and the scrubber (R468 to R472) -/

/-- DMASK_k and AMASK_k of the check bits. -/
def eccD : Nat → BitVec 128
  | 0 => 0x00000000000000001111111111111111
  | 1 => 0x00000000000000002222222222222222
  | 2 => 0x00000000000000004444444444444444
  | 3 => 0x00000000000000008888888888888888
  | 4 => 0x000F000F000F000F000F000F000F000F
  | 5 => 0x00F000F000F000F000F000F000F000F0
  | 6 => 0x0F000F000F000F000F000F000F000F00
  | 7 => 0xF000F000F000F000F000F000F000F000
  | 8 => 0x000000000000FFFF000000000000FFFF
  | 9 => 0x00000000FFFF000000000000FFFF0000
  | 10 => 0x0000FFFF000000000000FFFF00000000
  | 11 => 0xFFFF000000000000FFFF000000000000
  | 12 => 0x11111111111111110000000000000000
  | 13 => 0x22222222222222220000000000000000
  | 14 => 0x44444444444444440000000000000000
  | _ => 0x88888888888888880000000000000000

def eccA : Nat → Word
  | 0 => 0x01010101 | 1 => 0x02020202 | 2 => 0x04040404 | 3 => 0x08080808
  | 4 => 0x10101010 | 5 => 0x20202020 | 6 => 0x40404040 | 7 => 0x80808080
  | 8 => 0x20408001 | 9 => 0x40800102 | 10 => 0x80010204 | 11 => 0x01020408
  | 12 => 0x02040810 | 13 => 0x04081020 | 14 => 0x08102040 | _ => 0x10204080

/-- Parity of the set bits of a number, of its lowest `n` bits. -/
def parity (n v : Nat) : Bool := (List.range n).foldl (fun p i => xor p (v.testBit i)) false

/-- Check bit k of a data word at an address (R468). -/
def eccBit (k : Nat) (data : BitVec 128) (addr : Word) : Bool :=
  xor (parity 128 (data &&& eccD k).toNat) (parity 32 (addr &&& eccA k).toNat)

/-- The 16 check bits of a data word at an address. -/
def eccCheck (data : BitVec 128) (addr : Word) : Nat := (List.range 16).foldl (fun a k => a + b2n (eccBit k data addr) * 2 ^ k) 0

/-- The syndrome of an error pattern over a codeword read at its own address: the code is linear (R469). -/
def syndrome (err : BitVec 144) : Nat := Nat.xor (eccCheck (err.truncate 128) 0) ((err >>> 128).toNat)

/-- The column of codeword bit i: of a data bit, the check bits it sets; of a check bit, itself. -/
def eccColumn (i : Nat) : Nat := if i < 128 then (List.range 16).foldl (fun a k => a + b2n ((eccD k).getLsbD i) * 2 ^ k) 0 else 2 ^ (i - 128)

/-- What a syndrome means (table *Syndrome decoding*). -/
inductive EccResult where
  | good | corrected (bit : Nat) | uncorrectable
  deriving DecidableEq, Repr

def eccDecode (syn : Nat) : EccResult :=
  if syn = 0 then .good
  else match (List.range 144).find? (fun i => eccColumn i == syn) with
    | some i => .corrected i
    | none => .uncorrectable

/-- Count of a store: store 1 in its unit, the others in WDN_ECC_CNT. -/
def eccCount (s : State) (store inst : Nat) (uncorr : Bool) : State :=
  let lo := if uncorr then 16 else 0
  if store = 1 then s.setUnit inst ((s.unit inst).count 0x1008 (lo + 15) lo) else s.cntSat 0x3014 (lo + 15) lo

/-- WDN_ECC_LAST_ADDR and WDN_ECC_LAST_SYN. -/
def eccLast (s : State) (store : Nat) (a syn : Word) : State :=
  (s.setReg 0x3018 a).setReg 0x301C (setFld syn 23 16 store)

/-- The device-written words of a model cell set to zero (R243). -/
def cellReset (s : State) (c k : Nat) : State := s.keepPast.putWords (modelAddr c + 0x40 + 32 * k + 4) (List.replicate 7 0)

/-- An uncorrectable error in a profile: its PVALID bit clears. -/
def eccProfile (s : State) (off : Nat) : State :=
  let c := (off - 0x40000) / 0x400
  let p := (off - 0x40000) % 0x400 / 0x40
  s.setCell c { s.cell c with pvalid := if (s.cell c).pvalid.testBit p then (s.cell c).pvalid - 2 ^ p else (s.cell c).pvalid }

/-- In an actuator model: the cell is reset, or the header is refused. -/
def eccModel (s : State) (off : Nat) : State :=
  let c := (off - 0x60000) / 0x800
  let r := (off - 0x60000) % 0x800
  if r < 0x40 then s.setCell c { s.cell c with modelErr := true } else cellReset s c ((r - 0x40) / 32)

/-- In a tooth or cam table of an enabled domain: NONE, EN clears, TABLE_ERR 10. -/
def eccTable (s : State) (off : Nat) : State :=
  let d := (off - 0x50000) / 0x4000
  if d < 2 ∧ domEn s d then
    let s := domainDisable s d
    s.setDom d { s.dom d with tableErr := 10 }
  else s

/-- In a wheel profile, history or signature: the four entries of the word are taken as 0. -/
def eccWheel (s : State) (off : Nat) : State :=
  let d := (off - 0x50000) / 0x4000
  let r := (off - 0x50000) % 0x4000
  let m := s.dom d
  if r < 0x1800 then
    let s := s.putWords (off / 16 * 16) [0, 0, 0, 0]
    s.setDom d { m with prof := (List.range 4).foldl (fun c i => cset zeroWord c ((r - 0x1000) / 16 * 4 + i) 0) m.prof }
  else if r < 0x2800 then
    s.setDom d { m with hist := (List.range 4).foldl (fun c i => cset zeroNat c ((r - 0x1800) / 16 * 4 + i) 0) m.hist }
  else s.setDom d { m with sig := (List.range 4).foldl (fun c i => cset zeroWord c ((r - 0x2800) / 16 * 4 + i) 0) m.sig }

/-- A word of retention SRAM: an error in a copy of the progress record (`inst` 0 or 1) makes that copy invalid (R567). -/
def eccRetention (s : State) (inst : Nat) : State :=
  match inst with
  | 0 => { s with jrn := { s.jrn with copyA := none } }
  | 1 => { s with jrn := { s.jrn with copyB := none } }
  | _ => s

/-- The effect of an uncorrectable error on its store (table *Uncorrectable errors*). -/
def eccEffect (s : State) (store inst : Nat) (a syn : Word) : State :=
  let off := 16 * a.toNat
  let mem (s : State) : State := faultRecord s lvMemory 0x20 store 0 a syn
  match store with
  | 1 => fence s inst 0x12 a syn
  | 2 => reflectionLost s inst a syn
  | 3 => mem (eccProfile s off)
  | 4 => mem (eccModel s off)
  | 5 => mem (eccTable s off)
  | 6 => mem (eccWheel s off)
  | 7 => mem s
  | 8 => chipFatal s 0x31 a syn
  | 10 => mem (eccRetention s inst)
  | _ => s

/-- The scrubber moves on by one word; a pass ends after 425,984 words (R471). -/
def scrubMove (s : State) : State :=
  let n := s.wdn.scrub + 1
  let s := { s with wdn := { s.wdn with scrub := if n = 425984 then 0 else n, scrubAt := s.clk.now + s.fclk (s.rf 0x3010 15 0) } }
  if n = 425984 then s.cntWrap 0x3010 31 16 else s

/-- A word of a store read with an error pattern, none when it is 0 (R469, R472). -/
def eccRead (s : State) (store inst addr : Nat) (err : BitVec 144) : State :=
  let syn := syndrome err
  match eccDecode syn with
  | .good => s
  | .corrected _ => eccCount s store inst false
  | .uncorrectable => eccEffect (eccLast (eccCount s store inst true) store (ofNat32 addr) (ofNat32 syn)) store inst (ofNat32 addr) (ofNat32 syn)

/-- SCRUB_TICK (R471, R472). An error of a fabric transfer (store 9) is one of its destination store, inst mod 16, at instance inst / 16 (log
entry 19). -/
def scrubTick (s : State) (store inst addr : Nat) (err : BitVec 144) : State :=
  if s.clk.now < s.wdn.scrubAt then s
  else if store = 9 then eccRead (scrubMove s) (inst % 16) (inst / 16) addr err
  else eccRead (scrubMove s) store inst addr err

/-! ### Commands -/

/-- REGION_TAKEOVER: CSTAT and state. -/
def regionTakeover (s : State) (n : Nat) : Nat × State :=
  if ¬ roleServed s n then (1, s)
  else if ¬ takeoverOk s n then (2, s)
  else (0, wardenAct false (fun s => fence s (roleUnit s n) 0x13) s)

/-- REGION_TEST (R460). -/
def regionTest (s : State) (u : Nat) : Nat × State :=
  if unitState s u = 2 ∨ unitState s u = 5 then (0, wardenAct false (fun s => startTest s u none) s) else (1, s)

/-- FAULT_LOG_CLEAR (R603). -/
def faultLogClear (s : State) : State :=
  progressNote ((s.putBytes 0xA0000 (List.replicate 0x800 0)).setRf 0x3020 15 0 0)

/-! ### Views -/

/-- EVS arbiter and error registers of the block of role n (4: the Mirror region), from +0x1000. -/
def arbView (s : State) (n o : Nat) : Option Word :=
  let u := roleUnit s n
  let x := s.unit u
  if o = 0x1000 then
    some (packWord [(if n < 4 ∧ (s.wdn.takeover.map (·.role)) = some n then min 65535 (heldFor s n) else 0, 16), (8 - x.freeUnits s.clk.now, 0)])
  else if o = 0x1004 then some (setFld (x.cntReg 0x1004) 2 0 u)
  else if o = 0x1008 ∨ o = 0x100C then some (x.cntReg o)
  else if o = 0x1010 then
    (if n < 4 then some (packWord [(ageOf s.clk.now (s.refl n).at_ 400 65535, 16), (b2n (s.refl n).covered, 0)])
     else some (packWord ((List.range 4).map (fun m => (b2n (s.refl m).covered, m)))))
  else if o = 0x1014 then some (ofNat32 x.epoch)
  else none

/-- WDN registers that are not stored words. -/
def wdnView (s : State) (o : Nat) : Option Word :=
  if o = 0 then some (wdnStatusWord s)
  else if o = 0x208 then some (roundStatusWord s)
  else if o = 0x20C ∨ o = 0x210 then
    let d := match s.round.nextDue with | some k => s.dtimeOf k | none => 0
    some (if o = 0x20C then lo32 d else hi32 d)
  else planView s o

end Sys2Proof.Machine
end

