-- ==== Sys2Proof/Machine/Firmware.lean ====
section
/-!
DEFINITION. Warden firmware: slots, verification, activation (Ageing, Margins and the Round, R500 to R503).
-/
namespace Sys2Proof.Machine

/-- Words in one slot. -/
def fwWords : Nat := 131072

/-- WDN_FW_STATUS.ACTIVE: true when slot B is active. -/
def fwActive (s : State) : Bool := s.rb 0x3240 0

/-- Word i of a slot (true: slot B). -/
def fwWord (s : State) (b : Bool) (i : Nat) : Word := cget zeroWord s.fw.store ((if b then fwWords else 0) + i)

/-- `n` bytes of a slot from its start. -/
def fwBytes (s : State) (b : Bool) (n : Nat) : List Byte := (List.range (n / 4)).flatMap (fun i => wordBytes (fwWord s b i))

/-- The first failing check of R500 for a slot; 0 when it passes. -/
def fwCheck (s : State) (b : Bool) : Nat :=
  let ver := (fwWord s b 1).toNat
  let flr := (fwWord s b 2).toNat
  let size := (fwWord s b 3).toNat
  let key := fld (fwWord s b 4) 7 0
  if fwWord s b 0 ≠ 0x57444E31 then 1
  else if 524032 < size ∨ size % 4 ≠ 0 then 2
  else if 4 ≤ key ∨ ¬ Config.fwKeyPresent (Fin.ofNat 256 key) then 3
  else if ver < flr ∨ ver < (s.reg 0x324C).toNat then 4
  else if ¬ Config.fwSignatureGood (fwBytes s b (256 + size)) then 5
  else if ¬ Config.fwSlotGood b s.free then 6
  else 0

/-- PROGRAMMING or PENDING. -/
def fwBusy (s : State) : Bool := s.rb 0x3240 4 || s.rb 0x3240 3

/-- FW_WRITE of words at a byte offset of the inactive slot: CSTAT and state. -/
def fwWrite (s : State) (offset : Nat) (ws : List Word) : Nat × State :=
  if fwBusy s then (1, s)
  else (0, ({ s with fw := { s.fw with prog := some (offset, ws) } }.setRf 0x3240 4 4 1).setRf 0x3240 2 2 0)

/-- Words stored upward from index i. -/
def fwPut (l : Cells Word) (i : Nat) : List Word → Cells Word
  | [] => l
  | w :: t => fwPut (cset zeroWord l i w) (i + 1) t

/-- FW_PROGRAM_DONE. -/
def fwProgramDone (s : State) : State :=
  match s.fw.prog with
  | some (o, ws) =>
    { s with fw := { s.fw with prog := none, store := fwPut s.fw.store ((if fwActive s then 0 else fwWords) + o / 4) ws } }.setRf 0x3240 4 4 0
  | none => s

/-- FW_VERIFY. -/
def fwVerify (s : State) : Nat × State :=
  if fwBusy s ∨ s.fw.verifying then (1, s) else (0, { s with fw := { s.fw with verifying := true } })

/-- FW_VERIFY_DONE (R500, R503). -/
def fwVerifyDone (s : State) : State :=
  if s.fw.verifying then
    let e := fwCheck s (!fwActive s)
    let s := { s with fw := { s.fw with verifying := false }, free := s.free + 1 }
    let s := (s.setRf 0x3240 11 8 e).setRf 0x3240 2 2 (b2n (e == 0))
    (if e = 0 then s else s.setRf 0x3240 7 5 3).arrive 6
  else s

/-- FW_ACTIVATE (R501). -/
def fwActivate (s : State) : Nat × State :=
  if fwBusy s ∨ s.fw.verifying ∨ s.fw.restart.isSome then (2, s)
  else if s.rb 0x3240 2 then (0, roundPoll (s.setRf 0x3240 3 3 1))
  else (1, s)

/-- FW_CANCEL (R501). -/
def fwCancel (s : State) : State := roundPoll (s.setRf 0x3240 3 3 0)

/-- FW_ACTIVATION at the first quiet point (R501). -/
def fwActivation (s : State) : State :=
  if s.rb 0x3240 3 ∧ s.wdn.takeover.isNone ∧ s.round.phase = 0 ∧ s.wdn.tests = [] ∧ unitState s (spareUnit s) = 1 ∧
      (List.range 4).all (fun n => (s.refl n).covered) then
    { s with fw := { s.fw with restart := some s.clk.now } }.setRf 0x3240 3 3 0
  else s

/-- FW_RUNNING (R503): the new image becomes the active slot. -/
def fwRunning (s : State) : State :=
  if s.fw.restart.isSome then
    let flr := max (s.reg 0x324C).toNat (fwWord s (!fwActive s) 2).toNat
    let s := { s with fw := { s.fw with restart := none } }.setReg 0x324C (ofNat32 flr)
    (((s.setRf 0x3240 0 0 (b2n (!fwActive s))).setRf 0x3240 7 5 1).setRf 0x3240 2 2 0).arrive 6
  else s

/-- FW_REVERT (R503): 100 ms without a report. -/
def fwRevert (s : State) : State :=
  match s.fw.restart with
  | some k =>
    if k + msTicks 100 ≤ s.clk.now then ({ s with fw := { s.fw with restart := none } }.setRf 0x3240 7 5 2).arrive 6 else s
  | none => s

/-- WDN_FW_VER_A and WDN_FW_VER_B as read. -/
def fwView (s : State) (o : Nat) : Option Word :=
  if o = 0x244 then some (fwWord s false 1) else if o = 0x248 then some (fwWord s true 1) else none

end Sys2Proof.Machine
end

