-- ==== Sys2Proof/Machine/Adc.lean ====
section
/-!
DEFINITION. Converters at work: timers, the sequencer, conversions, references, gap calibration (Converters and Window
Comparators, R262 to R290).
-/
namespace Sys2Proof.Machine

/-! ### Fields -/

def adcEn (s : State) (k : Nat) : Bool := s.rb (A.conv k) 0
def adcCalEn (s : State) (k : Nat) : Bool := s.rb (A.conv k) 2
/-- PERIOD of a converter timer in ticks (0.25 µs units). -/
def adcTimer (s : State) (k i : Nat) : Nat := 100 * s.rf (A.conv k + 0x20 + 4 * i) 15 0
/-- The reference in use: B when true; the one CFG.REF_SEL names until a switch (R279). -/
def adcRefB (s : State) (k : Nat) : Bool := (s.conv k).refB.getD (s.rb (A.conv k) 1)
def calLo (s : State) (k : Nat) : Nat := s.rf (A.conv k + 0x10) 30 16
def calGain (s : State) (k : Nat) : Nat := s.rf (A.conv k + 0x10) 15 0

/-- The phase entries of the converter's bank have been made up to now. -/
def convSettle (s : State) (k : Nat) : State := if k < 16 then bankSettle s k s.clk.now else s

/-- A kink window of the converter's bank is open. -/
def kinkOpenOn (s : State) (k : Nat) : Bool := decide (k < 16) && (s.bank k).kink.isSome

/-- An ADC clock edge. -/
def atAdcEdge (s : State) : Bool := s.adcEdge s.clk.now == s.clk.now

/-- CODE from a raw code (R287). -/
def correctCode (lo gain raw : Nat) : Nat :=
  (clampI 0 4095 ((((8 * (raw : Int) - lo) * gain + 65536) / 131072) + 256)).toNat

/-! ### Timers and step instances -/

/-- EN written to 1: the timers run from here (R272). -/
def adcStart (s : State) (k : Nat) : State :=
  let l := ((List.range 4).filter (fun i => adcTimer s k i ≠ 0)).map (fun i => (i, s.adcEdge s.clk.now + adcTimer s k i))
  s.setConv k { s.conv k with skips := [], timers := l }

/-- EN written to 0: its CONVERTER telemetry is undefined (table *Telemetry kinds*). -/
def adcStop (s : State) (k : Nat) : State :=
  (List.range 19).foldl (fun s i => tlmUndef s 0x14 k i) (s.setConv k { s.conv k with timers := [], skips := [] })

/-- One timer expiry; under POWER TEMPERED every second one is ignored (R277). -/
def timerFire (s : State) (k i : Nat) : State :=
  let a := s.conv k
  let skip := s.glb.tempered && a.skips.contains i
  let s := s.setConv k { a with timers := cput a.timers i (cget zeroNat a.timers i + adcTimer s k i),
                                skips := if s.glb.tempered && !skip then insertNat i a.skips else a.skips.erase i }
  if skip then s else convTrigger s k 3 i s.clk.now

/-- CONVERTER_TIMER_EXPIRY (R272). -/
def converterTimer (s : State) (k i : Nat) : State :=
  match (s.conv k).timers.find? (fun p => p.1 == i) with
  | some p => if adcEn s k ∧ adcTimer s k i ≠ 0 ∧ p.2 ≤ s.clk.now then timerFire s k i else s
  | none => s

/-- STEP_READY (R270). -/
def stepReady (s : State) (k st : Nat) : State :=
  let s := convSettle s k
  match (s.conv k).heldInst st with
  | some i => if i.ready ≤ s.clk.now then s.setConv k ((s.conv k).setInst st (some { i with isPending := true })) else s
  | none => s

/-- MAXWAIT_EXPIRY (R275). -/
def maxwait (s : State) (k st : Nat) : State :=
  let s := convSettle s k
  match (s.conv k).heldInst st with
  | some i => if i.isPending ∧ waitedOut s k s.clk.now i then dropInst s k st else s
  | none => s

/-- The pending step with the lowest number. -/
def firstPending (s : State) (k : Nat) : Option Nat :=
  (List.range 32).find? (fun st => match (s.conv k).heldInst st with | some i => i.isPending | none => false)

/-! ### The beginning of a conversion -/

def beginConv (s : State) (k : Nat) (kind : ConvKind) (i : Inst) : State :=
  let a := s.conv k
  s.setConv k { a with cur := some { kind := kind, inst := i, start := s.clk.now },
                       lastStep := match kind with | .step n => n | _ => a.lastStep }

def noInst : Inst := { entry := 0, ready := 0, isPending := false }

/-- An aborted conversion (R274): a step instance returns to pending; an instance latched meanwhile is one too many and
counts as missed (R271). A calibration whose first conversion is aborted has not begun (R285). -/
def abortConv (s : State) (k : Nat) : State :=
  match (s.conv k).cur with
  | some c =>
    let s := s.setConv k { s.conv k with cur := none }
    (match c.kind with
     | .step n =>
       let s := if ((s.conv k).heldInst n).isSome then s.cntSat (A.conv k + 8) 31 16 else s
       (s.setConv k ((s.conv k).setInst n (some { c.inst with isPending := true }))).cntSat (A.conv k + 8) 15 0
     | .cal _ =>
       let a := s.conv k
       (s.setConv k { a with collecting := a.collecting && a.count != 0 }).cntSat (A.conv k + 8) 15 0
     | _ => s.cntSat (A.conv k + 8) 15 0)
  | none => s

/-- A calibration conversion may begin (R284). -/
def calMayBegin (s : State) (k : Nat) : Bool :=
  let a := s.conv k
  adcCalEn s k && a.calDue && a.calReady.isNone && (firstPending s k).isNone &&
  (if k < 16 then !kinkOpenOn s k && (chansOf k).all (fun c => (s.cell c).run.isNone && (s.cell c).wait.isNone) else a.refDue.isEmpty)

/-- The conversion that begins at a free converter, in the order of R273. -/
def chooseConv (s : State) (k : Nat) : State :=
  let a := s.conv k
  if k < 16 ∧ kinkDue s k then beginConv s k .kink noInst
  else match a.refDue with
    | 0 :: rest => beginConv (s.setConv k { a with refDue := rest }) k .refHalf noInst
    | _ :: rest => beginConv (s.setConv k { a with refDue := rest }) k .refBg noInst
    | [] =>
      match (if adcEn s k then firstPending s k else none) with
      | some n => beginConv (s.setConv k (a.setInst n none)) k (.step n) ((a.heldInst n).getD noInst)
      | none =>
        if calMayBegin s k then
          beginConv (s.setConv k { a with firstAt := if a.collecting then a.firstAt else s.clk.now + 4 * s.adcPeriod, collecting := true }) k
            (.cal (a.count % 2 == 1)) noInst
        else s

/-- CONVERSION_START (R264, R273, R274): at an ADC clock edge; a kink sample that falls due aborts another conversion. -/
def conversionStart (s : State) (k : Nat) : State :=
  let s := convSettle s k
  if ¬ atAdcEdge s then s
  else match (s.conv k).cur with
    | none => chooseConv s k
    | some c => if k < 16 ∧ kinkDue s k ∧ c.kind ≠ .kink then chooseConv (abortConv s k) k else s

/-! ### The end of a conversion -/

/-- 250 ns after its beginning the input is held (R262). -/
def holdTick (s : State) (c : Conv) : Nat := c.start + 4 * s.adcPeriod

/-- The result word (table *Result word*). -/
def resultWord (entry : Word) (code : Nat) (ovrHi ovrLo : Bool) : Word :=
  packWord [(stTag entry, 14), (b2n ovrHi, 13), (b2n (ovrHi || ovrLo), 12), (code, 0)]

/-- A CONVERTER capture stamped with time and angle of the hold instant (R263, R342). -/
def convCapture (s : State) (c : Conv) (w : Word) (dom : Nat) : Capture :=
  { dtime := s.dtimeOf (holdTick s c), qual := s.clk.qual, dom := dom, angle := s.angleAt dom (holdTick s c), value := [w] }

/-- SUPPLY_RANGE (R437): consecutive conversions of VSUP_b out of range. -/
def supplyCheck (s : State) (b code : Nat) (ovr : Bool) : State :=
  let out := ovr || decide (code < s.rf (A.bankErr b + 4) 11 0) || decide (s.rf (A.bankErr b + 4) 27 16 < code)
  let x := s.bank b
  if x.safe then s
  else
    let n := if out then x.supRun + 1 else 0
    let s := s.setBank b { x with supRun := n }
    if out ∧ s.rf (A.bankErr b) 3 0 ≤ n then bankSafe s b 3 else s

/-- A sample of VEL for domain d = 2 or 3: kept for refinement (R84, R85) and for the peak above BIAS. -/
def velSample (s : State) (d code hold : Nat) : State :=
  let x := s.el d
  s.setEl d { x with vel := (x.vel ++ [(hold, code)]).filter (fun p => decide (s.clk.now < p.1 + 80000)),
                     peakRun := max x.peakRun (code - s.rf (A.dom d + 4) 27 16) }

/-- The end of a step's conversion (R276). -/
def stepEnd (s : State) (k : Nat) (c : Conv) (code : Nat) (ovrHi ovrLo : Bool) : State :=
  let e := c.inst.entry
  let i := stInput e
  let w := resultWord e code ovrHi ovrLo
  let s := (s.setReg (lastAddr k i) w).setConv k { s.conv k with holds := cput (s.conv k).holds i (some (holdTick s c)) }
  let s := tlmCaptureWith s 0x14 k i (convCapture s c w)
  let s := if stQueue e then qProduce s 1 k [w] else s
  let s := if k < 16 ∧ i = 9 then supplyCheck s k code (ovrHi || ovrLo) else s
  let s := if 16 ≤ k ∧ i = 16 then velSample s (k - 14) code (holdTick s c) else s
  if stChain e then chainTrigger s k else s

/-- GAIN from complete sums (R286). -/
def gainOf (d : Nat) : Nat := (469762048 + d / 2) / d

/-- The calibration with these sums is accepted (R286). -/
def calAccepted (lo hi : Nat) : Bool :=
  decide (lo < hi ∧ 1536 ≤ lo ∧ lo ≤ 2560 ∧ 15565 ≤ gainOf (hi - lo) ∧ gainOf (hi - lo) ≤ 17203)

/-- A rejected calibration (R286, R289). -/
def calReject (s : State) (k : Nat) : State :=
  let a := s.conv k
  let n := min 15 (a.failRun + 1)
  let bad := decide (s.rf (A.adc + 0x14) 7 4 ≤ n)
  let s := (s.setConv k { a with failRun := n, calFault := a.calFault || bad }).cntSat (A.conv k + 0xC) 15 0
  if bad ∧ ¬ a.calFault then s.arrive 9 else s

/-- The sums of a calibration are discarded (R274, R285). -/
def Adc.noSums (a : Adc) : Adc := { a with sumLo := 0, sumHi := 0, count := 0, collecting := false }

/-- More than CAL_SPAN has passed from the first conversion's hold instant to tick `hold` (R263, R285). -/
def calOver (s : State) (a : Adc) (hold : Nat) : Bool := decide (a.firstAt + msTicks (s.rf (A.adc + 0x14) 15 8) < hold)

/-- One calibration conversion ends; sixteen complete the sums (R283, R286), unless the last came too late after the first (R285). -/
def calEnd (s : State) (k : Nat) (c : Conv) (high : Bool) (raw : Nat) : State :=
  let a := s.conv k
  let a := { a with sumLo := if high then a.sumLo else a.sumLo + raw, sumHi := if high then a.sumHi + raw else a.sumHi, count := a.count + 1 }
  if calOver s a (holdTick s c) then s.setConv k a.noSums
  else if a.count < 16 then s.setConv k a
  else
    let done := { a.noSums with calDue := false }
    if calAccepted a.sumLo a.sumHi then
      s.setConv k { done with calReady := some (a.sumLo, gainOf (a.sumHi - a.sumLo)), calEndAt := c.start + 16 * s.adcPeriod }
    else calReject (s.setConv k done) k

/-! ### References (R280 to R282) -/

def diff (a b : Nat) : Nat := ((a : Int) - b).natAbs

/-- A reference is suspect when its bandgap code is off by more than BG_TOL. -/
def refSuspect (s : State) (isB : Bool) : Bool :=
  let code := if isB then s.rf 0xD00C 27 16 else s.rf 0xD00C 11 0
  decide (s.rf 0xD000 31 24 < diff code Config.bgNom.val)

/-- Every converter in use of a reference is to switch away from it. -/
def switchAway (s : State) (fromB : Bool) : State :=
  (List.range 18).foldl (fun s k => if adcRefB s k = fromB then s.setConv k { s.conv k with refWant := some (!fromB) } else s) s

/-- The reference judgment (table *Reference judgment*). -/
def refJudge (s : State) : State :=
  match refSuspect s false, refSuspect s true with
  | false, false => ({ s with ref := { s.ref with unresolved := true } }).arrive 8
  | true, false => (switchAway { s with ref := { s.ref with failA := true } } false).arrive 8
  | false, true => (switchAway { s with ref := { s.ref with failB := true } } true).arrive 8
  | true, true => fatalNow (s.arrive 8) 0x32

/-- All four conversions of a check are done: mismatch or not (R280, R281). -/
def refDecide (s : State) : State :=
  let tol := s.rf 0xD000 23 16
  let bad := decide (tol < diff (s.rf 0xD008 27 16) 2048 ∨ tol < diff (s.rf 0xD008 11 0) 2048)
  let n := if bad then min 15 (s.ref.run + 1) else 0
  let s := { s with ref := { s.ref with run := n, lastAt := some s.clk.now, open_ := false,
                                        ons := (s.ref.ons ++ [s.rf 0xD008 27 16]).drop ((s.ref.ons.length + 1) - 100) } }
  if bad ∧ n = s.rf 0xD000 7 4 then refJudge s else s

/-- The check is complete when neither general converter has a reference conversion due or in progress. -/
def refComplete (s : State) : Bool :=
  s.ref.open_ && [16, 17].all (fun k => (s.conv k).refDue.isEmpty &&
    (match (s.conv k).cur with | some c => c.kind != .refHalf && c.kind != .refBg | none => true))

/-- A reference conversion ends: the codes registers, then the decision when it was the last (R280). -/
def refEnd (s : State) (k : Nat) (half : Bool) (code : Nat) : State :=
  let s := if half then (if k = 16 then s.setRf 0xD008 27 16 code else s.setRf 0xD008 11 0 code)
           else (if adcRefB s k then s.setRf 0xD00C 27 16 code else s.setRf 0xD00C 11 0 code)
  if refComplete s then refDecide s else s

/-- CONVERSION_END (R262, R276): the result after 16 ADC clocks; calibration takes the raw code. -/
def conversionEnd (s : State) (k raw : Nat) (ovrHi ovrLo : Bool) : State :=
  match (s.conv k).cur with
  | some c =>
    if s.clk.now < c.start + 16 * s.adcPeriod then s
    else
      let code := correctCode (calLo s k) (calGain s k) raw
      let s := s.setConv k { s.conv k with cur := none }
      (match c.kind with
       | .step _ => stepEnd s k c code ovrHi ovrLo
       | .kink => kinkSample s k code (ovrHi || ovrLo)
       | .refHalf => refEnd s k true code
       | .refBg => refEnd s k false code
       | .cal high => calEnd s k c high raw)
  | none => s

/-- REFERENCE_CHECK (R280): every REF_PERIOD ms both general converters have their two conversions due. -/
def referenceCheck (s : State) : State :=
  if s.ref.nextAt ≤ s.clk.now then
    let s := { s with ref := { s.ref with nextAt := s.clk.now + msTicks (s.rf 0xD000 15 8), open_ := true } }
    [16, 17].foldl (fun s k => s.setConv k { s.conv k with refDue := [0, 1] }) s
  else s

/-- Bit UNCAL of a converter's STATUS. -/
def setUncal (s : State) (k v : Nat) : State := s.setRf (A.conv k + 4) 5 5 v

/-- A converter's conversion in progress, unless it belongs to a calibration that is given up (R274, R285). -/
def curWithoutCal (a : Adc) : Option Conv :=
  match a.cur with
  | some c => (match c.kind with | .cal _ => none | _ => some c)
  | none => none

/-- REFERENCE_SWITCH (R282): factory coefficients, UNCAL, calibration due at once. -/
def referenceSwitch (s : State) (k : Nat) : State :=
  let s := convSettle s k
  match (s.conv k).refWant with
  | some r =>
    if kinkOpenOn s k ∨ ¬ atAdcEdge s then s
    else
      let s := s.setConv k { s.conv k with refB := some r, refWant := none, calDue := true, collecting := false, sumLo := 0, sumHi := 0,
                                           count := 0, calReady := none, cur := curWithoutCal (s.conv k) }
      setUncal ((s.setRf (A.conv k + 0x10) 30 16 2048).setRf (A.conv k + 0x10) 15 0 16384) k 1
  | none => s

/-! ### Gap calibration (R283 to R288) -/

/-- CAL_PERIOD in ticks, doubled under POWER TEMPERED (R277). -/
def calPeriod (s : State) : Nat := msTicks (s.rf (A.adc + 0x14) 31 16) * (if s.glb.tempered then 2 else 1)

/-- CALIBRATION_DUE (R283): CAL_PERIOD, as it stands now, after the last calibration applied. -/
def calibrationDue (s : State) (k : Nat) : State :=
  let a := s.conv k
  if adcCalEn s k ∧ a.calFrom + calPeriod s ≤ s.clk.now then s.setConv k { a with calDue := true, calFrom := s.clk.now } else s

/-- CAL_SPAN_EXPIRY (R285); a last conversion held within the span is in time. -/
def calSpan (s : State) (k : Nat) : State :=
  let a := s.conv k
  if a.collecting ∧ calOver s a (match a.cur with | some c => if a.count = 15 then min s.clk.now (holdTick s c) else s.clk.now | none => s.clk.now) then
    s.setConv k { a.noSums with cur := curWithoutCal a }
  else s

/-- CALIBRATION_APPLY (R288): an ADC clock edge after the one at which the last conversion ended. -/
def calibrationApply (s : State) (k : Nat) : State :=
  let s := convSettle s k
  match (s.conv k).calReady with
  | some (lo, gain) =>
    if kinkOpenOn s k ∨ ¬ atAdcEdge s ∨ s.clk.now ≤ (s.conv k).calEndAt then s
    else
      let s := s.setConv k { s.conv k with calReady := none, failRun := 0, appliedAt := some s.clk.now, calFrom := s.clk.now }
      setUncal ((s.setRf (A.conv k + 0x10) 30 16 lo).setRf (A.conv k + 0x10) 15 0 gain) k 0
  | none => s

/-- At the vote for Dusk entry every instance and partial calibration is discarded (R278). -/
def adcQuiesce (s : State) (k : Nat) : State :=
  s.setConv k { (s.conv k).noSums with insts := [], cur := none }

/-! ### Register writes and views -/

/-- A write of a converter's CFG (R272, R279, R299). -/
def adcCfgWrite (s : State) (k : Nat) (v : Word) : State :=
  let a := A.conv k
  let was := adcEn s k
  let ref := adcRefB s k
  let s' := s.setReg a (plainWrite a (s.reg a) v)
  let s' := if s'.rb a 1 ≠ s.rb a 1 then s'.setConv k { s'.conv k with refB := some ref, refWant := if s'.rb a 1 = ref then none else some (s'.rb a 1) } else s'
  if adcEn s' k ∧ ¬ was then adcStart s' k else if ¬ adcEn s' k ∧ was then adcStop s' k else s'

/-- A write of a converter timer: PERIOD is 0 or at least 4; a new period runs from the write. -/
def adcTimerWrite (s : State) (k i : Nat) (v : Word) : State :=
  let a := A.conv k + 0x20 + 4 * i
  if fld v 15 0 ≠ 0 ∧ fld v 15 0 < 4 then s
  else
    let s := s.setRf a 15 0 (fld v 15 0)
    if adcEn s k then
      s.setConv k { s.conv k with timers := if adcTimer s k i = 0 then cdel (s.conv k).timers i
                                            else cput (s.conv k).timers i (s.adcEdge s.clk.now + adcTimer s k i) }
    else s

/-- A step entry is written when it passes R269; a trigger of the same ADC clock cycle latches what it held before (R270). -/
def adcStepPut (s : State) (k st : Nat) (v : Word) : State :=
  if stepGood k v then
    let s := convSettle s k
    let l := (s.conv k).stepOld.filter (fun p => s.adcCycle p.2.1 == s.adcCycle s.clk.now)
    let l := if l.any (fun p => p.1 == st) then l else (st, s.clk.now, s.reg (A.step k st)) :: l
    (s.setConv k { s.conv k with stepOld := l }).setReg (A.step k st) v
  else s

/-- Writes of ADC_HOSTP_h (R242). -/
def hostPressSet (s : State) (h v : Nat) : State :=
  let s := s.setRf (A.adc + 0x20 + 4 * h) 15 0 v
  { s with hostPress := cput s.hostPress h (some s.clk.now) }

/-- STATUS of a converter as read. -/
def convStatus (s : State) (k : Nat) : Word :=
  let a := s.conv k
  packWord [(a.lastStep, 8), (b2n a.calFault, 6), (b2n (s.rb (A.conv k + 4) 5), 5), (b2n (adcRefB s k), 4), (b2n a.collecting, 3),
            (b2n (kinkOpenOn (convSettle s k) k), 2), (b2n (firstPending s k).isSome, 1), (b2n a.cur.isSome, 0)]

/-- Reads of a converter's computed registers. -/
def convView (s : State) (k o : Nat) : Option Word :=
  let a := s.conv k
  if o = 4 then some (convStatus s k)
  else if o = 0x14 then some (packWord [(ageOf s.clk.now a.appliedAt 400000 65535, 16), (a.failRun, 0)])
  else if 0x40 ≤ o ∧ o < 0x40 + 4 * (if k < 16 then 12 else 19) then
    let i := (o - 0x40) / 4
    some (packWord [(ageOf s.clk.now (lastHold s k i) 400 65535, 16), (s.rf (lastAddr k i) 15 0, 0)])
  else none

/-- Reads of the ADC block. -/
def adcView (s : State) (o : Nat) : Option Word :=
  if 0x100 ≤ o ∧ o < 0x900 then convView s (16 + (o - 0x100) / 0x400) ((o - 0x100) % 0x400)
  else if o = 4 then
    some (packWord [(ageOf s.clk.now s.ref.lastAt 400000 65535, 16), (s.ref.run, 12), (b2n s.ref.unresolved, 2), (b2n s.ref.failB, 1), (b2n s.ref.failA, 0)])
  else if o = 0x10 then some (ofNat32 Config.bgNom.val)
  else if 0x20 ≤ o ∧ o < 0x30 then
    let h := (o - 0x20) / 4
    some (packWord [(ageOf s.clk.now (cget (fun _ => none) s.hostPress h) 400000 65535, 16), (s.rf (A.adc + o) 15 0, 0)])
  else none

/-! ### Window enables -/

/-- A write of a general or zero-cross window's CFG: written to 1, EN starts the initial decision (R296), written to 0 it ends the
decided state (R297). -/
def winCfgWrite (s : State) (w : Nat) (v : Word) : State :=
  winUndecide (s.setReg (A.win w) (plainWrite (A.win w) (s.reg (A.win w)) v)) w

end Sys2Proof.Machine
end

