-- ==== Sys2Proof/Machine/Link.lean ====
section
/-!
DEFINITION. Vangic Link: port events, forwarding, taken frames, plant time, roles, snapshots, supervisory messages, wake
(Vangic Link, R505 to R537).
-/
namespace Sys2Proof.Machine

/-! ### Time-quality -/

/-- The time-quality becomes q: VLK_7, the end of a bridge at PRECISE (R556), and D3 follows (R530). -/
def setQual (s : State) (q : Nat) : State :=
  if s.clk.qual = q then s
  else
    let s := { s with clk := { s.clk with qual := q } }
    let s := if q = 3 then ({ s with pwr := { s.pwr with bridge := false, bound := 0 } }).setReg 0x2028 0 else s
    linkReview (s.arrive 375)

/-- A TIME master is PRECISE while FCLK runs from the PLL (R521). -/
def masterQual (s : State) : State := if (s.role 0).own = 1 ∧ s.clk.pll then setQual s 3 else s

/-! ### Roles (R522 to R526) -/

/-- A role of the part while the chip is not safe, as R522 has it. -/
def isCandidate (s : State) (r : Nat) : Bool :=
  !s.glb.chipSafe && s.rf 0xA00C (8 * r + 7) (8 * r) != 0 &&
  (if r = 0 then s.clk.qual != 0 else !s.rb (A.dom 3) 1 && (s.el 3).st == .cycle)

/-- Candidate a (PRIO, node) is better than b. -/
def betterCand (a b : Nat × Nat) : Bool := decide (b.1 < a.1) || (a.1 == b.1 && decide (a.2 < b.2))

/-- A candidate still heard: an ANNOUNCE within the last 3 ANN_PERIOD. -/
def Cand.alive (c : Cand) (s : State) : Bool := decide (s.clk.now < c.at_ + 3 * annPeriod s)

/-- The best other candidate heard. -/
def bestOther (s : State) (r : Nat) : Option Cand :=
  ((s.role r).cands.filter (fun c => c.alive s && c.node != linkNode s && c.prio != 0)).foldl (fun b c =>
    match b with
    | none => some c
    | some x => if betterCand (c.prio, c.node) (x.prio, x.node) then some c else some x) none

/-- The part is the best candidate it has heard. -/
def isBest (s : State) (r : Nat) : Bool :=
  match bestOther s r with
  | none => true
  | some c => betterCand (s.rf 0xA00C (8 * r + 7) (8 * r), linkNode s) (c.prio, c.node)

/-- A candidate's ANNOUNCE is noted. -/
def LRole.hear (x : LRole) (c : Cand) : LRole := { x with cands := c :: x.cands.filter (fun y => y.node != c.node) }

/-- Epoch e is newer than x (R525). -/
def epochNewer (e x : Nat) : Bool := let d := ((e : Int) - x).emod 65536; decide (1 ≤ d) && decide (d ≤ 32767)

/-- The epoch of a role changes: frames of the old one no longer count (R523, R525). -/
def LRole.adopt (x : LRole) (e now : Nat) : LRole :=
  if x.epoch = e then x
  else { x with epoch := e, highest := if epochNewer e x.highest then e else x.highest, staled := false, frameAt := now }

/-- MAINS frames of an older epoch no longer set D3 (R530). -/
def dropMains (s : State) (r : Nat) (e : Nat) : State :=
  if r = 1 ∧ (s.role 1).epoch ≠ e then s.setEl 3 { s.el 3 with mains := none } else s

/-- SYNCs in a row are those of one TIME epoch (R521). -/
def restartGood (s : State) (r e : Nat) : State := if r = 0 ∧ (s.role 0).epoch ≠ e then s.setV { s.vlk with good := 0 } else s

/-- Role r of the part gives up what it holds and follows epoch e. -/
def followEpoch (s : State) (r e : Nat) : State :=
  let s := restartGood (dropMains s r e) r e
  s.setRole r ((s.role r).adopt e s.clk.now)

/-- The MASTER's frames carry state in the published form of a domain (table *Frame types*). -/
def snapPay (s : State) (d stream sseq : Nat) : List Word :=
  [packWord [(d, 30), ((syncOf s d).code, 27), (s.clk.qual, 25), (stream, 21), (b2n (domL s d == oneRev), 20), (sseq % 65536, 0)],
   ofNat32 (s.angleWord d), ((atuView s (0x100 + 0x100 * d + 0x24)).getD 0), lo32 s.dtime, hi32 s.dtime]

/-- One SYNC (R518). -/
def sendSync (s : State) : State :=
  let x := s.role 0
  (sendUnlessDup s 5 true 0 [packWord [(x.sseq % 65536, 16), (x.epoch, 0)], lo32 s.dtime, hi32 s.dtime, 0, 0]).setRole 0 { x with sseq := x.sseq + 1 }

/-- One MAINS, from D3 as it stands at this instant (R529). -/
def sendMains (s : State) : State :=
  let s := anglesTo s 4
  let x := s.role 1
  (sendUnlessDup s 7 true 0 (snapPay s 3 0 x.sseq ++ [packWord [(x.epoch, 0)]])).setRole 1 { x with sseq := x.sseq + 1 }

/-- The frame of a role. -/
def sendRole (s : State) (r : Nat) : State := if r = 0 then sendSync s else sendMains s

/-- The TIME master follows no offset: a slew ends (R519). -/
def slewEnd (s : State) (r : Nat) : State := if r = 0 then { s with clk := s.clk.rebase s.dtime } else s

/-- The part becomes MASTER of role r at epoch e and names its backup (R523, R524). -/
def becomeMaster (s : State) (r e : Nat) : State :=
  let s := slewEnd (dropMains s r (e % 65536)) r
  let x := (s.role r).adopt (e % 65536) s.clk.now
  let b := bestOther s r
  masterQual (changeRole s r { x with own := 1, master := linkNode s, valid := true, rejoined := false, bkValid := b.isSome,
                                      backup := (b.map (·.node)).getD 0 })

/-- The MASTER of role r drops it and becomes a candidate; SYNCs are awaited from now. -/
def dropRole (s : State) (r : Nat) : State :=
  let s := if r = 0 ∧ (s.role 0).own = 1 then s.setV { s.vlk with good := 0, syncFrom := s.clk.now } else s
  s.setRole r { s.role r with own := 0 }

/-- STALE counts; the first count after a change of epoch asserts VLK_8. -/
def countStale (s : State) (r : Nat) : State :=
  let first := !(s.role r).staled
  let s := (s.setV { s.vlk with stale := satAdd 255 s.vlk.stale 1 }).setRole r { s.role r with staled := true }
  if first then s.arrive 376 else s

/-- The MASTER answers a stale source, at most once per ANN_PERIOD (R525). -/
def answerStale (s : State) (r src : Nat) : State :=
  let due := match cget (fun _ => none) s.vlk.notices src with | some k => decide (k + annPeriod s ≤ s.clk.now) | none => true
  if (s.role r).own == 1 && due then
    let s' := sendUnlessDup s 8 false src [packWord [(r, 30), ((s.role r).epoch, 0)]]
    s'.setV { s'.vlk with notices := cset (fun _ => none) s.vlk.notices src (some s.clk.now) }
  else s

/-- A frame of a role whose epoch is older is ignored and counted (R525); none when it is to be used. -/
def staleFrame (s : State) (r src e : Nat) : Option State :=
  if epochNewer (s.role r).epoch e then some (answerStale (countStale s r) r src) else none

/-! ### Taking frames (R507, R510) -/

/-- LAST_S of a source: forgotten after 1 s without a frame from it (R510). -/
def lastSeq (s : State) (src : Nat) : Option Nat :=
  match cget (fun _ => none) s.vlk.lastS src with
  | some (k, at_) => if at_ + msTicks 1000 ≤ s.clk.now then none else some k
  | none => none

/-- LAST_S admits the frame (R510). -/
def seqFresh (s : State) (f : Frame) : Bool :=
  match lastSeq s f.src with
  | some k => let d := ((f.seq : Int) - k).emod 65536; decide (1 ≤ d) && decide (d ≤ 32767)
  | none => true

/-- A frame addressed to this part or to all. -/
def forMe (s : State) (f : Frame) : Bool := f.bcast || f.dest == linkNode s

/-- The voters have passed the link: it takes no frame for itself (table *Dusk voters*). -/
def linkStopped (s : State) : Bool := s.pwr.entry != 0 && decide (41 < s.pwr.voter)

/-- The part takes a frame of a TYPE and acts on it; own frames that come back count for nothing but a BEACON. -/
def takeFrame (ty : Nat) (f : Frame) (g : State → State) (s : State) : State :=
  if linkEn s ∧ ¬ linkStopped s ∧ f.type = ty ∧ f.good ∧ (forMe s f ∨ ty = 2 ∨ ty = 3) ∧ seqFresh s f ∧ (f.src ≠ linkNode s ∨ ty = 1) then
    g (s.setV { s.vlk with lastS := cset (fun _ => none) s.vlk.lastS f.src (some (f.seq, s.clk.now)) })
  else s

/-! ### Ports (R505, R506, R514, R515) -/

def setPortSt (s : State) (p st : Nat) : State :=
  if (s.vlk.port p).st = st then s else (s.setV (s.vlk.setPort p { s.vlk.port p with st := st })).arrive (368 + p)

/-- SUPERVISORY frames waiting leave in command order once a port is UP (R533). -/
def sendWaiting (s : State) : State :=
  if linkEn s ∧ ¬ s.vlk.dup ∧ ((s.vlk.port 0).st = 1 ∨ (s.vlk.port 1).st = 1) then
    s.vlk.waiting.foldl (fun s w => putFrame s w.1 w.2.1 w.2.2) (s.setV { s.vlk with waiting := [] })
  else s

/-- PORT_UP. -/
def portUp (s : State) (p : Nat) : State :=
  if linkEn s ∧ portEn s p ∧ (s.vlk.port p).st ≠ 1 then
    let s := s.setV (s.vlk.setPort p { s.vlk.port p with upAt := s.clk.now })
    sendWaiting (setPortSt s p 1)
  else s

/-- The part wraps at a port and says so (R514). -/
def wrapPort (s : State) (p : Nat) : State :=
  if (s.vlk.port p).wrapped then s
  else sendTopo (s.setV (s.vlk.setPort p { s.vlk.port p with wrapped := true, trips := [], req := none })) 0 p

/-- PORT_DOWN, with or without RFAULT received, BREAK_TO µs after the receiver began to lack valid symbols at tick `since` (R505). -/
def portDown (s : State) (p since : Nat) : State :=
  if linkEn s ∧ since + usTicks (s.rf 0xA008 6 0) ≤ s.clk.now then
    let s := if (s.vlk.port p).st = 0 then s
      else setPortSt (s.setV (s.vlk.setPort p { s.vlk.port p with breaks := satAdd 65535 (s.vlk.port p).breaks 1 })) p 0
    wrapPort (s.linkOut [.rfault p]) p
  else s

/-- PORT_SLEEPING. -/
def portSleeping (s : State) (p : Nat) : State :=
  if linkEn s ∧ (s.vlk.port p).st = 1 then wrapPort (setPortSt s p 2) p else s

/-- PORT_UNWRAP: HEAL_MS of UP. -/
def portUnwrap (s : State) (p : Nat) : State :=
  let x := s.vlk.port p
  if linkEn s ∧ x.wrapped ∧ x.st = 1 ∧ x.upAt + msTicks (s.rf 0xA008 23 8) ≤ s.clk.now then
    sendTopo (s.setV (s.vlk.setPort p { x with wrapped := false })) 1 p
  else s

/-! ### Forwarding (R507 to R509) -/

/-- The link delay of a port in 1/16 ns (R517). -/
def portDelay (x : Port) : Int := if x.trips = [] then 0 else (8 * x.trips.foldl (· + ·) 0).tdiv x.trips.length

/-- Two words of a 64-bit number. -/
def int64Words (i : Int) : List Word := [lo32 (i.emod (2 ^ 64)).toNat, hi32 (i.emod (2 ^ 64)).toNat]

/-- A SYNC passing through gains the delay of the port it came in by and the time it spends in the part, which the spec leaves
open (R508, R518). -/
def correctedPay (s : State) (p : Nat) (f : Frame) : List Word :=
  if f.type = 5 ∧ f.good then
    f.payload.take 3 ++ int64Words (sext 64 (f.pay64 3) + portDelay (s.vlk.port p) + ((Config.freeWord s.free).toNat : Int))
  else f.payload

/-- The first two cases of R509, and the hop-local frames. -/
def stopsHere (s : State) (f : Frame) : Bool :=
  f.type == 2 || f.type == 3 || (!f.dirB && f.src == linkNode s) || (!f.bcast && f.dest == linkNode s)

/-- A source's frame is noted against being forgotten (R510). -/
def noteFrom (s : State) (f : Frame) : State :=
  s.setV { s.vlk with lastS := cset (fun _ => none) s.vlk.lastS f.src ((lastSeq s f.src).map (fun k => (k, s.clk.now))) }

/-- FRAME_FORWARD. -/
def frameForward (s : State) (p : Nat) (f : Frame) : State :=
  if ¬ linkEn s then s
  else
    let s := noteFrom s f
    let bad := f.known && !f.sound
    let s := if bad then s.setV (s.vlk.setPort p { s.vlk.port p with crcErr := satAdd 65535 (s.vlk.port p).crcErr 1 }) else s
    if stopsHere s f then s
    else if 2046 < f.hops + 1 then s.setV { s.vlk with orphan := satAdd 255 s.vlk.orphan 1 }
    else
      let x := exitPort s.vlk f.dirB
      let s' := s.linkOut [.frame x.1 (setFld f.w0 26 26 (b2n x.2)) (setFld f.w1 31 21 (f.hops + 1)) (correctedPay s p f) (f.crcOk && f.eof && !bad)]
      { s' with free := s'.free + 1 }

/-! ### Neighbours and delays (R511 to R513, R517) -/

/-- BEACON taken. -/
def takeBeacon (p : Nat) (f : Frame) (s : State) : State :=
  let x := s.vlk.port p
  let mis := f.hops == 0 && (f.dirB == (p == 0))
  let dup := f.src == linkNode s && f.pay 0 != s.vlk.nonce
  let y := if f.hops = 0 then { x with neighbour := f.src, miswire := x.miswire || mis } else x
  let s' := s.setV { (s.vlk.setPort p y) with dup := s.vlk.dup || dup }
  if (mis && !x.miswire) || (dup && !s.vlk.dup) then s'.arrive 373 else s'

/-- PDELAY_REQ taken: the reply with T2 and T3. -/
def takePdelayReq (p : Nat) (f : Frame) (ts : Nat) (s : State) : State :=
  let t2 := s.dtimeAt ts
  sendLocal s p 3 [ofNat32 (fld (f.pay 0) 15 0), lo32 t2, hi32 t2, lo32 s.dtime, hi32 s.dtime]

/-- A difference of two 64-bit times. -/
def timeDiff (a b : Nat) : Int := sext 64 (((a : Int) - b).emod (2 ^ 64)).toNat

/-- PDELAY_RESP taken. -/
def takePdelayResp (p : Nat) (f : Frame) (ts : Nat) (s : State) : State :=
  let x := s.vlk.port p
  match x.req with
  | some (q, t1) =>
    if q = fld (f.pay 0) 15 0 then
      let trip := timeDiff (s.dtimeAt ts) t1 - timeDiff (f.pay64 3) (f.pay64 1)
      s.setV (s.vlk.setPort p { x with req := none, trips := (trip :: x.trips).take 16 })
    else s
  | none => s

/-- PDELAY_PERIOD: an UP port asks. -/
def pdelayPeriod (s : State) (p : Nat) : State :=
  let x := s.vlk.port p
  if linkEn s ∧ x.st = 1 ∧ ¬ s.vlk.dup then
    let s' := sendLocal s p 2 [ofNat32 (x.pdseq % 65536)]
    s'.setV (s'.vlk.setPort p { x with req := some (x.pdseq % 65536, s.dtime), pdseq := x.pdseq + 1 })
  else s

/-! ### SYNC (R518 to R521) -/

/-- The offset O in ns of a SYNC. -/
def syncOffset (s : State) (p : Nat) (f : Frame) (ts : Nat) : Int :=
  (16 * timeDiff (s.dtimeAt ts) (f.pay64 1) - sext 64 (f.pay64 3) - portDelay (s.vlk.port p)).tdiv 16

/-- DTIME follows an offset: a step, or a slew until the next SYNC (R519). -/
def followTime (s : State) (o : Int) : State :=
  let c := s.clk.rebase s.dtime
  let period := 1000 * s.rf 0xA010 15 0
  let ppm := s.rf 0xA010 31 24
  let c' : Clk :=
    if 10000 < o.natAbs then s.clk.rebase (((s.dtime : Int) - o).emod (2 ^ 64)).toNat
    else if ppm * period < o.natAbs * 1000000 then { c with slewNum := if o < 0 then (ppm : Int) else -(ppm : Int), slewDen := 1000000 }
    else { c with slewNum := -o, slewDen := max 1 period }
  { s with clk := c' }

/-- The time-quality after a SYNC (R521); on FIO it stays INTERNAL (R40). -/
def syncQual (s : State) (o : Int) : State :=
  let n := if o.natAbs ≤ 100 then min 4 (s.vlk.good + 1) else 0
  let s := s.setV { s.vlk with good := n, syncFrom := s.clk.now }
  if n = 4 ∧ s.clk.pll then setQual s 3 else if s.clk.qual = 3 ∧ 1000 < o.natAbs then setQual s 1 else s

/-- A frame of the epoch's master arrives: the role follows a newer epoch and its sender. -/
def followMaster (s : State) (r src e : Nat) : State :=
  let s := followEpoch s r e
  changeRole s r { s.role r with frameAt := s.clk.now, master := src, valid := true }

/-- SYNC taken: the TIME master steers by none. -/
def takeSync (p : Nat) (f : Frame) (ts : Nat) (s : State) : State :=
  let e := fld (f.pay 0) 15 0
  match staleFrame s 0 f.src e with
  | some s' => s'
  | none =>
    if (s.role 0).own = 1 then s
    else
      let s := followMaster s 0 f.src e
      let o := syncOffset s p f ts
      let s := s.setV { s.vlk with offset := clampI (-32768) 32767 o, syncAt := some s.clk.now }
      syncQual (followTime s o) o

/-- TIME_QUALITY_LOSS: 4 SYNC_PERIOD without a SYNC. -/
def timeQualityLoss (s : State) : State :=
  if s.clk.qual = 3 ∧ (s.role 0).own ≠ 1 ∧ s.vlk.syncFrom + 4 * usTicks (s.rf 0xA010 15 0) ≤ s.clk.now then
    setQual (s.setV { s.vlk with good := 0 }) 1
  else s

/-- SYNC_PERIOD. -/
def syncPeriod (s : State) : State := if linkEn s ∧ (s.role 0).own = 1 then sendSync s else s

/-! ### ANNOUNCE, EPOCH_NOTICE and the role timeouts -/

/-- A MASTER ANNOUNCE that the part follows; `b` is the role as it was. -/
def followAnnounce (s : State) (r : Nat) (f : Frame) (b : LRole) : State :=
  let s := followEpoch s r (fld (f.pay 0) 15 0)
  let bk := wbit (f.pay 1) 22
  let n := fld (f.pay 1) 21 12
  roleNotice (s.setRole r { s.role r with heardAt := s.clk.now, master := f.src, valid := true, bkValid := bk, backup := if bk then n else 0,
                                          own := if bk && n == linkNode s then 2 else 0 }) r b

/-- A MASTER ANNOUNCE of a role that the part holds too (R523). -/
def rivalAnnounce (s : State) (r : Nat) (f : Frame) : State :=
  let e := fld (f.pay 0) 15 0
  let better := betterCand (fld (f.pay 1) 31 24, f.src) (s.rf 0xA00C (8 * r + 7) (8 * r), linkNode s)
  if epochNewer e (s.role r).epoch || better then followAnnounce (dropRole s r) r f (s.role r) else s

/-- The BACKUP becomes MASTER at the next epoch and sends its first frame at once (R523). -/
def backupRises (s : State) (r : Nat) : State := sendRole (becomeMaster s r ((s.role r).epoch + 1)) r

/-- RESIGNING of a role. -/
def resigning (s : State) (r : Nat) (f : Frame) : State :=
  let x := s.role r
  if x.master = f.src ∧ x.valid ∧ fld (f.pay 0) 15 0 = x.epoch then
    (if x.own = 2 then backupRises s r else changeRole s r { x with valid := false })
  else s

/-- ANNOUNCE taken; role numbers above MAINS name none. -/
def takeAnnounce (f : Frame) (s : State) : State :=
  let r := fld (f.pay 0) 31 30
  let st := fld (f.pay 0) 29 28
  if 1 < r then s
  else
    match if st = 0 then none else staleFrame s r f.src (fld (f.pay 0) 15 0) with
    | some s' => s'
    | none =>
      let s := s.setRole r ((s.role r).hear { node := f.src, prio := fld (f.pay 1) 31 24, at_ := s.clk.now })
      linkReview (match st with
        | 1 => if (s.role r).own = 1 then rivalAnnounce s r f else followAnnounce s r f (s.role r)
        | 3 => resigning s r f
        | _ => s)

/-- EPOCH_NOTICE taken (R526). -/
def takeNotice (f : Frame) (s : State) : State :=
  let r := fld (f.pay 0) 31 30
  let e := fld (f.pay 0) 15 0
  if r < 2 ∧ epochNewer e (s.role r).epoch then
    let before := s.role r
    let s := followEpoch (dropRole s r) r e
    linkReview (roleNotice (s.setRole r { s.role r with own := 0, rejoined := true,
                                                        valid := (s.role r).valid && before.own != 1 }) r before)
  else s

/-- MASTER_SILENCE_TIMEOUT (R523, first row). -/
def masterSilence (s : State) (r : Nat) : State :=
  let x := s.role r
  if linkEn s ∧ isCandidate s r ∧ ¬ s.vlk.dup ∧ x.own ≠ 1 ∧ x.heardAt + 3 * annPeriod s ≤ s.clk.now ∧ isBest s r then
    linkReview (becomeMaster s r (x.highest + 1))
  else s

/-- Ticks of one SYNC_PERIOD or MAINS_PERIOD. -/
def rolePeriod (s : State) (r : Nat) : Nat := usTicks (s.rf (0xA010 + 4 * r) 15 0)

/-- BACKUP_TAKEOVER (R523, second row). -/
def backupTakeover (s : State) (r : Nat) : State :=
  let x := s.role r
  if linkEn s ∧ ¬ s.glb.chipSafe ∧ x.own = 2 ∧ x.frameAt + 3 * rolePeriod s r ≤ s.clk.now then linkReview (backupRises s r) else s

/-- BACKUP_SILENCE (R524). -/
def backupSilence (s : State) (r : Nat) : State :=
  let x := s.role r
  if linkEn s ∧ x.own = 1 ∧ x.bkValid ∧ ¬ x.cands.any (fun c => c.node == x.backup && c.alive s) then
    let b := bestOther s r
    changeRole s r { x with bkValid := b.isSome, backup := (b.map (·.node)).getD 0 }
  else s

/-- ANNOUNCE_PERIOD: BEACON, then an ANNOUNCE of each role the part holds or stands for (R511, R522, R527). -/
def announcePeriod (s : State) : State :=
  if linkEn s then
    let s := sendFrame s 1 true 0 [s.vlk.nonce, packWord [(b2n (s.vlk.port 0).wrapped, 0), (b2n (s.vlk.port 1).wrapped, 1)]]
    [0, 1].foldl (fun s r => if ((s.role r).own ≠ 0 ∨ isCandidate s r) ∧ ¬ s.glb.chipSafe then sendAnnounce s r (s.role r).own else s) s
  else s

/-! ### Snapshots and the plant mains angle (R528 to R532) -/

/-- SNAP_PERIOD of stream register k: the angles are read as they stand at this instant (R528). -/
def snapPeriod (s : State) (k : Nat) : State :=
  let c := s.reg (0xA040 + 4 * k)
  if linkEn s ∧ wbit c 31 ∧ ¬ s.glb.chipSafe then
    let s := anglesTo s 4
    let n := cget zeroNat s.vlk.snapSeq k
    let s := sendUnlessDup s 6 true 0 (snapPay s (fld c 30 29) (fld c 28 25) n)
    s.setV { s.vlk with snapSeq := cset zeroNat s.vlk.snapSeq k ((n + 1) % 65536) }
  else s

/-- MAINS_PERIOD. -/
def mainsPeriod (s : State) : State := if linkEn s ∧ (s.role 1).own = 1 ∧ ¬ s.glb.chipSafe then sendMains s else s

/-- SNAP taken: every receive slot that follows its node and stream. -/
def takeSnap (f : Frame) (s : State) : State :=
  let w := f.pay 0
  let x : SnapIn := { ang := (f.pay 1).toNat, speed := (f.pay 2).toNat, tcap := f.pay64 3, qual := fld w 26 25, state := fld w 29 27,
                      dom := fld w 31 30, l360 := wbit w 20 }
  s.setV { s.vlk with rx := (List.range 8).foldl (fun l k =>
    if wbit (s.reg (A.rxslot k)) 31 ∧ s.rf (A.rxslot k) 9 0 = f.src ∧ s.rf (A.rxslot k) 30 27 = fld w 24 21
    then cset (fun _ => none) l k (some x) else l) s.vlk.rx }

/-- MAINS taken (R525, R530, R531). -/
def takeMains (f : Frame) (s : State) : State :=
  let e := fld (f.pay 5) 15 0
  let w := f.pay 0
  match staleFrame s 1 f.src e with
  | some s' => s'
  | none =>
    if (s.role 1).own = 1 then s
    else
      let s := followMaster s 1 f.src e
      let x : MainsIn := { ang := (f.pay 1).toNat, speed := (f.pay 2).toNat, tcap := f.pay64 3, qual := fld w 26 25, state := fld w 29 27,
                           at_ := s.clk.now }
      if onLink s 3 ∧ domEn s 3 then linkReview (s.setEl 3 { s.el 3 with mains := some x }) else s

/-- MAINS_TIMEOUT. -/
def mainsTimeout (s : State) : State := linkReview s

/-! ### Supervisory messages, TOPO, wake -/

/-- SUPERVISORY taken (R534). -/
def takeSupervisory (f : Frame) (ts : Nat) (s : State) : State :=
  let w := f.pay 0
  let d := s.dtimeAt ts
  let a := 0xA2000 + 64 * (s.vlk.rseq % 64)
  let s := s.putWords a ([packWord [(fld w 31 28, 28), (b2n f.bcast, 27), (f.src, 16), (fld w 21 16, 0)], ofNat32 (s.vlk.rseq % 65536), lo32 d, hi32 d] ++
    ((List.range 8).map (fun i => f.pay (1 + i))) ++ [ofNat32 s.clk.qual])
  (s.setV { s.vlk with rseq := (s.vlk.rseq + 1) % 65536 }).arrive 374

/-- SLEEPING ports that face a node. -/
def facing (s : State) (target : Nat) : List Nat :=
  [0, 1].filter (fun p => (s.vlk.port p).st == 2 && (s.vlk.port p).neighbour == target)

/-- WAKE on the SLEEPING ports that face the target (R537). -/
def sendWake (s : State) (target : Nat) : State := s.linkOut ((facing s target).map LinkSent.wake)

/-- SOURCE_FORGET (R510): 1 s without a frame. -/
def sourceForget (s : State) (src : Nat) : State :=
  match cget (fun _ => none) s.vlk.lastS src with
  | some (_, k) => if k + msTicks 1000 ≤ s.clk.now then s.setV { s.vlk with lastS := cdel s.vlk.lastS src } else s
  | none => s

/-! ### EN -/

/-- Both ports as they stand without a link, with what they have counted. -/
def portsOff (v : Vlk) : Vlk := [0, 1].foldl (fun v p => v.setPort p { crcErr := (v.port p).crcErr, breaks := (v.port p).breaks }) v

/-- A role as the link starts, its epoch kept. -/
def LRole.fresh (x : LRole) (now : Nat) : LRole := { epoch := x.epoch, highest := x.highest, heardAt := now, frameAt := now }

/-- The running state of the link at a change of EN: no port, role, source or frame is known. -/
def vlkFresh (s : State) : State :=
  let v := s.vlk
  let s := s.setV (portsOff { v with time := v.time.fresh s.clk.now, mains := v.mains.fresh s.clk.now, lastS := [], waiting := [], rx := [],
                                     notices := [], syncFrom := s.clk.now, good := 0 })
  linkReview (if onLink s 3 then s.setEl 3 { s.el 3 with mains := none } else s)

/-- A write of VLK_CFG (R511, R512): each write of EN = 1 draws a NONCE and clears DUP_ID. NODE_ID and the port enables change
only while EN = 0. -/
def vlkCfgWrite (s : State) (v : Word) : State :=
  let old := s.reg A.vlk
  let new := plainWrite A.vlk old v
  let new := if wbit old 0 && wbit new 0 then old else new
  let s := s.setReg A.vlk new
  let s := if wbit old 0 = wbit new 0 then s else vlkFresh s
  if wbit new 0 then ({ s with free := s.free + 1 }).setV { s.vlk with nonce := Config.nonce s.free, dup := false } else s

/-! ### Commands -/

/-- LINK_SEND: CSTAT, RESULT0 and state. -/
def linkSend (s : State) (w : List Word) : Nat × Word × State :=
  let c := wordAt w 2
  if ¬ linkEn s ∨ s.vlk.dup then (1, 0, s)
  else if 8 ≤ s.vlk.waiting.length then (2, 0, s)
  else
    let bytes := fld c 21 16
    let n := (bytes + 3) / 4
    let bc := wbit c 10
    let pay := packWord [(fld c 15 12, 28), (bytes, 16)] :: (bytesWords ((wordsBytes ((w.drop 3).take 8)).take bytes))
    let q := s.vlk.fseq
    let s := (s.setV { s.vlk with waiting := s.vlk.waiting ++ [(headWord s 9 bc (if bc then 0 else fld c 9 0) (1 + n), q, pay)] }).countFrame
    (0, ofNat32 q, sendWaiting s)

/-- LINK_RESIGN. -/
def linkResign (s : State) (r : Nat) : Nat × State := if (s.role r).own = 1 then (0, resign s r) else (1, s)

/-- LINK_WAKE: RESULT0 and state. -/
def linkWake (s : State) (target : Nat) : Word × State :=
  (packWord ((facing s target).map (fun p => (1, p))), sendWake (sendUnlessDup s 11 true 0 [packWord [(target, 0)]]) target)

/-! ### Dusk -/

/-- The link refuses a Dusk entry (R535). -/
def linkRefuses (s : State) : Bool := (s.role 0).own == 1 || (s.role 1).own == 1 || !s.vlk.waiting.isEmpty

/-- SLEEP on both ports at the commit (R535); the ports re-acquire symbol lock on wake. -/
def linkSleep (s : State) : State :=
  let s := if linkEn s then s.linkOut ([0, 1].flatMap (fun p => List.replicate 16 (LinkSent.sleep p))) else s
  s.setV ([0, 1].foldl (fun v p => v.setPort p { v.port p with st := 0, trips := [], req := none, wrapped := linkEn s }) s.vlk)

/-! ### Views (tables of VLK registers) -/

/-- The extrapolated angle of a receive slot; none when it is not fresh (R532). -/
def rxAngle (s : State) (k : Nat) : Option Nat :=
  match cget (fun _ => none) s.vlk.rx k with
  | some x =>
    let dt := timeDiff s.dtime x.tcap
    if s.clk.qual = 3 ∧ x.qual = 3 ∧ dt ≤ 1000000 * (s.rf (A.rxslot k) 23 16 : Int) then
      some (((x.ang : Int) + ((x.speed : Int) * dt * (if x.dom < 2 then 6 else 360)).fdiv 1000000000).emod
        ((if x.l360 then oneRev else 2 * oneRev : Nat) : Int)).toNat
    else none
  | none => none

/-- The role words. -/
def roleWord (x : LRole) : Word :=
  packWord [(if x.valid then x.master else 0, 22), (if x.bkValid then x.backup else 0, 12), (b2n x.rejoined, 11), (x.own, 9), (b2n x.valid, 8), (x.epoch % 256, 0)]

/-- One receive slot's read-only words. -/
def rxView (s : State) (k o : Nat) : Option Word :=
  let x := cget (fun _ => none) s.vlk.rx k
  match o with
  | 4 => some (ofNat32 ((rxAngle s k).getD 0xFFFFFFFF))
  | 8 => some (ofNat32 ((x.map (·.speed)).getD 0))
  | 0xC =>
    let age := match x with | some y => min 65535 ((timeDiff s.dtime y.tcap).toNat / 1000) | none => 65535
    some (packWord [(age, 16), (b2n (rxAngle s k).isSome, 3), ((x.map (·.state)).getD 0, 0)])
  | _ => none

/-- One port's words. -/
def portView (x : Port) (o : Nat) : Word :=
  if o = 0 then packWord [(x.neighbour, 22), (x.st, 20), (b2n x.wrapped, 19), (b2n x.miswire, 18), (((portDelay x).emod (2 ^ 18)).toNat, 0)]
  else packWord [(x.crcErr, 16), (x.breaks, 0)]

/-- A closed ring: both ports UP and neither wrapped. -/
def ringClosed (v : Vlk) : Bool := [0, 1].all (fun p => (v.port p).st == 1 && !(v.port p).wrapped)

def vlkView (s : State) (o : Nat) : Option Word :=
  let v := s.vlk
  if o = 4 then some (packWord [(s.clk.qual, 2), (b2n v.dup, 1), (b2n (ringClosed v), 0)])
  else if o = 0x18 then some (roleWord v.time)
  else if o = 0x1C then some (roleWord v.mains)
  else if o = 0x20 then some (packWord [(ageOf s.clk.now v.syncAt 400000 65535, 16), ((v.offset.emod 65536).toNat, 0)])
  else if o = 0x24 then some (packWord [(v.mains.epoch / 256, 24), (v.time.epoch / 256, 16), (v.stale, 8), (v.orphan, 0)])
  else if 0x30 ≤ o ∧ o < 0x40 then some (portView (v.port ((o - 0x30) / 8)) (o % 8))
  else if 0x80 ≤ o ∧ o < 0x100 then rxView s ((o - 0x80) / 0x10) (o % 0x10)
  else if o = 0x100 then some (ofNat32 (v.rseq % 65536))
  else none

end Sys2Proof.Machine
end

