-- ==== Sys2Proof/Machine/Hif.lean ====
section
/-!
DEFINITION. The host interface: set-up and ring checks, polling and fetching, suspension, host path reset, MSI-X accesses,
telemetry periods, and the handling of one command at the head of its ring (Host Interface, Rings and Freshness, R300 to R332).
-/
namespace Sys2Proof.Machine

/-! ### GLB words as read -/

/-- GLB_STATUS. -/
def glbStatusWord (s : State) : Word :=
  packWord [(b2n (mirrorBusy s), 12), ((List.range 4).foldl (fun a n => a + b2n (roleOut s n) * 2 ^ n) 0, 8), (b2n s.glb.armed, 7),
            (b2n s.glb.chipSafe, 6), (b2n s.glb.safeHold, 5), (b2n s.glb.isSealed, 4), (s.clk.step, 2), (b2n s.clk.pll, 0)]

/-- GLB_CAPACITY. -/
def capacityWord (s : State) : Word := ofNat32 (stepCapacity s.clk.step)

/-! ### Ring set-up (R312 to R315) -/

def hostReset (s : State) : Bool := s.rb 0x1004 1

/-- The enabled rings of a TYPE. -/
def enabledRings (s : State) (ty : Nat) : List Nat := (List.range 64).filter (fun r => s.rb (A.ring r) 0 && ringType s r == ty)

def ringSlot (s : State) (r : Nat) : Nat := s.rf (A.ring r) 21 16
def ringPair (s : State) (r : Nat) : Nat := s.rf (A.ring r) 13 8
def ringCell (s : State) (r : Nat) : Nat := s.rf (A.ring r) 28 24

/-- Check 1 of a ring: LOG2N and ESIZE. -/
def checkSize (s : State) (r : Nat) : Bool :=
  decide (4 ≤ s.rf (A.ring r) 7 4) && decide (s.rf (A.ring r) 7 4 ≤ 12) &&
  (match ringType s r with | 0 | 2 => ringBytes s r == 64 | 1 => ringBytes s r == 32 | _ => true)

/-- Check 5 of a completion ring. -/
def checkRoom (s : State) (r : Nat) : Bool :=
  decide ((((enabledRings s 0).filter (fun c => ringPair s c == r)).map (ringN s)).foldl (· + ·) 0 ≤ ringN s r)

/-- The table *Ring checks*: the rings that fail a check; a check of the whole set is reported with ring 0. -/
def ringCheckFails (s : State) : Nat → List Nat
  | 1 => ((List.range 64).filter (fun r => s.rb (A.ring r) 0)).filter (fun r => !checkSize s r)
  | 2 => if s.doorbellBase = 0 ∨ s.echoBase = 0 then [0] else []
  | 3 => (enabledRings s 0).filter (fun r =>
      ringSlot s r == 0 || (enabledRings s 0).any (fun c => c != r && ringSlot s c == ringSlot s r))
  | 4 => (enabledRings s 0).filter (fun r => !(enabledRings s 1).contains (ringPair s r))
  | 5 => (enabledRings s 1).filter (fun r => !checkRoom s r)
  | 6 => (enabledRings s 3).filter (fun r =>
      decide (23 < ringCell s r) || (enabledRings s 3).any (fun c => c != r && ringCell s c == ringCell s r))
  | 7 => if enabledRings s 0 = [] ∨ enabledRings s 1 = [] then [0] else []
  | _ => []

/-- The first failing check and its ring. -/
def ringCheck (s : State) : Option (Nat × Nat) :=
  ((List.range 8).drop 1).findSome? (fun k => (ringCheckFails s k).head?.map (fun r => (k, r)))

/-- Every ring index starts at 0 (R315). -/
def indicesZero (s : State) : State :=
  (List.range 64).foldl (fun s r => s.setReg (A.ring r + 0xC) 0) s

/-- HOST_RESET cleared (R312). -/
def clearHostReset (s : State) : State := s.setRf 0x1004 1 1 0

/-- A write of RUN = 1 that is accepted: the rings are checked and start, and the producer table is taken (R314, R315, R342). -/
def runAccepted (s : State) : State :=
  if s.running then s
  else match ringCheck s with
    | some (k, r) => (s.setRf 0x1004 11 8 k).setRf 0x1004 21 16 r
    | none =>
      let s := indicesZero (((s.setRf 0x1000 0 0 1).setRf 0x1004 11 8 0).setRf 0x1004 21 16 0)
      tableCheckTake { s with hif := { s.hif with rings := [], polled := false, pollBusy := false, rr := 0, awaited := [], taken := [],
                                                  producers := [], backlog := [] } }

/-- A write of HIF_CTL.RUN = 1 (R311, R312). -/
def runStart (s : State) : State :=
  if s.glb.isSealed ∧ ¬ hostReset s then clearHostReset (s.refuseWrite false)
  else clearHostReset (runAccepted s.unFirst)

/-! ### Resets and states of the link (R306 to R310) -/

/-- HIF registers at their values after reset, PERST_MODE kept. -/
def hifRegsReset (regs : Cells Word) : Cells Word :=
  let kept := fld (cget regDefault regs 0x1000) 8 8
  rset (regs.filter (fun p => decide (p.1 < 0x1000) || decide (0x2000 ≤ p.1))) 0x1000 (ofNat32 (kept * 256))

/-- A host path reset (R310). -/
def hostPathReset (s : State) : State :=
  { s with regs := rset (hifRegsReset s.regs) 0x1004 2,
           hif := { lstate := s.hif.lstate, wakeN := s.hif.wakeN, pci := { lanes := s.hif.pci.lanes, speed := s.hif.pci.speed } },
           irq := { s.irq with msixEn := false, msixMask := false },
           pwr := { s.pwr with ask := match s.pwr.ask with | some (_, some _) => none | a => a } }

/-- BME, the D-state and the link state change, with the rest of configuration space (R301, R302, R306, R308). -/
def suspension (s : State) (bme : Bool) (dstate lstate : Nat) (pci : PciCfg) : State :=
  let was := s.suspended
  let s := { s with hif := { s.hif with bme := bme, dstate := dstate, lstate := lstate, pci := pci, wakeN := s.hif.wakeN && lstate == 2 } }
  if was ∧ ¬ s.suspended then resumeReads (flushBacklog s) else s

/-- PME_Turn_Off is answered (R308). -/
def pmeTurnOff (s : State) : State := s.emit .message [.pmeAck]

/-! ### MSI-X table and pending bit array (R303) -/

/-- The words of an access of 4 or 8 bytes. -/
def accessWords (addr size : Nat) (v : BitVec 64) : List (Nat × Word) :=
  if size = 8 then [(addr, lo32 v.toNat), (addr + 4, hi32 v.toNat)] else [(addr, lo32 v.toNat)]

/-- A write to the MSI-X table: naturally aligned, accepted at any time. -/
def msixTableWrite (s : State) (addr size : Nat) (v : BitVec 64) : State :=
  let s := s.unFirst
  if (size = 4 ∨ size = 8) ∧ addr % size = 0 ∧ 0x1A00 ≤ addr ∧ addr + size ≤ 0x1C00 then
    let s := (accessWords addr size v).foldl (fun s p => s.setReg p.1 (plainWrite p.1 (s.reg p.1) p.2)) s
    { s with irq := irqUnmask s.regs s.irq }
  else s

/-- MSI-X Enable and Function Mask (R388). -/
def msixMaskWrite (s : State) (en mask : Bool) : State :=
  let q := { s.irq with msixEn := en, msixMask := mask }
  { s with irq := irqUnmask s.regs q }

/-! ### Awaited arm points (R325, R176) -/

/-- The set whose ARM is the next arm point of a slot (R172): the active one while it has EN = 1, else the shadow set. -/
def nextArmSet (y : Slot) : List Word := if slEn y.set then y.set else y.shadow.getD y.set

/-- The predicted DTIME of the next arm point of a slot; none while its start domain is not in CYCLE. -/
def predictArm (s : State) (n slot : Nat) : Option Nat :=
  let w := nextArmSet ((s.unit (servingUnit s n)).slot slot)
  let d := slSdom w
  if syncOf s d = .cycle ∧ 0 < incOf s d ∧ slEn w then
    (s.angle d).map (fun a =>
      let dist := fdist (domL s d) a (slArm s w)
      let dist := if dist = 0 then domL s d else dist
      s.dtimeOf (s.clk.now + (dist * 65536 + incOf s d - 1) / incOf s d))
  else none

/-- Kept arm points that have not passed. A prediction not yet past is replaced by the one that the region gives now (R176, R325). -/
def awaitedNow (s : State) : List (Nat × Nat × Option Nat) :=
  (s.hif.awaited.filter (fun p => match p.2.2 with | some k => decide (s.dtime < k) | none => true)).map (fun p =>
    (p.1, p.2.1, (predictArm s p.1 p.2.1).orElse (fun _ => p.2.2)))

/-- Whether a poll is due every 1 µs: within AWAIT_LEAD of the earliest kept arm point. -/
def nearArm (s : State) : Bool :=
  (awaitedNow s).any (fun p => match p.2.2 with | some k => decide (k ≤ s.dtime + 1000 * s.rf 0x1018 31 16) | none => false)

/-- An awaited SLOT_WRITE keeps its arm point, or is counted. -/
def keepArm (s : State) (n slot : Nat) : State :=
  let l := awaitedNow s
  if 16 ≤ l.length then ({ s with hif := { s.hif with awaited := l } }).cntSat 0x101C 31 16
  else { s with hif := { s.hif with awaited := l ++ [(n, slot, predictArm s n slot)] } }

/-! ### Polling and fetching (R319 to R324) -/

/-- Ticks between polls. -/
def pollInterval (s : State) : Nat := usTicks (if nearArm s then 1 else s.rf 0x1018 6 0)

/-- DOORBELL_POLL. -/
def doorbellPoll (s : State) : State :=
  if s.running ∧ ¬ s.suspended ∧ ¬ s.hif.pollBusy ∧ (¬ s.hif.polled ∨ s.hif.pollAt + pollInterval s ≤ s.clk.now) then
    ({ s with hif := { s.hif with polled := true, pollAt := s.clk.now, pollBusy := true, awaited := awaitedNow s } }).emit .fetch
      [.read s.doorbellBase 128]
  else s

/-- Forward count of a 16-bit index. -/
def idxDist (a b : Nat) : Nat := (((b : Int) - a).emod 65536).toNat

/-- The reads of a ring's descriptors `lo` to `hi` ahead of its consumer index. -/
def descReads (s : State) (r lo hi : Nat) : List Sent :=
  (List.range (hi - lo)).map (fun i => Sent.read (ringAddr s r (ringDev s r + lo + i)) 64)

/-- A ring at a poll that shows producer index p (R320 to R322). -/
def pollRing (s : State) (r p : Nat) : State :=
  let n := idxDist (ringDev s r) p
  let s := s.setRf (A.ring r + 0xC) 31 16 p
  if ringN s r < n then s.cntSat (A.ring r + 0x10) 15 8
  else
    let w := min 16 n
    (s.setRing r { s.ring r with want := w }).emit .fetch (descReads s r (s.ring r).want w)

/-- Command rings in the order of this poll: after the one served first at the poll before. -/
def pollOrder (s : State) : List Nat :=
  let l := enabledRings s 0
  (l.filter (fun r => decide (s.hif.rr < r))) ++ (l.filter (fun r => decide (r ≤ s.hif.rr)))

/-- The producer index that the doorbell data give a ring. -/
def prodOf (prods : List (Nat × Nat)) (slot : Nat) : Nat := (((prods.find? (fun p => p.1 == slot)).map (·.2)).getD 0) % 65536

/-- POLL_DATA_RETURN: what the rings do; no descriptor is fetched during a suspension (R306) or from the application of DUSK_ENTER
(R544). -/
def pollReturn (s : State) (ok : Bool) (gen : Word) (prods : List (Nat × Nat)) : State :=
  if ¬ s.hif.pollBusy then s
  else
    let s := { s with hif := { s.hif with pollBusy := false } }
    if ¬ ok then s
    else
      let s := { s with hif := { s.hif with gen := fld gen 15 0 } }
      if s.pwr.entry ≠ 0 ∨ s.suspended then s
      else
        let l := pollOrder s
        let s := l.foldl (fun s r => pollRing s r (prodOf prods (ringSlot s r))) s
        { s with hif := { s.hif with rr := (l.head?).getD s.hif.rr } }

/-! ### Commands at the head of a ring (R329, R330) -/

/-- What a command answers; `applied` marks a CSTAT that the tables mark as applied. -/
structure Reply where
  cstat : Nat := 0
  hstat : Nat := 0
  r0 : Word := 0
  r1 : Word := 0
  applied : Bool := false
  deriving DecidableEq, Repr

def Fetched.op (c : Fetched) : Nat := fld (wordAt c.words 0) 7 0
def Fetched.tag (c : Fetched) : Nat := (wordAt c.words 1).toNat
def Fetched.w (c : Fetched) (i : Nat) : Word := wordAt c.words i
/-- AWAITED of a descriptor. -/
def Fetched.awaited (c : Fetched) : Bool := wbit (c.w 0) 8

/-- The opcodes of the tables of commands. -/
def opKnown (op : Nat) : Bool :=
  (decide (1 ≤ op) && decide (op ≤ 5)) || (decide (0x10 ≤ op) && decide (op ≤ 0x14)) || (decide (0x20 ≤ op) && decide (op ≤ 0x23)) ||
  op == 0x30 || (decide (0x40 ≤ op) && decide (op ≤ 0x4A)) || (decide (0x50 ≤ op) && decide (op ≤ 0x53)) ||
  (decide (0x58 ≤ op) && decide (op ≤ 0x5A)) || (decide (0x60 ≤ op) && decide (op ≤ 0x65)) || (decide (0x68 ≤ op) && decide (op ≤ 0x6F))

/-- The completion of a command taken from the head of its ring. -/
def reply (s : State) (r : Nat) (c : Fetched) (y : Reply) : State :=
  complete (s.setRing r { s.ring r with fetched := (s.ring r).fetched.tail }) r c.op y.cstat y.hstat c.tag c.idx y.r0 y.r1
    ((y.hstat == 0 && y.cstat == 0) || y.applied)

/-- Commands that are answered as they reach the head of their ring: FETCH_FAULT (R324), or HSTAT OPCODE for an unknown opcode. -/
def refuseUnknown (s : State) (r : Nat) : State :=
  ((s.ring r).fetched.takeWhile (fun c => c.fault || !opKnown c.op)).foldl (fun s c => reply s r c { hstat := if c.fault then 3 else 1 }) s

/-- A command completes, and the next one comes to the head. -/
def finish (s : State) (r : Nat) (c : Fetched) (y : Reply) : State := refuseUnknown (reply s r c y) r

/-- The command at the head of ring r. -/
def headCmd (s : State) (r : Nat) : Option Fetched := if ringOn s r ∧ ringType s r = 0 then (s.ring r).fetched.head? else none

/-- The defined bits of payload words 2 to 14 of an opcode, embedded entries whole (tables of commands). -/
def payMask (op : Nat) (c : Fetched) (i : Nat) : Word :=
  let all : Word := 0xFFFFFFFF
  match op, i with
  | 0x02, 2 | 0x02, 3 => all
  | 0x03, 2 => 0x00001313
  | 0x04, 2 => 3
  | 0x04, _ => if i < 3 + 3 * (fld (c.w 2) 1 0 + 1) ∧ 3 ≤ i then (if i % 3 = 0 then 0x000FFFFC else all) else 0
  | 0x05, 2 => 0x007FFFFC
  | 0x05, 3 => 0x00001FFF
  | 0x05, 4 | 0x05, 5 => all
  | 0x10, 2 => 0x00003FFF
  | 0x10, _ => if 3 ≤ i ∧ i ≤ 9 then all else 0
  | 0x11, 2 | 0x14, 2 => 0x00001FFF
  | 0x12, 2 => 0x00005FFF
  | 0x13, 2 => 0x0001DC00
  | 0x20, 2 => 0x00000F3F
  | 0x20, 3 | 0x20, 4 => all
  | 0x21, 2 => 0x0000003F
  | 0x21, 3 => 0x000007FC
  | 0x21, 4 => 0x000007FF
  | 0x21, 5 | 0x21, 6 => all
  | 0x22, 2 => 0x00011F3F
  | 0x23, 2 => 3
  | 0x23, 3 => 0x0000FFFF
  | 0x30, 2 => 0x00001F1F
  | 0x30, 3 => all
  | 0x40, 2 => 3
  | 0x41, 2 => 7
  | 0x43, 2 => all
  | 0x44, 2 => 0x0007FFFC
  | 0x44, 3 => 0x00001FFF
  | 0x44, 4 | 0x44, 5 => all
  | 0x53, 2 | 0x53, 4 => 0x7F
  | 0x53, 3 => all
  | 0x58, 2 => 0x003FF7FF
  | 0x58, _ => if 3 ≤ i ∧ i ≤ 10 then all else 0
  | 0x59, 2 => 1
  | 0x5A, 2 => 0x3FF
  | 0x60, 2 => 0x00073F0F
  | 0x60, _ => if 3 ≤ i ∧ i ≤ 3 + fld (c.w 2) 18 16 then all else 0
  | 0x61, 2 => 0x003F3F0F
  | 0x62, 2 => 0x0000FFFF
  | 0x62, 3 => 0x1F
  | 0x63, 2 => 0xF
  | 0x63, 3 => all
  | 0x64, 2 => 0x0007000F
  | 0x64, _ => if 3 ≤ i ∧ i ≤ 3 + fld (c.w 2) 18 16 then all else 0
  | 0x65, 2 | 0x65, 3 => 0x0000FFFF
  | 0x68, 2 | 0x69, 2 | 0x6A, 2 | 0x6B, 2 | 0x6C, 2 => 0x1F
  | 0x6B, 3 | 0x6B, 4 => all
  | 0x6D, 2 => 0x000FFFFF
  | 0x6D, 3 => 0x001FFFFF
  | _, _ => 0

/-- No reserved bit of the header or the payload is set (R13). -/
def reservedGood (c : Fetched) : Bool :=
  (c.w 0 &&& (if c.op = 0x10 then 0xFFFFFE00 else 0xFFFFFF00)) == 0 && (c.w 15 &&& 0x7FFFFFFF) == 0 &&
  ((List.range 13).all (fun k => (c.w (k + 2) &&& ~~~ payMask c.op c (k + 2)) == 0))

/-- The region that a command is addressed to waits for the first evaluation of a takeover (R456). -/
def roleHeld (s : State) (c : Fetched) : Bool :=
  match cmdRole c.words, s.wdn.takeover with
  | some n, some t => n == t.role && !t.lend
  | _, _ => false

/-- The command of opcode `op` at the head of ring r is applied by `f`, refused, or left waiting (R329, R456, R457, R465). -/
def ringCmd (op r : Nat) (f : State → Fetched → Reply × State) (s : State) : State :=
  match headCmd s r with
  | none => s
  | some c =>
    if c.op ≠ op then s
    else if s.glb.chipSafe ∧ op ≠ 1 ∧ op ≠ 0x43 then finish s r c { cstat := 0xFF }
    else if ¬ reservedGood c then finish s r c { hstat := 2 }
    else match cmdRole c.words with
      | some n =>
        if 4 ≤ n then finish s r c { hstat := 2 }
        else if roleHeld s c then s
        else if ¬ roleServed s n then finish s r c { cstat := 0xFE }
        else finish (f s c).2 r c (f s c).1
      | none => finish (f s c).2 r c (f s c).1

/-- An indirect command whose length and address obey their rules: its buffer is read (R332). Its length in words. -/
def bufWords (c : Fetched) : Option Nat :=
  match c.op with
  | 0x05 => let n := fld (c.w 3) 12 0; if 4 ≤ n ∧ n ≤ 4096 ∧ n % 4 = 0 ∧ fld (c.w 4) 1 0 = 0 then some (n / 4) else none
  | 0x20 => if fld (c.w 3) 5 0 = 0 then some 16 else none
  | 0x21 => let n := fld (c.w 4) 10 0
    if 4 ≤ n ∧ n % 4 = 0 ∧ fld (c.w 3) 10 0 + n ≤ 0x440 ∧ fld (c.w 5) 1 0 = 0 then some (n / 4) else none
  | 0x44 => let n := fld (c.w 3) 12 0
    if 4 ≤ n ∧ n ≤ 4096 ∧ n % 4 = 0 ∧ fld (c.w 2) 18 0 + n ≤ 524288 ∧ fld (c.w 4) 1 0 = 0 then some (n / 4) else none
  | _ => none

/-- The reads of the buffer of an indirect command of n words (R332, R361): the host address stands in the two words from the opcode's
own place. -/
def bufReads (s : State) (c : Fetched) (n : Nat) : List Sent :=
  let i := match c.op with | 0x20 => 3 | 0x21 => 5 | _ => 4
  readRequests s.hif.pci.mrrs ((List.range n).map (fun k => (pair64 c.words i + 4 * k, 4)))

/-- A fetch of ring r fails; after the third failure the ring moves on, and the command is answered FETCH_FAULT in its turn (R324,
R329). `desc` is the descriptor when it was read. -/
def fetchFail (s : State) (r : Nat) (desc : Option (List Word)) : State :=
  let x := s.ring r
  if x.fails < 2 then s.setRing r { x with fails := x.fails + 1, want := 0 }
  else
    let i := ringDev s r
    let c : Fetched := { idx := i, words := desc.getD [], buf := [], fault := true }
    let s := ((s.setRing r { x with fails := 0, want := x.want - 1, fetched := x.fetched ++ [c] }).setRf (A.ring r + 0xC) 15 0 (i + 1)).cntSat
      (A.ring r + 0x14) 31 16
    refuseUnknown (s.emit .completion [.write (s.echoBase + 2 * r) (echoBytes ((i + 1) % 65536))]) r

/-- A lap mismatch (R323). -/
def lapMiss (s : State) (r : Nat) : State :=
  let x := s.ring r
  let s := (s.setRing r { x with want := 0, lapRun := x.lapRun + 1 }).cntSat (A.ring r + 0x10) 31 16
  if x.lapRun + 1 = 64 then (s.setRf (A.ring r + 0x10) 0 0 1).arrive 7 else s

/-- A descriptor is taken. -/
def takeDesc (s : State) (r : Nat) (ws buf : List Word) : State :=
  let x := s.ring r
  let i := ringDev s r
  let s := s.setRing r { x with want := x.want - 1, fails := 0, lapRun := 0, fetched := x.fetched ++ [{ idx := i, words := ws, buf := buf }] }
  let s := (((s.setRf (A.ring r + 0xC) 15 0 (i + 1)).cntWrap (A.ring r + 0x14) 15 0).setRf (A.ring r + 0x10) 0 0 0)
  refuseUnknown (s.emit .completion [.write (s.echoBase + 2 * r) (echoBytes ((i + 1) % 65536))]) r

/-- DESCRIPTOR_FETCH_DONE: the descriptor, and the buffer that it makes the device read (R323, R324, R332). -/
def fetchDone (s : State) (r : Nat) (desc buf : Option (List Word)) : State :=
  if ¬ ringOn s r ∨ (s.ring r).want = 0 ∨ s.suspended ∨ s.pwr.entry ≠ 0 then s.setRing r { s.ring r with want := 0 }
  else
    match desc with
    | none => fetchFail s r none
    | some ws =>
      if fld (wordAt ws 15) 31 31 ≠ lapBit (ringN s r) (ringDev s r) then lapMiss s r
      else
        let c : Fetched := { idx := 0, words := ws, buf := [] }
        match bufWords c, buf with
        | none, _ => takeDesc s r ws []
        | some n, some b => takeDesc (s.emit .fetch (bufReads s c n)) r ws (b.take n)
        | some n, none => fetchFail (s.emit .fetch (bufReads s c n)) r (some ws)

/-! ### Telemetry periods (R338) -/

/-- The value of a sampled kind at an expiry. -/
def sampleValue (s : State) (kind inst : Nat) : List Word :=
  if kind = 0x10 then [ofNat32 (s.angleWord inst), (atuView s (0x100 + 0x100 * inst + 0x24)).getD 0, ofNat32 (syncOf s inst).code]
  else if kind = 0x11 then [s.reg 0xC514, s.reg 0xC518, packWord [(s.rf 0xC51C 15 0, 0), (s.rf 0xC510 0 0, 16)]]
  else [glbStatusWord s, capacityWord s]

/-- A sampled kind may be captured: the synchronizing check only while D2 and D3 are in CYCLE (R340). -/
def sampleDefined (s : State) (kind : Nat) : Bool := kind != 0x11 || ((s.el 2).st == .cycle && (s.el 3).st == .cycle)

/-- TELEMETRY_PERIOD of producer i. -/
def telemetryPeriod (s : State) (i : Nat) : State :=
  match s.hif.entry i with
  | none => s
  | some e =>
    let p := s.hif.prod i
    if pePeriod e = 0 ∨ s.clk.now < p.nextAt then s
    else
      let s := s.setProd i { p with nextAt := p.nextAt + usTicks (pePeriod e) }
      if sampledKind (peKind e) then
        (if sampleDefined s (peKind e) then
          let c := captureNow s (peDom e) (sampleValue s (peKind e) (peInst e))
          publishLatest (s.setProd i { s.hif.prod i with latest := some c, isNew := true }) i e
         else s)
      else publishLatest s i e

/-! ### Views -/

/-- HIF registers that are not stored words. -/
def hifView (s : State) (o : Nat) : Option Word :=
  if o = 4 then some (setFld (setFld (s.reg 0x1004) 2 2 (b2n s.suspended)) 0 0 (b2n s.running))
  else if o = 0x1C then some (setFld (s.reg 0x101C) 4 0 (awaitedNow s).length)
  else if o = 0x20 then
    some (packWord [(s.hif.dstate, 14), (b2n s.hif.bme, 13), (s.hif.lstate, 10), (s.hif.pci.lanes, 4), (s.hif.pci.speed, 0)])
  else if o = 0xC00 then some (packWord (s.irq.pba.map (fun v => (1, v))))
  else if o = 0xC04 then some 0
  else none

/-- GLB registers that are not stored words. -/
def glbView (s : State) (o : Nat) : Option Word :=
  match o with
  | 0x0C => some (modeNowWord s)
  | 0x10 => some (packWord [(b2n s.glb.first, 1), (b2n s.glb.isSealed, 0)])
  | 0x14 => some (packWord [(b2n s.glb.refusedBar2, 31), (s.glb.refused, 0)])
  | 0x18 => some (glbStatusWord s)
  | 0x1C => some (capacityWord s)
  | 0x20 => some (lo32 s.dtime)
  | 0x24 => some (hi32 s.dtime)
  | 0x28 => some (ofNat32 s.glb.qualLatch)
  | 0x30 => some (lo32 s.glb.digest)
  | 0x34 => some (hi32 s.glb.digest)
  | 0x38 => some (ofNat32 s.glb.cause)
  | _ => none

end Sys2Proof.Machine
end

