-- ==== Sys2Proof/Machine/Power.lean ====
section
/-!
DEFINITION. Clock start-up, Dusk and wake, resets, the restore, power registers (Dusk, Reset and Retained State, R538 to R572;
Wheels and Angle Domains, R95 to R99; Interrupt Controller, R404 to R406; Pins, R578, R586, R592).
-/
namespace Sys2Proof.Machine

def State.setPwr (s : State) (p : Power) : State := { s with pwr := p }

/-! ### The switch to the PLL (R538 to R541, R41) -/

def pllLocked (s : State) : Bool := s.rb 0x2004 8

/-- PLL_LOCK. -/
def pllLock (s : State) : State := s.setRf 0x2004 8 8 1

/-- A request for the switch; `r` is the ring of a PLL_SWITCH. -/
def pllAsk (s : State) (r : Option Nat) : State := if s.clk.pll ∨ s.pwr.ask.isSome then s else s.setPwr { s.pwr with ask := some (s.clk.now, r) }

/-- The PLL_SWITCH at the head of its ring completes. -/
def pllReply (s : State) (r : Option Nat) (y : Reply) : State :=
  match r with
  | some r => match headCmd s r with
    | some c => if c.op = 0x51 then finish s r c y else s
    | none => s
  | none => s

/-- PLL_SWITCH at the head of ring r (R539); a switch already made completes with ON_PLL. -/
def pllSwitch (r : Nat) (s : State) : State :=
  match headCmd s r with
  | none => s
  | some c =>
    if c.op ≠ 0x51 then s
    else if s.glb.chipSafe then finish s r c { cstat := 0xFF }
    else if ¬ reservedGood c then finish s r c { hstat := 2 }
    else if s.clk.pll then finish s r c { cstat := 2, r0 := glbStatusWord s }
    else match s.pwr.ask with
      | some (k, none) => s.setPwr { s.pwr with ask := some (k, some r) }
      | _ => pllAsk s (some r)

/-- DTIME goes on without a step at a change of the clock (R540): the base moves to the present, the slew stays. -/
def clockTo (s : State) (pll : Bool) : State :=
  { s with clk := { (s.clk.rebase s.dtime) with pll := pll, slewNum := s.clk.slewNum, slewDen := s.clk.slewDen } }

/-- The bridge bound in µs at the switch: 2 % of the time on FIO since the wake is added (R555). -/
def bridgeAtSwitch (s : State) : State :=
  if s.pwr.bridge then
    let b := s.pwr.bound + (s.clk.now - s.pwr.wokeAt) / 20000
    (s.setPwr { s.pwr with bound := b }).setReg 0x2028 (ofNat32 (min (2 ^ 32 - 1) b))
  else s

/-- CLOCK_SWITCH (R539, R540, R430). -/
def clockSwitch (s : State) : State :=
  match s.pwr.ask with
  | some (_, r) =>
    if pllLocked s ∧ ¬ s.clk.pll then
      let s := bridgeAtSwitch (clockTo (s.setPwr { s.pwr with ask := none }) true)
      let s := masterQual (setQual s (if s.pwr.bridge then 2 else 1))
      pllReply (reelReview s) r { r0 := glbStatusWord (reelReview s) }
    else s
  | none => s

/-- PLL_SWITCH_TIMEOUT: 1 ms without lock. -/
def pllTimeout (s : State) : State :=
  match s.pwr.ask with
  | some (k, r) =>
    if k + msTicks 1 ≤ s.clk.now ∧ ¬ pllLocked s then
      pllReply (s.setPwr { s.pwr with ask := none }) r { cstat := 1, r0 := glbStatusWord s }
    else s
  | none => s

/-- PLL_LOCK_LOSS (R41): FIO again, the lock bit clear; loss of lock is fatal. -/
def pllLockLoss (s : State) : State :=
  let s := s.setRf 0x2004 8 8 0
  let s := if s.clk.pll then setQual (clockTo s false) 0 else s
  fatalNow s 0x34

/-! ### Dusk entry (R543 to R549) -/

/-- The number of voters, and the ID of voter i in the order of the table *Dusk voters*: Warden, units, banks, converters, Reel
block, link, transfer engine, queue cells, host interface, interrupt controller. -/
def duskVoters : Nat := 46
def voterId (i : Nat) : Nat :=
  if i = 0 then 0x01 else if i < 6 then 0x02 + (i - 1) else if i < 22 then 0x10 + (i - 6) else if i < 38 then 0x20 + (i - 22)
  else if i < 40 then 0x30 + (i - 38) else 0x38 + (i - 40)

/-- Voter i has stopped: it has agreed to an entry in progress (R545). -/
def voterStopped (s : State) (i : Nat) : Bool := s.pwr.entry != 0 && decide (i < s.pwr.voter)

def anyChan (s : State) (b : Nat) (f : Cell → Bool) : Bool := (chansOf b).any (fun c => f (s.cell c))

/-- Bank b refuses. -/
def bankRefuses (s : State) (b : Nat) : Bool :=
  anyChan s b (fun x => x.run.isSome || x.wait.isSome) || (s.bank b).kink.isSome

/-- Unit u refuses. -/
def unitRefuses (s : State) (u : Nat) : Bool :=
  (s.unit u).slots.any (fun p => p.2.st == .armed || p.2.st == .frozen || p.2.running.isSome)

/-- The Warden refuses (R497 among the rest). -/
def wardenRefuses (s : State) : Bool :=
  s.round.phase == 2 || s.round.phase == 3 || s.wdn.takeover.isSome || s.rb 0x3240 3 || s.fw.restart.isSome || s.jrn.writing.isSome

/-- The host interface refuses: a fetched command not applied but the DUSK_ENTER itself, or a write not made. -/
def hifRefuses (s : State) : Bool :=
  s.hif.rings.any (fun p => p.2.fetched.any (fun c => !(c.op == 0x50 && s.pwr.ring == some p.1 && (p.2.fetched.head?.map (·.idx)) == some c.idx))) ||
  !s.hif.backlog.isEmpty || !s.irq.due.isEmpty

/-- Voter i refuses (table *Dusk voters*). -/
def voterRefuses (s : State) (i : Nat) : Bool :=
  if i = 0 then wardenRefuses s
  else if i < 6 then unitRefuses s (i - 1)
  else if i < 22 then bankRefuses s (i - 6)
  else if i < 40 then false
  else match i with
    | 40 => reelRefuses s
    | 41 => linkRefuses s
    | 42 => (List.range 32).any (fun n => (s.xch n).st == .run || (s.xch n).st == .wait)
    | 43 => (List.range 24).any (fun q => qEnabled s q && (!(s.qcell q).words.isEmpty || !(s.qcell q).opened.isEmpty))
    | 44 => hifRefuses s
    | _ => false

/-- PARKED channels become IDLE, and none of them reads the trace any more (R380). -/
def unparkAll (s : State) : State :=
  (List.range 32).foldl (fun s n => if (s.xch n).st = .parked then noteOwner (s.setX n { s.xch n with st := .idle }) else s) s

/-- The DUSK_ENTER at the head of the ring that began the entry completes. -/
def duskReply (s : State) (y : Reply) : State :=
  match s.pwr.ring with
  | some r => match headCmd s r with
    | some c => if c.op = 0x50 then finish (s.setPwr { s.pwr with ring := none }) r c y else s
    | none => s
  | none => s

/-- PWR_REFUSALS.COUNT. -/
def refusals (s : State) : Nat := s.rf 0x2014 15 0

/-- What voter i does on agreeing. -/
def voterAgrees (s : State) (i : Nat) : State :=
  if i = 0 then s.setPwr { s.pwr with pausedAt := s.clk.now }
  else if i < 6 then s.setPwr { s.pwr with stops := cset noRefl s.pwr.stops (i - 1) (checkpointNow s {}) }
  else if 22 ≤ i ∧ i < 40 then adcQuiesce s (i - 22)
  else match i with
    | 42 => unparkAll s
    | 44 => duskReply s { r1 := ofNat32 (refusals s) }
    | _ => s

/-- The Warden's timers go on where they stood (R544, R541). -/
def wardenResume (s : State) : State :=
  let d := s.clk.now - s.pwr.pausedAt
  { s with plan := { s.plan with nextAt := s.plan.nextAt + d },
           round := { s.round with nextDue := s.round.nextDue.map (· + d) } }

/-- Unit u takes up its evaluation again (R170). -/
def unitResume (s : State) (u : Nat) : State :=
  if unitServes s u then (List.range 4).foldl (resumeDomain u (cget noRefl s.pwr.stops u)) s else s

/-- The latches set during an entry become arrivals (R549). -/
def latchArrivals (s : State) : State :=
  (s.pwr.latches.foldl (fun s l => s.arrive (16 + l)) s).setPwr { s.pwr with latches := [] }

/-- An entry is counted as refused. -/
def countRefusal (s : State) (id : Nat) : State := (s.cntSat 0x2014 15 0).setRf 0x2014 31 24 id

/-- The engine cycles of the stop are past: the next one begins at the first edge of the count still to come (R411, R546, DEDUCED: log
entry 75). -/
def reelResume (s : State) : State :=
  (List.range 16).foldl (fun s e =>
    let g := s.reel.eng e
    if g.st = .disabled ∨ s.reel.held ∨ s.clk.now < cycleTick s e g then s
    else s.setReel (s.reel.setEng e { g with cycle := ((s.clk.now - g.startAt + 1) * 256 + (reelDiv s e - 1)) / reelDiv s e })) s

/-- The timer expiries of the stop are past (R546, DEDUCED: log entry 75). -/
def timerResume (s : State) (k : Nat) : State :=
  let a := s.conv k
  s.setConv k { a with timers := a.timers.map (fun p =>
    if p.2 ≤ s.clk.now then (p.1, p.2 + ((s.clk.now - p.2) / max 1 (adcTimer s k p.1) + 1) * adcTimer s k p.1) else p) }

/-- A voter refuses: the entry is aborted and the stopped voters restart in reverse order (R546, R549). -/
def duskAbort (s : State) (i : Nat) : State :=
  let stopped := s.pwr.voter
  let s := countRefusal (s.setPwr { s.pwr with entry := 0, voter := 0 }) (voterId i)
  let s := if 40 < stopped then reelResume s else s
  let s := ((List.range 18).reverse.filter (fun k => decide (k + 22 < stopped))).foldl timerResume s
  let s := ((List.range 5).reverse.filter (fun u => decide (u + 1 < stopped))).foldl unitResume s
  let s := if 0 < stopped then wardenResume s else s
  let s := latchArrivals s
  let s := duskReply (s.arrive 12) { cstat := 2, r0 := ofNat32 (voterId i), r1 := ofNat32 (refusals s) }
  s.setPwr { s.pwr with stops := [], ring := none }

/-- DUSK_VOTE. -/
def duskVote (s : State) : State :=
  if s.pwr.entry = 1 then
    let i := s.pwr.voter
    if voterRefuses s i then duskAbort s i
    else
      let s := voterAgrees s i
      s.setPwr { s.pwr with voter := i + 1, entry := if i + 1 = duskVoters then 2 else 1 }
  else s

/-- The conditions of R543. -/
def duskOk (s : State) : Bool :=
  (List.range 2).all (fun d => !domEn s d || (s.dom d).st == .stall || (s.dom d).st == .quiet) && s.rf 0x2008 6 0 != 0 && s.pwr.entry == 0

/-- A Dusk entry begins; `r` is the ring of a DUSK_ENTER. -/
def duskBegin (s : State) (r : Option Nat) : State :=
  s.setPwr { s.pwr with entry := 1, voter := 0, ring := r, latches := [], stops := [] }

/-- DUSK_ENTER at the head of ring r: it completes with CONDITION, or begins an entry and completes at the end of the vote. -/
def duskEnter (r : Nat) (s : State) : State :=
  match headCmd s r with
  | none => s
  | some c =>
    if c.op ≠ 0x50 ∨ s.pwr.ring = some r then s
    else if s.glb.chipSafe then finish s r c { cstat := 0xFF }
    else if ¬ reservedGood c then finish s r c { hstat := 2 }
    else if duskOk s then duskBegin s (some r)
    else finish s r c { cstat := 1, r1 := ofNat32 (refusals s) }

/-- Writing PWR_CTL.DUSK (R543): nothing changes when the conditions do not hold. -/
def duskReq (s : State) : State := if duskOk s then duskBegin s none else s

/-! ### The commit and stable Dusk (R95 to R98, R535, R547, R548, R550) -/

def wakeEn (s : State) (l : Nat) : Bool := s.rb 0x2008 l

/-- A latch catches its input. -/
def latchSet (s : State) (l : Nat) : State := s.setPwr { s.pwr with latches := insertNat l s.pwr.latches }

/-- The Dusk count of an enabled domain begins (R95); DIR_KNOWN stays only in LEVEL mode. -/
def duskCountFrom (s : State) (d : Nat) : State :=
  if domEn s d then
    s.setDom d { s.dom d with duskOn := true, duskHeld := (s.dom d).st == .stall, duskCount := 0, duskOver := false, duskDir := dirMode s d == 1 }
  else s.setDom d { s.dom d with duskOn := false, duskHeld := false }

/-- An enabled latch already set when Dusk becomes stable is replayed (R548). -/
def duskReplay (s : State) : State :=
  match s.pwr.latches.find? (wakeEn s) with
  | some l => countRefusal (s.setPwr { s.pwr with replay := some l }) 0
  | none => s.setPwr { s.pwr with replay := none }

/-- DUSK_COMMIT. -/
def duskCommit (s : State) : State :=
  if s.pwr.entry = 2 then
    let s := linkSleep ((List.range 2).foldl duskCountFrom s)
    let s := reelHoldBegin s
    let s := (clockTo s false).setRf 0x2004 8 8 0
    let s := s.setPwr { s.pwr with asleep := true, entry := 0, voter := 0, sleptAt := s.dtime, rcDusk := s.pwr.rcNow, ask := none, stops := [] }
    duskReplay (s.cntSat 0x2018 15 0)
  else s

/-- The controller keeps the latches of Dusk itself in LATCH mode only (table *Dusk modes*). -/
def latchMode (s : State) : Bool := !s.rb A.irq 0

/-- The Dusk count of a domain after one active edge (R95, R98); in LEVEL mode a direction that is not known is that of the edge before
(R58) and clears DIR_KNOWN. -/
def duskEdge (s : State) (d : Nat) (dir : Option Bool) : State :=
  let m := s.dom d
  let fwd := edgeDir s d dir
  let m := { m with lastFwd := fwd, duskDir := m.duskDir && dir.isSome }
  let n := m.duskCount + if fwd then 1 else -1
  if m.duskOver then s.setDom d m
  else if -32768 ≤ n ∧ n ≤ 32767 then s.setDom d { m with duskCount := n }
  else s.setDom d { m with duskOver := true, duskCount := 0 }

/-- DUSK_TOOTH_EDGE past the 1 µs filter (R95, R96): an active edge is counted and sets the latch of the input. -/
def duskToothEdge (s : State) (d ts : Nat) (lv : Int) (dir : Option Bool) : State :=
  let v := inputLevel (s.rb (A.dom d + 4) 8) (s.dom d).crkLevel lv
  if ¬ s.pwr.asleep ∨ s.clk.now < ts + usTicks 1 ∨ v = (s.dom d).crkLevel then s
  else
    let s := s.setDom d { s.dom d with crkLevel := v }
    if ¬ (s.dom d).duskOn ∨ v ≠ s.rb (A.dom d + 4) 5 ∨ ¬ crankArmed s d then s
    else
      let s := duskEdge (s.setDom d { s.dom d with armCrank := false }) d dir
      if latchMode s then latchSet s d else s

/-- WAKE_LATCH_EDGE: during the entry, and in LATCH mode during Dusk (R548, R550, R406). -/
def wakeLatch (s : State) (l : Nat) : State :=
  if s.pwr.entry ≠ 0 ∨ (s.pwr.asleep ∧ latchMode s) then latchSet s l else s

/-- AON_TIMER_EXPIRY (latch 5). -/
def aonTimer (s : State) : State := if s.pwr.asleep ∧ s.reg 0x200C ≠ 0 then wakeLatch s 5 else s

/-- AON_RC_FALLBACK (R592). -/
def aonFallback (s : State) : State := s.setPwr { s.pwr with rcNow := true, rcDusk := s.pwr.rcDusk || s.pwr.asleep }

/-! ### Wake (R541, R552, R554, R555) -/

/-- The provisional position moved by k forward teeth (R99). -/
def moveFwd (s : State) (d : Nat) (m : Mech) : Nat → Nat × Nat → Nat × Nat
  | 0, x => x
  | k + 1, x => moveFwd s d m k (stepTooth s d m x.1 x.2)

/-- One tooth backward, crossing revolutions. -/
def stepBack (s : State) (d : Nat) (m : Mech) (x : Nat × Nat) : Nat × Nat :=
  let j := prevTooth s d x.1
  (j, if x.1 ≤ j then (x.2 + trackRevs s d m - 1) % max 1 (trackRevs s d m) else x.2)

def moveBack (s : State) (d : Nat) (m : Mech) : Nat → Nat × Nat → Nat × Nat
  | 0, x => x
  | k + 1, x => moveBack s d m k (stepBack s d m x)

/-- The provisional position of a domain that held one through Dusk (R99). -/
def provAt (s : State) (d : Nat) (m : Mech) : Nat × Nat :=
  if 0 ≤ m.duskCount then moveFwd s d m m.duskCount.toNat (m.pos, m.revn) else moveBack s d m m.duskCount.natAbs (m.pos, m.revn)

/-- The domain in TOOTH at its provisional position (R67, R99, R100, R129): its angle is published and holds, SPEED is that of the last
period before Dusk, and the next edge has no period (log entry 45). -/
def Mech.provisional (m : Mech) (s : State) (d : Nat) (x : Nat × Nat) (was : Mech) : Mech :=
  let span := spanAt s d x.1
  { m with prov := true, pos := x.1, revn := x.2, prof := was.prof, lastEdge := none, prev := none,
           traj := some { ang := toothAng s d x.1 + x.2 * oneRev, ts := s.clk.now, span := 1, inc := 0 },
           speed := match was.prev with | some p => speedOf (Config.freeWord s.free) span p | none => was.speed }

/-- A mechanical domain on wake (R99). -/
def wakeMech (s : State) (d : Nat) : State :=
  let m := s.dom d
  let s :=
    if m.duskOn ∧ m.duskHeld ∧ ¬ m.duskOver then
      let x := provAt s d m
      let s := setSync s d .tooth
      let m' := (s.dom d).provisional s d x m
      setAngle ({ s with free := s.free + 1 }.setDom d m') d (some ((toothAng s d x.1 + x.2 * oneRev) % trackL s d m'))
    else setSync s d .quiet
  s.setDom d { s.dom d with duskOn := false, hist := [], sig := [] }

/-- A slot on wake: WAIT or OFF, shadow set, TAKE and OCC as at commit. -/
def Slot.woken (y : Slot) : Slot := { y with st := if slEn y.set then .wait else .off, running := none, held := none }

/-- A scheduling unit on wake, its first heartbeat awaited from now. -/
def SUnit.woken (u : SUnit) (now : Nat) : SUnit :=
  { u with slots := (u.slots.map (fun p => (p.1, p.2.woken))).filter (fun p => p.2 ≠ {}), busy := [], queue := [], beatAt := now }

/-- A converter on wake: no instance, no conversion; its timers restart (R278, R272). -/
def wakeAdc (s : State) (k : Nat) : State :=
  let s := adcQuiesce s k
  if adcEn s k then adcStart s k else s

/-- A queue cell and a transfer channel on wake, their counters kept. -/
def QCell.woken (c : QCell) : QCell := { c with words := [], opened := [] }
def XCh.woken (c : XCh) : XCh := { genPark := c.genPark, dseq := c.dseq, missed := c.missed, reread := c.reread }

/-- The transfer timers run from now (R365). -/
def xfrTimersStart (s : State) : State :=
  let l := ((List.range 4).map (fun k => (k, s.clk.now + usTicks (s.rf (0x8010 + 4 * k) 15 0)))).filter (fun p => p.2 ≠ 0)
  { s with xfr := { s.xfr with timers := l } }

/-- Queues, transfer channels, their timers and the trace on wake. -/
def wakeQueues (s : State) : State :=
  let s := (List.range 24).foldl (fun s q => s.setQ q (s.qcell q).woken) s
  let s := (List.range 32).foldl (fun s n => s.setX n (s.xch n).woken) s
  xfrTimersStart { s with trace := { s.trace with buf := [], wr := 0, rd := 0, head := 0, mark := 0, markValid := false, owner := none } }

/-- Windows decide anew (R296); idle channels read no window yet. -/
def wakeWins (s : State) : State :=
  (List.range 64).foldl (fun s c => s.setCell c { s.cell c with idleSince := none }) { s with wins := winsAfter s.clk.now }

/-- A target with its holdoff timer expired. -/
def IrqTarget.expired (g : IrqTarget) : IrqTarget := { g with holdoffUntil := 0 }

/-- Every target with its holdoff timer expired. -/
def Irq.expired (q : Irq) : Cells IrqTarget := (q.targets.map (fun (p : Nat × IrqTarget) => (p.1, p.2.expired))).filter (fun p => p.2 ≠ {})

/-- The interrupt controller on wake: holdoff timers expired, then the latch arrivals, and after them all the evaluation (R404 to R406). -/
def wakeIrq (s : State) (l : Nat) : State :=
  let ls := if latchMode s then insertNat l s.pwr.latches else [l]
  let q := (ls.map (16 + ·)).foldl irqMark { s.irq with latched := ls, targets := s.irq.expired }
  ({ s with irq := q } : State).irqReview.setPwr { s.pwr with latches := [] }

/-- Every block as the table *Blocks on wake* has it. -/
def wakeBlocks (s : State) (l : Nat) : State :=
  let s := wakeIrq (hostPathReset s) l
  let s := (List.range 2).foldl wakeMech s
  let s := [2, 3].foldl toNone s
  let s := (List.range 5).foldl (fun s u => s.setUnit u ((s.unit u).woken s.clk.now)) s
  let s := uncoverAll { s with wdn := { s.wdn with grid := s.clk.now, scrubAt := s.clk.now } }
  let s := wakeWins (wakeQueues ((List.range 18).foldl wakeAdc { s with hostPress := [] }))
  reelReview (wardenResume (s.setReel { s.reel with flags := [] }))

/-- ELAPSED in ns for N AON edges (R554). -/
def aonElapsed (n : Nat) : Nat := n * Config.aonPeriod / 256

/-- The bridge bound in µs: 50 ppm, or 5 % on the RC fallback, plus 31 µs (R555). -/
def bridgeBound (elapsed : Nat) (rc : Bool) : Nat := (if rc then elapsed * 5 / 100 else elapsed * 50 / 1000000) / 1000 + 31

/-- DTIME and the bridge at the wake. -/
def wakeTime (s : State) (n : Nat) : State :=
  let e := aonElapsed n
  let s := { s with clk := (s.clk.rebase ((s.pwr.sleptAt + e) % 2 ^ 64)) }
  let s := s.setPwr { s.pwr with bridge := true, bound := bridgeBound e s.pwr.rcDusk, wokeAt := s.clk.now }
  setQual (((s.setReg 0x2020 (lo32 e)).setReg 0x2024 (hi32 e)).setReg 0x2028 0) 0

/-- A wake: the replay of a latch set during the entry asserts DUSK_ABORT once awake (R548). -/
def wakeUp (s : State) (l n : Nat) : State :=
  let replayed := s.pwr.replay.isSome
  let s := s.setPwr { s.pwr with asleep := false, replay := none }
  let s := wakeBlocks (wakeTime s n) l
  let s := (s.cntSat 0x2018 31 16).setRf 0x2004 6 4 l
  if replayed then s.arrive 12 else s

/-! ### Resets (R557 to R559) -/

/-- The fault log and the retention part of the memory, and the ageing history, which no reset clears. -/
def memAfter (m : List Host.Cell) (keep : Bool) : List Host.Cell :=
  m.filter (fun p => (keep && decide (0xA0000 ≤ p.1) && decide (p.1 < 0xA0800)) || decide (0x400000 ≤ p.1))

/-- The journal after a reset: a slot being written fails its check (R561); nothing is selected until the restore. -/
def Journal.afterReset (j : Journal) (keep : Bool) : Journal :=
  let b := match j.sel with | some b => !b | none => false
  let torn := j.writing.isSome
  { slotA := if torn && !b then [] else j.slotA, slotB := if torn && b then [] else j.slotB,
    copyA := if keep then j.copyA else none, copyB := if keep then j.copyB else none }

/-- Firmware slots after a reset: words whose programming was cut short hold values the spec does not give (log entry 3). -/
def fwAfterReset (s : State) : Fw :=
  match s.fw.prog with
  | some (o, ws) =>
    { store := fwPut s.fw.store ((if fwActive s then 0 else fwWords) + o / 4) ((List.range ws.length).map (fun i => Config.freeWord (s.free + i))) }
  | none => { store := s.fw.store }

/-- GLB_RESET_CAUSE after a reset with cause bit value `bit` (R558). -/
def causeAfter (s : State) (keep : Bool) (bit : Nat) : Nat :=
  if keep then ((s.glb.cause ||| bit) ||| (if s.glb.chipSafe then 32 else 0)) else bit

/-- RP pins keep the levels the outside gives them. -/
def pinsAfter (r : Reel) : Cells RpPin :=
  (r.pins.map (fun p => (p.1, ({ level := p.2.level, prev := p.2.level, changed := p.2.changed } : RpPin)))).filter (fun p => p.2 ≠ {})

/-- The block during a whole-device reset; `keep` says that retention SRAM survives. -/
def deviceReset (s : State) (keep : Bool) (bit : Nat) : State :=
  let z := State.reset
  let z := { z with clk := { now := s.clk.now, since := s.clk.now }, out := s.out, pending := s.pending, wins := winsAfter s.clk.now,
                    free := s.free + ((s.fw.prog.map (fun (p : Nat × List Word) => p.2.length)).getD 0), mem := memAfter s.mem keep,
                    glb := { cause := causeAfter s keep bit }, reel := { pins := pinsAfter s.reel } }
  let z := { z with jrn := s.jrn.afterReset keep, fw := fwAfterReset s,
                    plan := { hseq := s.plan.hseq, faults := if keep then s.plan.faults else 0, tmax := if keep then s.plan.tmax else none },
                    jtag := if keep then s.jtag else {}, pwr := { inReset := true, rcNow := s.pwr.rcNow } }
  if keep then z.setRf 0x2004 11 11 0 else z

/-- POWER_ON_RESET: SUPPLY, retention lost. -/
def powerOnReset (s : State) : State := deviceReset s false 2

/-- SUPPLY_MONITOR_RESET. -/
def supplyReset (s : State) : State := deviceReset s true 2

/-- PIN_RESET of a low pulse in ns (R586): between 100 ns and 1 µs the spec leaves open whether it acts. -/
def pinReset (s : State) (width : Nat) : State :=
  if 1000 ≤ width then deviceReset s true 4
  else if width < 100 then s
  else
    let s' := { s with free := s.free + 1 }
    if wbit (Config.freeWord s.free) 0 then deviceReset s' true 4 else s'

/-- PCIE_FUNDAMENTAL_RESET (R309). -/
def perstReset (s : State) : State := if s.rb 0x1000 8 then hostPathReset s else deviceReset s true 8

/-- RESET_RELEASE (R538): start-up begins on FIO, DTIME at 0. -/
def resetRelease (s : State) : State :=
  if s.pwr.inReset then { s with clk := { s.clk with since := s.clk.now, base := 0 }, pwr := { s.pwr with inReset := false } } else s

/-- WAKE: an uncorrectable error in the saved registers makes it a whole-device reset (R542). -/
def wake (s : State) (l n : Nat) (eccErr : Bool) : State :=
  if ¬ s.pwr.asleep ∨ ¬ wakeEn s l then s
  else if eccErr then (deviceReset s true 16).setRf 0x2004 13 13 1
  else reflNotice (wakeUp s l n) (reflWords s)

/-- Blocks that begin with the configuration restored: converters, the link, heartbeats, modes (R568 step 5). -/
def restoreBlocks (s : State) : State :=
  let s := (List.range 18).foldl (fun s k => if adcEn s k then adcStart s k else s) s
  let s := (List.range 5).foldl (fun s u => s.setUnit u { s.unit u with beatAt := s.clk.now }) s
  let s := if linkEn s then ({ (vlkFresh s) with free := s.free + 1 }).setV { (vlkFresh s).vlk with nonce := Config.nonce s.free } else s
  (modesAtReset (xfrTimersStart s)).irqReview

/-- RESTORE_DONE. -/
def restoreDone (s : State) : State := if s.rb 0x2004 9 then s else progressNote (restoreBlocks (restore s))

/-! ### PWR registers -/

/-- PWR_SET: CSTAT and state; a field out of range refuses it whole. -/
def pwrSet (s : State) (w : List Word) : Nat × State :=
  let a := fld (wordAt w 4) 6 0
  if a < 0x08 ∨ 0x77 < a then (1, s)
  else (0, (((s.setRf 0x2008 6 0 (fld (wordAt w 2) 6 0)).setReg 0x200C (wordAt w 3)).setRf 0x2010 6 0 a).configChanged)

/-- PWR registers that are not stored words. -/
def pwrView (s : State) (o : Nat) : Option Word :=
  if o = 4 then
    some (setFld (setFld (setFld (s.reg 0x2004) 15 14 s.pwr.entry) 12 12 (b2n (s.pwr.rcNow || s.pwr.rcDusk))) 10 10 (b2n s.pwr.bridge))
  else if o = 0x1C then some (ofNat32 Config.aonPeriod)
  else if o = 0x28 then some (if s.pwr.bridge then s.reg 0x2028 else 0)
  else journalView s o

end Sys2Proof.Machine
end

