-- ==== Sys2Proof/Machine/Bar2.lean ====
section
/-!
DEFINITION. BAR2: what a read gives, and what a write does to each table before the seal (Architecture, *BAR2 map*, R44 to
R46; R145, R196, R243, R434, R616, R619).
-/
namespace Sys2Proof.Machine

/-! ### Areas -/

/-- The areas of the tables *BAR2 map* and *Parameter area*: offset and size, one for each table of a region or channel. -/
def bar2Areas : List (Nat × Nat) :=
  (List.range 5).map (fun n => (n * 0x8000, 0x8000)) ++ (List.range 64).map (fun c => (0x40000 + c * 0x400, 0x400)) ++
  [(0x50000, 0x4000), (0x54000, 0x4000)] ++ (List.range 64).map (fun c => (0x60000 + c * 0x800, 0x800)) ++
  [(0x81000, 104), (0x82000, 0x1000), (0x84000, 0x1000), (0xA0000, 0x800), (0xA1000, 320), (0xA2000, 0x1000),
   (0x100000, 0x100000), (0x400000, 0x100000)]

/-- A span of n bytes from `a` lies within one readable area (R371, ERR 3). -/
def spanReadable (a n : Nat) : Bool := bar2Areas.any (fun p => decide (p.1 ≤ a) && decide (a + n ≤ p.1 + p.2))

/-! ### Reads -/

/-- Word k of a slot in the event table of region n, 4 being the Mirror region: while the spare holds no banks its table reads
as zero (R143, R443). -/
def eventWord (s : State) (n slot k : Nat) : Word :=
  if n = 4 ∧ ¬ mirrorBusy s then 0 else ((s.unit (shownUnit s n)).slot slot).word k

/-- The defined bits of a wheel table word: tooth, cam and contribution entries (R11). -/
def wheelMask (o : Nat) : Word :=
  if o < 0x800 then 0x81FFFFFF else if o < 0x900 then 0x83FFFFFF else if 0x3800 ≤ o ∧ o < 0x3860 then 0x03FFFFFF else 0xFFFFFFFF

/-- The defined bits of word k of a profile. -/
def profileMask (k : Nat) : Word :=
  match k with
  | 0 => 0x0000FF7F | 1 => 0xFFFFFFFF | 2 => 0xFFFF00FF | 3 => 0x83FF03FF
  | _ => if (k - 4) % 3 = 0 then 0xFFFFFFFC else if (k - 4) % 3 = 1 then 0xFFFCFFFF else 0xFFFFFFFF

/-- The defined bits of word k of an actuator model: its header, then its cells of 8 words. -/
def modelMask (k : Nat) : Word :=
  if 16 ≤ k then (if k % 8 = 4 then 0x0FFF0FFF else if k % 8 = 5 then 0xFFFFFF00 else 0xFFFFFFFF)
  else match k with
    | 0 => 0xFCFFFF3F | 6 => 0x00FFFFFF | 7 => 0xFFFF0FFF | 8 => 0x0000FF00 | 9 => 0x000003FF
    | _ => if 10 ≤ k then 0 else 0xFFFFFFFF

/-- The defined bits of word k of a producer entry, and of the balance table. -/
def producerMask (k : Nat) : Word := if k = 0 then 0xFEFFFF00 else if k = 3 then 0xC000001F else 0xFFFFFFFF
def balanceMask (k : Nat) : Word := if k = 0 then 0xC0FFFFFF else if k = 1 then 0x0000FFFF else 0x0FFFFFFF

/-- A word of a wheel table block: tables in memory, history and signature of the domain; reserved offsets read as zero. -/
def wheelRead (s : State) (d o : Nat) : Word :=
  if o < 0x900 ∨ (0x1000 ≤ o ∧ o < 0x1400) ∨ (0x3800 ≤ o ∧ o < 0x3860) ∨ (0x3900 ≤ o ∧ o < 0x3A80) then s.word (wheelBase d + o) &&& wheelMask o
  else if 0x1800 ≤ o ∧ o < 0x2800 then ofNat32 (cget zeroNat (s.dom d).hist ((o - 0x1800) / 4))
  else if 0x2800 ≤ o ∧ o < 0x3800 then cget zeroWord (s.dom d).sig ((o - 0x2800) / 4)
  else 0

/-- The parameter area, the history and the trace. -/
def paramRead (s : State) (a : Nat) : Word :=
  if 0x81000 ≤ a ∧ a < 0x81068 then s.word a &&& balanceMask ((a - 0x81000) / 4)
  else if 0x82000 ≤ a ∧ a < 0x83000 then s.word a &&& producerMask (a % 16 / 4)
  else if (0x84000 ≤ a ∧ a < 0x85000) ∨ (0xA0000 ≤ a ∧ a < 0xA0800) ∨
     (0xA1000 ≤ a ∧ a < 0xA1140) ∨ (0xA2000 ≤ a ∧ a < 0xA3000) ∨ (0x400000 ≤ a ∧ a < 0x500000) then s.word a
  else if 0x100000 ≤ a ∧ a < 0x200000 then cget zeroWord s.trace.buf ((a - 0x100000) / 4)
  else 0

/-- The word a BAR2 read gives at a multiple of 4 (R46); reserved bits of table entries read as zero (R11). -/
def bar2Word (s : State) (a : Nat) : Word :=
  if a < 0x28000 then eventWord s (a / 0x8000) (a % 0x8000 / 32) (a % 32 / 4)
  else if 0x40000 ≤ a ∧ a < 0x50000 then s.word a &&& profileMask (a % 64 / 4)
  else if 0x50000 ≤ a ∧ a < 0x58000 then wheelRead s ((a - 0x50000) / 0x4000) ((a - 0x50000) % 0x4000)
  else if 0x60000 ≤ a ∧ a < 0x80000 then (if (a - 0x60000) % 0x800 < 0x440 then s.word a &&& modelMask (a % 0x800 / 4) else 0)
  else paramRead s a

/-- The bytes of a BAR2 span, as a transfer channel reads them (R46). -/
def bar2Bytes (s : State) (a n : Nat) : List Byte := (List.range (n / 4)).flatMap (fun i => wordBytes (bar2Word s (a + 4 * i)))

/-! ### Writes -/

/-- The words written, each stored at its address. -/
def storeWords (s : State) (l : List (Nat × Word)) : State := l.foldl (fun s p => s.putWords p.1 [p.2]) s

/-- The words of a set that a write of slot words changes. -/
def slotEdit (y : Slot) (l : List (Nat × Word)) : List Word :=
  (List.range 7).map (fun i => ((l.find? (fun p => p.1 == i)).map (·.2)).getD (wordAt y.set i))

/-- A BAR2 write of slot words is discarded (R145). -/
def slotRefuses (s : State) (n : Nat) (y : Slot) (l : List (Nat × Word)) : Bool :=
  let new := slotEdit y l
  y.st == .armed || y.st == .frozen || y.running.isSome || l.any (fun p => p.1 == 7) ||
  (if slEn new then setStatus s n new != 0 else !setAngleGood s new || !setReservedGood new)

/-- A BAR2 write to words of one slot of the event table of region n, 4 being the Mirror region (R145, R443). -/
def eventWrite (s : State) (n slot : Nat) (l : List (Nat × Word)) : State :=
  let u := shownUnit s n
  let y := (s.unit u).slot slot
  let role := if n = 4 then heldRole s else n
  if (n = 4 ∧ ¬ mirrorBusy s) ∨ slotRefuses s role y l then s.setUnit u ((s.unit u).count 0x28 15 0)
  else (s.setUnit u ((s.unit u).setSlot slot (y.rewritten (slotEdit y l)))).configChanged

/-- A BAR2 write to a profile (R196); the profile's PVALID follows when the channel is enabled (R617). -/
def profileWordWrite (s : State) (l : List (Nat × Word)) (c : Nat) : State :=
  if chEn s c then s.cntSat (A.cell c + 0x18) 31 16 else (storeWords s l).configChanged

/-- A BAR2 write to the tooth or cam table (R616). -/
def toothWrite (s : State) (l : List (Nat × Word)) (d : Nat) : State :=
  if domEn s d then s.cntSat (A.dom d + 0x30) 31 24 else (storeWords s l).configChanged

/-- A word of the contribution table of domain d is a whole entry: ANGLE below L, no reserved bit (R8, R13). -/
def contribGood (s : State) (d : Nat) (w : Word) : Bool := decide (w.toNat < domL s d)

/-- The first entry of a contribution table that holds no angle below L, or of which a word written has a reserved bit: an angle below
L has none. -/
def contribFirstBad (s : State) (d : Nat) (l : List (Nat × Word)) : Option Nat :=
  (List.range 24).find? (fun i =>
    decide (domL s d ≤ cylTdc s d i) || l.any (fun p => p.1 == wheelBase d + 0x3800 + 4 * i && !contribGood s d p.2))

/-- A BAR2 write to the wheel table block of domain d at offset o (*Wheel table block, learned and derived part*). -/
def wheelWrite (s : State) (l : List (Nat × Word)) (d o : Nat) : State :=
  if o < 0x900 then toothWrite s l d
  else if 0x1000 ≤ o ∧ o < 0x1400 then storeWords (profileTouched s d) l
  else if 0x3800 ≤ o ∧ o < 0x3860 then (if l.all (fun p => contribGood s d p.2) then (storeWords s l).configChanged else s)
  else s

/-- Words written through BAR2 at once: an admission of this FCLK cycle sees them, a device update of the same words in it gives way
(R243). -/
def sideStore (s : State) (l : List (Nat × Word)) : State :=
  let t := storeWords s l
  { t with past := some (match s.pastNow with
      | some p => { p with mem := (storeWords { s with mem := p.mem } l).mem, sides := l.map (·.1) ++ p.sides }
      | none => { tick := s.clk.now, mem := t.mem, regs := t.regs, sides := l.map (·.1) }) }

/-- A BAR2 write to an actuator model at offset o of its block (R243). -/
def modelWrite (s : State) (l : List (Nat × Word)) (o : Nat) : State := if o < 0x440 then (sideStore s l).configChanged else s

/-- The checks of a balance table of 26 words (R256): whether word k fails check `code`. -/
def balWordFails (s : State) (ws : List Word) (code k : Nat) : Bool :=
  let w := wordAt ws k
  let chans := if 2 ≤ k then balChannels w else []
  match code with
  | 1 => if k = 0 then fld w 29 24 != 0 else if k = 1 then fld w 31 16 != 0 else fld w 31 28 != 0
  | 2 => decide (2 ≤ k) && fld w 27 24 != 0 && decide (ncyl s (fld (wordAt ws 0) 30 30) ≤ k - 2)
  | 3 => chans.any (chProp s)
  | 4 => chans.any (fun c => (List.range (k - 2)).any (fun j => (balChannels (wordAt ws (2 + j))).contains c))
  | _ => false

/-- The lowest failing check of a balance table and the first word at which it fails. -/
def balCheck (s : State) (ws : List Word) : Option (Nat × Nat) :=
  ((List.range 5).drop 1).findSome? (fun code => ((List.range 26).find? (balWordFails s ws code)).map (fun k => (code, k)))

/-- The balance table with words replaced. -/
def balEdit (s : State) (l : List (Nat × Word)) : List Word :=
  (List.range 26).map (fun k => ((l.find? (fun p => p.1 == 0x81000 + 4 * k)).map (·.2)).getD (balWord s k))

/-- The balance table is stored; writing EN = 0 clears every B_c (R258), and from 1 to 0 makes its telemetry UNDEFINED (R340). -/
def balStore (s : State) (l : List (Nat × Word)) : State :=
  let on := wbit (wordAt (balEdit s l) 0) 31
  let s' := if on then s else balClear s
  let s' := (storeWords s' l).configChanged
  if balEn s && !on then (List.range 64).foldl (fun s c => tlmUndef s 0x13 c 0) s' else s'

/-- A BAR2 write to the balance table (R619). -/
def balWrite (s : State) (l : List (Nat × Word)) : State :=
  let ws := balEdit s l
  if wbit (wordAt ws 0) 31 ∧ balCheck s ws ≠ none then s.cntSat (A.dom (fld (wordAt ws 0) 30 30) + 0x78) 31 24 else balStore s l

/-- A BAR2 write to Reel instruction memory: each word by its own check (R434). -/
def imemWrite (s : State) (l : List (Nat × Word)) : State := (l.foldl (fun s p => reelImemWord s p.1 p.2) (s.reelTurn 0)).configChanged

/-- The effect of an accepted BAR2 write of one or two words, by its table. -/
def bar2Store (s : State) (a : Nat) (l : List (Nat × Word)) : State :=
  if a < 0x28000 then eventWrite s (a / 0x8000) (a % 0x8000 / 32) (l.map (fun p => (p.1 % 32 / 4, p.2)))
  else if 0x40000 ≤ a ∧ a < 0x50000 then profileWordWrite s l ((a - 0x40000) / 0x400)
  else if 0x50000 ≤ a ∧ a < 0x58000 then wheelWrite s l ((a - 0x50000) / 0x4000) ((a - 0x50000) % 0x4000)
  else if 0x60000 ≤ a ∧ a < 0x80000 then modelWrite s l ((a - 0x60000) % 0x800)
  else if 0x81000 ≤ a ∧ a < 0x81068 then balWrite s l
  else if 0x82000 ≤ a ∧ a < 0x83000 then (storeWords s l).configChanged
  else if 0x84000 ≤ a ∧ a < 0x85000 then imemWrite s l
  else s

/-- An import is open: from its opening until it closes (R611). -/
def importOpen (s : State) : Bool := s.side.imp == 1 || s.side.imp == 2

/-- A BAR2 write: refused after the seal, discarded during an import or when it is not a naturally aligned access of 4 or 8
bytes within the BAR (R44, R45, R611). -/
def bar2Write (s : State) (a size : Nat) (v : BitVec 64) : State :=
  if s.glb.isSealed then s.refuseWrite true
  else
    let s := s.unFirst
    if importOpen s ∨ ¬ ((size = 4 ∨ size = 8) ∧ a % size = 0 ∧ a + size ≤ 0x800000) then s
    else bar2Store s a (accessWords a size v)

end Sys2Proof.Machine
end

