-- ==== Sys2Proof/Machine/Transfer.lean ====
section
/-!
DEFINITION. The transfer engine: starting and stopping, descriptor checks, moving elements, chains, and the readers of the
queue cells (Queues, Transfers and the Cycle Trace, R357 to R371).
-/
namespace Sys2Proof.Machine

def XState.code : XState → Nat
  | .idle => 0 | .run => 1 | .wait => 2 | .parked => 3 | .error => 4

def xdHalf (d : List Word) : Bool := wbit (wordAt d 0) 30
def xdFull (d : List Word) : Bool := wbit (wordAt d 0) 29
def xdDone (d : List Word) : Bool := wbit (wordAt d 0) 28
def xdTagAddr (d : List Word) : Nat := pair64 d 8
def xdOffset (d : List Word) : Nat := fld (wordAt d 10) 22 0

/-! ### Records -/

/-- A transfer completion record, one group (R367). -/
def xfrRecord (s : State) (n status : Nat) : State :=
  let c := s.xch n
  if xdDone c.desc then
    qProduce s 4 0 [packWord [(status, 28), (if status = 2 then c.err else 0, 24), (n, 16), (c.dseq, 0)], wordAt c.desc 11, ofNat32 c.moved,
                    lo32 s.dtime] true
  else s

/-- The descriptor in hand has not ended: a channel that stops on it counts it (DSEQ). -/
def XCh.unfinished (c : XCh) : Bool := c.desc != [] && decide (c.moved < xdTotal c.desc)

def XCh.counted (c : XCh) : XCh := if c.unfinished then { c with dseq := (c.dseq + 1) % 65536 } else c

/-- The channel holds nothing and reads nothing. -/
def XCh.quiet (c : XCh) (st : XState) (err : Nat) : XCh :=
  { c with st := st, err := err, blockLeft := 0, held := [], tags := [], reading := .quiet, unsent := false, trig := false }

/-- ERROR: its code, the error source 320 + n and, when the descriptor asks for it, a record (R367, R371). -/
def xfrError (s : State) (n code : Nat) : State :=
  let s := s.setX n ((s.xch n).counted.quiet .error code)
  noteOwner ((xfrRecord s n 2).arrive (320 + n))

/-! ### Start -/

/-- A start: the channel is RUN and fetches the descriptor at `addr` (table *Channel states*). -/
def xfrBegin (s : State) (n addr : Nat) : State :=
  let c := (s.xch n).quiet .run 0
  issueRead (s.setX n { c with desc := [], addr := addr, moved := 0 }) n .desc

/-- XFR_START: CSTAT and state. -/
def xfrStart (s : State) (n addr : Nat) : Nat × State := if (s.xch n).active then (1, s) else (0, xfrBegin s n addr)

/-- CTL.START starts the channel at START_LO and START_HI (R371). -/
def xfrCtlStart (s : State) (n : Nat) : State :=
  (xfrStart s n ((s.reg (A.xch n + 4)).toNat / 64 * 64 + 2 ^ 32 * (s.reg (A.xch n + 8)).toNat)).2

/-! ### The check of a descriptor (R371) -/

def xdReserved (d : List Word) : Bool :=
  let w := wordAt d 0
  fld w 24 24 != 0 || fld w 15 14 != 0 || fld w 11 5 != 0 || decide (4 < fld w 27 25) || decide (4 < xdPace d) ||
  fld (wordAt d 2) 31 16 != 0 || fld (wordAt d 10) 31 23 != 0 || wordAt d 12 != 0 || wordAt d 13 != 0 || fld (wordAt d 14) 5 1 != 0 ||
  (match xdEp d with
   | 0 => decide (23 < xdEpi d)
   | 2 => decide (15 < xdEpi d)
   | _ => xdEpi d != 0) || (xdEp d != 3 && xdOffset d != 0)

def xdSizeBad (d : List Word) : Bool :=
  let e := xdEsize d
  pair64 d 3 % e != 0 || (wordAt d 5).toNat % e != 0 || (wordAt d 6).toNat % e != 0 || (wordAt d 7).toNat % e != 0 ||
  (xdTagAddr d != 0 && xdEp d != 0)

/-- Another channel reads the same queue cell, or the trace. -/
def xdShared (s : State) (n : Nat) (d : List Word) : Bool :=
  (List.range 32).any (fun m => m != n && (s.xch m).active && (s.xch m).desc != [] && xdEp (s.xch m).desc == xdEp d &&
    (xdEp d == 1 || xdEpi (s.xch m).desc == xdEpi d))

def xdEndpointBad (s : State) (n : Nat) (d : List Word) : Bool :=
  let e := xdEsize d
  match xdEp d with
  | 0 => xdDir d || e != 16 || s.rb (A.queue (xdEpi d)) 1 || xdShared s n d
  | 1 => xdDir d || (e != 8 && e != 16) || xdShared s n d
  | 2 => !xdDir d || e != 4
  | _ => xdDir d || (e != 4 && e != 8 && e != 16) || xdOffset d % e != 0 || !spanReadable (xdOffset d) (xdTotal d * e)

def xdPaceBad (s : State) (n : Nat) (d : List Word) : Bool :=
  match xdPace d with
  | 0 => xdPsrc d != 0
  | 1 => decide (3 < xdPsrc d)
  | 2 => decide (15 < xdPsrc d)
  | 3 => xdPsrc d != 0 || xdEp d != 0 || decide (qLevel s (xdEpi d) < xdC0 d)
  | _ => xdPsrc d == n

/-- The first failing code of the table *Channel errors*; 0 when the descriptor passes. -/
def xdCheck (s : State) (n : Nat) (d : List Word) : Nat :=
  if xdReserved d then 1 else if xdSizeBad d then 2 else if xdEndpointBad s n d then 3 else if xdPaceBad s n d then 4 else 0

/-- Between two blocks: the next one starts, or the channel waits for its trigger (R363, R364). -/
def nextBlock (s : State) (n : Nat) : State :=
  let c := s.xch n
  if xdPace c.desc = 0 then blockStart s n
  else if c.trig ∧ xdPace c.desc ≠ 3 then blockStart (s.setX n { c with trig := false }) n
  else
    let s := s.setX n { c with st := .wait }
    if xdPace c.desc = 3 then qlevelStart s (xdEpi c.desc) else s

/-- XFR_DESCRIPTOR_FETCHED: the descriptor's 16 words, none when the fetch failed. -/
def xfrFetched (s : State) (n : Nat) (desc : Option (List Word)) : State :=
  if (s.xch n).reading ≠ .desc ∨ (s.xch n).unsent then s
  else
    let s := s.setX n { s.xch n with reading := .quiet }
    match desc with
    | none => xfrError s n 5
    | some d =>
      let s' := s.setX n { s.xch n with desc := d.take 16, moved := 0 }
      if xdCheck s n d ≠ 0 then xfrError s' n (xdCheck s n d) else noteOwner (nextBlock s' n)

/-! ### Elements (R360 to R362, R366) -/

/-- Elements taken from a queue and not yet written. -/
def XCh.heldElems (c : XCh) : Nat := c.tags.length

/-- The writes of elements from number `from_`, each `e` bytes, combined (R360, R361). -/
def elemWrites (s : State) (d : List Word) (from_ e : Nat) : List (List Byte) → List Sent
  | l => writeRequests s.hif.pci.mps ((List.range l.length).map (fun i => (elemAddr d (from_ + i), ((l.getD i []).take e))))

/-- The tag map writes of queue elements from number `from_` (R362). -/
def tagWrites (s : State) (d : List Word) (from_ : Nat) (tags : List Nat) : List Sent :=
  if xdTagAddr d = 0 then []
  else writeRequests s.hif.pci.mps ((List.range tags.length).map (fun i =>
    ((xdTagAddr d + from_ + i) % 2 ^ 64, [BitVec.ofNat 8 (tags.getD i 0)])))

/-- The half and full interrupts as the elements moved go from `a` to `b` (R366). -/
def xfrIrqs (s : State) (n a b : Nat) : State :=
  let d := (s.xch n).desc
  let N := xdTotal d
  let s := if xdHalf d ∧ 2 ≤ N ∧ a < N / 2 ∧ N / 2 ≤ b then s.arrive (256 + n) else s
  if xdFull d ∧ a < N ∧ N ≤ b then s.arrive (288 + n) else s

/-- The words taken from a queue are written to host memory with their tags (R361, R362, R366). -/
def flushHeld (s : State) (n : Nat) : State :=
  let c := s.xch n
  let k := c.heldElems
  if xdDir c.desc ∨ k = 0 then s
  else
    let bytes := (List.range k).map (fun i => wordsBytes ((c.held.drop (4 * i)).take 4))
    let s := (s.setX n { c with held := [], tags := [] }).emitXfr
      (elemWrites s c.desc (c.moved - k) 16 bytes ++ tagWrites s c.desc (c.moved - k) c.tags)
    xfrIrqs s n (c.moved - k) c.moved

/-- Elements that a channel can take from the trace now (R380). -/
def traceElems (s : State) (c : XCh) : Nat := min c.blockLeft ((s.trace.wr - s.trace.rd) / xdEsize c.desc)

/-- k elements of the trace from RD, which moves (R380). -/
def traceMove (s : State) (n k : Nat) : State :=
  let c := s.xch n
  let e := xdEsize c.desc
  let bytes := (List.range k).map (fun i =>
    (List.range (e / 4)).flatMap (fun j => wordBytes (s.trace.at32 (s.trace.rd + e * i + 4 * j))))
  let q := Trace.fromHead (k * e / 8 + 1) { s.trace with rd := s.trace.rd + k * e }
  ({ s with trace := q }.setX n { c with moved := c.moved + k, blockLeft := c.blockLeft - k }).emit .transfer (elemWrites s c.desc c.moved e bytes)

/-- The elements left in the block from BAR2 (R46). -/
def bar2Move (s : State) (n : Nat) : State :=
  let c := s.xch n
  let e := xdEsize c.desc
  let bytes := (List.range c.blockLeft).map (fun i => bar2Bytes s (xdOffset c.desc + (c.moved + i) * e) e)
  (s.setX n { c with moved := c.moved + c.blockLeft, blockLeft := 0 }).emit .transfer (elemWrites s c.desc c.moved e bytes)

/-- Host data given to a Reel engine, as far as its OUT queue has room. -/
def reelMove (s : State) (n : Nat) : State :=
  let c := s.xch n
  let s := s.reelTurn 17
  let k := min c.held.length (reelOutRoom s (xdEpi c.desc))
  let s := reelAppend s (xdEpi c.desc) (c.held.take k)
  s.setX n { c with held := c.held.drop k, moved := c.moved + k, blockLeft := c.blockLeft - k }

/-- The descriptor has ended: DSEQ, its record, the channels that follow it, then its LINK is read again (R367, R368). -/
def descEnd (s : State) (n : Nat) : State :=
  let s := s.setX n { s.xch n with dseq := ((s.xch n).dseq + 1) % 65536 }
  let s := xfrTrigger (xfrRecord s n 0) 4 n
  issueRead s n .link

/-- After elements have moved: the block's end, the descriptor's end, or more to come. -/
def afterMove (s : State) (n : Nat) : State :=
  let c := s.xch n
  if c.blockLeft ≠ 0 then s
  else if c.moved = xdTotal c.desc then descEnd s n
  else nextBlock s n

/-- The elements of a running block move as far as they can; no request is issued during a suspension (R306). -/
def moveBlock (s : State) (n : Nat) : State :=
  let c := s.xch n
  match xdEp c.desc with
  | 0 => if s.suspended then s else flushHeld s n
  | 1 => if s.suspended then s else xfrIrqs (traceMove s n (traceElems s c)) n c.moved (c.moved + traceElems s c)
  | 2 => let s' := reelMove s n; xfrIrqs s' n c.moved (s'.xch n).moved
  | _ => if s.suspended then s else xfrIrqs (bar2Move s n) n c.moved (c.moved + c.blockLeft)

/-- A block is in progress, or its last elements wait to be written. -/
def XCh.busy (c : XCh) : Bool :=
  c.st == .run && c.desc != [] && (c.reading == .quiet || c.reading == .data) && (c.blockLeft != 0 || c.heldElems != 0)

/-- XFR_BLOCK_END. -/
def xfrBlockEnd (s : State) (n : Nat) : State :=
  if (s.xch n).busy then
    let s' := moveBlock s n
    if (s'.xch n).heldElems = 0 then afterMove s' n else s'
  else s

/-- XFR_READ_DATA: words of host data for a Reel engine, none when the read failed (R371, ERR 5). -/
def xfrReadData (s : State) (n : Nat) (data : Option (List Word)) : State :=
  let c := s.xch n
  if c.reading ≠ .data ∨ c.unsent then s
  else
    match data with
    | none => xfrError s n 5
    | some ws =>
      let held := c.held ++ ws.take (c.blockLeft - c.held.length)
      xfrBlockEnd (s.setX n { c with held := held, reading := if held.length = c.blockLeft then .quiet else .data }) n

/-! ### Chains (R368, R369) -/

/-- XFR_LINK_READ: the 64 bits of LINK, none when the read failed. -/
def xfrLinkRead (s : State) (n : Nat) (link : Option Nat) : State :=
  if (s.xch n).reading ≠ .link ∨ (s.xch n).unsent then s
  else
    let s := s.setX n { s.xch n with reading := .quiet }
    match link with
    | none => xfrError s n 5
    | some v =>
      if v % 2 = 1 then s.setX n { s.xch n with st := .parked }
      else if v / 2 % 32 ≠ 0 then xfrError s n 6
      else issueRead (s.setX n { s.xch n with st := .run, addr := v / 64 * 64 % 2 ^ 64 }) n .desc

/-- At a poll whose GEN differs from GEN_PARK a parked channel reads its LINK again (R369); it reads nothing while RUN is 0. -/
def parkedPoll (s : State) (n : Nat) : State :=
  let c := s.xch n
  if c.st = .parked ∧ c.reading = .quiet ∧ c.genPark ≠ s.hif.gen ∧ ¬ s.suspended ∧ s.running then
    issueRead (s.setX n { c with reread := satAdd 65535 c.reread 1 }) n .link
  else s

/-- The transfer engine has answered a Dusk vote and stands still. -/
def xfrStopped (s : State) : Bool := voterStopped s 42

/-- The parked channels at a poll. -/
def xfrPoll (s : State) : State := if xfrStopped s then s else (List.range 32).foldl parkedPoll s

/-- POLL_DATA_RETURN: the rings, then the parked channels. -/
def pollAll (s : State) (ok : Bool) (gen : Word) (prods : List (Nat × Nat)) : State :=
  if s.hif.pollBusy ∧ ok then xfrPoll (pollReturn s ok gen prods) else pollReturn s ok gen prods

/-! ### Stop -/

/-- XFR_STOP: the state code before, the elements moved, and the state after (R367). Elements already taken are written. -/
def xfrStop (s : State) (n : Nat) : (Nat × Nat) × State :=
  let c := s.xch n
  let r := (c.st.code, c.moved)
  if c.active then
    let s := flushHeld s n
    let s := s.setX n ((s.xch n).counted.quiet .idle 0)
    (r, noteOwner (xfrRecord s n 1))
  else (r, s)

/-! ### Pacing and readers -/

/-- XFR_TIMER_EXPIRY (R365). -/
def xfrTimer (s : State) (k : Nat) : State :=
  let p := usTicks (s.rf (0x8010 + 4 * k) 15 0)
  let at_ := cget zeroNat s.xfr.timers k
  if p = 0 ∨ s.clk.now < at_ then s
  else xfrTrigger { s with xfr := { s.xfr with timers := cset zeroNat s.xfr.timers k (at_ + p) } } 1 k

/-- A write to XFR_TMR_t restarts the timer. -/
def xfrTimerWrite (s : State) (k : Nat) : State :=
  { s with xfr := { s.xfr with timers := cset zeroNat s.xfr.timers k (s.clk.now + usTicks (s.rf (0x8010 + 4 * k) 15 0)) } }

/-- The channel that reads cell q now. -/
def qReader (s : State) (q : Nat) : Option Nat :=
  (List.range 32).find? (fun n =>
    let c := s.xch n
    c.st == .run && c.desc != [] && xdEp c.desc == 0 && xdEpi c.desc == q && c.reading == .quiet && decide (0 < c.blockLeft))

/-- An element of a queue taken by a channel. -/
def XCh.takeWord (c : XCh) (w : QWord) : XCh :=
  { c with held := c.held ++ bytesWords w.bytes, tags := c.tags ++ [w.valid], moved := c.moved + 1, blockLeft := c.blockLeft - 1 }

/-- QUEUE_WORD_HEAD: the reader of the cell takes the word at stage 0 (R348, R357). -/
def queueWordHead (s : State) (q : Nat) : State :=
  match qHead s q with
  | none => s
  | some w =>
    if s.rb (A.queue q) 1 then (match captureRing s q with | some r => captureTake (qTake s q) r q w | none => s)
    else match qReader s q with
      | some n => if s.suspended ∨ xfrStopped s then s else (qTake s q).setX n ((s.xch n).takeWord w)
      | none => s

/-! ### Views -/

/-- Bit n for every channel with a property. -/
def xfrMask (s : State) (f : XCh → Bool) : Word := packWord ((List.range 32).map (fun n => (b2n (f (s.xch n)), n)))

/-- XFR registers that are not stored words. -/
def xfrView (s : State) (o : Nat) : Option Word :=
  if o = 0 then some (xfrMask s XCh.active)
  else if o = 4 then some (xfrMask s (fun c => c.st == .error))
  else if 0x100 ≤ o ∧ o < 0x500 then
    let c := s.xch ((o - 0x100) / 0x20)
    match o % 0x20 with
    | 0x0C => some (packWord [(c.dseq, 16), (b2n c.trig, 8), (c.err, 4), (c.st.code, 0)])
    | 0x10 => some (lo32 c.addr)
    | 0x14 => some (hi32 c.addr)
    | 0x18 => some (ofNat32 c.moved)
    | 0x1C => some (packWord [(c.missed, 16), (c.reread, 0)])
    | _ => none
  else none

end Sys2Proof.Machine
end

