-- ==== Sys2Proof/Machine/Bus.lean ====
section
/-!
DEFINITION. BAR0: the word every register reads as, reads with their side effects, and what a write does to each block
(R14 to R17, R48 to R50, R102, R221, R299, R311, R312; R334's fields take the same effects).
-/
namespace Sys2Proof.Machine

/-! ### Reads -/

/-- A computed register of a region block; n = 4 is the Mirror region. -/
def regionView (s : State) (n o : Nat) : Option Word :=
  if o < 0x1000 then evsView s n o
  else if o < 0x2000 then arbView s n o
  else if 0x4000 ≤ o ∧ o < 0x8000 ∧ n < 4 then
    let b := 4 * n + (o - 0x4000) / 0x1000
    let p := o % 0x1000
    if 0x600 ≤ p ∧ p < 0x680 then convView s b (p - 0x600) else driveView s b p
  else none

/-- A register whose word is not simply stored. -/
def bar0View (s : State) (a : Nat) : Option Word :=
  if a < 0x1000 then glbView s a
  else if a < 0x2000 then hifView s (a - 0x1000)
  else if a < 0x3000 then pwrView s (a - 0x2000)
  else if a < 0x4000 then (fwView s (a - 0x3000)).orElse (fun _ => wdnView s (a - 0x3000))
  else if a < 0x8000 then irqView s (a - 0x4000)
  else if a < 0x9000 then xfrView s (a - 0x8000)
  else if a < 0xA000 then queView s (a - 0x9000)
  else if a < 0xB000 then vlkView s (a - 0xA000)
  else if a < 0xC000 then reelView s (a - 0xB000)
  else if a < 0xD000 then atuView s (a - 0xC000)
  else if a < 0xE000 then adcView s (a - 0xD000)
  else if a < 0xF000 then cmpView s (a - 0xE000)
  else if 0x10000 ≤ a ∧ a < 0x60000 then regionView s (a / 0x10000 - 1) (a % 0x10000)
  else none

/-- The word the register at a multiple of 4 reads as. -/
def bar0Word (s : State) (a : Nat) : Word := (bar0View s a).getD (s.reg a)

/-- The low halves of the 64-bit registers (R16), GLB_DTIME excepted (R50). -/
def isLowHalf (a : Nat) : Bool :=
  a == 0x30 || a == 0x1008 || a == 0x1010 || (decide (0x1100 ≤ a) && decide (a < 0x1900) && a % 0x20 == 4) ||
  a == 0x2020 || a == 0x2034 || a == 0x3190 || a == 0x3198 || a == 0x320C || a == 0xC520 ||
  (decide (0x8100 ≤ a) && decide (a < 0x8500) && (a % 0x20 == 4 || a % 0x20 == 0x10))

/-- DTIME_LOW_READ: the low word; the high word and the quality are latched with it (R50). -/
def dtimeRead (s : State) : State :=
  ({ s with glb := { s.glb with timeHigh := some (hi32 s.dtime), qualLatch := s.clk.qual } }).answer [lo32 s.dtime]

/-- A read of the high word of GLB_DTIME: the latched one, which it releases, else the word as it stands (R16, R50). -/
def dtimeHighRead (s : State) : State :=
  match s.glb.timeHigh with
  | some w => ({ s with glb := { s.glb with timeHigh := none } }).answer [w]
  | none => s.answer [hi32 s.dtime]

/-- The high halves latched and not yet read, by address. -/
def latched (s : State) (a : Nat) : Option Word := (s.hif.hiLatch.find? (fun p => p.1 == a)).map (·.2)

/-- A claim read by the host (R389, R390, R396). -/
def hostClaim (s : State) (t : Nat) : State :=
  if t < 14 then
    s.claim t
  else s.answer [0]

/-- A BAR0 read of one word with its side effects; a misaligned one gives zero (R15, R16). -/
def bar0Read (s : State) (a : Nat) : State :=
  if a % 4 ≠ 0 ∨ 0x100000 ≤ a then s.answer [0]
  else if a = 0x20 then dtimeRead s
  else if a = 0x24 then dtimeHighRead s
  else if 0x4100 ≤ a ∧ a < 0x4200 ∧ a % 0x10 = 4 then hostClaim s ((a - 0x4100) / 0x10)
  else if 0xB400 ≤ a ∧ a < 0xB800 ∧ a % 0x40 = 0x20 then reelRx s ((a - 0xB400) / 0x40)
  else if isLowHalf a then ({ s with hif := { s.hif with hiLatch := cput s.hif.hiLatch (a + 4) (bar0Word s (a + 4)) } }).answer [bar0Word s a]
  else match latched s a with
    | some w => ({ s with hif := { s.hif with hiLatch := cdel s.hif.hiLatch a } }).answer [w]
    | none => s.answer [bar0Word s a]

/-- The words of a read of `size` bytes with all data bytes zero (R15, R44). -/
def zeroWords (size : Nat) : List Word := List.replicate ((size + 3) / 4) 0

/-- A host read of BAR0: one register, 4 or 8 bytes of the MSI-X structures, or zeros for any other size or alignment (R14, R15, R303). -/
def bar0Access (s : State) (a size : Nat) : State :=
  if size = 8 ∧ a % 8 = 0 ∧ 0x1A00 ≤ a ∧ a < 0x1C08 then s.answer [bar0Word s a, bar0Word s (a + 4)]
  else if size = 4 ∧ a % 4 = 0 then bar0Read s a
  else s.answer (zeroWords size)

/-- A host read of BAR2: naturally aligned words, or zeros for any other size or alignment (R44, R46). -/
def bar2Access (s : State) (a size : Nat) : State :=
  if size = 4 ∧ a % 4 = 0 ∧ a < 0x800000 then s.answer [bar2Word s a]
  else if size = 8 ∧ a % 8 = 0 ∧ a < 0x800000 then s.answer [bar2Word s a, bar2Word s (a + 4)]
  else s.answer (zeroWords size)

/-- A base address register pair: 64-bit, non-prefetchable, the address bits below the size hard-wired (R302). -/
def barWord (addr size : Nat) : Word := ofNat32 (addr / size * size + 4)

/-- The words of the configuration header (R301, R302) at their PCI Express places (PRESUMED, log entry 71). -/
def headerWord (s : State) (o : Nat) : Option Word :=
  match o with
  | 0x00 => some 0x64001E4C
  | 0x04 => some (packWord [(1, 20), (b2n s.hif.bme, 2), (b2n s.hif.pci.mem, 1)])
  | 0x08 => some 0x11800002
  | 0x10 => some (barWord s.hif.pci.bar0 0x100000)
  | 0x14 => some (hi32 s.hif.pci.bar0)
  | 0x18 => some (barWord s.hif.pci.bar2 0x800000)
  | 0x1C => some (hi32 s.hif.pci.bar2)
  | 0x20 | 0x24 | 0x30 => some 0
  | 0x2C => some 0x64001E4C
  | _ => none

/-- A read of configuration space; where the spec places no register the data are free. -/
def configRead (s : State) (o : Nat) : State :=
  match headerWord s o with
  | some w => s.answer [w]
  | none => ({ s with free := s.free + 1 } : State).answer [Config.freeWord s.free]

/-- A host read. -/
def hostRead (s : State) (sp : ReadSpace) (a size : Nat) : State :=
  match sp with
  | .bar0 => bar0Access s a size
  | .bar2 => bar2Access s a size
  | .config => configRead s (a / 4 * 4)

/-! ### Pieces of writes -/

/-- Fields of a register written by their own access and range. -/
def plainPut (s : State) (a : Nat) (v : Word) : State := s.setReg a (plainWrite a (s.reg a) v)

/-- A pair of fields that must stay in order, low below high: a write that breaks it leaves both (R102, R299). -/
def pairPut (s : State) (a hh hl lh ll : Nat) (v : Word) : State :=
  let w := plainWrite a (s.reg a) v
  if fld w lh ll < fld w hh hl then s.setReg a w
  else s.setReg a (setFld (setFld w hh hl (s.rf a hh hl)) lh ll (s.rf a lh ll))

/-- A register whose fields change only while `free` holds. -/
def heldPut (s : State) (a : Nat) (v : Word) (free : Bool) : State := if free then plainPut s a v else s

/-! ### Writes by block (before the seal, and as CFG_WRITE makes them) -/

/-- GLB; any value of GLB_BEH_LEVEL but 1 and 2 has no effect (R22). -/
def glbWrite (s : State) (a : Nat) (v : Word) : State :=
  if a = 8 then modeRequest s v
  else if a = 4 then (if v = 1 ∨ v = 2 then s.setReg 4 v else s)
  else if a = 0x38 then { s with glb := { s.glb with cause := (ofNat32 s.glb.cause &&& ~~~ (v &&& 0x3F)).toNat } }
  else plainPut s a v

/-- HIF: RUN (R312, R314), the rest plain. -/
def hifWrite (s : State) (a : Nat) (v : Word) : State :=
  if a = 0x1000 then
    let s := s.setRf 0x1000 8 8 (fld v 8 8)
    if wbit v 0 then clearHostReset (runAccepted s) else s.setRf 0x1000 0 0 0
  else plainPut s a v

/-- PWR: the actions of PWR_CTL, the rest plain. -/
def pwrWrite (s : State) (a : Nat) (v : Word) : State :=
  if a = 0x2000 then
    let s := if wbit v 2 then journalCommit s 2 else s
    let s := if wbit v 1 then duskReq s else s
    if wbit v 0 then pllAsk s none else s
  else plainPut s a v

/-- IRQ (R391, R398 to R401). -/
def irqWrite (s : State) (o : Nat) (v : Word) : State :=
  if o = 0x10 then idleWrite true false v s
  else if o = 0x14 then idleWrite false false v s
  else if 0x100 ≤ o ∧ o < 0x200 ∧ o % 0x10 = 8 then
    (if (o - 0x100) / 0x10 < 14 then s.complete ((o - 0x100) / 0x10) (fld v 8 0) else s)
  else if 0x400 ≤ o ∧ o < 0x440 then pendSet s ((o - 0x400) / 4) v
  else if 0x440 ≤ o ∧ o < 0x480 then { s with irq := irqPendClr s.regs s.clk.now s.irq ((o - 0x440) / 4) v }
  else if 0x1000 ≤ o ∧ o < 0x1400 then enWrite true ((o - 0x1000) / 0x40) (o % 0x40 / 4) v s
  else if 0x1400 ≤ o ∧ o < 0x1800 then enWrite false ((o - 0x1400) / 0x40) (o % 0x40 / 4) v s
  else (plainPut s (A.irq + o) v).irqReview

/-- XFR: timers restart (R365); STOP, then START. -/
def xfrWrite (s : State) (o : Nat) (v : Word) : State :=
  if 0x10 ≤ o ∧ o < 0x20 then xfrTimerWrite (plainPut s (A.xfr + o) v) ((o - 0x10) / 4)
  else if 0x100 ≤ o ∧ o < 0x500 ∧ o % 0x20 = 0 then
    let n := (o - 0x100) / 0x20
    let s := if wbit v 1 then (xfrStop s n).2 else s
    if wbit v 0 then xfrCtlStart s n else s
  else plainPut s (A.xfr + o) v

/-- QUE_q_CFG as it would stand after a write: SRC_KIND, SRC_INST, WIDTH and READER only while EN = 0 (R356). -/
def queCfgNext (s : State) (q : Nat) (v : Word) : Word :=
  let old := s.reg (A.queue q)
  let w := plainWrite (A.queue q) old v
  if wbit old 0 then setFld (setFld (setFld w 12 8 (fld old 12 8)) 6 4 (fld old 6 4)) 3 1 (fld old 3 1) else w

/-- R344 and R345 hold for a cell configuration. -/
def queCfgGood (s : State) (q : Nat) (w : Word) : Bool :=
  (match fld w 6 4 with | 1 => fld w 3 2 == 1 | 3 | 4 => fld w 3 2 == 2 | _ => true) &&
  (!wbit w 0 || fld w 6 4 == 0 || (List.range 24).all (fun p =>
    p == q || !qEnabled s p || s.rf (A.queue p) 6 4 != fld w 6 4 || s.rf (A.queue p) 12 8 != fld w 12 8))

/-- A write of QUE_q_CFG (R344, R345, R356). -/
def queCfgWrite (s : State) (q : Nat) (v : Word) : State :=
  let w := queCfgNext s q v
  if queCfgGood s q w then
    let s' := s.setReg (A.queue q) w
    if wbit w 0 then qlevelStart (levelNotice s' q (levelNow s q)) q else qFlush s' q
  else s

/-- QUE: the trace's sticky bits, cells (R352, R356, R377). -/
def queWrite (s : State) (o : Nat) (v : Word) : State :=
  if o = 4 then { s with trace := { s.trace with overrun := s.trace.overrun && !wbit v 2, rewindLost := s.trace.rewindLost && !wbit v 1 } }
  else if 0x100 ≤ o ∧ o < 0x400 ∧ o % 0x20 = 0 then queCfgWrite s ((o - 0x100) / 0x20) v
  else if 0x100 ≤ o ∧ o < 0x400 ∧ o % 0x20 = 4 then (if wbit v 17 then qAck s ((o - 0x100) / 0x20) else s)
  else plainPut s (A.que + o) v

/-- VLK: receive slots change only while EN = 0. -/
def vlkWrite (s : State) (o : Nat) (v : Word) : State :=
  if o = 0 then linkReview (vlkCfgWrite s v)
  else if 0x80 ≤ o ∧ o < 0x100 then heldPut s (A.vlk + o) v (!linkEn s)
  else plainPut s (A.vlk + o) v

/-- OWNER and OWN_EN of a pin change only while the old and the new owner have EN = 0 (R436). -/
def pinCfgWrite (s : State) (p : Nat) (v : Word) : State :=
  let a := A.pin p
  let free := !reelEn s (s.rf a 3 0) && !reelEn s (fld v 3 0)
  let s := s.setRf a 11 8 (fld v 11 8)
  if free then (s.setRf a 4 4 (fld v 4 4)).setRf a 3 0 (fld v 3 0) else s

/-- REEL_e_CFG: START, JOIN and RXMODE while EN = 0, then EN (R410, R426, R428, R436). -/
def engCfgWrite (s : State) (e : Nat) (v : Word) : State :=
  let a := A.eng e
  let join := s.rf a 3 2
  let en := reelEn s e
  let s := if en then s else s.setReg a (setFld (plainWrite a (s.reg a) v) 0 0 0)
  let s := if s.rf a 3 2 ≠ join then reelFlushOut (reelFlushIn s e) e else s
  if wbit v 0 then (if en then s else reelEnable s e) else if en then reelDisable s e else s

/-- REEL_e_CTL: RESTART, then the flushes. -/
def engCtlWrite (s : State) (e : Nat) (v : Word) : State :=
  let s := if wbit v 0 then reelRestart s e else s
  let s := if wbit v 1 then reelFlushOut s e else s
  if wbit v 2 then reelFlushIn s e else s

/-- One engine's registers. -/
def engWrite (s : State) (e o : Nat) (v : Word) : State :=
  match o with
  | 0x00 => engCfgWrite s e v
  | 0x04 | 0x08 | 0x0C => heldPut s (A.eng e + o) v (!reelEn s e)
  | 0x10 => reelWrapSet s e (fld v 13 8) (fld v 5 0)
  | 0x14 => engCtlWrite s e v
  | 0x1C => reelTx s e v
  | 0x24 => reelInject s e v.toNat
  | _ => s

/-- REEL: a write comes before the engine cycles of its FCLK cycle (R429). -/
def reelWrite (s : State) (o : Nat) (v : Word) : State :=
  let s := s.reelTurn 0
  if o = 8 then reelFlagWrite s (fld v 15 0) 0
  else if o = 0xC then reelFlagWrite s 0 (fld v 15 0)
  else if 0x80 ≤ o ∧ o < 0x100 then pinCfgWrite s ((o - 0x80) / 4) v
  else if 0x400 ≤ o ∧ o < 0x800 then engWrite s ((o - 0x400) / 0x40) (o % 0x40) v
  else s

/-- ATU_DOM_n_CFG: its fields, then EN (R63, R68); a new source of D3 begins in NONE. -/
def domCfgWrite (s : State) (d : Nat) (v : Word) : State :=
  let a := A.dom d
  let was := domEn s d
  let link := onLink s d
  let s := s.setReg a (setFld (plainWrite a (s.reg a) v) 0 0 (b2n was))
  let s := if onLink s d = link then s else toNone s d
  let s := if wbit v 0 then (if was then s else domainEnable s d) else if was then domainDisable s d else s
  if d = 3 then linkReview s else s

/-- The registers of domain d; a LEARN write with START and ABORT starts and then aborts (DESIGN CHOICE, log entry 70). -/
def domWrite (s : State) (d o : Nat) (v : Word) : State :=
  if o = 0 then domCfgWrite s d v
  else if o = 0x18 then (if wbit v 0 then toNone s d else s)
  else if 2 ≤ d ∧ o = 4 then pairPut s (A.dom d + 4) 15 8 7 0 v
  else if d < 2 ∧ o = 0x70 then
    let s := plainPut s (A.dom d + 0x70) v
    let s := if wbit v 0 then learnStart s d else s
    if wbit v 1 then learnAbort s d else s
  else if d < 2 ∧ o = 0x78 then ncylWritten (plainPut s (A.dom d + 0x78) v) d (ncyl s d)
  else plainPut s (A.dom d + o) v

/-- ATU: domains, the synchronizing check, marks (a mark angle stays below L). A write with ARM and CANCEL arms and then cancels, and a
write of a mark's DOMAIN keeps its ANGLE whatever the new L (DESIGN CHOICE, log entry 70). -/
def atuWrite (s : State) (o : Nat) (v : Word) : State :=
  if 0x100 ≤ o ∧ o < 0x500 then domWrite s (o / 0x100 - 1) (o % 0x100) v
  else if o = 0x500 then
    let s := plainPut s 0xC500 v
    let s := if wbit v 0 then syncArm s else s
    if wbit v 1 then syncCancel s else s
  else if 0x600 ≤ o ∧ o < 0x680 ∧ o % 8 = 4 then
    (if v.toNat < domL s (s.rf (0xC000 + o - 4) 2 1) then plainPut s (0xC000 + o) v else s)
  else plainPut s (0xC000 + o) v

/-- A converter's registers. -/
def convWrite (s : State) (k o : Nat) (v : Word) : State :=
  if o = 0 then adcCfgWrite s k v
  else if 0x20 ≤ o ∧ o < 0x30 then adcTimerWrite s k ((o - 0x20) / 4) v
  else s

/-- ADC: host pressures, the general converters and their steps. -/
def adcWrite (s : State) (o : Nat) (v : Word) : State :=
  if 0x20 ≤ o ∧ o < 0x30 then hostPressSet s ((o - 0x20) / 4) (fld v 15 0)
  else if 0x100 ≤ o ∧ o < 0x900 then
    let k := 16 + (o - 0x100) / 0x400
    let p := (o - 0x100) % 0x400
    if 0x100 ≤ p ∧ p < 0x180 then adcStepPut s k ((p - 0x100) / 4) v else convWrite s k p v
  else plainPut s (A.adc + o) v

/-- CMP. -/
def cmpWrite (s : State) (o : Nat) (v : Word) : State :=
  if o < 0x120 ∧ o % 0x10 = 0 then winCfgWrite s (80 + o / 0x10) v
  else if o < 0x120 ∧ o % 0x10 = 4 then winThrWrite s (80 + o / 0x10) v
  else plainPut s (A.cmp + o) v

/-- A bank block. -/
def bankWrite (s : State) (b o : Nat) (v : Word) : State :=
  if o < 0x400 ∧ o % 0x100 = 0 then chanCfgWrite s (4 * b + o / 0x100) v
  else if o < 0x400 ∧ o % 0x100 = 0xC then chanCtlWrite s (4 * b + o / 0x100) v
  else if o = 0x418 then (if wbit v 0 then bankResume s b else s)
  else if 0x600 ≤ o ∧ o < 0x680 then convWrite s b (o - 0x600) v
  else if 0x680 ≤ o ∧ o < 0x700 then adcStepPut s b ((o - 0x680) / 4) v
  else if o = 0x844 then winThrWrite s (64 + b) v
  else plainPut s (A.bank b + o) v

/-- A region block. -/
def regionWrite (s : State) (n o : Nat) (v : Word) : State :=
  if 0x2000 ≤ o ∧ o < 0x2080 ∧ o % 0x20 = 4 then pairPut s (A.region n + o) 27 16 11 0 v
  else if 0x4000 ≤ o ∧ o < 0x8000 ∧ n < 4 then bankWrite s (4 * n + (o - 0x4000) / 0x1000) (o % 0x1000) v
  else plainPut s (A.region n + o) v

/-- The effect of an accepted write of one register, by its block. -/
def blockWrite (s : State) (a : Nat) (v : Word) : State :=
  if a < 0x1000 then glbWrite s a v
  else if a < 0x2000 then hifWrite s a v
  else if a < 0x3000 then pwrWrite s a v
  else if a < 0x4000 then plainPut s a v
  else if a < 0x8000 then irqWrite s (a - 0x4000) v
  else if a < 0x9000 then xfrWrite s (a - 0x8000) v
  else if a < 0xA000 then queWrite s (a - 0x9000) v
  else if a < 0xB000 then vlkWrite s (a - 0xA000) v
  else if a < 0xC000 then reelWrite s (a - 0xB000) v
  else if a < 0xD000 then atuWrite s (a - 0xC000) v
  else if a < 0xE000 then adcWrite s (a - 0xD000) v
  else if a < 0xF000 then cmpWrite s (a - 0xE000) v
  else if 0x10000 ≤ a ∧ a < 0x60000 then regionWrite s (a / 0x10000 - 1) (a % 0x10000) v
  else s

/-- The configuration fields of register a differ between two states. -/
def cfgDiffers (s t : State) (a : Nat) : Bool := (s.reg a ^^^ t.reg a) &&& fieldMask Fld.covered a != 0

/-- A register write takes effect; a change of the configuration in force starts a new digest (R565). -/
def regWrite (s : State) (a : Nat) (v : Word) : State :=
  let t := blockWrite s a v
  if cfgDiffers s t a then t.configChanged else t

/-! ### The seal (R48, R49) -/

/-- A write to GLB_SEAL: the key words in order seal the device and commit its configuration (R48, R563). -/
def sealWrite (s : State) (v : Word) : State :=
  if v = 0x5EA1 then { s with glb := { s.glb with first := true } }
  else if v = 0xFFFFA15E ∧ s.glb.first then journalCommit { s with glb := { s.glb with first := false, isSealed := true } } 1
  else s.unFirst

/-- The IRQ registers written directly after the seal (table *Writes permitted after the seal*). -/
def irqDirect (a : Nat) : Bool :=
  a == 0x4010 || a == 0x4014 || (decide (0x4100 ≤ a) && decide (a < 0x4200) && (a % 0x10 == 4 || a % 0x10 == 8)) ||
  (decide (0x4400 ≤ a) && decide (a < 0x4480)) || (decide (0x5000 ≤ a) && decide (a < 0x5800))

/-- An HIF register with SEAL access. -/
def hifSeal (a : Nat) : Bool := decide (0x1000 ≤ a) && decide (a < 0x2000) && (regFields a).any (fun f => f.acc == .seal)

/-- A naturally aligned 32-bit access within the BAR (R14). -/
def aligned32 (a size : Nat) : Bool := size == 4 && a % 4 == 0 && decide (a < 0x100000)

/-- A BAR0 write after the seal (R311, R312). -/
def sealedWrite (s : State) (a size : Nat) (v : Word) : State :=
  if aligned32 a size then
    (if irqDirect a ∨ (hifSeal a ∧ hostReset s) then regWrite s.unFirst a v
     else if a = 0x1000 ∧ wbit v 0 then runStart s
     else s.refuseWrite false)
  else s.refuseWrite false

/-- A BAR0 write (R12 to R17, R303, R311, R611). -/
def bar0Write (s : State) (a size : Nat) (v : BitVec 64) : State :=
  if 0x1A00 ≤ a ∧ a < 0x1C00 then msixTableWrite s a size v
  else if s.glb.isSealed then sealedWrite s a size (lo32 v.toNat)
  else if importOpen s ∨ ¬ aligned32 a size then s.unFirst
  else if a = 0x10 then sealWrite s (lo32 v.toNat)
  else regWrite s.unFirst a (lo32 v.toNat)

/-- A naturally aligned 32-bit BAR0 write. -/
def put32 (s : State) (a : Nat) (v : Word) : State := bar0Write s a 4 (BitVec.ofNat 64 v.toNat)

/-- A BAR0 write that sets one bit field of a register and keeps its other fields. -/
def putField (s : State) (a hi lo v : Nat) : State := put32 s a (setFld (s.reg a) hi lo v)

end Sys2Proof.Machine
end

