-- ==== Sys2Proof/Machine/CfgWrite.lean ====
section
/-!
DEFINITION. CFG_WRITE: its checks entry by entry and its application in one FCLK cycle (R334 to R336).
-/
namespace Sys2Proof.Machine

/-! ### Fields that CFG_WRITE does not write (check 1) -/

/-- Read-only and write-one-to-clear bits of the Warden block. -/
def wdnFixed (o : Nat) : Nat :=
  if o = 0 then 0xFF00F3F0
  else if o = 4 ∨ o = 8 then 0x7FFF
  else if o = 0x10 then 0xFFFF0000
  else if o = 0x1C then 0xFFFFFF
  else if o = 0x20 then 0xFFFF
  else if (0x14 ≤ o ∧ o < 0x3C) ∨ o = 0x40 ∨ o = 0x44 then 0xFFFFFFFF
  else if o = 0x100 then 0xFFFF003F
  else if (0x120 ≤ o ∧ o < 0x138) ∨ (0x140 ≤ o ∧ o < 0x190 ∧ o % 16 < 8) ∨ (0x190 ≤ o ∧ o < 0x1A0) then 0xFFFFFFFF
  else if o = 0x1A0 then 0x1FFFF
  else if 0x208 ≤ o ∧ o < 0x214 then 0xFFFFFFFF
  else if o = 0x240 then 0xFFD
  else if 0x244 ≤ o ∧ o < 0x250 then 0xFFFFFFFF
  else 0

def irqFixed (o : Nat) : Nat :=
  if o = 4 then 0x7F
  else if o = 0x18 then 0xFFFFFFFF
  else if 0x100 ≤ o ∧ o < 0x200 then (if o % 16 = 4 then 0xFFFFFFFF else if o % 16 = 12 then 0xFF0F003F else 0)
  else if (0x480 ≤ o ∧ o < 0x4C0) ∨ (0x1800 ≤ o ∧ o < 0x1C00) then 0xFFFFFFFF
  else if 0x2000 ≤ o ∧ o < 0x2800 then 0x00FF003F
  else 0

/-- XFR: CTL.START and CTL.STOP have their own commands. -/
def xfrFixed (o : Nat) : Nat :=
  if o = 0 ∨ o = 4 then 0xFFFFFFFF
  else if 0x100 ≤ o ∧ o < 0x500 then
    (match o % 0x20 with | 0 => 3 | 4 | 8 => 0 | 0xC => 0xFFFF01F7 | _ => 0xFFFFFFFF)
  else 0

def queFixed (o : Nat) : Nat :=
  if o = 4 then 0x1FF
  else if 8 ≤ o ∧ o < 0x14 then 0x000FFFFF
  else if o = 0x14 then 0x00FFFFFF
  else if o = 0x18 ∨ o = 0x20 then 0xFFFFFFFF
  else if 0x100 ≤ o ∧ o < 0x400 then (match o % 0x20 with | 4 => 0xFF030F1F | 8 => 0xFFFFFFFF | _ => 0)
  else 0

def vlkFixed (o : Nat) : Nat :=
  if o = 4 then 0xF
  else if (0x18 ≤ o ∧ o < 0x28) ∨ (0x30 ≤ o ∧ o < 0x40) then 0xFFFFFFFF
  else if 0x80 ≤ o ∧ o < 0x100 then (match o % 16 with | 4 | 8 => 0xFFFFFFFF | 12 => 0xFFFF000F | _ => 0)
  else if o = 0x100 then 0xFFFF
  else 0

/-- REEL: EN, the wrap pair, CTL, TX, INJECT and the flag registers have their own commands (R436). -/
def reelFixed (o : Nat) : Nat :=
  if o = 0 then 0x1FFFF
  else if o = 4 ∨ o = 8 ∨ o = 12 then 0xFFFF
  else if 0x80 ≤ o ∧ o < 0x100 then 0x30000
  else if 0x400 ≤ o ∧ o < 0x800 then
    (match o % 0x40 with
    | 0x00 => 1
    | 0x0C => 0x1F0000
    | 0x10 => 0xBF3F3F3F
    | 0x14 => 7
    | 0x18 => 0xFC0FF7BF
    | 0x1C | 0x20 | 0x28 | 0x2C | 0x30 | 0x34 => 0xFFFFFFFF
    | 0x24 => 0xFFFFFF
    | 0x38 => 0xF
    | _ => 0)
  else 0

/-- ATU registers of domain d. -/
def domFixed (d o : Nat) : Nat :=
  match o with
  | 0x1C => 0xFFFFFF07
  | 0x20 | 0x24 | 0x2C => 0xFFFFFFFF
  | 0x28 => if d < 2 then 0x7FF else 0xFFFF0FFF
  | 0x30 | 0x58 | 0x5C | 0x6C => if d < 2 then 0xFFFFFFFF else 0
  | 0x34 => if d < 2 then 0x3FFFF else 0
  | 0x54 => if d < 2 then 0x01FF007F else 0
  | 0x60 => if d < 2 then 0x3FFF else 0
  | 0x64 => if d < 2 then 0x1FFFFFF else 0
  | 0x68 => if d < 2 then 0xFFFF07FF else 0
  | 0x74 => if d < 2 then 0xFFFF0003 else 0
  | 0x78 => if d < 2 then 0xFF000020 else 0
  | 0x80 => if d < 2 then 0xFFFFFFFF else 0
  | _ => 0

def atuFixed (o : Nat) : Nat :=
  if o = 0 then 0x7777
  else if 0x100 ≤ o ∧ o < 0x500 then domFixed (o / 0x100 - 1) (o % 0x100)
  else if o = 0x510 then 0xFFFF000F
  else if o = 0x51C then 0xFFFF
  else if 0x514 ≤ o ∧ o < 0x528 then 0xFFFFFFFF
  else if 0x800 ≤ o ∧ o < 0x820 then (match o % 16 with | 0 => 0xFFFFFFFF | 4 | 8 => 0xFFFF | _ => 0)
  else 0

/-- A converter with n inputs: step entries have their own command. -/
def convFixed (n o : Nat) : Nat :=
  match o with
  | 0x04 => 0x1F7F
  | 0x08 | 0x0C => 0xFFFFFFFF
  | 0x10 => 0x7FFFFFFF
  | 0x14 => 0xFFFF000F
  | _ => if 0x40 ≤ o ∧ o < 0x40 + 4 * n then 0xFFFFFFFF else 0

/-- ADC: host pressure values have their own command. -/
def adcFixed (o : Nat) : Nat :=
  if o = 4 then 0xFFFFF007
  else if o = 8 ∨ o = 12 then 0x0FFF0FFF
  else if o = 0x10 then 0xFFF
  else if 0x20 ≤ o ∧ o < 0x30 then 0xFFFFFFFF
  else if 0x100 ≤ o ∧ o < 0x900 then
    let p := (o - 0x100) % 0x400
    if 0x100 ≤ p ∧ p < 0x180 then 0xFFFFFFFF else if p < 0x100 then convFixed 19 p else 0
  else 0

def bankFixed (o : Nat) : Nat :=
  if o < 0x400 then
    (match o % 0x100 with
    | 0x04 => 0x00FF1F7F
    | 0x08 => 0x1FFF
    | 0x10 | 0x14 | 0x18 => 0xFFFFFFFF
    | 0x1C => 0xFFFF
    | _ => 0)
  else if o = 0x408 then 0x3FF3F
  else if o = 0x40C then 0xFFFF
  else if o = 0x410 ∨ o = 0x414 ∨ (0x420 ≤ o ∧ o < 0x430) then 0xFFFFFFFF
  else if 0x600 ≤ o ∧ o < 0x680 then convFixed 12 (o - 0x600)
  else if 0x680 ≤ o ∧ o < 0x700 then 0xFFFFFFFF
  else if o = 0x700 then 0x1FFF
  else if o = 0x704 then 0xFFFFFFFF
  else if 0x740 ≤ o ∧ o < 0x7C0 then
    (if (o - 0x740) % 0x20 < 0x14 then 0xFFFFFFFF else if (o - 0x740) % 0x20 = 0x14 then 0xFFFFFF0F else 0)
  else if 0x7C0 ≤ o ∧ o < 0x800 then 0xFFFFFFFF
  else if 0x800 ≤ o ∧ o < 0x850 then
    (match o % 16 with | 4 => (if o < 0x840 then 0x03FF03FF else 0) | 8 => 0xFFFF000F | _ => 0)
  else 0

def regionFixed (n o : Nat) : Nat :=
  match o with
  | 0x004 => 0x07FF07FF
  | 0x008 | 0x00C | 0x010 | 0x014 | 0x018 | 0x01C | 0x020 | 0x024 | 0x040 | 0x044 | 0x048 | 0x04C => 0xFFFFFFFF
  | 0x028 => 0xFFFF
  | 0x034 => 0x1F
  | 0x1000 => 0xFFFF000F
  | 0x1004 => 0x00FF0007
  | 0x1008 | 0x100C => 0xFFFFFFFF
  | 0x1010 => if n < 4 then 0xFFFF0001 else 0xF
  | 0x1014 => 0xFFFF
  | _ =>
    if n < 4 ∧ 0x2000 ≤ o ∧ o < 0x2080 ∧ o % 0x20 = 8 then 0xFFFF00FF
    else if n < 4 ∧ 0x4000 ≤ o ∧ o < 0x8000 then bankFixed (o % 0x1000)
    else 0

/-- The bits of a register outside GLB, HIF and PWR that lie in defined fields CFG_WRITE never writes: RO and W1C fields, and
fields with their own command. -/
def cfgFixed (a : Nat) : Word :=
  ofNat32 (if a < 0x3000 then 0
    else if a < 0x4000 then wdnFixed (a - 0x3000)
    else if a < 0x8000 then irqFixed (a - 0x4000)
    else if a < 0x9000 then xfrFixed (a - 0x8000)
    else if a < 0xA000 then queFixed (a - 0x9000)
    else if a < 0xB000 then vlkFixed (a - 0xA000)
    else if a < 0xC000 then reelFixed (a - 0xB000)
    else if a < 0xD000 then atuFixed (a - 0xC000)
    else if a < 0xE000 then adcFixed (a - 0xD000)
    else if a < 0xF000 then (if a % 16 = 8 ∧ a < 0xE120 then 0xFFFF000F else 0)
    else if 0x10000 ≤ a ∧ a < 0x60000 then regionFixed (a / 0x10000 - 1) (a % 0x10000)
    else 0)

/-! ### Entries -/

/-- An entry of CFG_WRITE: OFFSET, VALUE, MASK. -/
structure CfgEntry where
  off : Nat
  val : Word
  mask : Word
  deriving DecidableEq, Repr

/-- The entries of a CFG_WRITE. -/
def cfgEntries (c : Fetched) : List CfgEntry :=
  (List.range (fld (c.w 2) 1 0 + 1)).map (fun e => ⟨(c.w (3 + 3 * e)).toNat, c.w (4 + 3 * e), c.w (5 + 3 * e)⟩)

/-- The fields of a register that CFG_WRITE can write. -/
def cfgFields (a : Nat) : List Fld :=
  (regFields a).filter (fun f => (f.acc == .seal || f.acc == .w1s || f.acc == .wo) && fld (cfgFixed a) f.hi f.lo == 0)

/-- The mask selects a field. -/
def CfgEntry.picks (e : CfgEntry) (f : Fld) : Bool := fld e.mask f.hi f.lo != 0

/-- Check 1 (NOT_WRITABLE). -/
def cfgWritable (e : CfgEntry) : Bool := decide (0x3000 ≤ e.off) && (e.mask &&& cfgFixed e.off) == 0

/-- Check 2 (RESERVED): whole fields, no reserved bit, no value bit outside the mask. -/
def cfgWhole (e : CfgEntry) : Bool :=
  e.mask == (cfgFields e.off).foldl (fun (m : Word) f => if e.picks f then setFld m f.hi f.lo (2 ^ (f.hi + 1 - f.lo) - 1) else m) 0 &&
  (e.val &&& ~~~ e.mask) == 0

/-- A register as it would stand after all entries: later entries decide shared bits (R335). -/
def cfgFinal (s : State) (es : List CfgEntry) (a : Nat) : Word :=
  es.foldl (fun w e => if e.off = a then (w &&& ~~~ e.mask) ||| e.val else w) (s.reg a)

/-- An address of a timer period: 0, or at least 4 (R47 of the converters). -/
def isTimer (a : Nat) : Bool :=
  (decide (0xD100 ≤ a) && decide (a < 0xD900) && decide (0x20 ≤ (a - 0xD100) % 0x400) && decide ((a - 0xD100) % 0x400 < 0x30)) ||
  (decide (0x10000 ≤ a) && decide (a < 0x50000) && decide (0x4000 ≤ a % 0x10000) && decide (a % 0x10000 < 0x8000) &&
    decide (0x620 ≤ a % 0x1000) && decide (a % 0x1000 < 0x630))

/-- The fields of a pair that must stand in order: (low field, high field) of a register. -/
def orderedPair (a : Nat) : Option ((Nat × Nat) × (Nat × Nat)) :=
  if a = 0xC304 ∨ a = 0xC404 then some ((7, 0), (15, 8))
  else if 0x10000 ≤ a ∧ a < 0x50000 ∧ 0x2000 ≤ a % 0x10000 ∧ a % 0x10000 < 0x2080 ∧ a % 0x20 = 4 then some ((11, 0), (27, 16))
  else none

/-- Check 3 (RANGE). -/
def cfgInRange (s : State) (es : List CfgEntry) (e : CfgEntry) : Bool :=
  (cfgFields e.off).all (fun f => !e.picks f || f.acc != .seal ||
    (decide (f.mn ≤ fld e.val f.hi f.lo) && decide (fld e.val f.hi f.lo ≤ f.mx) &&
      (!isTimer e.off || fld e.val 15 0 == 0 || decide (4 ≤ fld e.val 15 0)))) &&
  (match orderedPair e.off with
   | some (l, h) => e.mask == 0 || decide (fld (cfgFinal s es e.off) l.1 l.2 < fld (cfgFinal s es e.off) h.1 h.2)
   | none => true)

/-! ### Conditions of the owning chapters (check 4) -/

/-- The selected bits of a register would change. -/
def CfgEntry.changes (s : State) (e : CfgEntry) (bits : Word) : Bool := (s.reg e.off ^^^ e.val) &&& e.mask &&& bits != 0

/-- Another channel of the bank would be enabled with the other class after the command, whose entries take effect together
(R185, R335). -/
def cfgClash (s : State) (es : List CfgEntry) (c : Nat) : Bool :=
  let w := cfgFinal s es (A.cell c)
  wbit w 0 && (chansOf (c / 4)).any (fun o => o != c &&
    wbit (cfgFinal s es (A.cell o)) 0 && wbit (cfgFinal s es (A.cell o)) 1 != wbit w 1)

/-- R185: CLASS changes only while EN = 0, and EN = 1 is refused on a clash. -/
def cfgChanGood (s : State) (es : List CfgEntry) (e : CfgEntry) (c : Nat) : Bool :=
  !(chEn s c && e.changes s 2) && !(wbit (e.mask &&& e.val) 0 && cfgClash s es c)

/-- R344, R345 and R356 for a queue cell; the cells that feed from one producer are judged as they would stand (R335). -/
def cfgCellGood (s : State) (es : List CfgEntry) (e : CfgEntry) (q : Nat) : Bool :=
  let w := cfgFinal s es e.off
  !(qEnabled s q && e.changes s 0x1F7E) &&
  (match fld w 6 4 with | 1 => fld w 3 2 == 1 | 3 | 4 => fld w 3 2 == 2 | _ => true) &&
  (!wbit w 0 || fld w 6 4 == 0 || (List.range 24).all (fun p =>
    let v := cfgFinal s es (A.queue p)
    p == q || !wbit v 0 || fld v 6 4 != fld w 6 4 || fld v 12 8 != fld w 12 8))

/-- R436 for an RP pin. -/
def cfgPinGood (s : State) (es : List CfgEntry) (e : CfgEntry) : Bool :=
  !e.changes s 0x1F || (!reelEn s (s.rf e.off 3 0) && !reelEn s (fld (cfgFinal s es e.off) 3 0))

/-- Check 4 (CONDITION). -/
def cfgAllowed (s : State) (es : List CfgEntry) (e : CfgEntry) : Bool :=
  let a := e.off
  if e.mask = 0 then true
  else if 0x9100 ≤ a ∧ a < 0x9400 ∧ a % 0x20 = 0 then cfgCellGood s es e ((a - 0x9100) / 0x20)
  else if a = 0xA000 then !(linkEn s && e.changes s 0xFFFFFFFF)
  else if 0xA080 ≤ a ∧ a < 0xA100 then !(linkEn s && e.changes s 0xFFFFFFFF)
  else if 0xB080 ≤ a ∧ a < 0xB100 then cfgPinGood s es e
  else if 0xB400 ≤ a ∧ a < 0xB800 then !(reelEn s ((a - 0xB400) / 0x40) && e.changes s 0xFFFFFFFF)
  else if 0xC600 ≤ a ∧ a < 0xC680 ∧ a % 8 = 4 then
    decide ((cfgFinal s es a).toNat < (if fld (cfgFinal s es (a - 4)) 2 1 < 2 ∧
      ¬ wbit (cfgFinal s es (A.dom (fld (cfgFinal s es (a - 4)) 2 1))) 3 then 2 * oneRev else oneRev))
  else if 0x10000 ≤ a ∧ a < 0x50000 ∧ 0x4000 ≤ a % 0x10000 ∧ a % 0x10000 < 0x8000 ∧ a % 0x1000 < 0x400 ∧ a % 0x100 = 0 then
    cfgChanGood s es e ((a / 0x10000 - 1) * 16 + (a % 0x10000 - 0x4000) / 0x1000 * 4 + a % 0x1000 / 0x100)
  else true

/-- The first check an entry fails; 0 when it passes all. -/
def cfgEntryCheck (s : State) (es : List CfgEntry) (e : CfgEntry) : Nat :=
  if ¬ cfgWritable e then 1 else if ¬ cfgWhole e then 2 else if ¬ cfgInRange s es e then 3 else if ¬ cfgAllowed s es e then 4 else 0

/-- The first failing entry with its CSTAT, in entry order. -/
def cfgCheck (s : State) (es : List CfgEntry) : Option (Nat × Nat) :=
  (List.range es.length).findSome? (fun i =>
    match es[i]? with
    | some e => if cfgEntryCheck s es e = 0 then none else some (i, cfgEntryCheck s es e)
    | none => none)

/-! ### Application -/

/-- QUE_q_CFG or DRV_CH_c_CFG. -/
def cfgCell (a : Nat) : Bool :=
  (decide (0x9100 ≤ a) && decide (a < 0x9400) && a % 0x20 == 0) ||
  (decide (0x10000 ≤ a) && decide (a < 0x50000) && decide (0x4000 ≤ a % 0x10000) && decide (a % 0x10000 < 0x8000) &&
    decide (a % 0x1000 < 0x400) && a % 0x100 == 0)

/-- The order in which registers take their new words within the one cycle: an enable is seen after the settings it acts on and
after the cells that the command disables, and a mark angle after its domain's stroke. -/
def cfgRank (a : Nat) (w : Word) : Nat :=
  if 0xC600 ≤ a ∧ a < 0xC680 ∧ a % 8 = 4 then 2
  else if a = 0xA000 ∨ a = 0xC100 ∨ a = 0xC200 ∨ a = 0xC300 ∨ a = 0xC400 ∨ a = 0xC178 ∨ a = 0xC278 then 1
  else if cfgCell a ∧ wbit w 0 then 1
  else 0

/-- The bits of a register that the entries select. -/
def cfgMask (es : List CfgEntry) (a : Nat) : Word := es.foldl (fun m e => if e.off = a then m ||| e.mask else m) 0

/-- The registers that a CFG_WRITE writes, in the order of `cfgRank` and of their addresses. -/
def cfgTargets (s : State) (es : List CfgEntry) : List Nat :=
  let l := (es.filter (fun e => e.mask != 0)).foldl (fun l e => insertNat e.off l) []
  let at_ (k : Nat) := l.filter (fun a => cfgRank a (cfgFinal s es a) == k)
  at_ 0 ++ at_ 1 ++ at_ 2

/-- An IRQ register without an action of its own: its fields change first, and the controller is reviewed once after all. -/
def irqSetting (a : Nat) : Bool := decide (0x4000 ≤ a) && decide (a < 0x8000) && (regFields a).all (fun f => f.acc == .seal)

/-- A register that takes its new word with no action of its own: an IRQ setting, and CONTRIB_CFG where the command selects no
NCYL (R140). -/
def cfgPlain (a : Nat) (m : Word) : Bool := irqSetting a || ((a == 0xC178 || a == 0xC278) && fld m 4 0 == 0) ||
  (0xE000 ≤ a && a < 0xE120 && a % 0x10 == 0 && !wbit m 0)

/-- One register of an accepted CFG_WRITE that selects the bits `m` of it. -/
def cfgPut (s : State) (a : Nat) (m v : Word) : State :=
  if cfgPlain a m then (let t := plainPut s a v; if cfgDiffers s t a then t.configChanged else t) else regWrite s a v

/-- The writes of an accepted CFG_WRITE (R335). -/
def cfgApply (s : State) (es : List CfgEntry) : State :=
  let l := (cfgTargets s es).map (fun a => (a, cfgMask es a, cfgFinal s es a))
  (l.foldl (fun s p => cfgPut s p.1 p.2.1 p.2.2) s).irqReview

/-- The first domain whose EN the command sets to 1 and whose table check fails (R336). -/
def cfgTableFail (s t : State) (es : List CfgEntry) : Option Nat :=
  (es.map (fun e => (e.off - 0xC100) / 0x100)).find? (fun d =>
    decide (d < 2) && wbit (cfgMask es (A.dom d)) 0 && wbit (cfgFinal s es (A.dom d)) 0 && !domEn s d && !domEn t d)

/-- A refusal of R185 sets CFG_ERR. -/
def cfgClassErr (s : State) (es : List CfgEntry) (e : CfgEntry) : State :=
  (List.range 64).foldl (fun s c =>
    if e.off = A.cell c ∧ wbit (e.mask &&& e.val) 0 ∧ cfgClash s es c then s.setCell c { s.cell c with cfgErr := true } else s) s

/-- CFG_WRITE (R334 to R336). -/
def doCfgWrite (s : State) (c : Fetched) : Reply × State :=
  let es := cfgEntries c
  match cfgCheck s es with
  | some (i, k) => ({ cstat := k, r0 := ofNat32 i }, if k = 4 then cfgClassErr s es (es.getD i ⟨0, 0, 0⟩) else s)
  | none =>
    let t := cfgApply s es
    match cfgTableFail s t es with
    | some d => ({ cstat := 5, r0 := ofNat32 (t.dom d).tableErr, applied := true }, t)
    | none => ({}, t)

end Sys2Proof.Machine
end

