-- ==== Sys2Proof/Machine/Cmds.lean ====
section
/-!
DEFINITION. What each command of a command ring does when it is applied, and what it answers (tables *Command payloads*,
*Reflection and fault commands*, *Round, firmware and plan commands*, *Power commands*, *Link commands*, *Reel commands*,
*Queue and transfer commands*).
-/
namespace Sys2Proof.Machine

/-- The answer of a command that is applied. -/
def done (r0 r1 : Word) (s : State) : Reply × State := ({ r0 := r0, r1 := r1 }, s)

/-- A payload that breaks its own rule: 4 for a length or an address, 2 otherwise (R331). -/
def badPayload (h : Nat) (s : State) : Reply × State := ({ hstat := h }, s)

/-- A command with a status: refused whole unless the status is 0. -/
def withStatus (k : Nat) (r0 r1 : Word) (s : State) : Reply × State := ({ cstat := k, r0 := r0, r1 := r1 }, s)

/-- The effect of a command counts as a change of the configuration when it is applied (R565). -/
def State.configIf (s : State) (k : Nat) : State := if k = 0 then s.configChanged else s

/-! ### NOP, ARM, MODE_SET -/

def doNop (s : State) (_ : Fetched) : Reply × State := done 0 0 s

/-- SAFE_HOLD ends (R430, R488, R568). -/
def endSafeHold (s : State) : State :=
  if s.glb.safeHold then roundArmed (reelReview { s with glb := { s.glb with safeHold := false } }) else roundArmed s

/-- ARM (R333). -/
def doArm (s : State) (c : Fetched) : Reply × State :=
  if c.w 2 = lo32 s.glb.digest ∧ c.w 3 = hi32 s.glb.digest then
    done (lo32 s.glb.digest) (hi32 s.glb.digest) (endSafeHold { s with glb := { s.glb with armed := true } })
  else withStatus 1 (lo32 s.glb.digest) (hi32 s.glb.digest) s

/-- An ARM waits while the digest is being recomputed (R565). -/
def armCmd (r : Nat) (s : State) : State := if s.glb.digestDue ∧ ¬ s.glb.chipSafe then s else ringCmd 0x02 r doArm s

/-- MODE_SET (R38, R39). -/
def doModeSet (s : State) (c : Fetched) : Reply × State :=
  if fld (c.w 2) 9 8 ≤ 2 ∧ fld (c.w 2) 1 0 ≤ 1 then
    let t := roundPoll (planEvaluate (regWrite s 8 (c.w 2)))
    done (modeNowWord t) 0 t
  else withStatus 1 (modeNowWord s) 0 s

/-! ### TABLE_WRITE (R337) -/

/-- The areas of the table *TABLE_WRITE areas*. -/
inductive TArea where
  | teeth (d : Nat)
  | profile (d : Nat)
  | contrib (d : Nat)
  | balance
  | producers
  deriving DecidableEq, Repr

/-- The areas with their offsets and sizes. -/
def tableAreas : List (TArea × Nat × Nat) :=
  [(.teeth 0, 0x50000, 0x900), (.teeth 1, 0x54000, 0x900), (.profile 0, 0x51000, 0x400), (.profile 1, 0x55000, 0x400),
   (.contrib 0, 0x53800, 96), (.contrib 1, 0x57800, 96), (.balance, 0x81000, 104), (.producers, 0x82000, 0x1000)]

/-- The area that holds an offset, and its end. -/
def tableAreaAt (a : Nat) : Option (TArea × Nat) :=
  (tableAreas.find? (fun p => decide (p.2.1 ≤ a) && decide (a < p.2.1 + p.2.2))).map (fun p => (p.1, p.2.1 + p.2.2))

/-- The words of a buffer with their addresses. -/
def spanWords (a : Nat) (ws : List Word) : List (Nat × Word) := (List.range ws.length).map (fun i => (a + 4 * i, wordAt ws i))

/-- The write of one permitted area, with its check. -/
def areaWrite (s : State) (area : TArea) (l : List (Nat × Word)) : Reply × State :=
  match area with
  | .teeth d => if domEn s d then withStatus 3 0 0 s else done 0 0 (storeWords s l).configChanged
  | .profile d => done 0 0 (storeWords (profileTouched s d) l)
  | .contrib d =>
    (match contribFirstBad (storeWords s l) d l with
     | some i => withStatus 4 (Config.freeWord s.free) (ofNat32 i) { s with free := s.free + 1 }
     | none => done 0 0 (storeWords s l).configChanged)
  | .balance =>
    (match balCheck s (balEdit s l) with
     | some (code, k) => withStatus 4 (ofNat32 code) (ofNat32 k) s
     | none => done 0 0 (balStore s l))
  | .producers =>
    (match peFirstRefused (storeWords s l) l with
     | some i => withStatus 4 8 (ofNat32 i) (tableFails s i)
     | none => done 0 0 (tableTake (storeWords s l)).configChanged)

/-- TABLE_WRITE. -/
def doTableWrite (s : State) (c : Fetched) : Reply × State :=
  match bufWords c with
  | none => badPayload 4 s
  | some n =>
    match tableAreaAt (c.w 2).toNat with
    | none => withStatus 1 0 0 s
    | some (area, fin) =>
      if fin < (c.w 2).toNat + 4 * n then withStatus 2 0 0 s
      else areaWrite s area (spanWords (c.w 2).toNat (c.buf.take n))

/-! ### Slots (table *Slot commands*) -/

/-- TAKE with OCC + `k` in the upper half (R174). -/
def takeWord (s : State) (u slot k : Nat) : Word :=
  packWord [((((s.unit u).slot slot).occ + k) % 65536, 16), (((s.unit u).slot slot).take, 0)]

/-- EVS_CMD_CNT: refused are the commands with a nonzero status other than 6; every other command, one answered
    with status 6 among them, is applied (DEDUCED: log entry 30). -/
def countCmd (s : State) (u k : Nat) : State :=
  if k = 0 ∨ k = 6 then s.setUnit u ((s.unit u).count 0x24 15 0)
  else s.setUnit u ((s.unit u).count 0x24 31 16)

/-- The unit and slot a slot command names. -/
def cmdUnit (s : State) (c : Fetched) : Nat := servingUnit s (fld (c.w 2) 12 10)
def cmdSlot (c : Fetched) : Nat := fld (c.w 2) 9 0

/-- SLOT_WRITE (R171, R174, R325). -/
def doSlotWrite (s : State) (c : Fetched) : Reply × State :=
  let n := fld (c.w 2) 12 10
  let r := slotWrite s (cmdUnit s c) n (cmdSlot c) ((List.range 7).map (fun i => c.w (3 + i))) (wbit (c.w 2) 13)
  let t := (countCmd r.2 (cmdUnit s c) r.1).configIf r.1
  withStatus r.1 (takeWord t (cmdUnit s c) (cmdSlot c) 1) 0 (if r.1 = 0 ∧ c.awaited then keepArm t n (cmdSlot c) else t)

/-- SHADOW_DROP. -/
def doShadowDrop (s : State) (c : Fetched) : Reply × State :=
  let r := shadowDrop s (cmdUnit s c) (cmdSlot c)
  withStatus r.1 (takeWord r.2 (cmdUnit s c) (cmdSlot c) 1) 0 ((countCmd r.2 (cmdUnit s c) r.1).configIf r.1)

/-- SLOT_CANCEL (R152). -/
def doSlotCancel (s : State) (c : Fetched) : Reply × State :=
  let u := cmdUnit s c
  let t := (slotCancel s u (cmdSlot c) (wbit (c.w 2) 14)).2
  done (takeWord t u (cmdSlot c) 0) (ofNat32 ((s.unit u).slot (cmdSlot c)).st.code) (countCmd t u 0)

/-- DOMAIN_CANCEL (R152). -/
def doDomainCancel (s : State) (c : Fetched) : Reply × State :=
  let r := domainCancel s (cmdUnit s c) (fld (c.w 2) 16 15) (wbit (c.w 2) 14)
  done (ofNat32 r.1) 0 (countCmd r.2 (cmdUnit s c) 0)

/-- SLOT_QUERY. -/
def doSlotQuery (s : State) (c : Fetched) : Reply × State :=
  let u := cmdUnit s c
  let y := (s.unit u).slot (cmdSlot c)
  done (takeWord s u (cmdSlot c) 0) (packWord [(b2n y.running.isSome, 4), (b2n y.shadow.isSome, 3), (y.st.code, 0)]) (countCmd s u 0)

/-! ### Drive and sensing tables -/

/-- PROFILE_WRITE (R194, R197). -/
def doProfileWrite (s : State) (c : Fetched) : Reply × State :=
  let ch := fld (c.w 2) 5 0
  let p := fld (c.w 2) 11 8
  match bufWords c with
  | none => badPayload 4 s
  | some n =>
    let ws := (List.range n).map (fun i => wordAt c.buf i)
    let k := profStatus (chProp s ch) ws
    if k ≠ 0 then withStatus k 0 0 s
    else
      let t := s.keepPast.putWords (profAddr ch p) ws
      done 0 0 (t.setCell ch { t.cell ch with pvalid := (t.cell ch).pvalid ||| 2 ^ p }).configChanged

/-- A word index of a model that software does not write (R243). -/
def modelDeviceWord (k : Nat) : Bool := decide (16 ≤ k) && k % 8 != 0

/-- MODEL_WRITE (R239, R243). -/
def doModelWrite (s : State) (c : Fetched) : Reply × State :=
  let ch := fld (c.w 2) 5 0
  let o := fld (c.w 3) 10 0
  match bufWords c with
  | none => badPayload 4 s
  | some n =>
    if (List.range n).any (fun i => modelDeviceWord (o / 4 + i)) then withStatus 1 0 0 s
    else
      let t := storeWords s.keepPast (spanWords (modelAddr ch + o) ((List.range n).map (fun i => wordAt c.buf i)))
      if 64 ≤ o then done 0 0 t.configChanged
      else if headerGood (t.header ch) then done 0 0 (t.setCell ch { t.cell ch with modelErr := false, idleHdr := some (idleCode s ch, idleTime s ch) }).configChanged
      else withStatus 2 0 0 s

/-- MODEL_RESET: the device-written words of one cell, or of all 32. -/
def doModelReset (s : State) (c : Fetched) : Reply × State :=
  let ch := fld (c.w 2) 5 0
  done 0 0 (if wbit (c.w 2) 16 then (List.range 32).foldl (fun s k => cellReset s ch k) s else cellReset s ch (fld (c.w 2) 12 8))

/-- PRESSURE_SET (R242). -/
def doPressureSet (s : State) (c : Fetched) : Reply × State :=
  let h := fld (c.w 2) 1 0
  done (ofNat32 (s.rf (0xD020 + 4 * h) 15 0)) 0 (hostPressSet s h (fld (c.w 3) 15 0))

/-- ADC_STEP_WRITE (R269). -/
def doAdcStepWrite (s : State) (c : Fetched) : Reply × State :=
  let k := fld (c.w 2) 12 8
  if 17 < k then withStatus 2 0 0 s
  else if stepGood k (c.w 3) then done 0 0 (adcStepPut s k (fld (c.w 2) 4 0) (c.w 3)).configChanged
  else withStatus 1 0 0 s

/-! ### Warden, firmware, Round, plan -/

/-- REGION_TAKEOVER (R445). -/
def doRegionTakeover (s : State) (c : Fetched) : Reply × State :=
  let r := regionTakeover s (fld (c.w 2) 1 0)
  withStatus r.1 (r.2.reg 0x3008) 0 r.2

/-- REGION_TEST (R460). -/
def doRegionTest (s : State) (c : Fetched) : Reply × State :=
  if 4 < fld (c.w 2) 2 0 then badPayload 2 s
  else withStatus (regionTest s (fld (c.w 2) 2 0)).1 0 0 (regionTest s (fld (c.w 2) 2 0)).2

/-- FAULT_LOG_CLEAR (R603). -/
def doFaultLogClear (s : State) (_ : Fetched) : Reply × State := done (ofNat32 (s.rf 0x3020 15 0)) 0 (faultLogClear s)

/-- CHIP_RESET with the correct KEY resets the device and writes no completion (R466). -/
def chipResetCmd (r : Nat) (s : State) : State :=
  match headCmd s r with
  | none => s
  | some c =>
    if c.op ≠ 0x43 then s
    else if ¬ reservedGood c ∨ c.w 2 ≠ 0x0000C4E5 then finish s r c { hstat := 2 }
    else deviceReset s true 16

/-- The slot that is not active. -/
def inactiveSlot (s : State) : Word := ofNat32 (b2n (!fwActive s))

/-- FW_WRITE (R500). -/
def doFwWrite (s : State) (c : Fetched) : Reply × State :=
  match bufWords c with
  | none => badPayload 4 s
  | some n =>
    let r := fwWrite s (c.w 2).toNat ((List.range n).map (fun i => wordAt c.buf i))
    withStatus r.1 (inactiveSlot s) 0 r.2

/-- FW_VERIFY (R500). -/
def doFwVerify (s : State) (_ : Fetched) : Reply × State := withStatus (fwVerify s).1 (inactiveSlot s) 0 (fwVerify s).2

/-- FW_ACTIVATE (R501). -/
def doFwActivate (s : State) (_ : Fetched) : Reply × State :=
  withStatus (fwActivate s).1 (ofNat32 (b2n (fwActive s))) 0 (fwActivate s).2

/-- FW_CANCEL (R501). -/
def doFwCancel (s : State) (_ : Fetched) : Reply × State := done (bar0Word s 0x3240) 0 (fwCancel s)

/-- ROUND_START (R488). -/
def doRoundStart (s : State) (_ : Fetched) : Reply × State :=
  withStatus (roundStart s).1 (ofNat32 ((roundStart s).2.rf 0x3208 31 16)) 0 (roundStart s).2

/-- ROUND_ABORT (R499). -/
def doRoundAbort (s : State) (_ : Fetched) : Reply × State :=
  withStatus (roundAbort s).1 (bar0Word (roundAbort s).2 0x3208) 0 (roundAbort s).2

/-- PLAN_EVAL (R479). -/
def doPlanEval (s : State) (_ : Fetched) : Reply × State := done (planWord (planEvaluate s)) 0 (planEvaluate s)

/-! ### Power -/

/-- JOURNAL_COMMIT (R563). -/
def doJournalCommit (s : State) (_ : Fetched) : Reply × State :=
  done (ofNat32 (nextSeq s)) (lo32 s.glb.digest) (journalCommit s 2)

/-- PWR_SET. -/
def doPwrSet (s : State) (c : Fetched) : Reply × State := withStatus (pwrSet s c.words).1 0 0 (pwrSet s c.words).2

/-! ### Vangic Link -/

/-- LINK_SEND (R533). -/
def doLinkSend (s : State) (c : Fetched) : Reply × State :=
  let n := fld (c.w 2) 21 16
  if n = 0 ∨ 32 < n then badPayload 4 s
  else withStatus (linkSend s c.words).1 (linkSend s c.words).2.1 0 (linkSend s c.words).2.2

/-- LINK_RESIGN (R523). -/
def doLinkResign (s : State) (c : Fetched) : Reply × State :=
  let r := fld (c.w 2) 0 0
  withStatus (linkResign s r).1 (ofNat32 ((linkResign s r).2.role r).epoch) 0 (linkResign s r).2

/-- LINK_WAKE (R537). -/
def doLinkWake (s : State) (c : Fetched) : Reply × State :=
  done (linkWake s (fld (c.w 2) 9 0)).1 0 (linkWake s (fld (c.w 2) 9 0)).2

/-! ### Reel -/

/-- COUNT words of a Reel payload from word 3. -/
def reelWords (c : Fetched) : List Word := (List.range (fld (c.w 2) 18 16 + 1)).map (fun i => c.w (3 + i))

/-- REEL_IMEM_WRITE (R415, R434). -/
def doReelImemWrite (s : State) (c : Fetched) : Reply × State :=
  let ws := reelWords c
  let a := fld (c.w 2) 13 8
  if 64 < a + ws.length then badPayload 4 s
  else match (List.range ws.length).find? (fun i => !reelWordGood (wordAt ws i).toNat) with
    | some i => withStatus 1 (ofNat32 i) 0 s
    | none => done 0 0 (s.putWords (0x84000 + 0x100 * fld (c.w 2) 3 0 + 4 * a) ws).configChanged

/-- A Reel command acts before the engine cycles of its FCLK cycle (R429). -/
def reelDo (f : State → Fetched → Reply × State) (s : State) (c : Fetched) : Reply × State := f (s.reelTurn 0) c

/-- REEL_WRAP (R424). -/
def doReelWrap (s : State) (c : Fetched) : Reply × State :=
  let e := fld (c.w 2) 3 0
  let t := (reelWrapSet s e (fld (c.w 2) 21 16) (fld (c.w 2) 13 8)).configChanged
  done (wrapWord t e) 0 t

/-- An action on every engine of a mask. -/
def onEngines (mask : Nat) (f : State → Nat → State) (s : State) : State :=
  (List.range 16).foldl (fun s e => if mask.testBit e then f s e else s) s

/-- REEL_CONTROL: DISABLE, ENABLE, RESTART, FLUSH (R426 to R428). -/
def doReelControl (s : State) (c : Fetched) : Reply × State :=
  let m := fld (c.w 2) 15 0
  let w := c.w 3
  if wbit w 0 ∧ wbit w 1 then withStatus 1 (ofNat32 (reelRunning s)) 0 s
  else
    let t := if wbit w 1 then (onEngines m reelDisable s).configChanged else s
    let t := if wbit w 0 then (onEngines m reelEnable t).configChanged else t
    let t := if wbit w 2 then onEngines m reelRestart t else t
    let t := if wbit w 3 then onEngines m reelFlushOut t else t
    let t := if wbit w 4 then onEngines m reelFlushIn t else t
    done (ofNat32 (reelRunning t)) 0 t

/-- REEL_INJECT (R425). -/
def doReelInject (s : State) (c : Fetched) : Reply × State :=
  let e := fld (c.w 2) 3 0
  let w := (c.w 3).toNat
  let pc := ofNat32 (s.reel.eng e).pc
  if ¬ reelWordGood w then withStatus 1 pc 0 s
  else if (s.reel.eng e).inj.isSome then withStatus 2 pc 0 s
  else if reelCode s e = 0 then withStatus 3 pc 0 s
  else done pc 0 (reelInject s e w)

/-- REEL_WRITE (R432). -/
def doReelWrite (s : State) (c : Fetched) : Reply × State :=
  let e := fld (c.w 2) 3 0
  let level (t : State) : Word := ofNat32 (t.reel.eng e).outq.length
  if reelOutRoom s e < (reelWords c).length then withStatus 1 (level s) 0 s
  else done (level (reelAppend s e (reelWords c))) 0 (reelAppend s e (reelWords c))

/-- REEL_FLAG (R429). -/
def doReelFlag (s : State) (c : Fetched) : Reply × State :=
  let t := reelFlagWrite s (fld (c.w 2) 15 0) (fld (c.w 3) 15 0)
  done (packWord (t.reel.flags.map (fun i => (1, i)))) 0 t

/-! ### Queues, transfers, trace -/

/-- A queue command names a cell below 24. -/
def withCell (c : Fetched) (s : State) (f : Nat → Reply × State) : Reply × State :=
  if 24 ≤ fld (c.w 2) 4 0 then badPayload 2 s else f (fld (c.w 2) 4 0)

/-- QUE_FLUSH (R354). -/
def doQueFlush (s : State) (c : Fetched) : Reply × State :=
  withCell c s (fun q => done (ofNat32 ((s.qcell q).items (qWidth s q) - groupLeft s (s.qcell q))) 0 (qFlush s q))

/-- QUE_ACK (R352). -/
def doQueAck (s : State) (c : Fetched) : Reply × State :=
  withCell c s (fun q => done (ackWord s q) (bar0Word s (A.queue q + 8)) (qAck s q))

/-- The open word of cell q is closed (R347). -/
def qClose (s : State) (q : Nat) : State := qChange s q ((s.qcell q).close (qWidth s q) s.clk.now)

/-- QUE_CLOSE (R347). -/
def doQueClose (s : State) (c : Fetched) : Reply × State :=
  withCell c s (fun q => done (ofNat32 (s.qcell q).opened.length) 0 (qClose s q))

/-- XFR_START (R371). -/
def doXfrStart (s : State) (c : Fetched) : Reply × State :=
  if fld (c.w 3) 5 0 ≠ 0 then badPayload 4 s
  else
    let r := xfrStart s (fld (c.w 2) 4 0) ((c.w 3).toNat + 2 ^ 32 * (c.w 4).toNat)
    withStatus r.1 0 0 r.2

/-- XFR_STOP (R367). -/
def doXfrStop (s : State) (c : Fetched) : Reply × State :=
  let r := xfrStop s (fld (c.w 2) 4 0)
  done (ofNat32 r.1.1) (ofNat32 r.1.2) r.2

/-- TRACE_MARK (R376). -/
def doTraceMark (s : State) (_ : Fetched) : Reply × State :=
  let t := traceMark s 1 0 0
  done (ofNat32 (t.trace.mark % traceSize)) 0 t

/-- TRACE_REWIND (R378, R380). -/
def doTraceRewind (s : State) (_ : Fetched) : Reply × State :=
  let r := traceRewind s.trace
  withStatus r.1 (ofNat32 (r.2.rd % traceSize)) (ofInt32 ((r.2.rd : Int) - s.trace.rd)) { s with trace := r.2 }

/-- TRACE_ADVANCE (R379, R380). -/
def doTraceAdvance (s : State) (c : Fetched) : Reply × State :=
  let n := fld (c.w 3) 20 0
  if n % 8 ≠ 0 ∨ 2 ^ 20 < n then badPayload 4 s
  else
    let r := traceAdvance s.trace (fld (c.w 2) 19 0) n
    withStatus r.1 (ofNat32 (r.2.rd % traceSize)) (ofNat32 (r.2.wr % traceSize)) { s with trace := r.2 }

end Sys2Proof.Machine
end

