-- ==== Sys2Proof/Machine/Fabric.lean ====
section
/-!
DEFINITION. The 128-bit fabric: arrival, promotion and the grant of one request per FCLK cycle (Architecture, R29, R30).
-/
namespace Sys2Proof.Machine

def noReqs : Nat → List Nat := fun _ => []
/-- Before the first grant of a rank, requester 0 is first in its turn. -/
def lastDefault : Nat → Nat := fun _ => 10

def Fabric.reqsOf (f : Fabric) (k : Nat) : List Nat := cget noReqs f.reqs k

/-- The class of a requester (table *Fabric classes*). -/
def fabricClass (k : Nat) : Nat := if k < 4 then 0 else if k < 8 then 1 else 2

/-- The rank of a requester's oldest request: 0 promoted, then 1 to 3 for class 0 to class 2. -/
def Fabric.rank (f : Fabric) (k : Nat) : Nat := if f.promoted.contains k then 0 else 1 + fabricClass k

/-- A promoted request may be granted: no other was in the three FCLK cycles before. -/
def promotedFree (s : State) : Bool :=
  match s.fabric.promAt with
  | some t => decide (t + s.fclk 4 ≤ s.clk.now)
  | none => true

/-- The requesters of a rank with a pending request that may be granted now. -/
def fabricReady (s : State) (rank : Nat) : List Nat :=
  (List.range 11).filter (fun k => s.fabric.reqsOf k != [] && s.fabric.rank k == rank && (rank != 0 || promotedFree s))

/-- Round robin: the first ready requester after the one last granted at the rank. -/
def fabricPick (s : State) (rank : Nat) : Option Nat :=
  let l := fabricReady s rank
  let last := cget lastDefault s.fabric.last rank
  ((l.filter (fun k => decide (last < k))) ++ l.filter (fun k => decide (k ≤ last))).head?

/-- The request granted in this cycle: the first rank with one ready (R29). -/
def fabricChoice (s : State) : Option (Nat × Nat) := (List.range 4).findSome? (fun r => (fabricPick s r).map (fun k => (r, k)))

/-- Requests arrive. -/
def fabricArrive (s : State) (l : List Nat) : State :=
  { s with fabric := l.foldl (fun (f : Fabric) k => { f with reqs := cset noReqs f.reqs k (f.reqsOf k ++ [s.clk.now]) }) s.fabric }

/-- FABRIC_GRANT: the requests of this FCLK cycle arrive, and one pending request is granted. -/
def fabricGrant (s : State) (arrivals : List Nat) : State :=
  let s := fabricArrive s arrivals
  match fabricChoice s with
  | some (r, k) =>
    { s with fabric := { reqs := cset noReqs s.fabric.reqs k (s.fabric.reqsOf k).tail,
                         promoted := s.fabric.promoted.filter (· != k),
                         last := cset lastDefault s.fabric.last r k, granted := some k,
                         promAt := if r = 0 then some s.clk.now else s.fabric.promAt } }
  | none => { s with fabric := { s.fabric with granted := none } }

/-- CLASS2_PROMOTION: a class 2 request that has waited 48 FCLK cycles is promoted (R30). -/
def class2Promote (s : State) (k : Nat) : State :=
  match s.fabric.reqsOf k with
  | t :: _ =>
    if fabricClass k = 2 ∧ t + s.fclk 48 ≤ s.clk.now then { s with fabric := { s.fabric with promoted := insertNat k s.fabric.promoted } }
    else s
  | [] => s

end Sys2Proof.Machine
end

