-- ==== Sys2Proof/Machine/Jtag.lean ====
section
/-!
DEFINITION. The JTAG port: the IEEE 1149.1 test access port, its instructions and the boundary-scan cells (Pins, Power Supplies
and Electrical Limits, R596, R597). The controller's states and edges are those of the named standard (PRESUMED, log entry 7).
-/
namespace Sys2Proof.Machine

/-- The next state of the TAP controller at a rising edge of TCK with TMS. -/
def Tap.next (t : Tap) (tms : Bool) : Tap :=
  match t, tms with
  | .reset, true => .reset
  | .reset, false => .idle
  | .idle, true => .selDr
  | .idle, false => .idle
  | .selDr, true => .selIr
  | .selDr, false => .capDr
  | .capDr, true => .ex1Dr
  | .capDr, false => .shDr
  | .shDr, true => .ex1Dr
  | .shDr, false => .shDr
  | .ex1Dr, true => .upDr
  | .ex1Dr, false => .paDr
  | .paDr, true => .ex2Dr
  | .paDr, false => .paDr
  | .ex2Dr, true => .upDr
  | .ex2Dr, false => .shDr
  | .upDr, true => .selDr
  | .upDr, false => .idle
  | .selIr, true => .reset
  | .selIr, false => .capIr
  | .capIr, true => .ex1Ir
  | .capIr, false => .shIr
  | .shIr, true => .ex1Ir
  | .shIr, false => .shIr
  | .ex1Ir, true => .upIr
  | .ex1Ir, false => .paIr
  | .paIr, true => .ex2Ir
  | .paIr, false => .paIr
  | .ex2Ir, true => .upIr
  | .ex2Ir, false => .shIr
  | .upIr, true => .selDr
  | .upIr, false => .idle

/-- The instruction in force selects the boundary-scan register. -/
def Jtag.scans (j : Jtag) : Bool := j.ir == 0 || j.ir == 1

/-- IDCODE. -/
def idCode : Nat := 0x26400A3D

def natBits (n k : Nat) : List Bool := (List.range k).map (fun i => n.testBit i)

/-- What the boundary-scan cells capture: the level of LSG in its cell, free values in the cells of the other pins, whose
order and levels the spec leaves out. -/
def scanCapture (s : State) : List Bool :=
  (List.range Config.bsLength).map (fun i =>
    match (List.range 64).find? (fun c => Config.bsLsg c == i) with
    | some c => (s.cell c).lsg.levelAt s.clk.now
    | none => wbit (Config.freeWord (s.free + 1 + i)) 0)

/-- The data register selected captures (R596). -/
def dataCapture (s : State) : List Bool :=
  if s.jtag.scans then scanCapture s else if s.jtag.ir = 2 then natBits idCode 32 else [false]

def shiftBit (l : List Bool) (tdi : Bool) : List Bool := l.drop 1 ++ [tdi]

/-- What the rising edge does in the state it leaves: capture or shift. The two upper bits an instruction capture loads are free. -/
def tckRise (s : State) (tdi : Bool) : State :=
  let j := s.jtag
  match j.tap with
  | .capDr => { s with jtag := { j with dr := dataCapture s }, free := s.free + 1 + Config.bsLength }
  | .shDr => { s with jtag := { j with dr := shiftBit j.dr tdi } }
  | .capIr => { s with jtag := { j with irShift := 1 + 4 * (fld (Config.freeWord s.free) 1 0) }, free := s.free + 1 }
  | .shIr => { s with jtag := { j with irShift := j.irShift / 2 + 8 * b2n tdi } }
  | _ => s

/-- What the falling edge does: updates, and TDO. -/
def tckFall (j : Jtag) : Jtag :=
  let j := { j with tdo := match j.tap with | .shDr => j.dr.head? | .shIr => some (j.irShift % 2 == 1) | _ => none }
  match j.tap with
  | .reset => { j with ir := 2 }
  | .upIr => { j with ir := j.irShift }
  | .upDr => if j.scans then { j with cells := j.dr } else j
  | _ => j

/-- JTAG_TCK_EDGE. -/
def tckEdge (s : State) (rising tms tdi : Bool) : State :=
  if rising then
    let s' := tckRise s tdi
    { s' with jtag := { s'.jtag with tap := s'.jtag.tap.next tms } }
  else { s with jtag := tckFall s.jtag }

/-- The level at the pin LSG_c: from its boundary-scan cell under EXTEST and CLAMP, undriven under HIGHZ (R596, R597). -/
def lsgPin (s : State) (c : Nat) : Option Bool :=
  if s.jtag.ir = 0 ∨ s.jtag.ir = 4 then some (s.jtag.cells.getD (Config.bsLsg c) false)
  else if s.jtag.ir = 5 then none
  else some ((s.cell c).lsg.levelAt s.clk.now)

end Sys2Proof.Machine
end

