-- ==== Sys2Proof/Machine/Sideband.lean ====
section
/-!
DEFINITION. The sideband port: identification, reads without side effects, export and import of a journal slot (Service Life and
Replacement, R607 to R613).
-/
namespace Sys2Proof.Machine

def State.setSide (s : State) (x : Side) : State := { s with side := x }

/-- The port is reached: powered, and out of reset. -/
def sideUp (s : State) : Bool := !s.pwr.asleep && !s.pwr.inReset

/-- A transaction that reads `l` and leaves `x` of the port (R607); a part that does not answer leaves the bus high. -/
def sideRead (s : State) (n : Nat) (l : List Byte) (x : Side) : State :=
  if sideUp s then { s with side := { x with lastAt := s.clk.now }, out := { s.out with sideband := l } }
  else { s with out := { s.out with sideband := List.replicate n 0xFF } }

/-- A written transaction. -/
def sideWrite (s : State) (f : State → State) : State :=
  if sideUp s then f (s.setSide { s.side with lastAt := s.clk.now }) else s

/-! ### Identification and reads (R608, R609) -/

/-- IDENT. -/
def sideIdent (s : State) : State :=
  sideRead s 20 (wordsBytes [bar0Word s 0, bar0Word s 4, bar0Word s 0x18, bar0Word s 0x38, bar0Word s 0x2030]) s.side

/-- A word of a BAR as the port reads it: zero past its end or at another alignment. -/
def sideWord (size : Nat) (f : Nat → Word) (a : Nat) : Word := if a % 4 = 0 ∧ a < size then f a else 0

/-- BAR0 without side effects: a claim register and REEL_e_RX read 0. -/
def sideBar0 (s : State) (a : Nat) : Word :=
  if (0x4100 ≤ a ∧ a < 0x4200 ∧ a % 0x10 = 4) ∨ (0xB400 ≤ a ∧ a < 0xB800 ∧ a % 0x40 = 0x20) then 0 else bar0Word s a

/-- READ_BAR0 of n words. -/
def sideReadBar0 (s : State) (off n : Nat) : State :=
  sideRead s (4 * n) (wordsBytes ((List.range n).map (fun i => sideWord 0x100000 (sideBar0 s) (off + 4 * i)))) s.side

/-- READ_BAR2 of n words. -/
def sideReadBar2 (s : State) (off n : Nat) : State :=
  sideRead s (4 * n) (wordsBytes ((List.range n).map (fun i => sideWord 0x800000 (bar2Word s) (off + 4 * i)))) s.side

/-! ### Export (R610) -/

/-- EXPORT_OPEN: the bytes of the selected slot; none without a valid slot. -/
def exportOpen (s : State) : State :=
  sideWrite s (fun s => s.setSide { s.side with stream := some (s.jrn.selected.take (72 + slotLen s.jrn.selected)), seq := s.jrn.seq })

/-- The stream closes, and journal writes go on. -/
def exportClose (s : State) : State := journalNext (s.setSide { s.side with stream := none, seq := 0 })

/-- EXPORT_READ of n bytes: 0xFF past the end, where the stream closes. -/
def exportRead (s : State) (n : Nat) : State :=
  match s.side.stream with
  | some l =>
    let t := sideRead s n (l.take n ++ List.replicate (n - l.length) 0xFF) { s.side with stream := some (l.drop n) }
    if sideUp s ∧ l.length ≤ n then exportClose t else t
  | none => sideRead s n (List.replicate n 0xFF) s.side

/-- EXPORT_STATUS. -/
def exportStatus (s : State) : State :=
  sideRead s 8 (wordsBytes [ofNat32 (s.side.stream.getD []).length, ofNat32 s.side.seq]) s.side

/-- EXPORT_TIMEOUT: 1 s without a transaction. -/
def exportTimeout (s : State) : State :=
  if s.side.stream.isSome ∧ s.side.lastAt + msTicks 1000 ≤ s.clk.now then exportClose s else s

/-! ### Import (R611 to R613) -/

def importFail (s : State) (code : Nat) : State := s.setSide { s.side with imp := 4, code := code }

/-- IMPORT_OPEN; nothing while an imported slot is being written. -/
def importOpenCmd (s : State) (key : Word) : State :=
  sideWrite s (fun s =>
    if s.side.imp = 2 then s
    else if key ≠ 0x544D5049 then importFail s 1
    else if s.glb.safeHold ∧ ¬ s.glb.isSealed ∧ ¬ s.running then s.setSide { s.side with imp := 1, code := 0, staged := [] }
    else importFail s 2)

/-- IMPORT_DATA: 1 to 256 bytes are appended while an import is open. -/
def importData (s : State) (l : List Byte) : State :=
  sideWrite s (fun s => if s.side.imp = 1 then s.setSide { s.side with staged := s.side.staged ++ l.take 256 } else s)

/-- No reserved bit of a slot header is set. -/
def headerReservedClear (l : List Byte) : Bool :=
  fld (hdrWord l 3) 7 2 == 0 && (List.range 8).all (fun i => hdrWord l (8 + i) == 0)

/-- The first failing check of staged bytes (table *Import codes*); 0 when they pass. -/
def importCheck (l : List Byte) : Nat :=
  if ¬ slotFormatOk l ∨ ¬ headerReservedClear l then 3
  else if l.length ≠ 72 + slotLen l then 4
  else if ¬ slotCheckOk l then 5
  else if ¬ slotLevelOk l then 6
  else 0

/-- IMPORT_FINISH. -/
def importFinish (s : State) : State :=
  sideWrite s (fun s =>
    if s.side.imp ≠ 1 then s
    else if importCheck s.side.staged = 0 then s.setSide { s.side with imp := 2, code := 0 }
    else importFail s (importCheck s.side.staged))

/-- The part's own retained words: roles and unit states, converter calibration with UNCAL, Round state, FSEQ, FW_FLOOR. -/
def ownRetained (a : Nat) : Bool :=
  a == 0x3000 || a == 0x3004 || a == 0x3008 || a == 0x3208 || a == 0x3020 || a == 0x324C ||
  (List.range 18).any (fun k => a == A.conv k + 4 || a == A.conv k + 0x10)

/-- Retained pairs of offset and value with the part's own values put in. -/
def ownPairs (s : State) : List Word → List Word
  | a :: v :: t => a :: (if ownRetained a.toNat then s.reg a.toNat &&& fieldMask Fld.excluded a.toNat else v) :: ownPairs s t
  | l => l

/-- The body of an imported slot with the retained items replaced (R613). -/
def importBody (s : State) (b : List Word) : List Word :=
  let r := b.drop lenImage
  let p := progressNow s ((s.jrn.newest.map (·.pseq)).getD 0) s.jrn.seq
  b.take lenImage ++ ownPairs s (r.take lenKept) ++ (r.drop lenKept).take (0x200 + 0x8000) ++ progressWords p ++
    r.drop (lenKept + 0x200 + 0x8000 + 8)

/-- The slot written for staged bytes: SEQ one above, CHECK computed anew. -/
def importSlot (s : State) : List Byte :=
  let l := s.side.staged
  let h := l.take 4 ++ wordBytes (ofNat32 (s.jrn.seq + 1)) ++ (l.drop 8).take 56 ++ (wordsBytes (importBody s (leWords (slotBody l)))).take (slotLen l)
  h ++ checkBytes h

/-- IMPORT_WRITE_DONE: the slot write, which waits for a journal write in progress, completes and the part resets; or it fails. -/
def importWriteDone (s : State) (ok : Bool) : State :=
  if s.side.imp = 2 ∧ s.jrn.writing.isNone then
    (if ok then
      let l := importSlot s
      let t := deviceReset (progressWrite { s with jrn := s.jrn.store l } (slotSeq l)) true 16
      t.setSide { imp := 3 }
    else journalNext (importFail s 7))
  else s

/-- IMPORT_STATUS; DONE reads once. -/
def importStatus (s : State) : State :=
  sideRead s 8 ([BitVec.ofNat 8 s.side.imp, BitVec.ofNat 8 s.side.code, 0, 0] ++ wordBytes (ofNat32 s.side.staged.length))
    { s.side with imp := if s.side.imp = 3 then 0 else s.side.imp }

end Sys2Proof.Machine
end

