-- ==== Sys2Proof/Machine/ExecBase.lean ====
section
/-!
DEFINITION. What the meanings of the commands share: the passing of time, the block asleep or in reset, and the commands
that join operations of several blocks.
-/
namespace Sys2Proof.Machine

/-- A command that reaches the block whatever its power state: time passes, then it has its effect. -/
def run (t : Nat) (s : State) (f : State → State) : Host.Outcome State Fault Refusal := .next (f (s.tick t))

/-- No command of the running device reaches it in Dusk or while it is held in reset (R547, R557): time passes. -/
def awake (t : Nat) (s : State) (f : State → State) : State :=
  if s.pwr.asleep ∨ s.pwr.inReset then s.tick t else f (s.tick t)

/-- A command of the running device. -/
def act (t : Nat) (s : State) (f : State → State) : Host.Outcome State Fault Refusal := .next (awake t s f)

/-- A slot command acts after the angle-driven actions of its FCLK cycle (R149, R175). -/
def slotCmd (op r : Nat) (f : State → Fetched → Reply × State) (s : State) : State := ringCmd op r f (anglesTo s 4)

/-- CRANK_EDGE; during a Dusk entry an active edge sets its latch as well (R549). -/
def crankEdgeCmd (s : State) (d ts : Nat) (lv : Int) (dir : Option Bool) : State :=
  if s.pwr.entry ≠ 0 ∧ crankIsActive s d ts lv then latchSet (crankEdge s d ts lv dir) d else crankEdge s d ts lv dir

/-- VR_ARM, awake or in Dusk (R54, R96). -/
def vrArmCmd (s : State) (d : Nat) (cam : Bool) (mv : Int) : State :=
  if s.pwr.inReset then s else if s.pwr.asleep then duskArm s d cam mv else vrArm s d cam mv

/-- EN of a general or zero-cross window is written; the windows of cells and banks have none (R296, R297). -/
def windowSet (s : State) (w v : Nat) : State := if 80 ≤ w then putField s (A.win w) 0 0 v else s

/-- Converter k takes no action once its voter has stopped it (R545). -/
def convUnless (s : State) (k : Nat) (t : State) : State := if voterStopped s (22 + k) then s else t

/-- The Reel block takes no action once its voter has stopped it (R545). -/
def reelUnless (s t : State) : State := if voterStopped s 40 then s else t

/-- FRESHNESS_EXPIRY of an enabled producer (R339). -/
def freshnessDue (s : State) (p : Nat) : State :=
  match s.hif.entry p with
  | some e => freshnessLapse s p e
  | none => s

/-- CAPTURE_PAIR_TIMEOUT (R358). -/
def capturePairDue (s : State) (r : Nat) : State :=
  if (s.ring r).first ≠ [] ∧ (s.ring r).firstAt + usTicks 1 ≤ s.clk.now then capturePair s r [] else s

/-- HOLDOFF_EXPIRY (R402): a waiting delivery of target k is made. -/
def holdoffExpiry (s : State) (k : Nat) : State := { s with irq := irqEvalOne s.regs s.clk.now s.irq k }

/-- A claim by the Warden's own path, which reaches targets 14 and 15 (R396). -/
def wardenClaim (s : State) (k : Nat) : State :=
  if 14 ≤ k then s.claim k else s.answer [0]

/-- A completion by the Warden's own path (R396). -/
def wardenComplete (s : State) (k : Nat) (v : Word) : State :=
  if 14 ≤ k then s.complete k (fld v 8 0) else s

/-- COMPLETION_TIMEOUT: the read is taken as a failed fetch (R324). -/
def lostCompletion (s : State) : ReadTag → State
  | .poll => pollAll s false 0 []
  | .descriptor r => fetchDone s r.val none none
  | .xfrDescriptor n => xfrFetched s n.val none
  | .xfrData n => xfrReadData s n.val none
  | .xfrLink n => xfrLinkRead s n.val none

end Sys2Proof.Machine
end

