-- ==== Sys2Proof/Machine/ExecAdc.lean ====
section
/-!
DEFINITION. The meanings of the commands of the converters, one per row of the command table, over the shared
operations of the blocks.
-/
namespace Sys2Proof.Machine

/-- CONVERTER_TIMER_EXPIRY (R272): A converter timer expires and triggers its TIMER steps. -/
def execConverterTimerExpiry (t : Nat) (k : Fin 18) (j : Fin 4) (s : State) : Host.Outcome State Fault Refusal :=
  act t s (fun s => convUnless s k.val (converterTimer s k.val j.val))

/-- STEP_READY (R270): A triggered step's DELAY ends, and the instance becomes pending. -/
def execStepReady (t : Nat) (k : Fin 18) (step : Fin 32) (s : State) : Host.Outcome State Fault Refusal :=
  act t s (fun s => convUnless s k.val (stepReady s k.val step.val))

/-- CONVERSION_START (R273): At a free ADC clock edge, the converter begins the highest-ranked due conversion. -/
def execConversionStart (t : Nat) (k : Fin 18) (s : State) : Host.Outcome State Fault Refusal :=
  act t s (fun s => convUnless s k.val (conversionStart s k.val))

/-- CONVERSION_END (R276): A conversion ends, and its result goes to LAST, the queue and the chain event. -/
def execConversionEnd (t : Nat) (k : Fin 18) (code : Fin 4096) (ovrHi ovrLo : Bool) (s : State) : Host.Outcome State Fault Refusal :=
  act t s (fun s => convUnless s k.val (conversionEnd s k.val code.val ovrHi ovrLo))

/-- MAXWAIT_EXPIRY (R275): A pending instance waits MAXWAIT and is dropped. -/
def execMaxwaitExpiry (t : Nat) (k : Fin 18) (step : Fin 32) (s : State) : Host.Outcome State Fault Refusal :=
  act t s (fun s => convUnless s k.val (maxwait s k.val step.val))

/-- REFERENCE_CHECK (R280): Every REF_PERIOD, a general converter converts the other half-reference and the bandgap. -/
def execReferenceCheck (t : Nat) (s : State) : Host.Outcome State Fault Refusal :=
  act t s (fun s => if voterStopped s 39 then s else referenceCheck s)

/-- REFERENCE_SWITCH (R282): A converter switches reference at its first edge without an open kink window and goes UNCAL. -/
def execReferenceSwitch (t : Nat) (k : Fin 18) (s : State) : Host.Outcome State Fault Refusal :=
  act t s (fun s => convUnless s k.val (referenceSwitch s k.val))

/-- CALIBRATION_DUE (R283): CAL_PERIOD after the last applied calibration, a calibration falls due. -/
def execCalibrationDue (t : Nat) (k : Fin 18) (s : State) : Host.Outcome State Fault Refusal :=
  act t s (fun s => convUnless s k.val (calibrationDue s k.val))

/-- CAL_SPAN_EXPIRY (R285): A calibration that exceeds CAL_SPAN is discarded and restarted. -/
def execCalSpanExpiry (t : Nat) (k : Fin 18) (s : State) : Host.Outcome State Fault Refusal :=
  act t s (fun s => convUnless s k.val (calSpan s k.val))

/-- CALIBRATION_APPLY (R288): An accepted calibration is applied once no kink window is open. -/
def execCalibrationApply (t : Nat) (k : Fin 18) (s : State) : Host.Outcome State Fault Refusal :=
  act t s (fun s => convUnless s k.val (calibrationApply s k.val))

/-- ADC_STEP_WRITE (R269): The ADC_STEP_WRITE command checks and writes one sequencer step entry. -/
def execAdcStepWrite (t : Nat) (r : Fin 64) (s : State) : Host.Outcome State Fault Refusal :=
  act t s (fun s => ringCmd 0x30 r.val doAdcStepWrite s)

end Sys2Proof.Machine
end

