-- ==== Sys2Proof/Machine/ExecAngle.lean ====
section
/-!
DEFINITION. The meanings of the commands of angle tracking, one per row of the command table, over the shared
operations of the blocks.
-/
namespace Sys2Proof.Machine

/-- CRANK_EDGE (R52): An active crank edge passes the input filter and is timestamped and processed by the angle tracker. -/
def execCrankEdge (t : Nat) (d : Fin 2) (e : InputEdge) (dir : Option Bool) (s : State) : Host.Outcome State Fault Refusal :=
  act t s (fun s => crankEdgeCmd (anglesTo s d.val) d.val e.ts e.lv dir)

/-- VR_ARM (R54): A VR input arms when its differential voltage exceeds V_arm, so that the next zero crossing is its edge. -/
def execVrArm (t : Nat) (d : Fin 2) (cam : Bool) (mv : Int) (s : State) : Host.Outcome State Fault Refusal :=
  run t s (fun s => vrArmCmd s d.val cam mv)

/-- CRANK_TRAILING_EDGE (R59): In WIDTH mode, a trailing crank edge timestamped before the limit makes the pulse forward. -/
def execCrankTrailingEdge (t : Nat) (d : Fin 2) (ts : Nat) (s : State) : Host.Outcome State Fault Refusal :=
  act t s (fun s => crankTrailing (anglesTo s d.val) d.val ts)

/-- WIDTH_LIMIT_EXPIRY (R60): In WIDTH mode, the limit plus the crank filter time passes with no trailing edge, so the pulse is backward and the leading edge is processed. -/
def execWidthLimitExpiry (t : Nat) (d : Fin 2) (s : State) : Host.Outcome State Fault Refusal :=
  act t s (fun s => widthExpiry (anglesTo s d.val) d.val)

/-- CAM_EDGE (R76): A cam edge is matched against the cam table at the published angle. -/
def execCamEdge (t : Nat) (d : Fin 2) (ts : Nat) (lv : Int) (s : State) : Host.Outcome State Fault Refusal :=
  act t s (fun s => camEdge (anglesTo s d.val) d.val ts lv)

/-- EDGE_TIMEOUT (R68): No active edge within EDGE_TO takes a domain in TOOTH, REVERSE or LOST to NONE. -/
def execEdgeTimeout (t : Nat) (d : CrankWatch) (s : State) : Host.Outcome State Fault Refusal :=
  act t s (fun s => edgeTimeout s d.dom.val d.raw)

/-- STALL_TIMEOUT (R71): No active edge within the stall timeout takes a domain in REV or CYCLE to STALL. -/
def execStallTimeout (t : Nat) (d : CrankWatch) (s : State) : Host.Outcome State Fault Refusal :=
  act t s (fun s => stallTimeout (anglesTo s d.dom.val) d.dom.val d.raw)

/-- RESYNC (R74): A RESYNC write returns the domain to NONE. -/
def execResync (t : Nat) (d : Fin 4) (s : State) : Host.Outcome State Fault Refusal :=
  act t s (fun s => put32 s (A.dom d.val + 0x18) 1)

/-- DOMAIN_ENABLE (R63): Writing EN = 1 to a mechanical domain checks its wheel tables and either enables it or clears EN and reports TABLE_ERR. -/
def execDomainEnable (t : Nat) (d : Fin 4) (s : State) : Host.Outcome State Fault Refusal :=
  act t s (fun s => putField s (A.dom d.val) 0 0 1)

/-- DOMAIN_DISABLE (R68): Clearing a domain's EN returns it to NONE. -/
def execDomainDisable (t : Nat) (d : Fin 4) (s : State) : Host.Outcome State Fault Refusal :=
  act t s (fun s => putField s (A.dom d.val) 0 0 0)

/-- TOOTH_TABLE_BAR2_WRITE (R616): Before the seal, a BAR2 write to a tooth or cam table is stored while EN = 0 and otherwise discarded and counted. -/
def execToothTableBar2Write (t : Nat) (addr size : Nat) (val : BitVec 64) (s : State) : Host.Outcome State Fault Refusal :=
  act t s (fun s => bar2Write s addr size val)

/-- LEARN_START (R131): LEARN.START starts or restarts wheel-profile learning from the next revolution start in CYCLE. -/
def execLearnStart (t : Nat) (d : Fin 2) (s : State) : Host.Outcome State Fault Refusal :=
  act t s (fun s => putField s (A.dom d.val + 0x70) 0 0 1)

/-- LEARN_ABORT (R134): LEARN.ABORT aborts wheel-profile learning and sets ABORTED. -/
def execLearnAbort (t : Nat) (d : Fin 2) (s : State) : Host.Outcome State Fault Refusal :=
  act t s (fun s => putField s (A.dom d.val + 0x70) 1 1 1)

/-- CONTRIBUTION_UPDATE (R139): The Warden derives and filters each cylinder's contribution from an accepted cycle. -/
def execContributionUpdate (t : Nat) (d : Fin 2) (s : State) : Host.Outcome State Fault Refusal :=
  act t s (fun s => contributionUpdate s d.val)

/-- ZERO_CROSSING (R86): A zero-crossing event of an electrical domain sets INC, resets ACC, sets the angle to OFFSET and judges the period. -/
def execZeroCrossing (t : Nat) (d : Fin 2) (s : State) : Host.Outcome State Fault Refusal :=
  act t s (fun s => zeroCrossing (anglesTo s (2 + d.val)) (2 + d.val))

/-- ELECTRICAL_STALL_TIMEOUT (R88): No crossing within twice the last period and at least 1 ms takes an electrical domain from CYCLE to STALL. -/
def execElectricalStallTimeout (t : Nat) (d : Fin 2) (s : State) : Host.Outcome State Fault Refusal :=
  act t s (fun s => elecStall (anglesTo s (2 + d.val)) (2 + d.val))

/-- ELECTRICAL_NONE_TIMEOUT (R88): No crossing within 3/FMIN takes an electrical domain in TOOTH, STALL or LOST to NONE. -/
def execElectricalNoneTimeout (t : Nat) (d : Fin 2) (s : State) : Host.Outcome State Fault Refusal :=
  act t s (fun s => elecNone s (2 + d.val))

/-- ANGLE_UPDATE (R119): The published angle advances on its trajectory, and the scheduler acts on the angles the update passes. -/
def execAngleUpdate (t : Nat) (d : Fin 4) (s : State) : Host.Outcome State Fault Refusal :=
  act t s (fun s => angleUpdate s d.val)

end Sys2Proof.Machine
end

