-- ==== Sys2Proof/Machine/ExecClock.lean ====
section
/-!
DEFINITION. The meanings of the commands of the clocks, one per row of the command table, over the shared
operations of the blocks.
-/
namespace Sys2Proof.Machine

/-- PLL_LOCK (R538): The PLL reports lock to REFCLK and PLL_LOCK is set. -/
def execPllLock (s : State) : Host.Outcome State Fault Refusal :=
  act s.clk.now s (fun s => pllLock s)

/-- PLL_SWITCH (R539): The PLL_SWITCH command requests the switch of FCLK and ECLK from FIO to the PLL. -/
def execPllSwitch (t : Nat) (r : Fin 64) (s : State) : Host.Outcome State Fault Refusal :=
  act t s (fun s => Sys2Proof.Machine.pllSwitch r.val s)

/-- PLL_REQ (R539): Before the seal, a write of 1 to PWR_CTL.PLL_REQ requests the switch to the PLL. -/
def execPllReq (t : Nat) (s : State) : Host.Outcome State Fault Refusal :=
  act t s (fun s => put32 s 0x2000 1)

/-- CLOCK_SWITCH (R540): At the first FCLK cycle with lock after a request, FCLK and ECLK move to the PLL without a glitch, and DTIME quality becomes BRIDGED or LOCAL. -/
def execClockSwitch (t : Nat) (s : State) : Host.Outcome State Fault Refusal :=
  act t s (fun s => clockSwitch s)

/-- PLL_SWITCH_TIMEOUT (R539): A switch request held for 1 ms without lock is refused with NO_LOCK. -/
def execPllSwitchTimeout (t : Nat) (s : State) : Host.Outcome State Fault Refusal :=
  act t s (fun s => pllTimeout s)

/-- PLL_LOCK_LOSS (R41): Loss of PLL lock is the chip-level fatal condition PLL_LOCK. -/
def execPllLockLoss (t : Nat) (s : State) : Host.Outcome State Fault Refusal :=
  act t s (fun s => pllLockLoss s)

/-- WARDEN_LOCKSTEP (R463): The Warden cores disagree, which is a chip-level fatal condition. -/
def execWardenLockstep (s : State) : Host.Outcome State Fault Refusal :=
  act s.clk.now s (fun s => fatalNow s 0x30)

end Sys2Proof.Machine
end

