-- ==== Sys2Proof/Machine/ExecDrive.lean ====
section
/-!
DEFINITION. The meanings of the commands of the drive cells, windows, profiles and models, one per row of the command table, over the shared
operations of the blocks.
-/
namespace Sys2Proof.Machine

/-- START_ADMIT (R206): A waiting start passes the overlap and re-boost steps and is admitted: the cell latches the profile and restarts at phase 0. -/
def execStartAdmit (t : Nat) (c : Fin 64) (s : State) : Host.Outcome State Fault Refusal :=
  act t s (fun s => tryAdmit s c.val)

/-- OVERLAP_TIMEOUT (R207): A start waiting under PRECEDENCE reaches OVERLAP_MAX and is dropped. -/
def execOverlapTimeout (t : Nat) (c : Fin 64) (s : State) : Host.Outcome State Fault Refusal :=
  act t s (fun s => overlapTimeout s c.val)

/-- REBOOST_WAIT_EXPIRY (R206): REBOOST_WAIT expires without ABOVE, and the start is admitted with WEAK_BOOST. -/
def execReboostWaitExpiry (t : Nat) (c : Fin 64) (s : State) : Host.Outcome State Fault Refusal :=
  act t s (fun s => reboostExpiry s c.val)

/-- WINDOW_CROSSING (R293): A window presents a new output; the cell regulates, exits phases and checks peak time and faults on it. -/
def execWindowCrossing (t : Nat) (w : Fin 98) (lo hi : Int) (s : State) : Host.Outcome State Fault Refusal :=
  act t s (fun s => windowCrossing s w.val (lo, hi))

/-- PHASE_TIMER_EXPIRY (R188): A phase's DUR or limit expires, and the phase exits. -/
def execPhaseTimerExpiry (t : Nat) (c : Fin 64) (s : State) : Host.Outcome State Fault Refusal :=
  act t s (fun s => phaseTimer s c.val)

/-- TIME_CAP_EXPIRY (R191): The time cap expires, and the cell enters END_PH; the scheduler reports CAP_END or closes silently. -/
def execTimeCapExpiry (t : Nat) (c : Fin 64) (s : State) : Host.Outcome State Fault Refusal :=
  act t s (fun s => timeCapExpiry s c.val)

/-- MIX_FAST_EXPIRY (R189): The FAST part of a MIXED off interval ends, LSG turns on and decay becomes SLOW. -/
def execMixFastExpiry (t : Nat) (c : Fin 64) (s : State) : Host.Outcome State Fault Refusal :=
  act t s (fun s => mixExpiry s c.val)

/-- DITHER_HALF_PERIOD (R219): The dither offset changes sign after each DITH_HALF interval. -/
def execDitherHalfPeriod (t : Nat) (c : Fin 64) (s : State) : Host.Outcome State Fault Refusal :=
  act t s (fun s => ditherHalf s c.val)

/-- HOLD_EXPIRY (R254): The per-shot correction hold ends, and the cell enters END_PH. -/
def execHoldExpiry (t : Nat) (c : Fin 64) (s : State) : Host.Outcome State Fault Refusal :=
  act t s (fun s => holdExpiry s c.val)

/-- KINK_RESULT (R227): After the last window sample, the detector computes, grades and publishes the closing result. -/
def execKinkResult (t : Nat) (b : Fin 16) (s : State) : Host.Outcome State Fault Refusal :=
  act t s (fun s => kinkResult s b.val)

/-- LEAK_TIMEOUT (R235): An idle channel's window reads ABOVE IDLE_CODE for IDLE_T, which is fault LEAK. -/
def execLeakTimeout (t : Nat) (c : Fin 64) (s : State) : Host.Outcome State Fault Refusal :=
  act t s (fun s => leakTimeout s c.val)

/-- BLANKING_END (R295): A blanking interval ends, and the window presents its output as it stands. -/
def execBlankingEnd (t : Nat) (w : Fin 98) (s : State) : Host.Outcome State Fault Refusal :=
  act t s (fun s => blankingEnd s w.val)

/-- INITIAL_DECISION (R296): T_INIT after power-up, reset, wake or enable, a window decides its initial output. -/
def execInitialDecision (t : Nat) (w : Fin 98) (lo hi : Int) (s : State) : Host.Outcome State Fault Refusal :=
  act t s (fun s => initialDecision s w.val (lo, hi))

/-- WINDOW_ENABLE (R296): Writing EN = 1 to a general or zero-cross window starts its initial decision. -/
def execWindowEnable (t : Nat) (w : Fin 98) (s : State) : Host.Outcome State Fault Refusal :=
  act t s (fun s => windowSet s w.val 1)

/-- WINDOW_DISABLE (R297): Writing EN = 0 clears INIT_DECIDED and sets the output to UNDECIDED. -/
def execWindowDisable (t : Nat) (w : Fin 98) (s : State) : Host.Outcome State Fault Refusal :=
  act t s (fun s => windowSet s w.val 0)

/-- CHANNEL_ENABLE (R617): Writing EN from 0 to 1 re-enables a channel and checks its profiles and model header, or is refused under R185. -/
def execChannelEnable (t : Nat) (c : Fin 64) (s : State) : Host.Outcome State Fault Refusal :=
  act t s (fun s => putField s (A.cell c.val) 0 0 1)

/-- CHANNEL_EN_CLEAR (R617): Writing EN = 0 disables the channel as DISABLE does. -/
def execChannelEnClear (t : Nat) (c : Fin 64) (s : State) : Host.Outcome State Fault Refusal :=
  act t s (fun s => putField s (A.cell c.val) 0 0 0)

/-- DISABLE (R617): DISABLE stops the profile, drives LSG low and sets STATE = DISABLED. -/
def execDisable (t : Nat) (c : Fin 64) (s : State) : Host.Outcome State Fault Refusal :=
  act t s (fun s => put32 s (A.cell c.val + 0xC) 2)

/-- REENABLE (R617): REENABLE takes an enabled channel out of DISABLED and clears FAULT. -/
def execReenable (t : Nat) (c : Fin 64) (s : State) : Host.Outcome State Fault Refusal :=
  act t s (fun s => put32 s (A.cell c.val + 0xC) 1)

/-- RESUME (R439): RESUME takes a bank out of its safe state and makes its channels IDLE. -/
def execResume (t : Nat) (b : Fin 16) (s : State) : Host.Outcome State Fault Refusal :=
  act t s (fun s => put32 s (A.bank b.val + 0x418) 1)

/-- PROFILE_BAR2_WRITE (R196): Before the seal, a BAR2 write to a profile of an enabled channel is discarded and counted. -/
def execProfileBar2Write (t : Nat) (addr size : Nat) (val : BitVec 64) (s : State) : Host.Outcome State Fault Refusal :=
  act t s (fun s => bar2Write s addr size val)

/-- PROFILE_WRITE (R197): The PROFILE_WRITE command checks a profile and replaces it whole, setting its PVALID bit. -/
def execProfileWrite (t : Nat) (r : Fin 64) (s : State) : Host.Outcome State Fault Refusal :=
  act t s (fun s => ringCmd 0x20 r.val doProfileWrite s)

/-- MODEL_BAR2_WRITE (R243): Before the seal, a BAR2 write to an actuator model takes effect at once. -/
def execModelBar2Write (t : Nat) (addr size : Nat) (val : BitVec 64) (s : State) : Host.Outcome State Fault Refusal :=
  act t s (fun s => bar2Write s addr size val)

/-- MODEL_WRITE (R243): The MODEL_WRITE command writes software words of a model, checking the header. -/
def execModelWrite (t : Nat) (r : Fin 64) (s : State) : Host.Outcome State Fault Refusal :=
  act t s (fun s => ringCmd 0x21 r.val doModelWrite s)

/-- MODEL_RESET (R243): The MODEL_RESET command sets a cell's device-written fields to zero. -/
def execModelReset (t : Nat) (r : Fin 64) (s : State) : Host.Outcome State Fault Refusal :=
  act t s (fun s => ringCmd 0x22 r.val doModelReset s)

/-- PRESSURE_SET (R242): The PRESSURE_SET command sets a host pressure value and restarts its age. -/
def execPressureSet (t : Nat) (r : Fin 64) (s : State) : Host.Outcome State Fault Refusal :=
  act t s (fun s => ringCmd 0x23 r.val doPressureSet s)

/-- BALANCE_BAR2_WRITE (R619): Before the seal, a BAR2 write to the balance table is stored, checked or discarded and counted. -/
def execBalanceBar2Write (t : Nat) (addr size : Nat) (val : BitVec 64) (s : State) : Host.Outcome State Fault Refusal :=
  act t s (fun s => bar2Write s addr size val)

end Sys2Proof.Machine
end

