-- ==== Sys2Proof/Machine/ExecHif.lean ====
section
/-!
DEFINITION. The meanings of the commands of the host interface and its rings, one per row of the command table, over the shared
operations of the blocks.
-/
namespace Sys2Proof.Machine

/-- HOST_PATH_RESET (R310): A hot reset, link down or configured PERST resets only the host path. -/
def execHostPathReset (s : State) : Host.Outcome State Fault Refusal :=
  act s.clk.now s (fun s => hostPathReset s)

/-- PCIE_FUNDAMENTAL_RESET (R309): PERST_N with PERST_MODE = 0 causes a whole-device reset. -/
def execPcieFundamentalReset (t : Nat) (s : State) : Host.Outcome State Fault Refusal :=
  run t s (fun s => perstReset s)

/-- SUSPENSION (R306): The host interface enters or leaves suspension as BME, the D-state or the link state changes. -/
def execSuspension (t : Nat) (pci : PciSetting) (dstate lstate : Nat) (s : State) : Host.Outcome State Fault Refusal :=
  run t s (fun s => if s.pwr.inReset then s else Sys2Proof.Machine.suspension s pci.bme dstate lstate pci.cfg)

/-- PME_TURN_OFF (R308): The device answers PME_Turn_Off with PME_TO_Ack. -/
def execPmeTurnOff (s : State) : Host.Outcome State Fault Refusal :=
  act s.clk.now s (fun s => pmeTurnOff s)

/-- RUN_START (R314): Writing HIF_CTL.RUN = 1 checks the rings, starts them and clears HOST_RESET. -/
def execRunStart (t : Nat) (s : State) : Host.Outcome State Fault Refusal :=
  act t s (fun s => putField s 0x1000 0 0 1)

/-- DOORBELL_POLL (R319): Every DB_POLL, or 1 us near an awaited arm point, the device reads the doorbell block. -/
def execDoorbellPoll (t : Nat) (s : State) : Host.Outcome State Fault Refusal :=
  act t s (fun s => doorbellPoll s)

/-- POLL_DATA_RETURN (R320): The doorbell data returns, and the device compares producer indices and fetches descriptors. -/
def execPollDataReturn (t : Nat) (ok : Bool) (gen : Word) (prods : List (Nat × Nat)) (s : State) : Host.Outcome State Fault Refusal :=
  act t s (fun s => pollAll s ok gen prods)

/-- DESCRIPTOR_FETCH_DONE (R323): A fetched descriptor arrives and is taken, or waits on its lap bit. -/
def execDescriptorFetchDone (t : Nat) (r : Fin 64) (desc : Option (List Word)) (buf : Option (List Word)) (s : State) : Host.Outcome State Fault Refusal :=
  act t s (fun s => fetchDone s r.val desc buf)

/-- NOP (R331): The NOP command does nothing and completes. -/
def execNop (t : Nat) (r : Fin 64) (s : State) : Host.Outcome State Fault Refusal :=
  act t s (fun s => ringCmd 0x01 r.val doNop s)

/-- ARM (R333): The ARM command compares the digest and, on a match, sets ARMED and ends SAFE_HOLD. -/
def execArm (t : Nat) (r : Fin 64) (s : State) : Host.Outcome State Fault Refusal :=
  act t s (fun s => armCmd r.val s)

/-- MODE_SET (R39): The MODE_SET command requests new mode settings. -/
def execModeSet (t : Nat) (r : Fin 64) (s : State) : Host.Outcome State Fault Refusal :=
  act t s (fun s => ringCmd 0x03 r.val doModeSet s)

/-- CFG_WRITE (R334): The CFG_WRITE command checks and writes masked register fields in one FCLK cycle. -/
def execCfgWrite (t : Nat) (r : Fin 64) (s : State) : Host.Outcome State Fault Refusal :=
  act t s (fun s => ringCmd 0x04 r.val doCfgWrite s)

/-- TABLE_WRITE (R337): The TABLE_WRITE command writes a permitted BAR2 table area after checking it. -/
def execTableWrite (t : Nat) (r : Fin 64) (s : State) : Host.Outcome State Fault Refusal :=
  act t s (fun s => ringCmd 0x05 r.val doTableWrite s)

/-- MSIX_TABLE_WRITE (R303): A write to the MSI-X table is accepted at any time and may unmask a vector; the pending bit array is read
only, and after the seal a write to it is refused and counted (R17, R311). -/
def execMsixTableWrite (t : Nat) (addr size : Nat) (val : BitVec 64) (s : State) : Host.Outcome State Fault Refusal :=
  act t s (fun s => bar0Write s addr size val)

/-- TELEMETRY_PERIOD (R338): A producer's period expires, and it captures or publishes its latest capture. -/
def execTelemetryPeriod (t : Nat) (p : Fin 256) (s : State) : Host.Outcome State Fault Refusal :=
  act t s (fun s => telemetryPeriod s p.val)

/-- FRESHNESS_EXPIRY (R339): At FRESH_UNTIL, a newer capture is published, or else a STALE entry. -/
def execFreshnessExpiry (t : Nat) (p : Fin 256) (s : State) : Host.Outcome State Fault Refusal :=
  act t s (fun s => freshnessDue s p.val)

end Sys2Proof.Machine
end

