-- ==== Sys2Proof/Machine/ExecHost.lean ====
section
/-!
DEFINITION. The meanings of the commands of the register accesses, the fabric, one per row of the command table, over the shared
operations of the blocks.
-/
namespace Sys2Proof.Machine

/-- REGISTER_WRITE (R12): A BAR0 register write with no row of its own: accepted fields take effect, reserved bits and out-of-range values leave fields unchanged, and a misaligned write is discarded. -/
def execRegisterWrite (t : Nat) (addr size : Nat) (val : BitVec 64) (s : State) : Host.Outcome State Fault Refusal :=
  act t s (fun s => bar0Write s addr size val)

/-- LOW_HALF_READ (R16): A read of the low half of a 64-bit register latches the high half until the high half is read. The row
carries every host read: of BAR0, of BAR2 and of configuration space (R15, R44, R302, R303). -/
def execLowHalfRead (t : Nat) (addr : ReadAt) (s : State) : Host.Outcome State Fault Refusal :=
  act t s (fun s => hostRead s addr.space addr.off addr.size)

/-- DTIME_LOW_READ (R50): A read of the GLB_DTIME low word latches the high word and GLB_DTIME_QUAL for one instant. -/
def execDtimeLowRead (t : Nat) (s : State) : Host.Outcome State Fault Refusal :=
  act t s (fun s => bar0Read s 0x20)

/-- SEAL_WRITE (R48): A write to GLB_SEAL advances or clears the two-word key sequence, and the second correct key seals the device. -/
def execSealWrite (t : Nat) (v : Word) (s : State) : Host.Outcome State Fault Refusal :=
  act t s (fun s => put32 s 0x10 v)

/-- BEH_LEVEL_WRITE (R21): Before the seal, a write of 1 or 2 to GLB_BEH_LEVEL selects the behaviour level; any other value has no effect. -/
def execBehLevelWrite (t : Nat) (v : Word) (s : State) : Host.Outcome State Fault Refusal :=
  act t s (fun s => put32 s 4 v)

/-- BAR2_WRITE (R45): A BAR2 write to a table with no row of its own is stored before the seal, and after the seal it is refused and counted. -/
def execBar2Write (t : Nat) (addr size : Nat) (val : BitVec 64) (s : State) : Host.Outcome State Fault Refusal :=
  act t s (fun s => bar2Write s addr size val)

/-- POISONED_READ (R473): A BAR0 or BAR2 read of a word with an uncorrectable error completes with poisoned data, which is reported through AER. -/
def execPoisonedRead (t : Nat) (bar : Fin 3) (addr : Nat) (s : State) : Host.Outcome State Fault Refusal :=
  act t s (fun s => (({ s with free := s.free + 1 } : State).emit .message [.poison bar.val addr]).answer [Config.freeWord s.free])

/-- FABRIC_GRANT (R29): The fabric grants one pending request by class rank and round-robin order. -/
def execFabricGrant (t : Nat) (arrivals : List (Fin 11)) (s : State) : Host.Outcome State Fault Refusal :=
  act t s (fun s => fabricGrant s (arrivals.map (·.val)))

/-- CLASS2_PROMOTION (R30): A class 2 request that has waited 48 FCLK cycles is promoted ahead of class 0 and class 1. -/
def execClass2Promotion (t : Nat) (k : Fin 11) (s : State) : Host.Outcome State Fault Refusal :=
  act t s (fun s => class2Promote s k.val)

end Sys2Proof.Machine
end

