-- ==== Sys2Proof/Machine/ExecIrq.lean ====
section
/-!
DEFINITION. The meanings of the commands of the interrupt controller, one per row of the command table, over the shared
operations of the blocks.
-/
namespace Sys2Proof.Machine

/-- HOLDOFF_EXPIRY (R402): A target's holdoff timer expires, and a waiting delivery is made. -/
def execHoldoffExpiry (t : Nat) (k : Fin 16) (s : State) : Host.Outcome State Fault Refusal :=
  act t s (fun s => holdoffExpiry s k.val)

/-- MSIX_MESSAGE (R387): The MSI-X message of a delivery is issued after the writes it must follow. -/
def execMsixMessage (t : Nat) (k : Fin 16) (s : State) : Host.Outcome State Fault Refusal :=
  act t s (fun s => msixIssue k.val s)

/-- IRQ_CLAIM (R389): A read of IRQ_TGT_t_CLAIM claims the chosen source, or returns 0 or 511. -/
def execIrqClaim (t : Nat) (k : Fin 16) (byWarden : Bool) (s : State) : Host.Outcome State Fault Refusal :=
  act t s (fun s => if byWarden then wardenClaim s k.val else bar0Read s (0x4104 + 16 * k.val))

/-- IRQ_COMPLETE (R391): A write to IRQ_TGT_t_COMPLETE completes the latest claim, or is counted in BADCOMP. -/
def execIrqComplete (t : Nat) (k : Fin 16) (byWarden : Bool) (v : Word) (s : State) : Host.Outcome State Fault Refusal :=
  act t s (fun s => if byWarden then wardenComplete s k.val v else put32 s (0x4108 + 16 * k.val) v)

/-- PEND_SET_WRITE (R399): A write of 1 to a pending set bit is an arrival. -/
def execPendSetWrite (t : Nat) (w : Fin 16) (v : Word) (s : State) : Host.Outcome State Fault Refusal :=
  act t s (fun s => put32 s (0x4400 + 4 * w.val) v)

/-- PEND_CLR_WRITE (R399): A write of 1 to a pending clear bit withdraws the pending state. -/
def execPendClrWrite (t : Nat) (w : Fin 16) (v : Word) (s : State) : Host.Outcome State Fault Refusal :=
  act t s (fun s => put32 s (0x4440 + 4 * w.val) v)

/-- EN_SET_WRITE (R398): A write of 1 to an enable set bit enables the target for the source. -/
def execEnSetWrite (t : Nat) (k w : Fin 16) (v : Word) (s : State) : Host.Outcome State Fault Refusal :=
  act t s (fun s => put32 s (0x5000 + 0x40 * k.val + 4 * w.val) v)

/-- EN_CLR_WRITE (R398): A write of 1 to an enable clear bit disables the target for the source. -/
def execEnClrWrite (t : Nat) (k w : Fin 16) (v : Word) (s : State) : Host.Outcome State Fault Refusal :=
  act t s (fun s => put32 s (0x5400 + 0x40 * k.val + 4 * w.val) v)

/-- IDLE_SET_WRITE (R401): A write to IRQ_IDLE_SET marks host targets IDLE or ASLEEP. -/
def execIdleSetWrite (t : Nat) (byWarden : Bool) (v : Word) (s : State) : Host.Outcome State Fault Refusal :=
  act t s (fun s => if byWarden then idleWrite true true v s else put32 s 0x4010 v)

/-- IDLE_CLR_WRITE (R401): A write to IRQ_IDLE_CLR clears IDLE or ASLEEP of host targets. -/
def execIdleClrWrite (t : Nat) (byWarden : Bool) (v : Word) (s : State) : Host.Outcome State Fault Refusal :=
  act t s (fun s => if byWarden then idleWrite false true v s else put32 s 0x4014 v)

end Sys2Proof.Machine
end

