-- ==== Sys2Proof/Machine/ExecLink.lean ====
section
/-!
DEFINITION. The meanings of the commands of the Vangic Link, one per row of the command table, over the shared
operations of the blocks.
-/
namespace Sys2Proof.Machine

/-- PORT_UP (R505): A link port acquires symbol lock and becomes UP. -/
def execPortUp (t : Nat) (p : Fin 2) (s : State) : Host.Outcome State Fault Refusal :=
  act t s (fun s => portUp s p.val)

/-- PORT_DOWN (R505): A port goes DOWN after BREAK_TO without lock or on RFAULT, and sends RFAULT. -/
def execPortDown (t : Nat) (p : Fin 2) (why : PortLoss) (s : State) : Host.Outcome State Fault Refusal :=
  act t s (fun s => Sys2Proof.Machine.portDown s p.val why.since)

/-- PORT_SLEEPING (R505): A port receives SLEEP and becomes SLEEPING. -/
def execPortSleeping (t : Nat) (p : Fin 2) (s : State) : Host.Outcome State Fault Refusal :=
  act t s (fun s => portSleeping s p.val)

/-- PORT_UNWRAP (R515): A wrapped port UP for HEAL_MS unwraps and broadcasts TOPO UNWRAP. -/
def execPortUnwrap (t : Nat) (p : Fin 2) (s : State) : Host.Outcome State Fault Refusal :=
  act t s (fun s => portUnwrap s p.val)

/-- FRAME_FORWARD (R508): A received frame is forwarded, with HOPS incremented and EBAD on a bad CRC. -/
def execFrameForward (t : Nat) (p : Fin 2) (f : Frame) (s : State) : Host.Outcome State Fault Refusal :=
  act t s (fun s => frameForward s p.val f)

/-- BEACON (R511): A BEACON frame is taken: it names a neighbour, or shows a duplicate ID or a miswire. -/
def execBeacon (t : Nat) (p : Fin 2) (f : Frame) (_ts : Nat) (s : State) : Host.Outcome State Fault Refusal :=
  act t s (fun s => takeFrame 1 f (takeBeacon p.val f) s)

/-- PDELAY_REQ (R517): A PDELAY_REQ frame is taken, and a PDELAY_RESP is sent. -/
def execPdelayReq (t : Nat) (p : Fin 2) (f : Frame) (ts : Nat) (s : State) : Host.Outcome State Fault Refusal :=
  act t s (fun s => takeFrame 2 f (takePdelayReq p.val f ts) s)

/-- PDELAY_RESP (R517): A PDELAY_RESP frame updates the port's link delay. -/
def execPdelayResp (t : Nat) (p : Fin 2) (f : Frame) (ts : Nat) (s : State) : Host.Outcome State Fault Refusal :=
  act t s (fun s => takeFrame 3 f (takePdelayResp p.val f ts) s)

/-- ANNOUNCE (R523): An ANNOUNCE frame is taken for role election, or ignored as stale. -/
def execAnnounce (t : Nat) (_p : Fin 2) (f : Frame) (_ts : Nat) (s : State) : Host.Outcome State Fault Refusal :=
  act t s (fun s => takeFrame 4 f (takeAnnounce f) s)

/-- SYNC (R518): A SYNC frame gives the offset to the time master; DTIME steps or slews. -/
def execSync (t : Nat) (p : Fin 2) (f : Frame) (ts : Nat) (s : State) : Host.Outcome State Fault Refusal :=
  act t s (fun s => takeFrame 5 f (takeSync p.val f ts) s)

/-- SNAP (R532): A SNAP frame updates the receive slots that follow its stream. -/
def execSnap (t : Nat) (_p : Fin 2) (f : Frame) (_ts : Nat) (s : State) : Host.Outcome State Fault Refusal :=
  act t s (fun s => takeFrame 6 f (takeSnap f) s)

/-- MAINS (R530): A MAINS frame sets D3 from the plant mains angle as one angle update. -/
def execMains (t : Nat) (_p : Fin 2) (f : Frame) (_ts : Nat) (s : State) : Host.Outcome State Fault Refusal :=
  act t s (fun s => takeFrame 7 f (takeMains f) s)

/-- EPOCH_NOTICE (R526): A newer EPOCH_NOTICE makes the part drop its role and rejoin as candidate. -/
def execEpochNotice (t : Nat) (_p : Fin 2) (f : Frame) (_ts : Nat) (s : State) : Host.Outcome State Fault Refusal :=
  act t s (fun s => takeFrame 8 f (takeNotice f) s)

/-- SUPERVISORY (R534): A SUPERVISORY frame is written to the receive log. -/
def execSupervisory (t : Nat) (_p : Fin 2) (f : Frame) (ts : Nat) (s : State) : Host.Outcome State Fault Refusal :=
  act t s (fun s => takeFrame 9 f (takeSupervisory f ts) s)

/-- TOPO (R514): A TOPO frame is taken and raises VLK_2. -/
def execTopo (t : Nat) (_p : Fin 2) (f : Frame) (_ts : Nat) (s : State) : Host.Outcome State Fault Refusal :=
  act t s (fun s => takeFrame 10 f (fun s => s.arrive 370) s)

/-- WAKE_REQ (R537): A WAKE_REQ frame makes the part send WAKE on sleeping ports that face the target. -/
def execWakeReq (t : Nat) (_p : Fin 2) (f : Frame) (_ts : Nat) (s : State) : Host.Outcome State Fault Refusal :=
  act t s (fun s => takeFrame 11 f (fun s => sendWake s (fld (f.pay 0) 9 0)) s)

/-- ANNOUNCE_PERIOD (R522): Every ANN_PERIOD, the part sends BEACON and ANNOUNCE frames. -/
def execAnnouncePeriod (t : Nat) (s : State) : Host.Outcome State Fault Refusal :=
  act t s (fun s => announcePeriod s)

/-- PDELAY_PERIOD (R517): Every PD_PERIOD, each UP port sends PDELAY_REQ. -/
def execPdelayPeriod (t : Nat) (p : Fin 2) (s : State) : Host.Outcome State Fault Refusal :=
  act t s (fun s => pdelayPeriod s p.val)

/-- SYNC_PERIOD (R518): Every SYNC_PERIOD, the time master sends SYNC. -/
def execSyncPeriod (t : Nat) (s : State) : Host.Outcome State Fault Refusal :=
  act t s (fun s => syncPeriod s)

/-- MAINS_PERIOD (R529): Every MAINS_PERIOD, the mains master sends MAINS. -/
def execMainsPeriod (t : Nat) (s : State) : Host.Outcome State Fault Refusal :=
  act t s (fun s => mainsPeriod s)

/-- SNAP_PERIOD (R528): Every PERIOD of an enabled stream, the part sends a SNAP frame. -/
def execSnapPeriod (t : Nat) (k : Fin 4) (s : State) : Host.Outcome State Fault Refusal :=
  act t s (fun s => snapPeriod s k.val)

/-- MASTER_SILENCE_TIMEOUT (R523): No MASTER ANNOUNCE for 3 ANN_PERIOD, and the best candidate becomes MASTER. -/
def execMasterSilenceTimeout (t : Nat) (role : Fin 2) (s : State) : Host.Outcome State Fault Refusal :=
  act t s (fun s => masterSilence s role.val)

/-- BACKUP_TAKEOVER (R523): The backup misses 3 SYNC or MAINS periods and becomes MASTER with a new epoch. -/
def execBackupTakeover (t : Nat) (role : Fin 2) (s : State) : Host.Outcome State Fault Refusal :=
  act t s (fun s => backupTakeover s role.val)

/-- BACKUP_SILENCE (R524): The named backup is silent for 3 ANN_PERIOD, and the master names a new one. -/
def execBackupSilence (t : Nat) (role : Fin 2) (s : State) : Host.Outcome State Fault Refusal :=
  act t s (fun s => backupSilence s role.val)

/-- TIME_QUALITY_LOSS (R521): No SYNC for 4 SYNC_PERIOD, so the part leaves PRECISE for LOCAL. -/
def execTimeQualityLoss (t : Nat) (s : State) : Host.Outcome State Fault Refusal :=
  act t s (fun s => timeQualityLoss s)

/-- MAINS_TIMEOUT (R530): No MAINS for MAINS_TO, and D3 from the link enters STALL. -/
def execMainsTimeout (t : Nat) (s : State) : Host.Outcome State Fault Refusal :=
  act t s (fun s => mainsTimeout s)

/-- SOURCE_FORGET (R510): A source's LAST_S is forgotten after 1 s without a frame. -/
def execSourceForget (t : Nat) (src : Nat) (s : State) : Host.Outcome State Fault Refusal :=
  act t s (fun s => sourceForget s src)

/-- VLK_ENABLE (R511): Writing the link EN draws a new NONCE and starts beaconing. -/
def execVlkEnable (t : Nat) (v : Word) (s : State) : Host.Outcome State Fault Refusal :=
  act t s (fun s => put32 s 0xA000 v)

/-- LINK_SEND (R533): The LINK_SEND command queues one SUPERVISORY frame. -/
def execLinkSend (t : Nat) (r : Fin 64) (s : State) : Host.Outcome State Fault Refusal :=
  act t s (fun s => ringCmd 0x58 r.val doLinkSend s)

/-- LINK_RESIGN (R523): The LINK_RESIGN command sends RESIGNING for a held role. -/
def execLinkResign (t : Nat) (r : Fin 64) (s : State) : Host.Outcome State Fault Refusal :=
  act t s (fun s => ringCmd 0x59 r.val doLinkResign s)

/-- LINK_WAKE (R537): The LINK_WAKE command broadcasts WAKE_REQ and sends WAKE on the ports that face the target. -/
def execLinkWake (t : Nat) (r : Fin 64) (s : State) : Host.Outcome State Fault Refusal :=
  act t s (fun s => ringCmd 0x5A r.val doLinkWake s)

end Sys2Proof.Machine
end

