-- ==== Sys2Proof/Machine/ExecPower.lean ====
section
/-!
DEFINITION. The meanings of the commands of Dusk, wake, resets, the journal, one per row of the command table, over the shared
operations of the blocks.
-/
namespace Sys2Proof.Machine

/-- DUSK_ENTER (R543): The DUSK_ENTER command begins a Dusk entry, or completes with CONDITION. -/
def execDuskEnter (t : Nat) (r : Fin 64) (s : State) : Host.Outcome State Fault Refusal :=
  act t s (fun s => Sys2Proof.Machine.duskEnter r.val s)

/-- DUSK_REQ (R543): Before the seal, writing PWR_CTL.DUSK begins a Dusk entry. -/
def execDuskReq (t : Nat) (s : State) : Host.Outcome State Fault Refusal :=
  act t s (fun s => put32 s 0x2000 2)

/-- DUSK_VOTE (R545): The next voter answers, and either agrees and stops or refuses. -/
def execDuskVote (s : State) : Host.Outcome State Fault Refusal :=
  act s.clk.now s (fun s => duskVote s)

/-- DUSK_COMMIT (R547): Once all voters agree, the device commits and Dusk becomes stable. -/
def execDuskCommit (t : Nat) (s : State) : Host.Outcome State Fault Refusal :=
  act t s (fun s => duskCommit s)

/-- DUSK_TOOTH_EDGE (R95): During Dusk, an active crank edge updates the signed Dusk count. -/
def execDuskToothEdge (t : Nat) (d : Fin 2) (e : CrankInput) (s : State) : Host.Outcome State Fault Refusal :=
  run t s (fun s => duskToothEdge s d.val e.ts e.lv e.dir)

/-- WAKE_LATCH_EDGE (R550): A wake input catches its latch during Dusk without waking when its WAKE_EN bit is 0. -/
def execWakeLatchEdge (t : Nat) (l : Fin 7) (s : State) : Host.Outcome State Fault Refusal :=
  run t s (fun s => wakeLatch s l.val)

/-- AON_TIMER_EXPIRY (R550): The AON timer reaches PWR_AON_WAKE periods after the commit. -/
def execAonTimerExpiry (t : Nat) (s : State) : Host.Outcome State Fault Refusal :=
  run t s (fun s => aonTimer s)

/-- WAKE (R552): An enabled wake event ends Dusk and the device restores its state. -/
def execWake (t : Nat) (l : Fin 7) (aonCount : Nat) (eccErr : Bool) (s : State) : Host.Outcome State Fault Refusal :=
  run t s (fun s => Sys2Proof.Machine.wake s l.val aonCount eccErr)

/-- JOURNAL_COMMIT (R563): The JOURNAL_COMMIT command commits the configuration in force and writes a journal slot. -/
def execJournalCommit (t : Nat) (r : Fin 64) (s : State) : Host.Outcome State Fault Refusal :=
  act t s (fun s => ringCmd 0x52 r.val doJournalCommit s)

/-- COMMIT (R563): Before the seal, writing PWR_CTL.COMMIT commits as JOURNAL_COMMIT does. -/
def execCommit (t : Nat) (s : State) : Host.Outcome State Fault Refusal :=
  act t s (fun s => put32 s 0x2000 4)

/-- PWR_SET (R550): The PWR_SET command writes PWR_CFG, PWR_AON_WAKE and PWR_SB. -/
def execPwrSet (t : Nat) (r : Fin 64) (s : State) : Host.Outcome State Fault Refusal :=
  act t s (fun s => ringCmd 0x53 r.val doPwrSet s)

/-- JOURNAL_WRITE_DONE (R561): A journal slot write completes with CHECK written and becomes the selected slot. -/
def execJournalWriteDone (s : State) : Host.Outcome State Fault Refusal :=
  act s.clk.now s (fun s => journalWriteDone s)

/-- DIGEST_DONE (R565): The recomputation of GLB_DIGEST completes. -/
def execDigestDone (s : State) : Host.Outcome State Fault Refusal :=
  act s.clk.now s (fun s => digestDone s)

/-- POWER_ON_RESET (R558): VDD_AON rises and a power-on reset clears retention and the cause bits. -/
def execPowerOnReset (t : Nat) (s : State) : Host.Outcome State Fault Refusal :=
  run t s (fun s => powerOnReset s)

/-- SUPPLY_MONITOR_RESET (R578): A supply leaves its monitor thresholds and causes a whole-device reset. -/
def execSupplyMonitorReset (t : Nat) (s : State) : Host.Outcome State Fault Refusal :=
  run t s (fun s => supplyReset s)

/-- PIN_RESET (R586): RESET_N held low for at least 1 us resets the device and holds the outputs low. -/
def execPinReset (t : Nat) (width : Nat) (s : State) : Host.Outcome State Fault Refusal :=
  run t s (fun s => Sys2Proof.Machine.pinReset s width)

/-- RESET_RELEASE (R538): The reset ends, and start-up begins on FIO with SAFE_HOLD set. -/
def execResetRelease (t : Nat) (s : State) : Host.Outcome State Fault Refusal :=
  run t s (fun s => resetRelease s)

/-- RESTORE_DONE (R568): The journal restore, progress, unit rules and digest complete and RESTORED is set. -/
def execRestoreDone (s : State) : Host.Outcome State Fault Refusal :=
  run s.clk.now s (fun s => restoreDone s)

end Sys2Proof.Machine
end

