-- ==== Sys2Proof/Machine/ExecQueue.lean ====
section
/-!
DEFINITION. The meanings of the commands of the queue cells, the transfer engine and the trace, one per row of the command table, over the shared
operations of the blocks.
-/
namespace Sys2Proof.Machine

/-- QUEUE_CLOSE_TIMEOUT (R347): CLOSE_TO passes without an item, and the open word is closed. -/
def execQueueCloseTimeout (t : Nat) (q : Fin 24) (s : State) : Host.Outcome State Fault Refusal :=
  act t s (fun s => queueCloseTimeout s q.val)

/-- QUEUE_WORD_HEAD (R348): A word reaches stage 0 and its reader takes it. -/
def execQueueWordHead (t : Nat) (q : Fin 24) (s : State) : Host.Outcome State Fault Refusal :=
  act t s (fun s => queueWordHead s q.val)

/-- CAPTURE_PAIR_TIMEOUT (R358): No second word within 1 us, so a 64-byte capture entry is written with one word. -/
def execCapturePairTimeout (t : Nat) (r : Fin 64) (s : State) : Host.Outcome State Fault Refusal :=
  act t s (fun s => capturePairDue s r.val)

/-- QUE_FLUSH (R354): The QUE_FLUSH command empties a cell and counts the items flushed. -/
def execQueFlush (t : Nat) (r : Fin 64) (s : State) : Host.Outcome State Fault Refusal :=
  act t s (fun s => ringCmd 0x68 r.val doQueFlush s)

/-- QUE_ACK (R352): The QUE_ACK command clears LEVEL_EVT and CROSS_CNT. -/
def execQueAck (t : Nat) (r : Fin 64) (s : State) : Host.Outcome State Fault Refusal :=
  act t s (fun s => ringCmd 0x69 r.val doQueAck s)

/-- QUE_CLOSE (R347): The QUE_CLOSE command closes a cell's open word. -/
def execQueClose (t : Nat) (r : Fin 64) (s : State) : Host.Outcome State Fault Refusal :=
  act t s (fun s => ringCmd 0x6A r.val doQueClose s)

/-- QUEUE_DISABLE (R356): Writing a cell's EN = 0 flushes it. -/
def execQueueDisable (t : Nat) (q : Fin 24) (s : State) : Host.Outcome State Fault Refusal :=
  act t s (fun s => putField s (A.queue q.val) 0 0 0)

/-- LEVEL_EVT_CLEAR (R352): Before the seal, writing 1 to LEVEL_EVT clears it and CROSS_CNT. -/
def execLevelEvtClear (t : Nat) (q : Fin 24) (s : State) : Host.Outcome State Fault Refusal :=
  act t s (fun s => put32 s (A.queue q.val + 4) 0x20000)

/-- XFR_START (R371): The XFR_START command starts a channel at a descriptor address. -/
def execXfrStart (t : Nat) (r : Fin 64) (s : State) : Host.Outcome State Fault Refusal :=
  act t s (fun s => ringCmd 0x6B r.val doXfrStart s)

/-- XFR_STOP (R367): The XFR_STOP command stops a channel after the element in flight. -/
def execXfrStop (t : Nat) (r : Fin 64) (s : State) : Host.Outcome State Fault Refusal :=
  act t s (fun s => ringCmd 0x6C r.val doXfrStop s)

/-- XFR_CTL_START (R371): Writing CTL.START starts the channel at START_LO and START_HI. -/
def execXfrCtlStart (t : Nat) (n : Fin 32) (s : State) : Host.Outcome State Fault Refusal :=
  act t s (fun s => put32 s (A.xch n.val) 1)

/-- XFR_CTL_STOP (R367): Writing CTL.STOP stops the channel. -/
def execXfrCtlStop (t : Nat) (n : Fin 32) (s : State) : Host.Outcome State Fault Refusal :=
  act t s (fun s => put32 s (A.xch n.val) 2)

/-- XFR_DESCRIPTOR_FETCHED (R371): A fetched transfer descriptor is checked, and the channel runs or enters ERROR. -/
def execXfrDescriptorFetched (t : Nat) (n : Fin 32) (desc : Option (List Word)) (s : State) : Host.Outcome State Fault Refusal :=
  act t s (fun s => xfrFetched s n.val desc)

/-- XFR_TIMER_EXPIRY (R365): A transfer timer expires and triggers blocks of the channels paced by it. -/
def execXfrTimerExpiry (t : Nat) (k : Fin 4) (s : State) : Host.Outcome State Fault Refusal :=
  act t s (fun s => xfrTimer s k.val)

/-- XFR_READ_DATA (R360): Host read data returns for a host-to-device transfer and is moved to the device endpoint. -/
def execXfrReadData (t : Nat) (n : Fin 32) (data : Option (List Word)) (s : State) : Host.Outcome State Fault Refusal :=
  act t s (fun s => xfrReadData s n.val data)

/-- XFR_BLOCK_END (R366): A block's elements have been moved, and half or full interrupts are raised. -/
def execXfrBlockEnd (t : Nat) (n : Fin 32) (s : State) : Host.Outcome State Fault Refusal :=
  act t s (fun s => xfrBlockEnd s n.val)

/-- XFR_LINK_READ (R368): The LINK read returns, and the channel fetches the next descriptor or parks. -/
def execXfrLinkRead (t : Nat) (n : Fin 32) (link : Option Nat) (s : State) : Host.Outcome State Fault Refusal :=
  act t s (fun s => xfrLinkRead s n.val link)

/-- TRACE_MARK (R376): The TRACE_MARK command sets the rewind mark. -/
def execTraceMark (t : Nat) (r : Fin 64) (s : State) : Host.Outcome State Fault Refusal :=
  act t s (fun s => ringCmd 0x6E r.val doTraceMark s)

/-- TRACE_REWIND (R378): The TRACE_REWIND command sets RD to the mark, or fails with LOST. -/
def execTraceRewind (t : Nat) (r : Fin 64) (s : State) : Host.Outcome State Fault Refusal :=
  act t s (fun s => ringCmd 0x6F r.val doTraceRewind s)

/-- TRACE_ADVANCE (R379): The TRACE_ADVANCE command moves RD over bytes the host has read. -/
def execTraceAdvance (t : Nat) (r : Fin 64) (s : State) : Host.Outcome State Fault Refusal :=
  act t s (fun s => ringCmd 0x6D r.val doTraceAdvance s)

end Sys2Proof.Machine
end

