-- ==== Sys2Proof/Machine/ExecReel.lean ====
section
/-!
DEFINITION. The meanings of the commands of the Reel engines, one per row of the command table, over the shared
operations of the blocks.
-/
namespace Sys2Proof.Machine

/-- GOTO (R423): The GOTO instruction jumps to ADDR when its condition holds. -/
def execGoto (t : Nat) (e : Fin 16) (s : State) : Host.Outcome State Fault Refusal :=
  act t s (fun s => reelUnless s (reelInstr s e.val 0))

/-- AWAIT (R417): The AWAIT instruction stalls until its pin, flag, event or span condition holds. -/
def execAwait (t : Nat) (e : Fin 16) (s : State) : Host.Outcome State Fault Refusal :=
  act t s (fun s => reelUnless s (reelInstr s e.val 1))

/-- BITIN (R418): The BITIN instruction shifts a pin level into SR, with optional deposit. -/
def execBitin (t : Nat) (e : Fin 16) (s : State) : Host.Outcome State Fault Refusal :=
  act t s (fun s => reelUnless s (reelInstr s e.val 2))

/-- BITOUT (R418): The BITOUT instruction drives a pin from SR and shifts, with optional refill. -/
def execBitout (t : Nat) (e : Fin 16) (s : State) : Host.Outcome State Fault Refusal :=
  act t s (fun s => reelUnless s (reelInstr s e.val 3))

/-- GROUP (R418): The GROUP instruction reads or drives the group pins through SR. -/
def execGroup (t : Nat) (e : Fin 16) (s : State) : Host.Outcome State Fault Refusal :=
  act t s (fun s => reelUnless s (reelInstr s e.val 4))

/-- FILL (R420): The FILL instruction takes the oldest OUT entry into SR. -/
def execFill (t : Nat) (e : Fin 16) (s : State) : Host.Outcome State Fault Refusal :=
  act t s (fun s => reelUnless s (reelInstr s e.val 5))

/-- DRAIN (R421): The DRAIN instruction gives SR to the IN queue and may end a burst. -/
def execDrain (t : Nat) (e : Fin 16) (s : State) : Host.Outcome State Fault Refusal :=
  act t s (fun s => reelUnless s (reelInstr s e.val 6))

/-- DRIVE (R416): The DRIVE instruction sets the level and direction of a pin or the group. -/
def execDrive (t : Nat) (e : Fin 16) (s : State) : Host.Outcome State Fault Refusal :=
  act t s (fun s => reelUnless s (reelInstr s e.val 7))

/-- LOAD (R409): The LOAD instruction loads an immediate into V, LIM or L, or extends V. -/
def execLoad (t : Nat) (e : Fin 16) (s : State) : Host.Outcome State Fault Refusal :=
  act t s (fun s => reelUnless s (reelInstr s e.val 8))

/-- MOVE (R420): The MOVE instruction copies a source into V, SR, LIM or L. -/
def execMove (t : Nat) (e : Fin 16) (s : State) : Host.Outcome State Fault Refusal :=
  act t s (fun s => reelUnless s (reelInstr s e.val 9))

/-- FLAG (R409): The FLAG instruction sets, clears or raises a shared flag. -/
def execFlag (t : Nat) (e : Fin 16) (s : State) : Host.Outcome State Fault Refusal :=
  act t s (fun s => reelUnless s (reelInstr s e.val 10))

/-- ADJUST (R409): The ADJUST instruction decrements L or adds to or subtracts from V. -/
def execAdjust (t : Nat) (e : Fin 16) (s : State) : Host.Outcome State Fault Refusal :=
  act t s (fun s => reelUnless s (reelInstr s e.val 11))

/-- REEL_DELAY_CYCLE (R423): An engine cycle spent idle counts the delay down. -/
def execReelDelayCycle (t : Nat) (e : Fin 16) (s : State) : Host.Outcome State Fault Refusal :=
  act t s (fun s => reelUnless s (reelIdle s e.val))

/-- REEL_ENABLE (R426): Writing EN from 0 to 1 starts an engine, unless it is held. -/
def execReelEnable (t : Nat) (e : Fin 16) (s : State) : Host.Outcome State Fault Refusal :=
  act t s (fun s => putField s (A.eng e.val) 0 0 1)

/-- REEL_DISABLE (R428): Writing EN = 0 stops the engine at once. -/
def execReelDisable (t : Nat) (e : Fin 16) (s : State) : Host.Outcome State Fault Refusal :=
  act t s (fun s => putField s (A.eng e.val) 0 0 0)

/-- REEL_RESTART (R427): CTL.RESTART restarts the engine at START. -/
def execReelRestart (t : Nat) (e : Fin 16) (s : State) : Host.Outcome State Fault Refusal :=
  act t s (fun s => put32 s (A.eng e.val + 0x14) 1)

/-- REEL_FLUSH_IN (R409): CTL.FLUSH_IN empties the IN queue. -/
def execReelFlushIn (t : Nat) (e : Fin 16) (s : State) : Host.Outcome State Fault Refusal :=
  act t s (fun s => put32 s (A.eng e.val + 0x14) 4)

/-- REEL_FLUSH_OUT (R409): CTL.FLUSH_OUT empties the OUT queue. -/
def execReelFlushOut (t : Nat) (e : Fin 16) (s : State) : Host.Outcome State Fault Refusal :=
  act t s (fun s => put32 s (A.eng e.val + 0x14) 2)

/-- REEL_TX_WRITE (R432): A REEL_e_TX write appends an OUT entry or is discarded and counted. -/
def execReelTxWrite (t : Nat) (e : Fin 16) (v : Word) (s : State) : Host.Outcome State Fault Refusal :=
  act t s (fun s => put32 s (A.eng e.val + 0x1C) v)

/-- REEL_RX_READ (R431): A read of REEL_e_RX removes and returns the oldest IN entry. -/
def execReelRxRead (t : Nat) (e : Fin 16) (s : State) : Host.Outcome State Fault Refusal :=
  act t s (fun s => bar0Read s (A.eng e.val + 0x20))

/-- REEL_INJECT_WRITE (R425): A write to REEL_e_INJECT places a pending injection. -/
def execReelInjectWrite (t : Nat) (e : Fin 16) (v : Word) (s : State) : Host.Outcome State Fault Refusal :=
  act t s (fun s => put32 s (A.eng e.val + 0x24) v)

/-- REEL_WRAP_WRITE (R424): A write to REEL_e_WRAP makes its pair the pending wrap pair. -/
def execReelWrapWrite (t : Nat) (e : Fin 16) (v : Word) (s : State) : Host.Outcome State Fault Refusal :=
  act t s (fun s => put32 s (A.eng e.val + 0x10) v)

/-- REEL_FLAGS_SET_WRITE (R429): A write to REEL_FLAGS_SET sets flags. -/
def execReelFlagsSetWrite (t : Nat) (v : Word) (s : State) : Host.Outcome State Fault Refusal :=
  act t s (fun s => put32 s 0xB008 v)

/-- REEL_FLAGS_CLR_WRITE (R429): A write to REEL_FLAGS_CLR clears flags. -/
def execReelFlagsClrWrite (t : Nat) (v : Word) (s : State) : Host.Outcome State Fault Refusal :=
  act t s (fun s => put32 s 0xB00C v)

/-- REEL_IMEM_BAR2_WRITE (R434): Before the seal, a BAR2 write to instruction memory takes effect or is discarded and counted. -/
def execReelImemBar2Write (t : Nat) (addr size : Nat) (val : BitVec 64) (s : State) : Host.Outcome State Fault Refusal :=
  act t s (fun s => bar2Write s addr size val)

/-- REEL_IMEM_WRITE (R434): The REEL_IMEM_WRITE command writes up to 8 instruction words in one FCLK cycle. -/
def execReelImemWrite (t : Nat) (r : Fin 64) (s : State) : Host.Outcome State Fault Refusal :=
  act t s (fun s => ringCmd 0x60 r.val (reelDo doReelImemWrite) s)

/-- REEL_WRAP (R424): The REEL_WRAP command sets the pending wrap pair. -/
def execReelWrap (t : Nat) (r : Fin 64) (s : State) : Host.Outcome State Fault Refusal :=
  act t s (fun s => ringCmd 0x61 r.val (reelDo doReelWrap) s)

/-- REEL_CONTROL (R426): The REEL_CONTROL command disables, enables, restarts or flushes the engines of a mask. -/
def execReelControl (t : Nat) (r : Fin 64) (s : State) : Host.Outcome State Fault Refusal :=
  act t s (fun s => ringCmd 0x62 r.val (reelDo doReelControl) s)

/-- REEL_INJECT (R425): The REEL_INJECT command places one instruction as the pending injection. -/
def execReelInject (t : Nat) (r : Fin 64) (s : State) : Host.Outcome State Fault Refusal :=
  act t s (fun s => ringCmd 0x63 r.val (reelDo doReelInject) s)

/-- REEL_WRITE (R432): The REEL_WRITE command appends OUT entries. -/
def execReelWrite (t : Nat) (r : Fin 64) (s : State) : Host.Outcome State Fault Refusal :=
  act t s (fun s => ringCmd 0x64 r.val (reelDo doReelWrite) s)

/-- REEL_FLAG (R429): The REEL_FLAG command sets and clears flags. -/
def execReelFlag (t : Nat) (r : Fin 64) (s : State) : Host.Outcome State Fault Refusal :=
  act t s (fun s => ringCmd 0x65 r.val (reelDo doReelFlag) s)

/-- REEL_IN_TRANSFER (R431): An IN entry moves to the engine's queue cell, one per FCLK cycle. -/
def execReelInTransfer (t : Nat) (e : Fin 16) (s : State) : Host.Outcome State Fault Refusal :=
  act t s (fun s => reelUnless s (reelInTransfer s e.val))

/-- RP_PIN_CHANGE (R413): An RP pin takes a new input level after it has held for the filter time. -/
def execRpPinChange (t : Nat) (p : Fin 32) (e : PinChange) (s : State) : Host.Outcome State Fault Refusal :=
  act t s (fun s => rpPin s p.val e.ts e.level)

end Sys2Proof.Machine
end

