-- ==== Sys2Proof/Machine/ExecSched.lean ====
section
/-!
DEFINITION. The meanings of the commands of the schedulers and slots, one per row of the command table, over the shared
operations of the blocks.
-/
namespace Sys2Proof.Machine

/-- START_UNIT_FREE (R169): A start unit's 500 FCLK cycles expire, and a waiting FIRE_NOW start is issued or skipped as END_PASSED. -/
def execStartUnitFree (t : Nat) (u : Fin 5) (s : State) : Host.Outcome State Fault Refusal :=
  act t s (fun s => startUnitFree s u.val)

/-- EVENT_TABLE_BAR2_WRITE (R145): Before the seal, a BAR2 write to an event slot takes effect or is discarded and counted in EVS_BAR2_CNT. -/
def execEventTableBar2Write (t : Nat) (addr size : Nat) (val : BitVec 64) (s : State) : Host.Outcome State Fault Refusal :=
  act t s (fun s => bar2Write s addr size val)

/-- SLOT_WRITE (R171): The SLOT_WRITE command checks a set and commits it as the slot's shadow set, or hands it over at once with IMMEDIATE. -/
def execSlotWrite (t : Nat) (r : Fin 64) (s : State) : Host.Outcome State Fault Refusal :=
  act t s (fun s => slotCmd 0x10 r.val doSlotWrite s)

/-- SHADOW_DROP (R175): The SHADOW_DROP command discards a committed shadow set that has not been handed over. -/
def execShadowDrop (t : Nat) (r : Fin 64) (s : State) : Host.Outcome State Fault Refusal :=
  act t s (fun s => slotCmd 0x11 r.val doShadowDrop s)

/-- SLOT_CANCEL (R152): The SLOT_CANCEL command cancels an armed or frozen slot, and with END_NOW ends its running event. -/
def execSlotCancel (t : Nat) (r : Fin 64) (s : State) : Host.Outcome State Fault Refusal :=
  act t s (fun s => slotCmd 0x12 r.val doSlotCancel s)

/-- DOMAIN_CANCEL (R152): The DOMAIN_CANCEL command applies SLOT_CANCEL to every slot of a region with that start domain. -/
def execDomainCancel (t : Nat) (r : Fin 64) (s : State) : Host.Outcome State Fault Refusal :=
  act t s (fun s => slotCmd 0x13 r.val doDomainCancel s)

/-- SLOT_QUERY (R331): The SLOT_QUERY command returns a slot's state, PEND, RUN, TAKE and OCC. -/
def execSlotQuery (t : Nat) (r : Fin 64) (s : State) : Host.Outcome State Fault Refusal :=
  act t s (fun s => slotCmd 0x14 r.val doSlotQuery s)

end Sys2Proof.Machine
end

