-- ==== Sys2Proof/Machine/ExecSide.lean ====
section
/-!
DEFINITION. The meanings of the commands of the sideband port and the remaining commands, one per row of the command table, over the shared
operations of the blocks.
-/
namespace Sys2Proof.Machine

/-- IDENT (R608): The sideband IDENT command returns the identity words. -/
def execIdent (s : State) : Host.Outcome State Fault Refusal :=
  run s.clk.now s (fun s => sideIdent s)

/-- READ_BAR0 (R609): The sideband READ_BAR0 command reads BAR0 words without side effects. -/
def execReadBar0 (t : Nat) (off n : Nat) (s : State) : Host.Outcome State Fault Refusal :=
  run t s (fun s => sideReadBar0 s off n)

/-- READ_BAR2 (R609): The sideband READ_BAR2 command reads BAR2 words without side effects. -/
def execReadBar2 (t : Nat) (off n : Nat) (s : State) : Host.Outcome State Fault Refusal :=
  run t s (fun s => sideReadBar2 s off n)

/-- EXPORT_OPEN (R610): The EXPORT_OPEN command opens the stream of the selected journal slot. -/
def execExportOpen (s : State) : Host.Outcome State Fault Refusal :=
  run s.clk.now s (fun s => exportOpen s)

/-- EXPORT_READ (R610): The EXPORT_READ command returns the next bytes of the stream. -/
def execExportRead (t : Nat) (n : Nat) (s : State) : Host.Outcome State Fault Refusal :=
  run t s (fun s => Sys2Proof.Machine.exportRead s n)

/-- EXPORT_STATUS (R608): The EXPORT_STATUS command returns the bytes remaining and the slot SEQ. -/
def execExportStatus (s : State) : Host.Outcome State Fault Refusal :=
  run s.clk.now s (fun s => exportStatus s)

/-- EXPORT_TIMEOUT (R610): 1 s without a transaction closes the export stream. -/
def execExportTimeout (t : Nat) (s : State) : Host.Outcome State Fault Refusal :=
  act t s (fun s => exportTimeout s)

/-- IMPORT_OPEN (R611): The IMPORT_OPEN command opens an import when the part is in SAFE_HOLD, unsealed and not running. -/
def execImportOpen (t : Nat) (key : Word) (s : State) : Host.Outcome State Fault Refusal :=
  run t s (fun s => importOpenCmd s key)

/-- IMPORT_DATA (R608): The IMPORT_DATA command appends bytes to the staging area. -/
def execImportData (t : Nat) (bytes : List Byte) (s : State) : Host.Outcome State Fault Refusal :=
  run t s (fun s => Sys2Proof.Machine.importData s bytes)

/-- IMPORT_FINISH (R612): The IMPORT_FINISH command checks the staged slot and starts its write. -/
def execImportFinish (s : State) : Host.Outcome State Fault Refusal :=
  run s.clk.now s (fun s => importFinish s)

/-- IMPORT_STATUS (R608): The IMPORT_STATUS command returns the import state, code and bytes received. -/
def execImportStatus (s : State) : Host.Outcome State Fault Refusal :=
  run s.clk.now s (fun s => importStatus s)

/-- IMPORT_WRITE_DONE (R612): The imported slot write completes, the retained state is replaced and the device resets. -/
def execImportWriteDone (t : Nat) (ok : Bool) (s : State) : Host.Outcome State Fault Refusal :=
  act t s (fun s => Sys2Proof.Machine.importWriteDone s ok)

/-- SYNC_CHECK_EVAL (R90): Every 10 us, the synchronizing check computes phase, slip and voltage difference. -/
def execSyncCheckEval (t : Nat) (s : State) : Host.Outcome State Fault Refusal :=
  act t s (fun s => syncCheckEval s)

/-- SYNC_CHECK_ARM (R91): Writing ATU_SYNC_CTL.ARM arms the synchronizing check. -/
def execSyncCheckArm (t : Nat) (s : State) : Host.Outcome State Fault Refusal :=
  act t s (fun s => putField s 0xC500 0 0 1)

/-- SYNC_CHECK_CANCEL (R91): Writing ATU_SYNC_CTL.CANCEL disarms the check. -/
def execSyncCheckCancel (t : Nat) (s : State) : Host.Outcome State Fault Refusal :=
  act t s (fun s => putField s 0xC500 1 1 1)

/-- SYNC_CHECK_TIMEOUT (R93): An armed check that has not fired within ARM_TO disarms and sets TIMED_OUT. -/
def execSyncCheckTimeout (t : Nat) (s : State) : Host.Outcome State Fault Refusal :=
  act t s (fun s => syncTimeout s)

/-- AON_RC_FALLBACK (R592): The AON oscillator switches to its RC fallback when the 32.768 kHz crystal stops for 4 periods, which sets PWR_STATUS.AON_RC and widens the bridge bound. -/
def execAonRcFallback (s : State) : Host.Outcome State Fault Refusal :=
  run s.clk.now s (fun s => aonFallback s)

/-- COMPLETION_TIMEOUT (R324): A descriptor, indirect buffer, LINK or data read to host memory receives no completion within its timeout and is treated as a failed fetch. -/
def execCompletionTimeout (t : Nat) (what : ReadTag) (s : State) : Host.Outcome State Fault Refusal :=
  act t s (fun s => lostCompletion s what)

/-- MSIX_FUNCTION_MASK_WRITE (R388): A configuration-space write changes the MSI-X Enable or Function Mask bit, which holds pending messages or releases them. -/
def execMsixFunctionMaskWrite (t : Nat) (en mask : Bool) (s : State) : Host.Outcome State Fault Refusal :=
  act t s (fun s => msixMaskWrite s en mask)

/-- JTAG_TCK_EDGE (R596): A TCK edge advances the IEEE 1149.1 TAP, and EXTEST or CLAMP can drive LSG and digital pins from the boundary-scan cells. -/
def execJtagTckEdge (t : Nat) (rising tms tdi : Bool) (s : State) : Host.Outcome State Fault Refusal :=
  run t s (fun s => tckEdge s rising tms tdi)

end Sys2Proof.Machine
end

