-- ==== Sys2Proof/Machine/ExecWarden.lean ====
section
/-!
DEFINITION. The meanings of the commands of faults, the Warden, plan, Round and firmware, one per row of the command table, over the shared
operations of the blocks.
-/
namespace Sys2Proof.Machine

/-- HS_SHORT (R437): Window ABOVE held HS_T with both high-side switches off is a bank fault. -/
def execHsShort (t : Nat) (c : Fin 64) (s : State) : Host.Outcome State Fault Refusal :=
  act t s (fun s => hsShort s c.val)

/-- BOOST_COLLAPSE (R437): The boost window reads BELOW for COLLAPSE_T, which is a bank fault. -/
def execBoostCollapse (t : Nat) (b : Fin 16) (s : State) : Host.Outcome State Fault Refusal :=
  act t s (fun s => boostCollapse s b.val)

/-- LOCKSTEP_MISMATCH (R445): The halves of a scheduling unit disagree, and the unit is fenced. -/
def execLockstepMismatch (t : Nat) (u : Fin 5) (s : State) : Host.Outcome State Fault Refusal :=
  act t s (wardenAct false (fun s => fence s u.val 0x10))

/-- HEARTBEAT (R445): A unit's heartbeat reaches the Warden. -/
def execHeartbeat (t : Nat) (u : Fin 5) (s : State) : Host.Outcome State Fault Refusal :=
  act t s (wardenAct false (fun s => heartbeat s u.val))

/-- HEARTBEAT_TIMEOUT (R445): HB_MISS heartbeat periods pass without a heartbeat, and the unit is fenced. -/
def execHeartbeatTimeout (t : Nat) (u : Fin 5) (s : State) : Host.Outcome State Fault Refusal :=
  act t s (wardenAct false (fun s => heartbeatTimeout s u.val))

/-- REFLECTION_ITEM (R448): A unit writes an agreed reflected item to the spare. -/
def execReflectionItem (t : Nat) (u : Fin 5) (s : State) : Host.Outcome State Fault Refusal :=
  act t s (wardenAct false (fun s => unitSpeaks s u.val))

/-- REFLECTION_CHECKPOINT (R448): On its grid, a unit reflects a checkpoint of the last update in each domain. -/
def execReflectionCheckpoint (t : Nat) (u : Fin 5) (s : State) : Host.Outcome State Fault Refusal :=
  act t s (fun s => reflectionCheckpoint s u.val)

/-- REFLECTION_COPY_DONE (R450): The spare completes a full copy of a role, which becomes COVERED. -/
def execReflectionCopyDone (t : Nat) (n : Fin 4) (s : State) : Host.Outcome State Fault Refusal :=
  act t s (wardenAct false (fun s => reflectionCopyDone s n.val))

/-- TAKEOVER_BEGIN (R453): The Warden begins a takeover and sets TAKEOVER. -/
def execTakeoverBegin (t : Nat) (s : State) : Host.Outcome State Fault Refusal :=
  act t s (wardenAct false (fun s => takeoverBegin s))

/-- SPARE_POWERED (R453): In WARM, the spare scheduler becomes powered and clocked. -/
def execSparePowered (s : State) : Host.Outcome State Fault Refusal :=
  act s.clk.now s (fun s => sparePowered s)

/-- REFLECTION_VERIFIED (R453): The role's reflection is verified against its check words. -/
def execReflectionVerified (s : State) : Host.Outcome State Fault Refusal :=
  act s.clk.now s (fun s => reflectionVerified s)

/-- SLOTS_LOADED (R453): Slot states, shadow sets and running events are loaded into the spare's table. -/
def execSlotsLoaded (s : State) : Host.Outcome State Fault Refusal :=
  act s.clk.now s (fun s => slotsLoaded s)

/-- RECONCILIATION (R454): The spare adopts or closes each reflected running event against the cells. -/
def execReconciliation (s : State) : Host.Outcome State Fault Refusal :=
  act s.clk.now s (fun s => reconcile s)

/-- FIRST_EVALUATION (R455): The spare applies missed sync changes, evaluates the resume update, takes the banks and releases held commands. -/
def execFirstEvaluation (t : Nat) (s : State) : Host.Outcome State Fault Refusal :=
  act t s (wardenAct false (fun s => firstEvaluation s))

/-- SCRUB_TICK (R471): Every SCRUB_DIV FCLK cycles, the scrubber reads one word. -/
def execScrubTick (t : Nat) (store inst addr : Nat) (err : BitVec 144) (s : State) : Host.Outcome State Fault Refusal :=
  act t s (wardenAct false (fun s => scrubTick s store inst addr err))

/-- REGION_TAKEOVER (R445): The REGION_TAKEOVER command fences a role's unit. -/
def execRegionTakeover (t : Nat) (r : Fin 64) (s : State) : Host.Outcome State Fault Refusal :=
  act t s (fun s => ringCmd 0x40 r.val doRegionTakeover s)

/-- REGION_TEST (R460): The REGION_TEST command starts the test of a FAILED or RETIRED unit. -/
def execRegionTest (t : Nat) (r : Fin 64) (s : State) : Host.Outcome State Fault Refusal :=
  act t s (fun s => ringCmd 0x41 r.val doRegionTest s)

/-- TEST_STEP_DONE (R493): A test step of a unit ends and is passed or failed. -/
def execTestStepDone (t : Nat) (u : Fin 5) (pass : Bool) (s : State) : Host.Outcome State Fault Refusal :=
  act t s (wardenAct (s.round.phase != 0 && s.round.unit == u.val) (fun s => testStepDone s u.val pass))

/-- FAULT_LOG_CLEAR (R603): The FAULT_LOG_CLEAR command clears the fault log. -/
def execFaultLogClear (t : Nat) (r : Fin 64) (s : State) : Host.Outcome State Fault Refusal :=
  act t s (fun s => ringCmd 0x42 r.val doFaultLogClear s)

/-- CHIP_RESET (R466): The CHIP_RESET command with the correct KEY resets the whole device. -/
def execChipReset (t : Nat) (r : Fin 64) (s : State) : Host.Outcome State Fault Refusal :=
  act t s (fun s => chipResetCmd r.val s)

/-- PLAN_EVALUATION (R479): Every PLAN_PERIOD, the Warden evaluates and publishes the margin plan. -/
def execPlanEvaluation (t : Nat) (s : State) : Host.Outcome State Fault Refusal :=
  act t s (fun s => planEvaluation s)

/-- PLAN_EVAL (R479): The PLAN_EVAL command evaluates the margin plan at once. -/
def execPlanEval (t : Nat) (r : Fin 64) (s : State) : Host.Outcome State Fault Refusal :=
  act t s (fun s => ringCmd 0x4A r.val doPlanEval s)

/-- FCLK_SLEW_DONE (R483): The PLL slew to a new FCLK step completes, with capacity published accordingly. -/
def execFclkSlewDone (s : State) : Host.Outcome State Fault Refusal :=
  act s.clk.now s (fun s => fclkSlewDone s)

/-- MONITOR_SAMPLE (R475): The path-margin monitors take their periodic reading. -/
def execMonitorSample (t : Nat) (u : Fin 5) (readings : List Nat) (s : State) : Host.Outcome State Fault Refusal :=
  act t s (fun s => monitorSample s u.val readings)

/-- ROUND_DUE (R488): ROUND_PERIOD passes and a Round falls due. -/
def execRoundDue (t : Nat) (s : State) : Host.Outcome State Fault Refusal :=
  act t s (wardenAct true (fun s => roundDue s))

/-- ROUND_START (R488): The ROUND_START command makes a Round due. -/
def execRoundStart (t : Nat) (r : Fin 64) (s : State) : Host.Outcome State Fault Refusal :=
  act t s (fun s => ringCmd 0x48 r.val doRoundStart s)

/-- ROUND_ABORT (R499): The ROUND_ABORT command ends the Round. -/
def execRoundAbort (t : Nat) (r : Fin 64) (s : State) : Host.Outcome State Fault Refusal :=
  act t s (fun s => ringCmd 0x49 r.val doRoundAbort s)

/-- ROUND_POSTPONED (R489): The lend conditions have not held for 60 s, and the Round ends POSTPONED. -/
def execRoundPostponed (t : Nat) (s : State) : Host.Outcome State Fault Refusal :=
  act t s (wardenAct true (fun s => roundPostponed s))

/-- SPARE_LOAD_DONE (R490): Under WARM, the spare finishes loading role n before its quiet point search. -/
def execSpareLoadDone (s : State) : Host.Outcome State Fault Refusal :=
  act s.clk.now s (wardenAct true (fun s => spareLoadDone s))

/-- ROUND_LEND (R492): At a quiet point, a role is lent to the spare and its unit enters test. -/
def execRoundLend (t : Nat) (s : State) : Host.Outcome State Fault Refusal :=
  act t s (wardenAct true (fun s => roundLend s))

/-- QUIET_WAIT_EXPIRY (R491): No quiet point within QUIET_WAIT, and the lend or hand-back takes place at once. -/
def execQuietWaitExpiry (t : Nat) (s : State) : Host.Outcome State Fault Refusal :=
  act t s (wardenAct (s.round.phase != 0) (fun s => quietWaitExpiry s))

/-- ROUND_HAND_BACK (R495): At a quiet point after step 6, the role returns to its tested unit. -/
def execRoundHandBack (t : Nat) (s : State) : Host.Outcome State Fault Refusal :=
  act t s (wardenAct (s.round.phase != 0) (fun s => roundHandBack s))

/-- FW_WRITE (R500): The FW_WRITE command programs bytes into the inactive slot. -/
def execFwWrite (t : Nat) (r : Fin 64) (s : State) : Host.Outcome State Fault Refusal :=
  act t s (fun s => ringCmd 0x44 r.val doFwWrite s)

/-- FW_PROGRAM_DONE (R500): Programming of an FW_WRITE completes. -/
def execFwProgramDone (s : State) : Host.Outcome State Fault Refusal :=
  act s.clk.now s (fun s => fwProgramDone s)

/-- FW_VERIFY (R500): The FW_VERIFY command starts verification of the inactive slot. -/
def execFwVerify (t : Nat) (r : Fin 64) (s : State) : Host.Outcome State Fault Refusal :=
  act t s (fun s => ringCmd 0x45 r.val doFwVerify s)

/-- FW_VERIFY_DONE (R500): Verification completes and sets VERIFIED or FAIL_CODE. -/
def execFwVerifyDone (s : State) : Host.Outcome State Fault Refusal :=
  act s.clk.now s (fun s => fwVerifyDone s)

/-- FW_ACTIVATE (R501): The FW_ACTIVATE command sets PENDING for a verified slot. -/
def execFwActivate (t : Nat) (r : Fin 64) (s : State) : Host.Outcome State Fault Refusal :=
  act t s (fun s => ringCmd 0x46 r.val doFwActivate s)

/-- FW_CANCEL (R501): The FW_CANCEL command cancels a pending activation. -/
def execFwCancel (t : Nat) (r : Fin 64) (s : State) : Host.Outcome State Fault Refusal :=
  act t s (fun s => ringCmd 0x47 r.val doFwCancel s)

/-- FW_ACTIVATION (R501): At a quiet point, the Warden cores restart from the other slot. -/
def execFwActivation (s : State) : Host.Outcome State Fault Refusal :=
  act s.clk.now s (fun s => fwActivation s)

/-- FW_RUNNING (R503): A new image reports itself running and becomes the active slot. -/
def execFwRunning (s : State) : Host.Outcome State Fault Refusal :=
  act s.clk.now s (fun s => fwRunning s)

/-- FW_REVERT (R503): A new image silent for 100 ms is abandoned, and the previous slot is restarted. -/
def execFwRevert (t : Nat) (s : State) : Host.Outcome State Fault Refusal :=
  act t s (fun s => fwRevert s)

end Sys2Proof.Machine
end

