-- ==== Sys2Proof/Machine/Dispatch.lean ====
section
/-!
DEFINITION. The dispatch: one arm per command, each a direct call of its meaning.
-/
namespace Sys2Proof.Machine

/-- The effect of a command on everything but the queue of waiting commands. -/
def exec (i : Instr) (s : State) : Host.Outcome State Fault Refusal :=
  match i with
  | .registerWrite t addr size val => Sys2Proof.Machine.execRegisterWrite t addr size val s
  | .lowHalfRead t addr => Sys2Proof.Machine.execLowHalfRead t addr s
  | .dtimeLowRead t => Sys2Proof.Machine.execDtimeLowRead t s
  | .sealWrite t v => Sys2Proof.Machine.execSealWrite t v s
  | .behLevelWrite t v => Sys2Proof.Machine.execBehLevelWrite t v s
  | .bar2Write t addr size val => Sys2Proof.Machine.execBar2Write t addr size val s
  | .poisonedRead t bar addr => Sys2Proof.Machine.execPoisonedRead t bar addr s
  | .fabricGrant t arrivals => Sys2Proof.Machine.execFabricGrant t arrivals s
  | .class2Promotion t k => Sys2Proof.Machine.execClass2Promotion t k s
  | .pllSwitch t r => Sys2Proof.Machine.execPllSwitch t r s
  | .pllReq t => Sys2Proof.Machine.execPllReq t s
  | .clockSwitch t => Sys2Proof.Machine.execClockSwitch t s
  | .pllSwitchTimeout t => Sys2Proof.Machine.execPllSwitchTimeout t s
  | .pllLockLoss t => Sys2Proof.Machine.execPllLockLoss t s
  | .crankEdge t d e dir => Sys2Proof.Machine.execCrankEdge t d e dir s
  | .vrArm t d cam mv => Sys2Proof.Machine.execVrArm t d cam mv s
  | .crankTrailingEdge t d ts => Sys2Proof.Machine.execCrankTrailingEdge t d ts s
  | .widthLimitExpiry t d => Sys2Proof.Machine.execWidthLimitExpiry t d s
  | .camEdge t d ts lv => Sys2Proof.Machine.execCamEdge t d ts lv s
  | .edgeTimeout t d => Sys2Proof.Machine.execEdgeTimeout t d s
  | .stallTimeout t d => Sys2Proof.Machine.execStallTimeout t d s
  | .resync t d => Sys2Proof.Machine.execResync t d s
  | .domainEnable t d => Sys2Proof.Machine.execDomainEnable t d s
  | .domainDisable t d => Sys2Proof.Machine.execDomainDisable t d s
  | .toothTableBar2Write t addr size val => Sys2Proof.Machine.execToothTableBar2Write t addr size val s
  | .learnStart t d => Sys2Proof.Machine.execLearnStart t d s
  | .learnAbort t d => Sys2Proof.Machine.execLearnAbort t d s
  | .contributionUpdate t d => Sys2Proof.Machine.execContributionUpdate t d s
  | .zeroCrossing t d => Sys2Proof.Machine.execZeroCrossing t d s
  | .electricalStallTimeout t d => Sys2Proof.Machine.execElectricalStallTimeout t d s
  | .electricalNoneTimeout t d => Sys2Proof.Machine.execElectricalNoneTimeout t d s
  | .angleUpdate t d => Sys2Proof.Machine.execAngleUpdate t d s
  | .startUnitFree t u => Sys2Proof.Machine.execStartUnitFree t u s
  | .eventTableBar2Write t addr size val => Sys2Proof.Machine.execEventTableBar2Write t addr size val s
  | .slotWrite t r => Sys2Proof.Machine.execSlotWrite t r s
  | .shadowDrop t r => Sys2Proof.Machine.execShadowDrop t r s
  | .slotCancel t r => Sys2Proof.Machine.execSlotCancel t r s
  | .domainCancel t r => Sys2Proof.Machine.execDomainCancel t r s
  | .slotQuery t r => Sys2Proof.Machine.execSlotQuery t r s
  | .startAdmit t c => Sys2Proof.Machine.execStartAdmit t c s
  | .overlapTimeout t c => Sys2Proof.Machine.execOverlapTimeout t c s
  | .reboostWaitExpiry t c => Sys2Proof.Machine.execReboostWaitExpiry t c s
  | .windowCrossing t w lo hi => Sys2Proof.Machine.execWindowCrossing t w lo hi s
  | .phaseTimerExpiry t c => Sys2Proof.Machine.execPhaseTimerExpiry t c s
  | .timeCapExpiry t c => Sys2Proof.Machine.execTimeCapExpiry t c s
  | .mixFastExpiry t c => Sys2Proof.Machine.execMixFastExpiry t c s
  | .ditherHalfPeriod t c => Sys2Proof.Machine.execDitherHalfPeriod t c s
  | .holdExpiry t c => Sys2Proof.Machine.execHoldExpiry t c s
  | .kinkResult t b => Sys2Proof.Machine.execKinkResult t b s
  | .leakTimeout t c => Sys2Proof.Machine.execLeakTimeout t c s
  | .blankingEnd t w => Sys2Proof.Machine.execBlankingEnd t w s
  | .initialDecision t w lo hi => Sys2Proof.Machine.execInitialDecision t w lo hi s
  | .windowEnable t w => Sys2Proof.Machine.execWindowEnable t w s
  | .windowDisable t w => Sys2Proof.Machine.execWindowDisable t w s
  | .channelEnable t c => Sys2Proof.Machine.execChannelEnable t c s
  | .channelEnClear t c => Sys2Proof.Machine.execChannelEnClear t c s
  | .disable t c => Sys2Proof.Machine.execDisable t c s
  | .reenable t c => Sys2Proof.Machine.execReenable t c s
  | .resume t b => Sys2Proof.Machine.execResume t b s
  | .profileBar2Write t addr size val => Sys2Proof.Machine.execProfileBar2Write t addr size val s
  | .profileWrite t r => Sys2Proof.Machine.execProfileWrite t r s
  | .modelBar2Write t addr size val => Sys2Proof.Machine.execModelBar2Write t addr size val s
  | .modelWrite t r => Sys2Proof.Machine.execModelWrite t r s
  | .modelReset t r => Sys2Proof.Machine.execModelReset t r s
  | .pressureSet t r => Sys2Proof.Machine.execPressureSet t r s
  | .balanceBar2Write t addr size val => Sys2Proof.Machine.execBalanceBar2Write t addr size val s
  | .converterTimerExpiry t k j => Sys2Proof.Machine.execConverterTimerExpiry t k j s
  | .stepReady t k step => Sys2Proof.Machine.execStepReady t k step s
  | .conversionStart t k => Sys2Proof.Machine.execConversionStart t k s
  | .conversionEnd t k code ovrHi ovrLo => Sys2Proof.Machine.execConversionEnd t k code ovrHi ovrLo s
  | .maxwaitExpiry t k step => Sys2Proof.Machine.execMaxwaitExpiry t k step s
  | .referenceCheck t => Sys2Proof.Machine.execReferenceCheck t s
  | .referenceSwitch t k => Sys2Proof.Machine.execReferenceSwitch t k s
  | .calibrationDue t k => Sys2Proof.Machine.execCalibrationDue t k s
  | .calSpanExpiry t k => Sys2Proof.Machine.execCalSpanExpiry t k s
  | .calibrationApply t k => Sys2Proof.Machine.execCalibrationApply t k s
  | .adcStepWrite t r => Sys2Proof.Machine.execAdcStepWrite t r s
  | .pcieFundamentalReset t => Sys2Proof.Machine.execPcieFundamentalReset t s
  | .suspension t pci dstate lstate => Sys2Proof.Machine.execSuspension t pci dstate lstate s
  | .runStart t => Sys2Proof.Machine.execRunStart t s
  | .doorbellPoll t => Sys2Proof.Machine.execDoorbellPoll t s
  | .pollDataReturn t ok gen prods => Sys2Proof.Machine.execPollDataReturn t ok gen prods s
  | .descriptorFetchDone t r desc buf => Sys2Proof.Machine.execDescriptorFetchDone t r desc buf s
  | .nop t r => Sys2Proof.Machine.execNop t r s
  | .arm t r => Sys2Proof.Machine.execArm t r s
  | .modeSet t r => Sys2Proof.Machine.execModeSet t r s
  | .cfgWrite t r => Sys2Proof.Machine.execCfgWrite t r s
  | .tableWrite t r => Sys2Proof.Machine.execTableWrite t r s
  | .msixTableWrite t addr size val => Sys2Proof.Machine.execMsixTableWrite t addr size val s
  | .telemetryPeriod t p => Sys2Proof.Machine.execTelemetryPeriod t p s
  | .freshnessExpiry t p => Sys2Proof.Machine.execFreshnessExpiry t p s
  | .queueCloseTimeout t q => Sys2Proof.Machine.execQueueCloseTimeout t q s
  | .queueWordHead t q => Sys2Proof.Machine.execQueueWordHead t q s
  | .capturePairTimeout t r => Sys2Proof.Machine.execCapturePairTimeout t r s
  | .queFlush t r => Sys2Proof.Machine.execQueFlush t r s
  | .queAck t r => Sys2Proof.Machine.execQueAck t r s
  | .queClose t r => Sys2Proof.Machine.execQueClose t r s
  | .queueDisable t q => Sys2Proof.Machine.execQueueDisable t q s
  | .levelEvtClear t q => Sys2Proof.Machine.execLevelEvtClear t q s
  | .xfrStart t r => Sys2Proof.Machine.execXfrStart t r s
  | .xfrStop t r => Sys2Proof.Machine.execXfrStop t r s
  | .xfrCtlStart t n => Sys2Proof.Machine.execXfrCtlStart t n s
  | .xfrCtlStop t n => Sys2Proof.Machine.execXfrCtlStop t n s
  | .xfrDescriptorFetched t n desc => Sys2Proof.Machine.execXfrDescriptorFetched t n desc s
  | .xfrTimerExpiry t k => Sys2Proof.Machine.execXfrTimerExpiry t k s
  | .xfrReadData t n data => Sys2Proof.Machine.execXfrReadData t n data s
  | .xfrBlockEnd t n => Sys2Proof.Machine.execXfrBlockEnd t n s
  | .xfrLinkRead t n link => Sys2Proof.Machine.execXfrLinkRead t n link s
  | .traceMark t r => Sys2Proof.Machine.execTraceMark t r s
  | .traceRewind t r => Sys2Proof.Machine.execTraceRewind t r s
  | .traceAdvance t r => Sys2Proof.Machine.execTraceAdvance t r s
  | .holdoffExpiry t k => Sys2Proof.Machine.execHoldoffExpiry t k s
  | .msixMessage t k => Sys2Proof.Machine.execMsixMessage t k s
  | .irqClaim t k byWarden => Sys2Proof.Machine.execIrqClaim t k byWarden s
  | .irqComplete t k byWarden v => Sys2Proof.Machine.execIrqComplete t k byWarden v s
  | .pendSetWrite t w v => Sys2Proof.Machine.execPendSetWrite t w v s
  | .pendClrWrite t w v => Sys2Proof.Machine.execPendClrWrite t w v s
  | .enSetWrite t k w v => Sys2Proof.Machine.execEnSetWrite t k w v s
  | .enClrWrite t k w v => Sys2Proof.Machine.execEnClrWrite t k w v s
  | .idleSetWrite t byWarden v => Sys2Proof.Machine.execIdleSetWrite t byWarden v s
  | .idleClrWrite t byWarden v => Sys2Proof.Machine.execIdleClrWrite t byWarden v s
  | .goto t e => Sys2Proof.Machine.execGoto t e s
  | .await t e => Sys2Proof.Machine.execAwait t e s
  | .bitin t e => Sys2Proof.Machine.execBitin t e s
  | .bitout t e => Sys2Proof.Machine.execBitout t e s
  | .group t e => Sys2Proof.Machine.execGroup t e s
  | .fill t e => Sys2Proof.Machine.execFill t e s
  | .drain t e => Sys2Proof.Machine.execDrain t e s
  | .drive t e => Sys2Proof.Machine.execDrive t e s
  | .load t e => Sys2Proof.Machine.execLoad t e s
  | .move t e => Sys2Proof.Machine.execMove t e s
  | .flag t e => Sys2Proof.Machine.execFlag t e s
  | .adjust t e => Sys2Proof.Machine.execAdjust t e s
  | .reelDelayCycle t e => Sys2Proof.Machine.execReelDelayCycle t e s
  | .reelEnable t e => Sys2Proof.Machine.execReelEnable t e s
  | .reelDisable t e => Sys2Proof.Machine.execReelDisable t e s
  | .reelRestart t e => Sys2Proof.Machine.execReelRestart t e s
  | .reelFlushIn t e => Sys2Proof.Machine.execReelFlushIn t e s
  | .reelFlushOut t e => Sys2Proof.Machine.execReelFlushOut t e s
  | .reelTxWrite t e v => Sys2Proof.Machine.execReelTxWrite t e v s
  | .reelRxRead t e => Sys2Proof.Machine.execReelRxRead t e s
  | .reelInjectWrite t e v => Sys2Proof.Machine.execReelInjectWrite t e v s
  | .reelWrapWrite t e v => Sys2Proof.Machine.execReelWrapWrite t e v s
  | .reelFlagsSetWrite t v => Sys2Proof.Machine.execReelFlagsSetWrite t v s
  | .reelFlagsClrWrite t v => Sys2Proof.Machine.execReelFlagsClrWrite t v s
  | .reelImemBar2Write t addr size val => Sys2Proof.Machine.execReelImemBar2Write t addr size val s
  | .reelImemWrite t r => Sys2Proof.Machine.execReelImemWrite t r s
  | .reelWrap t r => Sys2Proof.Machine.execReelWrap t r s
  | .reelControl t r => Sys2Proof.Machine.execReelControl t r s
  | .reelInject t r => Sys2Proof.Machine.execReelInject t r s
  | .reelWrite t r => Sys2Proof.Machine.execReelWrite t r s
  | .reelFlag t r => Sys2Proof.Machine.execReelFlag t r s
  | .reelInTransfer t e => Sys2Proof.Machine.execReelInTransfer t e s
  | .rpPinChange t p e => Sys2Proof.Machine.execRpPinChange t p e s
  | .hsShort t c => Sys2Proof.Machine.execHsShort t c s
  | .boostCollapse t b => Sys2Proof.Machine.execBoostCollapse t b s
  | .lockstepMismatch t u => Sys2Proof.Machine.execLockstepMismatch t u s
  | .heartbeat t u => Sys2Proof.Machine.execHeartbeat t u s
  | .heartbeatTimeout t u => Sys2Proof.Machine.execHeartbeatTimeout t u s
  | .reflectionItem t u => Sys2Proof.Machine.execReflectionItem t u s
  | .reflectionCheckpoint t u => Sys2Proof.Machine.execReflectionCheckpoint t u s
  | .reflectionCopyDone t n => Sys2Proof.Machine.execReflectionCopyDone t n s
  | .takeoverBegin t => Sys2Proof.Machine.execTakeoverBegin t s
  | .firstEvaluation t => Sys2Proof.Machine.execFirstEvaluation t s
  | .scrubTick t store inst addr err => Sys2Proof.Machine.execScrubTick t store inst addr err s
  | .regionTakeover t r => Sys2Proof.Machine.execRegionTakeover t r s
  | .regionTest t r => Sys2Proof.Machine.execRegionTest t r s
  | .testStepDone t u pass => Sys2Proof.Machine.execTestStepDone t u pass s
  | .faultLogClear t r => Sys2Proof.Machine.execFaultLogClear t r s
  | .chipReset t r => Sys2Proof.Machine.execChipReset t r s
  | .planEvaluation t => Sys2Proof.Machine.execPlanEvaluation t s
  | .planEval t r => Sys2Proof.Machine.execPlanEval t r s
  | .monitorSample t u readings => Sys2Proof.Machine.execMonitorSample t u readings s
  | .roundDue t => Sys2Proof.Machine.execRoundDue t s
  | .roundStart t r => Sys2Proof.Machine.execRoundStart t r s
  | .roundAbort t r => Sys2Proof.Machine.execRoundAbort t r s
  | .roundPostponed t => Sys2Proof.Machine.execRoundPostponed t s
  | .roundLend t => Sys2Proof.Machine.execRoundLend t s
  | .quietWaitExpiry t => Sys2Proof.Machine.execQuietWaitExpiry t s
  | .roundHandBack t => Sys2Proof.Machine.execRoundHandBack t s
  | .fwWrite t r => Sys2Proof.Machine.execFwWrite t r s
  | .fwVerify t r => Sys2Proof.Machine.execFwVerify t r s
  | .fwActivate t r => Sys2Proof.Machine.execFwActivate t r s
  | .fwCancel t r => Sys2Proof.Machine.execFwCancel t r s
  | .fwRevert t => Sys2Proof.Machine.execFwRevert t s
  | .portUp t p => Sys2Proof.Machine.execPortUp t p s
  | .portDown t p why => Sys2Proof.Machine.execPortDown t p why s
  | .portSleeping t p => Sys2Proof.Machine.execPortSleeping t p s
  | .portUnwrap t p => Sys2Proof.Machine.execPortUnwrap t p s
  | .frameForward t p f => Sys2Proof.Machine.execFrameForward t p f s
  | .beacon t p f ts => Sys2Proof.Machine.execBeacon t p f ts s
  | .pdelayReq t p f ts => Sys2Proof.Machine.execPdelayReq t p f ts s
  | .pdelayResp t p f ts => Sys2Proof.Machine.execPdelayResp t p f ts s
  | .announce t p f ts => Sys2Proof.Machine.execAnnounce t p f ts s
  | .sync t p f ts => Sys2Proof.Machine.execSync t p f ts s
  | .snap t p f ts => Sys2Proof.Machine.execSnap t p f ts s
  | .mains t p f ts => Sys2Proof.Machine.execMains t p f ts s
  | .epochNotice t p f ts => Sys2Proof.Machine.execEpochNotice t p f ts s
  | .supervisory t p f ts => Sys2Proof.Machine.execSupervisory t p f ts s
  | .topo t p f ts => Sys2Proof.Machine.execTopo t p f ts s
  | .wakeReq t p f ts => Sys2Proof.Machine.execWakeReq t p f ts s
  | .announcePeriod t => Sys2Proof.Machine.execAnnouncePeriod t s
  | .pdelayPeriod t p => Sys2Proof.Machine.execPdelayPeriod t p s
  | .syncPeriod t => Sys2Proof.Machine.execSyncPeriod t s
  | .mainsPeriod t => Sys2Proof.Machine.execMainsPeriod t s
  | .snapPeriod t k => Sys2Proof.Machine.execSnapPeriod t k s
  | .masterSilenceTimeout t role => Sys2Proof.Machine.execMasterSilenceTimeout t role s
  | .backupTakeover t role => Sys2Proof.Machine.execBackupTakeover t role s
  | .backupSilence t role => Sys2Proof.Machine.execBackupSilence t role s
  | .timeQualityLoss t => Sys2Proof.Machine.execTimeQualityLoss t s
  | .mainsTimeout t => Sys2Proof.Machine.execMainsTimeout t s
  | .sourceForget t src => Sys2Proof.Machine.execSourceForget t src s
  | .vlkEnable t v => Sys2Proof.Machine.execVlkEnable t v s
  | .linkSend t r => Sys2Proof.Machine.execLinkSend t r s
  | .linkResign t r => Sys2Proof.Machine.execLinkResign t r s
  | .linkWake t r => Sys2Proof.Machine.execLinkWake t r s
  | .duskEnter t r => Sys2Proof.Machine.execDuskEnter t r s
  | .duskReq t => Sys2Proof.Machine.execDuskReq t s
  | .duskCommit t => Sys2Proof.Machine.execDuskCommit t s
  | .duskToothEdge t d e => Sys2Proof.Machine.execDuskToothEdge t d e s
  | .wakeLatchEdge t l => Sys2Proof.Machine.execWakeLatchEdge t l s
  | .aonTimerExpiry t => Sys2Proof.Machine.execAonTimerExpiry t s
  | .wake t l aonCount eccErr => Sys2Proof.Machine.execWake t l aonCount eccErr s
  | .journalCommit t r => Sys2Proof.Machine.execJournalCommit t r s
  | .commit t => Sys2Proof.Machine.execCommit t s
  | .pwrSet t r => Sys2Proof.Machine.execPwrSet t r s
  | .powerOnReset t => Sys2Proof.Machine.execPowerOnReset t s
  | .supplyMonitorReset t => Sys2Proof.Machine.execSupplyMonitorReset t s
  | .pinReset t width => Sys2Proof.Machine.execPinReset t width s
  | .resetRelease t => Sys2Proof.Machine.execResetRelease t s
  | .readBar0 t off n => Sys2Proof.Machine.execReadBar0 t off n s
  | .readBar2 t off n => Sys2Proof.Machine.execReadBar2 t off n s
  | .exportRead t n => Sys2Proof.Machine.execExportRead t n s
  | .exportTimeout t => Sys2Proof.Machine.execExportTimeout t s
  | .importOpen t key => Sys2Proof.Machine.execImportOpen t key s
  | .importData t bytes => Sys2Proof.Machine.execImportData t bytes s
  | .importWriteDone t ok => Sys2Proof.Machine.execImportWriteDone t ok s
  | .syncCheckEval t => Sys2Proof.Machine.execSyncCheckEval t s
  | .syncCheckArm t => Sys2Proof.Machine.execSyncCheckArm t s
  | .syncCheckCancel t => Sys2Proof.Machine.execSyncCheckCancel t s
  | .syncCheckTimeout t => Sys2Proof.Machine.execSyncCheckTimeout t s
  | .completionTimeout t what => Sys2Proof.Machine.execCompletionTimeout t what s
  | .msixFunctionMaskWrite t en mask => Sys2Proof.Machine.execMsixFunctionMaskWrite t en mask s
  | .jtagTckEdge t rising tms tdi => Sys2Proof.Machine.execJtagTckEdge t rising tms tdi s
  | .exportOpen => Sys2Proof.Machine.execExportOpen s
  | .exportStatus => Sys2Proof.Machine.execExportStatus s
  | .importFinish => Sys2Proof.Machine.execImportFinish s
  | .importStatus => Sys2Proof.Machine.execImportStatus s
  | .ident => Sys2Proof.Machine.execIdent s
  | .fwProgramDone => Sys2Proof.Machine.execFwProgramDone s
  | .fwVerifyDone => Sys2Proof.Machine.execFwVerifyDone s
  | .fwActivation => Sys2Proof.Machine.execFwActivation s
  | .fwRunning => Sys2Proof.Machine.execFwRunning s
  | .journalWriteDone => Sys2Proof.Machine.execJournalWriteDone s
  | .digestDone => Sys2Proof.Machine.execDigestDone s
  | .restoreDone => Sys2Proof.Machine.execRestoreDone s
  | .sparePowered => Sys2Proof.Machine.execSparePowered s
  | .reflectionVerified => Sys2Proof.Machine.execReflectionVerified s
  | .slotsLoaded => Sys2Proof.Machine.execSlotsLoaded s
  | .reconciliation => Sys2Proof.Machine.execReconciliation s
  | .duskVote => Sys2Proof.Machine.execDuskVote s
  | .pmeTurnOff => Sys2Proof.Machine.execPmeTurnOff s
  | .aonRcFallback => Sys2Proof.Machine.execAonRcFallback s
  | .wardenLockstep => Sys2Proof.Machine.execWardenLockstep s
  | .pllLock => Sys2Proof.Machine.execPllLock s
  | .hostPathReset => Sys2Proof.Machine.execHostPathReset s
  | .fclkSlewDone => Sys2Proof.Machine.execFclkSlewDone s
  | .spareLoadDone => Sys2Proof.Machine.execSpareLoadDone s

end Sys2Proof.Machine
end

