-- ==== Sys2Proof/Machine/Step.lean ====
section
/-!
DEFINITION. One step of the block: the command at the front of the queue, or one idle ECLK tick.
-/
namespace Sys2Proof.Machine

/-- The block with one more ECLK tick of model time passed (log entry 1). -/
def State.idleTick (s : State) : State := s.tick (s.clk.now + 1)

/-- Take the command at the front of the queue and run it with the queue's rest; with no command waiting the block
idles for one tick of ECLK. -/
def step (s : State) : Host.Outcome State Fault Refusal :=
  match s.pending with
  | [] => .next s.idleTick
  | c :: rest => exec c { s with pending := rest }

/-- The state with the command that a word of the command table spells put at the front of the queue; the table gives no
row bits, so no word spells one. -/
def State.withFetchWord (s : State) (nbits w : Nat) : State :=
  match Sys2Proof.decodeTableWord nbits w with
  | some c => { s with pending := c :: s.pending }
  | none => s

end Sys2Proof.Machine
end

