-- ==== Sys2Proof/Laws/Cells.lean ====
section
/-!
SUPPORT. The laws of the sparse tables: what a read answers after a write, and that every table operation keeps the
canonical form (keys strictly rising, no entry equal to the default).
-/
namespace Sys2Proof.Machine

variable {α : Type}

@[simp] theorem cget_nil (d : Nat → α) (k : Nat) : cget d [] k = d k := rfl

/-- A read after listing a value: the value at its key, the old one elsewhere. -/
theorem cget_cput (d : Nat → α) (l : Cells α) (k j : Nat) (v : α) :
    cget d (cput l k v) j = if k = j then v else cget d l j := by
  induction l with
  | nil => simp [cput, cget]
  | cons p t ih =>
    obtain ⟨a, w⟩ := p
    by_cases h : a = k
    · subst h; simp only [cput, if_pos, cget]; split <;> rfl
    · by_cases h2 : k < a
      · simp only [cput, if_neg h, if_pos h2, cget]
      · simp only [cput, if_neg h, if_neg h2, cget, ih]
        split_ifs <;> simp_all

/-- A read after removing a key answers the default there. -/
theorem cget_cdel (d : Nat → α) (l : Cells α) (k j : Nat) :
    cget d (cdel l k) j = if k = j then d k else cget d l j := by
  induction l with
  | nil => simp only [cdel, cget]; split <;> simp_all
  | cons p t ih =>
    obtain ⟨a, w⟩ := p
    by_cases h : a = k
    · subst h; simp only [cdel, if_pos, ih, cget]; split_ifs <;> simp_all
    · simp only [cdel, if_neg h, cget, ih]; split_ifs <;> simp_all

/-- A read after a write: the written value at its key, the old one elsewhere. -/
theorem cget_cset [DecidableEq α] (d : Nat → α) (l : Cells α) (k j : Nat) (v : α) :
    cget d (cset d l k v) j = if k = j then v else cget d l j := by
  unfold cset
  split
  · next h => rw [cget_cdel, h]
  · exact cget_cput d l k j v

@[simp] theorem cget_cset_self [DecidableEq α] (d : Nat → α) (l : Cells α) (k : Nat) (v : α) :
    cget d (cset d l k v) k = v := by simp [cget_cset]

theorem cget_cset_ne [DecidableEq α] (d : Nat → α) (l : Cells α) {k j : Nat} (v : α) (h : k ≠ j) :
    cget d (cset d l k v) j = cget d l j := by simp [cget_cset, h]

@[simp] theorem cwf_nil [DecidableEq α] (d : Nat → α) : cwf d [] = true := rfl

theorem cwf_cons [DecidableEq α] (d : Nat → α) (a : Nat) (v : α) (t : Cells α) :
    cwf d ((a, v) :: t) = true ↔ v ≠ d a ∧ (∀ p ∈ t, a < p.1) ∧ cwf d t = true := by
  simp [cwf, and_assoc]

theorem mem_cput {l : Cells α} {k : Nat} {v : α} {p : Nat × α} (h : p ∈ cput l k v) : p = (k, v) ∨ p ∈ l := by
  induction l with
  | nil => simpa [cput] using h
  | cons q t ih =>
    obtain ⟨a, w⟩ := q
    simp only [cput] at h
    split_ifs at h <;> simp only [List.mem_cons] at h ⊢
    · tauto
    · tauto
    · rcases h with h | h
      · tauto
      · rcases ih h with h | h <;> tauto

theorem mem_cdel {l : Cells α} {k : Nat} {p : Nat × α} (h : p ∈ cdel l k) : p ∈ l := by
  induction l with
  | nil => simpa [cdel] using h
  | cons q t ih =>
    obtain ⟨a, w⟩ := q
    simp only [cdel] at h
    split_ifs at h <;> simp only [List.mem_cons] at h ⊢ <;> tauto

theorem cwf_cput [DecidableEq α] (d : Nat → α) {l : Cells α} (k : Nat) {v : α} (hv : v ≠ d k) (h : cwf d l = true) :
    cwf d (cput l k v) = true := by
  induction l with
  | nil => simp [cput, cwf, hv]
  | cons p t ih =>
    obtain ⟨a, w⟩ := p
    rw [cwf_cons] at h
    simp only [cput]
    split_ifs with h1 h2
    · subst h1; rw [cwf_cons]; exact ⟨hv, h.2⟩
    · rw [cwf_cons]
      refine ⟨hv, ?_, (cwf_cons ..).2 h⟩
      intro p hp
      rcases List.mem_cons.1 hp with rfl | hp
      · exact h2
      · exact lt_trans h2 (h.2.1 p hp)
    · rw [cwf_cons]
      refine ⟨h.1, ?_, ih h.2.2⟩
      intro p hp
      rcases mem_cput hp with rfl | hp
      · show a < k
        omega
      · exact h.2.1 p hp

theorem cwf_cdel [DecidableEq α] (d : Nat → α) {l : Cells α} (k : Nat) (h : cwf d l = true) :
    cwf d (cdel l k) = true := by
  induction l with
  | nil => rfl
  | cons p t ih =>
    obtain ⟨a, w⟩ := p
    rw [cwf_cons] at h
    simp only [cdel]
    split_ifs with h1
    · exact ih h.2.2
    · rw [cwf_cons]
      exact ⟨h.1, fun p hp => h.2.1 p (mem_cdel hp), ih h.2.2⟩

/-- A table write keeps the canonical form. -/
theorem cwf_cset [DecidableEq α] (d : Nat → α) {l : Cells α} (k : Nat) (v : α) (h : cwf d l = true) :
    cwf d (cset d l k v) = true := by
  unfold cset
  split
  · exact cwf_cdel d k h
  · next hv => exact cwf_cput d k hv h

theorem cwf_filter [DecidableEq α] (d : Nat → α) (q : Nat × α → Bool) {l : Cells α} (h : cwf d l = true) :
    cwf d (l.filter q) = true := by
  induction l with
  | nil => rfl
  | cons p t ih =>
    obtain ⟨a, w⟩ := p
    rw [cwf_cons] at h
    rw [List.filter_cons]
    split
    · rw [cwf_cons]
      exact ⟨h.1, fun p hp => h.2.1 p (List.mem_filter.1 hp).1, ih h.2.2⟩
    · exact ih h.2.2

theorem cwf_rset {l : Cells Word} (k : Nat) (w : Word) (h : cwf regDefault l = true) :
    cwf regDefault (rset l k w) = true := cwf_cset _ k w h

/-- Storing bytes keeps the canonical form of the BAR2 memory. -/
theorem cwf_memPut (bs : List Byte) {m : List Host.Cell} (a : Nat) (h : cwf memDefault m = true) :
    cwf memDefault (memPut m a bs) = true := by
  induction bs generalizing m a with
  | nil => exact h
  | cons b t ih => exact ih (a + 1) (cwf_cset _ a b h)

theorem cget_memSet (m : List Host.Cell) (a x : Nat) (b : Byte) :
    cget memDefault (memSet m a b) x = if a = x then b else cget memDefault m x := cget_cset _ _ _ _ _

/-- A byte outside the bytes stored reads as before. -/
theorem cget_memPut_out (bs : List Byte) (m : List Host.Cell) (a x : Nat) (h : x < a ∨ a + bs.length ≤ x) :
    cget memDefault (memPut m a bs) x = cget memDefault m x := by
  induction bs generalizing m a with
  | nil => rfl
  | cons b t ih =>
    simp only [List.length_cons] at h
    rw [memPut, ih _ _ (by omega), cget_memSet, if_neg (by omega)]

/-- A byte among the bytes stored reads as the byte stored there. -/
theorem cget_memPut_in (bs : List Byte) (m : List Host.Cell) (a i : Nat) (h : i < bs.length) :
    cget memDefault (memPut m a bs) (a + i) = bs[i] := by
  induction bs generalizing m a i with
  | nil => simp at h
  | cons b t ih =>
    cases i with
    | zero => rw [memPut, cget_memPut_out _ _ _ _ (by omega), cget_memSet]; simp
    | succ j =>
      have := ih (memSet m a b) (a + 1) j (by simpa using h)
      rw [memPut, show a + (j + 1) = a + 1 + j by omega, this]; rfl

end Sys2Proof.Machine
end

