-- ==== Sys2Proof/Laws/Keeps.lean ====
section
/-!
SUPPORT. What every operation of the block keeps: the queue of waiting commands, model time that never runs back, the
canonical form of the registers and of the BAR2 memory, a time base not ahead of the present, and the seal's own rule.
-/
namespace Sys2Proof.Machine

/-- Whatever operation of the block took `s` to `u`, these hold (one lemma per operation proves it). -/
structure Keeps (s u : State) : Prop where
  pending : u.pending = s.pending
  now : s.clk.now ≤ u.clk.now
  regs : cwf regDefault s.regs = true → cwf regDefault u.regs = true
  mem : cwf memDefault s.mem = true → cwf memDefault u.mem = true
  base : s.clk.since ≤ s.clk.now → u.clk.since ≤ u.clk.now
  first : (s.glb.isSealed = true → s.glb.first = false) → u.glb.isSealed = true → u.glb.first = false
  refused : s.glb.refused ≤ 65535 → u.glb.refused ≤ 65535

theorem Keeps.refl (s : State) : Keeps s s := ⟨rfl, le_refl _, id, id, id, id, id⟩

theorem Keeps.trans {s u v : State} (h : Keeps s u) (k : Keeps u v) : Keeps s v :=
  ⟨k.pending.trans h.pending, h.now.trans k.now, k.regs ∘ h.regs, k.mem ∘ h.mem, k.base ∘ h.base, k.first ∘ h.first,
    k.refused ∘ h.refused⟩

/-- The pieces of the state that `Keeps` speaks of. -/
def State.core (s : State) : List Instr × Nat × Nat × Cells Word × List Host.Cell × Bool × Bool × Nat :=
  (s.pending, s.clk.now, s.clk.since, s.regs, s.mem, s.glb.first, s.glb.isSealed, s.glb.refused)

theorem Keeps.of_core {s u : State} (e : u.core = s.core) : Keeps s u := by
  simp only [State.core, Prod.mk.injEq] at e
  obtain ⟨h1, h2, h3, h4, h5, h6, h7, h8⟩ := e
  exact ⟨h1, h2.ge, by rw [h4]; exact id, by rw [h5]; exact id, by rw [h2, h3]; exact id, by rw [h6, h7]; exact id,
    by rw [h8]; exact id⟩

/-- A state written out: it keeps what the state keeps whose pieces it holds. -/
theorem Keeps.written {s u : State}
    {clk : Clk} {glb : Glb} {regs : Cells Word} {mem : List Host.Cell} {out : Out} {hif : Hif} 
    {que : Cells QCell} {xfr : Xfr} {trace : Trace} {irq : Irq} {reel : Reel} {cells : Cells Cell} 
    {banks : Cells Bank} {units : Cells SUnit} {cycno : Cells Nat} {mech : Cells Mech} {elec : Cells Elec} {sync : SyncChk} 
    {adc : Cells Adc} {ref : RefCheck} {wins : Cells Win} {hostPress : Cells (Option Nat)} {angles : Cells (Option Nat)} {angLog : List (Nat × Nat × Nat)} {balance : Cells Int} 
    {wdn : Wdn} {plan : Plan} {round : Round} {vlk : Vlk} {fw : Fw} {jrn : Journal} 
    {pwr : Power} {side : Side} {jtag : Jtag} {fabric : Fabric} {past : Option Past} {free : Nat} {pending : List Instr} 
    (h1 : pending = u.pending) (h2 : clk.now = u.clk.now) (h3 : clk.since = u.clk.since)
    (h4 : regs = u.regs) (h5 : mem = u.mem) (h6 : glb.first = u.glb.first) (h7 : glb.isSealed = u.glb.isSealed)
    (h8 : glb.refused = u.glb.refused) (h : Keeps s u) :
    Keeps s ⟨clk, glb, regs, mem, out, hif, que, xfr, trace, irq, reel, cells, banks, units, cycno, mech, elec, sync, adc, ref, wins, hostPress, angles, angLog, balance, wdn, plan, round, vlk, fw, jrn, pwr, side, jtag, fabric, past, free, pending⟩ :=
  h.trans (.of_core (by simp only [State.core, h1, h2, h3, h4, h5, h6, h7, h8]))

/-- An update of the registers that keeps their form. -/
theorem Keeps.updRegs {s u : State} {r : Cells Word} (hr : cwf regDefault u.regs = true → cwf regDefault r = true)
    (h : Keeps s u) : Keeps s { u with regs := r } := h.trans ⟨rfl, le_refl _, hr, id, id, id, id⟩

/-- An update of the BAR2 memory that keeps its form. -/
theorem Keeps.updMem {s u : State} {m : List Host.Cell} (hm : cwf memDefault u.mem = true → cwf memDefault m = true)
    (h : Keeps s u) : Keeps s { u with mem := m } := h.trans ⟨rfl, le_refl _, id, hm, id, id, id⟩

theorem Keeps.foldl {α : Type} {s u : State} {f : State → α → State} {l : List α} (hf : ∀ u a, Keeps s u → Keeps s (f u a))
    (h : Keeps s u) : Keeps s (l.foldl f u) := by
  induction l generalizing u with
  | nil => exact h
  | cons a t ih => exact ih (hf u a h)

theorem Keeps.foldlSnd {α β : Type} {s : State} {f : β × State → α → β × State} {l : List α}
    (hf : ∀ p a, Keeps s p.2 → Keeps s (f p a).2) {p : β × State} (h : Keeps s p.2) : Keeps s (l.foldl f p).2 := by
  induction l generalizing p with
  | nil => exact h
  | cons a t ih => exact ih (hf p a h)

theorem Keeps.ite {s u v : State} {c : Prop} [Decidable c] (h : Keeps s u) (k : Keeps s v) : Keeps s (if c then u else v) := by
  split <;> assumption

end Sys2Proof.Machine
end

