-- ==== Sys2Proof/Safety.lean ====
section
/-!
DEFINITION. The terms in which claims about the block are made: when it takes the commands of the running device, what
every step keeps, and what it is for a command to run.
-/
namespace Sys2Proof.Machine

/-- The device runs: neither in Dusk nor held in reset (R547, R557). -/
abbrev State.Up (s : State) : Prop := s.pwr.asleep = false ∧ s.pwr.inReset = false

/-- The device runs and BAR writes have their effect: it is not sealed (R311) and no import is open (R611). -/
abbrev State.Open (s : State) : Prop := s.Up ∧ s.glb.isSealed = false ∧ importOpen s = false

/-- Command `c` stands at the head of the running command ring `r`, with no reserved bit set (R13). -/
abbrev Heads (s : State) (r op : Nat) (c : Fetched) : Prop :=
  s.Up ∧ headCmd s r = some c ∧ c.op = op ∧ reservedGood c = true

/-- The region that a command names exists, is served (R457), and holds no command back for a takeover (R456). -/
def roleTakes (s : State) (c : Fetched) : Bool :=
  match cmdRole c.words with
  | some n => decide (n < 4) && !roleHeld s c && roleServed s n
  | none => true

/-- Command `c` of opcode `op` stands at the head of ring `r` and is applied now (R329): the chip is not safe (R465). -/
abbrev Takes (s : State) (r op : Nat) (c : Fetched) : Prop :=
  Heads s r op c ∧ s.glb.chipSafe = false ∧ roleTakes s c = true

/-- Engine `e` begins a cycle that fetches a word of opcode `op` with no delay left to count down (R423), and its block has not
stopped for Dusk (R545). -/
abbrev ReelFetches (s : State) (t e op : Nat) : Prop :=
  s.Up ∧ voterStopped s 40 = false ∧ cycleDue (s.tick t) e = true ∧ (s.reel.eng e).delay = 0 ∧ reelOp (fetchWord s e) = op

/-- At `t` engine `e` has its place in the FCLK cycle: the block has acted at no later place of it (R429). -/
abbrev ReelInPlace (s : State) (t e : Nat) : Prop := (s.tick t).clk.sameCycle s.reel.cycAt (s.tick t).clk.now = false ∨ s.reel.cycRank ≤ 1 + e

/-- Engine `e` has executed at `t` the word it fetched, and is `g` but for the end of every executed cycle (R423). -/
def State.reelRan (s : State) (t e : Nat) (g : Engine) : State :=
  let u := s.tick t
  u.setReel { u.reel.setEng e (afterExec u e (u.reel.eng e) (fetchWord u e) g) with cycAt := u.clk.now, cycRank := 1 + e }

/-- Engine `e` has stalled at `t` on the word it fetched (R422). -/
def State.reelStalled (s : State) (t e : Nat) : State :=
  let u := s.tick t
  u.setReel { u.reel.setEng e (afterStall u e (u.reel.eng e) (fetchWord u e)) with cycAt := u.clk.now, cycRank := 1 + e }

/-- The part takes frame `f` of TYPE `ty` and acts on it (R507, R510, R535): the link is on and has not stopped for Dusk, the frame
passes its checks, is for this part or hop-local, is newer than its source's last one, and does not come from the part itself. -/
abbrev LinkTakes (s : State) (ty : Nat) (f : Frame) : Prop :=
  s.Up ∧ linkEn s = true ∧ linkStopped s = false ∧ f.type = ty ∧ f.good = true ∧ (forMe s f = true ∨ ty = 2 ∨ ty = 3) ∧
    seqFresh s f = true ∧ (f.src ≠ linkNode s ∨ ty = 1)

/-- The link state once LAST_S of the frame's source is noted (R510). -/
def Vlk.took (v : Vlk) (f : Frame) (now : Nat) : Vlk := { v with lastS := cset (fun _ => none) v.lastS f.src (some (f.seq, now)) }

/-- A frame of TYPE `ty` as this part sends it to all in direction A, subject to the wrap rule (R507, R508, R514). -/
def ownFrame (s : State) (ty : Nat) (pay : List Word) : LinkSent :=
  .frame (exitPort s.vlk false).1 (setFld (ofNat32 (headWord s ty true 0 pay.length)) 26 26 (b2n (exitPort s.vlk false).2))
    (ofNat32 (s.vlk.fseq % 65536)) pay true

/-- Command `c` runs from `s`, and `P` holds of the state after it. -/
def Runs (c : Instr) (s : State) (P : State → Prop) : Prop := ∃ u, exec c s = .next u ∧ P u

/-- Command `c` is applied for descriptor `f` at the head of ring `r` and completes there with answer `y`; `P` holds of the
state in which its completion is written. -/
def Applies (c : Instr) (s : State) (r : Nat) (f : Fetched) (y : Reply) (P : State → Prop) : Prop :=
  ∃ u, exec c s = .next (finish u r f y) ∧ P u

/-- Nothing has been issued in the FCLK cycle of `t` that ranks after traffic `k` (R31): a request of `k` goes out last. -/
abbrev Latest (s : State) (t : Nat) (k : Traffic) : Prop := (s.tick t).issued.all (· ≤ k.rank) = true

/-- State `q`: time is `t`, and the domains below `d` have taken their angle updates of the instant (R148). -/
abbrev Before (s : State) (t d : Nat) (q : State) : Prop := s.Up ∧ q = anglesTo (s.tick t) d

/-- An input voltage `lv` seen at tick `ts` brings an active edge to domain `d` (R51, R52, R54): the domain is enabled and its input
armed, the level has held for CRK_FILT, and it is the new one and that of CRK_POL; no cam edge waits for its turn. -/
abbrev ActiveEdge (q : State) (d ts : Nat) (lv : Int) : Prop :=
  domEn q d = true ∧ crankArmed q d = true ∧ eclkEdge q ts + 40 * q.rf (A.dom d + 4) 23 20 ≤ q.clk.now ∧
    (q.dom d).crkLevel = !q.rb (A.dom d + 4) 5 ∧ inputLevel (q.rb (A.dom d + 4) 8) (q.dom d).crkLevel lv = q.rb (A.dom d + 4) 5 ∧
    (q.dom d).camHeld = []

/-- No active edge has come by `deadline`: none waits for its direction, and none first seen at `raw` is still in its filter (R72). -/
abbrev NoEdgeBy (s : State) (t d deadline : Nat) (raw : Option Nat) : Prop :=
  (s.dom d).pulses.all (fun p => decide (deadline < p)) = true ∧
    raw.all (fun r => decide (deadline < r ∨ r + 40 * s.rf (A.dom d + 4) 23 20 ≤ max s.clk.now t)) = true ∧ (s.dom d).camHeld = []

/-- What every step keeps: register and table memory in canonical form, a time base not ahead of the present, no half
of the seal's key held once the device is sealed (R48), and the count of refused writes within its field (R45). -/
structure State.Inv (s : State) : Prop where
  regs : cwf regDefault s.regs = true
  mem : cwf memDefault s.mem = true
  base : s.clk.since ≤ s.clk.now
  first : s.glb.isSealed = true → s.glb.first = false
  refused : s.glb.refused ≤ 65535

/-- The commands that reach a device in Dusk or held in reset: resets, wake events and their latches, the restore, the sideband port,
JTAG, the always-on oscillator and the host's power state (R306, R547, R557, R607). Every other command finds it unresponsive. -/
def reachesHeld : Instr → Bool
  | .pcieFundamentalReset _ | .duskToothEdge .. | .wakeLatchEdge .. | .aonTimerExpiry _ | .wake .. | .powerOnReset _
  | .supplyMonitorReset _ | .pinReset .. | .resetRelease _ | .restoreDone | .ident | .readBar0 .. | .readBar2 .. | .exportOpen
  | .exportRead .. | .exportStatus | .importOpen .. | .importData .. | .importFinish | .importStatus | .aonRcFallback
  | .jtagTckEdge .. | .suspension .. | .vrArm .. => true
  | _ => false

/-- The parts of the state. -/
inductive Part where
  | clk | glb | regs | mem | out | hif | que | xfr | trace | irq | reel | cells | banks | units | cycno | mech | elec
  | sync | adc | ref | wins | hostPress | angles | angLog | balance | wdn | plan | round | vlk | fw | jrn | pwr | side
  | jtag | fabric | past | free | pending
  deriving DecidableEq, Repr

/-- A part is the same in two states. -/
def Part.same (s u : State) : Part → Prop
  | .clk => u.clk = s.clk
  | .glb => u.glb = s.glb
  | .regs => u.regs = s.regs
  | .mem => u.mem = s.mem
  | .out => u.out = s.out
  | .hif => u.hif = s.hif
  | .que => u.que = s.que
  | .xfr => u.xfr = s.xfr
  | .trace => u.trace = s.trace
  | .irq => u.irq = s.irq
  | .reel => u.reel = s.reel
  | .cells => u.cells = s.cells
  | .banks => u.banks = s.banks
  | .units => u.units = s.units
  | .cycno => u.cycno = s.cycno
  | .mech => u.mech = s.mech
  | .elec => u.elec = s.elec
  | .sync => u.sync = s.sync
  | .adc => u.adc = s.adc
  | .ref => u.ref = s.ref
  | .wins => u.wins = s.wins
  | .hostPress => u.hostPress = s.hostPress
  | .angles => u.angles = s.angles
  | .angLog => u.angLog = s.angLog
  | .balance => u.balance = s.balance
  | .wdn => u.wdn = s.wdn
  | .plan => u.plan = s.plan
  | .round => u.round = s.round
  | .vlk => u.vlk = s.vlk
  | .fw => u.fw = s.fw
  | .jrn => u.jrn = s.jrn
  | .pwr => u.pwr = s.pwr
  | .side => u.side = s.side
  | .jtag => u.jtag = s.jtag
  | .fabric => u.fabric = s.fabric
  | .past => u.past = s.past
  | .free => u.free = s.free
  | .pending => u.pending = s.pending

/-- From `s` to `u` no part outside `l` has changed. -/
def ChangesOnly (l : List Part) (s u : State) : Prop := ∀ p, p ∉ l → p.same s u

/-- All parts. -/
def Part.all : List Part :=
  [.clk, .glb, .regs, .mem, .out, .hif, .que, .xfr, .trace, .irq, .reel, .cells, .banks, .units, .cycno, .mech,
    .elec, .sync, .adc, .ref, .wins, .hostPress, .angles, .angLog, .balance, .wdn, .plan, .round, .vlk, .fw, .jrn,
    .pwr, .side, .jtag, .fabric, .past, .free, .pending]

/-- Every part but those listed. -/
def Part.allBut (l : List Part) : List Part := Part.all.filter (fun p => !l.contains p)

/-- The parts of the state that a command may change: no other part changes with it, whatever the state. -/
def footprint : Instr → List Part
  | .calibrationDue .. | .calSpanExpiry .. =>
    [.clk, .adc]
  | .fabricGrant .. | .class2Promotion .. =>
    [.clk, .fabric]
  | .digestDone =>
    [.clk, .glb]
  | .holdoffExpiry .. | .msixFunctionMaskWrite .. =>
    [.clk, .irq]
  | .vrArm .. =>
    [.clk, .mech]
  | .pmeTurnOff =>
    [.clk, .out]
  | .monitorSample .. | .fclkSlewDone =>
    [.clk, .plan]
  | .wakeLatchEdge .. | .aonTimerExpiry .. | .resetRelease .. | .aonRcFallback =>
    [.clk, .pwr]
  | .reelDelayCycle .. =>
    [.clk, .reel]
  | .pllLock =>
    [.clk, .regs]
  | .importOpen .. | .importData .. | .exportOpen | .importFinish =>
    [.clk, .side]
  | .pdelayResp .. | .snap .. | .sourceForget .. =>
    [.clk, .vlk]
  | .reflectionCheckpoint .. | .sparePowered | .reflectionVerified =>
    [.clk, .wdn]
  | .referenceCheck .. =>
    [.clk, .adc, .ref]
  | .ditherHalfPeriod .. =>
    [.clk, .cells, .wins]
  | .exportTimeout .. =>
    [.clk, .jrn, .side]
  | .jtagTckEdge .. =>
    [.clk, .jtag, .free]
  | .duskToothEdge .. =>
    [.clk, .mech, .pwr]
  | .poisonedRead .. =>
    [.clk, .out, .free]
  | .doorbellPoll .. =>
    [.clk, .out, .hif]
  | .msixMessage .. =>
    [.clk, .out, .irq]
  | .readBar0 .. | .readBar2 .. | .exportStatus | .importStatus | .ident =>
    [.clk, .out, .side]
  | .portUnwrap .. | .pdelayReq .. | .wakeReq .. | .announcePeriod .. | .pdelayPeriod .. | .syncPeriod .. =>
    [.clk, .out, .vlk]
  | .xfrTimerExpiry .. =>
    [.clk, .out, .xfr]
  | .rpPinChange .. =>
    [.clk, .reel, .wins]
  | .converterTimerExpiry .. =>
    [.clk, .regs, .adc]
  | .fwProgramDone | .fwActivation =>
    [.clk, .regs, .fw]
  | .journalWriteDone =>
    [.clk, .regs, .jrn]
  | .syncCheckTimeout .. =>
    [.clk, .regs, .sync]
  | .slotsLoaded | .reconciliation =>
    [.clk, .units, .wdn]
  | .beacon .. | .topo .. | .backupSilence .. =>
    [.clk, .hif, .irq, .vlk]
  | .exportRead .. =>
    [.clk, .out, .jrn, .side]
  | .frameForward .. =>
    [.clk, .out, .vlk, .free]
  | .goto .. | .await .. | .bitin .. | .bitout .. | .group .. | .fill .. | .drain .. | .drive .. | .load .. | .move ..
  | .flag .. | .adjust .. =>
    [.clk, .hif, .irq, .reel, .wins]
  | .supervisory .. =>
    [.clk, .mem, .hif, .irq, .vlk]
  | .portUp .. | .portDown .. | .portSleeping .. =>
    [.clk, .out, .hif, .irq, .vlk]
  | .fwRevert .. | .fwRunning =>
    [.clk, .regs, .hif, .irq, .fw]
  | .hostPathReset =>
    [.clk, .regs, .hif, .irq, .pwr]
  | .descriptorFetchDone .. | .nop .. | .telemetryPeriod .. | .freshnessExpiry .. | .capturePairTimeout .. =>
    [.clk, .regs, .out, .hif, .irq]
  | .pollDataReturn .. =>
    [.clk, .regs, .out, .hif, .xfr]
  | .dtimeLowRead .. | .irqClaim .. | .reelRxRead .. =>
    [.clk, .glb, .out, .hif, .irq, .reel]
  | .pwrSet .. =>
    [.clk, .glb, .regs, .out, .hif, .irq]
  | .queueCloseTimeout .. =>
    [.clk, .out, .hif, .que, .xfr, .irq]
  | .fwVerifyDone =>
    [.clk, .regs, .hif, .irq, .fw, .free]
  | .fwWrite .. | .fwVerify .. =>
    [.clk, .regs, .out, .hif, .irq, .fw]
  | .pressureSet .. =>
    [.clk, .regs, .out, .hif, .irq, .hostPress]
  | .journalCommit .. =>
    [.clk, .regs, .out, .hif, .irq, .jrn]
  | .pllSwitch .. | .pllSwitchTimeout .. | .duskEnter .. =>
    [.clk, .regs, .out, .hif, .irq, .pwr]
  | .reelInject .. | .reelWrite .. | .reelFlag .. =>
    [.clk, .regs, .out, .hif, .irq, .reel]
  | .fwActivate .. | .fwCancel .. =>
    [.clk, .regs, .out, .hif, .irq, .round]
  | .linkSend .. | .linkResign .. | .linkWake .. =>
    [.clk, .regs, .out, .hif, .irq, .vlk]
  | .queFlush .. | .queAck .. =>
    [.clk, .regs, .out, .hif, .que, .irq]
  | .traceMark .. | .traceRewind .. | .traceAdvance .. =>
    [.clk, .regs, .out, .hif, .trace, .irq]
  | .suspension .. | .xfrStart .. =>
    [.clk, .regs, .out, .hif, .xfr, .irq]
  | .lowHalfRead .. =>
    [.clk, .glb, .out, .hif, .irq, .reel, .free]
  | .reelWrap .. | .reelControl .. =>
    [.clk, .glb, .regs, .out, .hif, .irq, .reel]
  | .syncCheckEval .. =>
    [.clk, .regs, .hif, .irq, .reel, .sync, .free]
  | .faultLogClear .. =>
    [.clk, .regs, .mem, .out, .hif, .irq, .jrn]
  | .modelReset .. =>
    [.clk, .regs, .mem, .out, .hif, .irq, .past]
  | .roundDue .. | .roundStart .. | .spareLoadDone =>
    [.clk, .regs, .out, .hif, .irq, .round, .jrn]
  | .queueWordHead .. | .queClose .. =>
    [.clk, .regs, .out, .hif, .que, .xfr, .irq]
  | .duskCommit .. =>
    [.clk, .regs, .out, .reel, .mech, .vlk, .pwr]
  | .planEvaluation .. | .planEval .. =>
    [.clk, .glb, .regs, .mem, .out, .hif, .irq, .plan]
  | .reelImemWrite .. =>
    [.clk, .glb, .regs, .mem, .out, .hif, .irq, .reel]
  | .arm .. =>
    [.clk, .glb, .regs, .out, .hif, .irq, .reel, .round]
  | .takeoverBegin .. | .regionTest .. =>
    [.clk, .regs, .out, .hif, .irq, .wdn, .round, .jrn]
  | .reelInTransfer .. =>
    [.clk, .regs, .out, .hif, .que, .xfr, .irq, .reel]
  | .xfrStop .. | .xfrDescriptorFetched .. | .xfrLinkRead .. =>
    [.clk, .regs, .out, .hif, .que, .xfr, .trace, .irq]
  | .profileWrite .. | .modelWrite .. =>
    [.clk, .glb, .regs, .mem, .out, .hif, .irq, .cells, .past]
  | .reflectionCopyDone .. =>
    [.clk, .glb, .regs, .out, .hif, .irq, .wdn, .round, .jrn]
  | .xfrReadData .. | .xfrBlockEnd .. | .completionTimeout .. =>
    [.clk, .regs, .out, .hif, .que, .xfr, .trace, .irq, .reel]
  | .tableWrite .. =>
    [.clk, .glb, .regs, .mem, .out, .hif, .irq, .mech, .balance, .free]
  | .roundAbort .. | .roundPostponed .. =>
    [.clk, .glb, .regs, .mem, .out, .hif, .irq, .plan, .round, .jrn]
  | .contributionUpdate .. =>
    [.clk, .regs, .mem, .out, .hif, .irq, .mech, .balance, .past, .free]
  | .stepReady .. | .conversionStart .. | .maxwaitExpiry .. | .referenceSwitch .. | .calibrationApply .. =>
    [.clk, .regs, .out, .hif, .que, .xfr, .trace, .irq, .banks, .adc]
  | .roundLend .. =>
    [.clk, .glb, .regs, .out, .hif, .irq, .banks, .units, .wdn, .round, .jrn]
  | .adcStepWrite .. =>
    [.clk, .glb, .regs, .out, .hif, .que, .xfr, .trace, .irq, .banks, .adc]
  | .heartbeat .. | .reflectionItem .. =>
    [.clk, .regs, .mem, .out, .hif, .irq, .units, .wdn, .plan, .round, .jrn]
  | .quietWaitExpiry .. | .roundHandBack .. =>
    [.clk, .glb, .regs, .mem, .out, .hif, .irq, .banks, .units, .wdn, .plan, .round, .jrn]
  | .bar2Write .. | .toothTableBar2Write .. | .eventTableBar2Write .. | .profileBar2Write .. | .modelBar2Write ..
  | .balanceBar2Write .. | .reelImemBar2Write .. =>
    [.clk, .glb, .regs, .mem, .out, .hif, .irq, .reel, .units, .mech, .balance, .past, .free]
  | .kinkResult .. =>
    [.clk, .regs, .mem, .out, .hif, .que, .xfr, .trace, .irq, .cells, .banks, .past, .free]
  | .holdExpiry .. =>
    [.clk, .regs, .out, .hif, .que, .xfr, .trace, .irq, .cells, .banks, .adc, .wins, .free]
  | .testStepDone .. =>
    [.clk, .glb, .regs, .mem, .out, .hif, .irq, .banks, .units, .wdn, .plan, .round, .jrn, .free]
  | .startAdmit .. | .overlapTimeout .. | .reboostWaitExpiry .. | .timeCapExpiry .. =>
    [.clk, .regs, .out, .hif, .que, .xfr, .trace, .irq, .cells, .banks, .units, .adc, .wins, .free]
  | .leakTimeout .. | .hsShort .. | .boostCollapse .. =>
    [.clk, .regs, .mem, .out, .hif, .que, .xfr, .trace, .irq, .cells, .banks, .units, .adc, .wins, .plan, .jrn, .free]
  | .startUnitFree .. | .windowCrossing .. | .phaseTimerExpiry .. | .mixFastExpiry .. | .blankingEnd ..
  | .initialDecision .. =>
    [.clk, .regs, .mem, .out, .hif, .que, .xfr, .trace, .irq, .cells, .banks, .units, .adc, .wins, .plan, .jrn, .past,
      .free]
  | .electricalNoneTimeout .. =>
    Part.allBut [.glb, .mem, .reel, .mech, .sync, .ref, .hostPress, .balance, .plan, .round, .vlk, .fw, .jrn, .pwr,
      .side, .jtag, .fabric, .past, .pending]
  | .wardenLockstep =>
    Part.allBut [.cycno, .mech, .elec, .sync, .ref, .hostPress, .angles, .angLog, .balance, .wdn, .round, .fw, .pwr,
      .side, .jtag, .fabric, .past, .pending]
  | .firstEvaluation .. =>
    Part.allBut [.glb, .reel, .cycno, .mech, .elec, .sync, .ref, .hostPress, .angles, .angLog, .balance, .vlk, .fw,
      .pwr, .side, .jtag, .fabric, .pending]
  | .duskVote =>
    Part.allBut [.glb, .cycno, .mech, .elec, .sync, .ref, .hostPress, .angles, .angLog, .balance, .wdn, .vlk, .fw,
      .side, .jtag, .fabric, .pending]
  | .lockstepMismatch .. | .heartbeatTimeout .. | .regionTakeover .. =>
    Part.allBut [.cycno, .mech, .elec, .sync, .ref, .hostPress, .angles, .angLog, .balance, .fw, .pwr, .side, .jtag,
      .fabric, .past, .pending]
  | .conversionEnd .. =>
    Part.allBut [.cycno, .mech, .sync, .hostPress, .angles, .angLog, .balance, .wdn, .round, .fw, .pwr, .side, .jtag,
      .fabric, .past, .pending]
  | .crankTrailingEdge .. | .widthLimitExpiry .. | .camEdge .. | .edgeTimeout .. | .stallTimeout .. | .angleUpdate ..
  | .slotCancel .. | .domainCancel .. | .slotQuery .. =>
    Part.allBut [.glb, .elec, .sync, .ref, .hostPress, .balance, .round, .vlk, .fw, .pwr, .side, .jtag, .fabric,
      .pending]
  | .slotWrite .. | .shadowDrop .. =>
    Part.allBut [.elec, .sync, .ref, .hostPress, .balance, .round, .vlk, .fw, .pwr, .side, .jtag, .fabric, .pending]
  | .crankEdge .. =>
    Part.allBut [.glb, .elec, .sync, .ref, .hostPress, .balance, .round, .vlk, .fw, .side, .jtag, .fabric, .pending]
  | .mainsPeriod .. | .snapPeriod .. =>
    Part.allBut [.glb, .elec, .sync, .ref, .hostPress, .balance, .round, .fw, .pwr, .side, .jtag, .fabric, .pending]
  | .zeroCrossing .. | .electricalStallTimeout .. | .mainsTimeout .. =>
    Part.allBut [.glb, .sync, .ref, .hostPress, .balance, .round, .vlk, .fw, .pwr, .side, .jtag, .fabric, .pending]
  | .clockSwitch .. =>
    Part.allBut [.glb, .sync, .ref, .hostPress, .balance, .round, .vlk, .fw, .side, .jtag, .fabric, .pending]
  | .mains .. | .epochNotice .. =>
    Part.allBut [.glb, .sync, .ref, .hostPress, .balance, .round, .fw, .pwr, .side, .jtag, .fabric, .pending]
  | .restoreDone =>
    Part.allBut [.sync, .ref, .hostPress, .balance, .round, .fw, .pwr, .side, .jtag, .fabric, .pending]
  | .announce .. | .sync .. | .masterSilenceTimeout .. | .backupTakeover .. | .timeQualityLoss .. =>
    Part.allBut [.glb, .sync, .ref, .hostPress, .balance, .round, .fw, .side, .jtag, .fabric, .pending]
  | .scrubTick .. =>
    Part.allBut [.sync, .ref, .hostPress, .balance, .fw, .pwr, .side, .jtag, .fabric, .pending]
  | .pllLockLoss .. =>
    Part.allBut [.sync, .ref, .hostPress, .balance, .round, .fw, .side, .jtag, .fabric, .pending]
  | .registerWrite .. | .sealWrite .. | .behLevelWrite .. | .pllReq .. | .resync .. | .domainEnable ..
  | .domainDisable .. | .learnStart .. | .learnAbort .. | .windowEnable .. | .windowDisable .. | .channelEnable ..
  | .channelEnClear .. | .disable .. | .reenable .. | .resume .. | .runStart .. | .cfgWrite .. | .msixTableWrite ..
  | .queueDisable .. | .levelEvtClear .. | .xfrCtlStart .. | .xfrCtlStop .. | .irqComplete .. | .pendSetWrite ..
  | .pendClrWrite .. | .enSetWrite .. | .enClrWrite .. | .idleSetWrite .. | .idleClrWrite .. | .reelEnable ..
  | .reelDisable .. | .reelRestart .. | .reelFlushIn .. | .reelFlushOut .. | .reelTxWrite .. | .reelInjectWrite ..
  | .reelWrapWrite .. | .reelFlagsSetWrite .. | .reelFlagsClrWrite .. | .vlkEnable .. | .duskReq .. | .commit ..
  | .syncCheckArm .. | .syncCheckCancel .. =>
    Part.allBut [.ref, .round, .fw, .side, .jtag, .fabric, .pending]
  | .modeSet .. =>
    Part.allBut [.ref, .fw, .side, .jtag, .fabric, .pending]
  | .pcieFundamentalReset .. | .powerOnReset .. | .supplyMonitorReset .. | .pinReset .. | .importWriteDone .. =>
    Part.allBut [.out, .pending]
  | .chipReset .. | .wake .. =>
    Part.allBut [.pending]

end Sys2Proof.Machine
end

