-- ==== Sys2Proof/Laws/Only.lean ====
section
/-!
SUPPORT. Which parts of the state an operation may change, as a mask of the parts (bit i for part i): one lemma per operation
proves its mask.
-/
namespace Sys2Proof.Machine

/-- No part whose bit is clear in the mask has changed. -/
def Only (m : Nat) (s u : State) : Prop := ∀ p : Part, m.testBit p.ctorIdx = false → p.same s u

theorem Part.same_refl (s : State) (p : Part) : p.same s s := by cases p <;> rfl

theorem Part.same_trans {s u v : State} {p : Part} (h : p.same s u) (k : p.same u v) : p.same s v := by
  cases p <;> exact Eq.trans k h

theorem Only.refl (m : Nat) (s : State) : Only m s s := fun p _ => p.same_refl s

theorem Only.trans {m : Nat} {s u v : State} (h : Only m s u) (k : Only m u v) : Only m s v := fun p hp => Part.same_trans (h p hp) (k p hp)

theorem Part.mem_all (p : Part) : p ∈ Part.all := by cases p <;> decide

/-- A mask that names no part outside a list says what the list says. -/
theorem Only.of_list {l : List Part} {m : Nat} {s u : State}
    (hl : Part.all.all (fun p => l.contains p || !m.testBit p.ctorIdx) = true) (h : Only m s u) : ChangesOnly l s u := by
  intro p hp
  have hq := List.all_eq_true.1 hl p p.mem_all
  simp only [Bool.or_eq_true, List.contains_iff_mem, Bool.not_eq_true'] at hq
  exact h p (hq.resolve_left hp)

theorem Only.foldl {α : Type} {m : Nat} {s u : State} {f : State → α → State} {l : List α}
    (hf : ∀ u a, Only m s u → Only m s (f u a)) (h : Only m s u) : Only m s (l.foldl f u) := by
  induction l generalizing u with
  | nil => exact h
  | cons a t ih => exact ih (hf u a h)

theorem Only.foldlSnd {α β : Type} {m : Nat} {s : State} {f : β × State → α → β × State} {l : List α}
    (hf : ∀ p a, Only m s p.2 → Only m s (f p a).2) {p : β × State} (h : Only m s p.2) : Only m s (l.foldl f p).2 := by
  induction l generalizing p with
  | nil => exact h
  | cons a t ih => exact ih (hf p a h)

theorem Only.ite {m : Nat} {s u v : State} {c : Prop} [Decidable c] (h : Only m s u) (k : Only m s v) :
    Only m s (if c then u else v) := by
  split <;> assumption

/-- A mask within a mask within a third. -/
theorem mask_trans {a b m : Nat} (h : a ||| b = b) (k : b ||| m = m) : a ||| m = m := by
  rw [← k, ← Nat.or_assoc, h]

theorem mask_bit {a m : Nat} (k : a ||| m = m) {i : Nat} (h : a.testBit i = true) : m.testBit i = true := by
  rw [← k, Nat.testBit_or, h, Bool.true_or]

/-- A state written out: each part is that of the state it comes from, or one that the mask names. -/
theorem Only.written {m : Nat} {s u : State}
    {clk : Clk} {glb : Glb} {regs : Cells Word} {mem : List Host.Cell} {out : Out} {hif : Hif}
    {que : Cells QCell} {xfr : Xfr} {trace : Trace} {irq : Irq} {reel : Reel} {cells : Cells Cell}
    {banks : Cells Bank} {units : Cells SUnit} {cycno : Cells Nat} {mech : Cells Mech} {elec : Cells Elec} {sync : SyncChk}
    {adc : Cells Adc} {ref : RefCheck} {wins : Cells Win} {hostPress : Cells (Option Nat)} {angles : Cells (Option Nat)} {angLog : List (Nat × Nat × Nat)} {balance : Cells Int}
    {wdn : Wdn} {plan : Plan} {round : Round} {vlk : Vlk} {fw : Fw} {jrn : Journal}
    {pwr : Power} {side : Side} {jtag : Jtag} {fabric : Fabric} {past : Option Past} {free : Nat} {pending : List Instr}
    (hp : pending = u.pending)
    (h0 : clk = u.clk ∨ m.testBit 0 = true) (h1 : glb = u.glb ∨ m.testBit 1 = true) (h2 : regs = u.regs ∨ m.testBit 2 = true)
    (h3 : mem = u.mem ∨ m.testBit 3 = true) (h4 : out = u.out ∨ m.testBit 4 = true) (h5 : hif = u.hif ∨ m.testBit 5 = true)
    (h6 : que = u.que ∨ m.testBit 6 = true) (h7 : xfr = u.xfr ∨ m.testBit 7 = true) (h8 : trace = u.trace ∨ m.testBit 8 = true)
    (h9 : irq = u.irq ∨ m.testBit 9 = true) (h10 : reel = u.reel ∨ m.testBit 10 = true) (h11 : cells = u.cells ∨ m.testBit 11 = true)
    (h12 : banks = u.banks ∨ m.testBit 12 = true) (h13 : units = u.units ∨ m.testBit 13 = true) (h14 : cycno = u.cycno ∨ m.testBit 14 = true)
    (h15 : mech = u.mech ∨ m.testBit 15 = true) (h16 : elec = u.elec ∨ m.testBit 16 = true) (h17 : sync = u.sync ∨ m.testBit 17 = true)
    (h18 : adc = u.adc ∨ m.testBit 18 = true) (h19 : ref = u.ref ∨ m.testBit 19 = true) (h20 : wins = u.wins ∨ m.testBit 20 = true)
    (h21 : hostPress = u.hostPress ∨ m.testBit 21 = true) (h22 : angles = u.angles ∨ m.testBit 22 = true) (h23 : angLog = u.angLog ∨ m.testBit 23 = true)
    (h24 : balance = u.balance ∨ m.testBit 24 = true) (h25 : wdn = u.wdn ∨ m.testBit 25 = true) (h26 : plan = u.plan ∨ m.testBit 26 = true)
    (h27 : round = u.round ∨ m.testBit 27 = true) (h28 : vlk = u.vlk ∨ m.testBit 28 = true) (h29 : fw = u.fw ∨ m.testBit 29 = true)
    (h30 : jrn = u.jrn ∨ m.testBit 30 = true) (h31 : pwr = u.pwr ∨ m.testBit 31 = true) (h32 : side = u.side ∨ m.testBit 32 = true)
    (h33 : jtag = u.jtag ∨ m.testBit 33 = true) (h34 : fabric = u.fabric ∨ m.testBit 34 = true) (h35 : past = u.past ∨ m.testBit 35 = true)
    (h36 : free = u.free ∨ m.testBit 36 = true)
    (h : Only m s u) : Only m s ⟨clk, glb, regs, mem, out, hif, que, xfr, trace, irq, reel, cells, banks, units, cycno, mech, elec, sync, adc, ref, wins, hostPress, angles, angLog, balance, wdn, plan, round, vlk, fw, jrn, pwr, side, jtag, fabric, past, free, pending⟩ := by
  refine h.trans fun p hm => ?_
  cases p
  · exact h0.resolve_right fun hb => Bool.noConfusion (hb.symm.trans hm)
  · exact h1.resolve_right fun hb => Bool.noConfusion (hb.symm.trans hm)
  · exact h2.resolve_right fun hb => Bool.noConfusion (hb.symm.trans hm)
  · exact h3.resolve_right fun hb => Bool.noConfusion (hb.symm.trans hm)
  · exact h4.resolve_right fun hb => Bool.noConfusion (hb.symm.trans hm)
  · exact h5.resolve_right fun hb => Bool.noConfusion (hb.symm.trans hm)
  · exact h6.resolve_right fun hb => Bool.noConfusion (hb.symm.trans hm)
  · exact h7.resolve_right fun hb => Bool.noConfusion (hb.symm.trans hm)
  · exact h8.resolve_right fun hb => Bool.noConfusion (hb.symm.trans hm)
  · exact h9.resolve_right fun hb => Bool.noConfusion (hb.symm.trans hm)
  · exact h10.resolve_right fun hb => Bool.noConfusion (hb.symm.trans hm)
  · exact h11.resolve_right fun hb => Bool.noConfusion (hb.symm.trans hm)
  · exact h12.resolve_right fun hb => Bool.noConfusion (hb.symm.trans hm)
  · exact h13.resolve_right fun hb => Bool.noConfusion (hb.symm.trans hm)
  · exact h14.resolve_right fun hb => Bool.noConfusion (hb.symm.trans hm)
  · exact h15.resolve_right fun hb => Bool.noConfusion (hb.symm.trans hm)
  · exact h16.resolve_right fun hb => Bool.noConfusion (hb.symm.trans hm)
  · exact h17.resolve_right fun hb => Bool.noConfusion (hb.symm.trans hm)
  · exact h18.resolve_right fun hb => Bool.noConfusion (hb.symm.trans hm)
  · exact h19.resolve_right fun hb => Bool.noConfusion (hb.symm.trans hm)
  · exact h20.resolve_right fun hb => Bool.noConfusion (hb.symm.trans hm)
  · exact h21.resolve_right fun hb => Bool.noConfusion (hb.symm.trans hm)
  · exact h22.resolve_right fun hb => Bool.noConfusion (hb.symm.trans hm)
  · exact h23.resolve_right fun hb => Bool.noConfusion (hb.symm.trans hm)
  · exact h24.resolve_right fun hb => Bool.noConfusion (hb.symm.trans hm)
  · exact h25.resolve_right fun hb => Bool.noConfusion (hb.symm.trans hm)
  · exact h26.resolve_right fun hb => Bool.noConfusion (hb.symm.trans hm)
  · exact h27.resolve_right fun hb => Bool.noConfusion (hb.symm.trans hm)
  · exact h28.resolve_right fun hb => Bool.noConfusion (hb.symm.trans hm)
  · exact h29.resolve_right fun hb => Bool.noConfusion (hb.symm.trans hm)
  · exact h30.resolve_right fun hb => Bool.noConfusion (hb.symm.trans hm)
  · exact h31.resolve_right fun hb => Bool.noConfusion (hb.symm.trans hm)
  · exact h32.resolve_right fun hb => Bool.noConfusion (hb.symm.trans hm)
  · exact h33.resolve_right fun hb => Bool.noConfusion (hb.symm.trans hm)
  · exact h34.resolve_right fun hb => Bool.noConfusion (hb.symm.trans hm)
  · exact h35.resolve_right fun hb => Bool.noConfusion (hb.symm.trans hm)
  · exact h36.resolve_right fun hb => Bool.noConfusion (hb.symm.trans hm)
  · exact hp

end Sys2Proof.Machine
end

