-- ==== Sys2Proof/Laws/Ops.lean ====
section
/-!
SUPPORT. Machine/Ops.lean: every operation of it keeps what `Keeps` says, and changes only the parts of its mask.
-/
set_option linter.unusedTactic false
set_option linter.unreachableTactic false
set_option linter.unusedVariables false

namespace Sys2Proof.Machine

theorem State.answer_keeps {s₀ : State} (s : State) (l : List Word) (h_s : Keeps s₀ s) : Keeps s₀ (State.answer s l) := by
  unfold State.answer
  try dsimp only
  with_reducible
    repeat'
      first
      | assumption | (apply Keeps.foldl; intro u a hu; try dsimp only) | apply Keeps.ite | split | intro _
      | refine Keeps.written rfl rfl rfl rfl rfl rfl rfl rfl ?_

theorem State.tick_keeps {s₀ : State} (s : State) (t : Nat) (h_s : Keeps s₀ s) : Keeps s₀ (State.tick s t) :=
  h_s.trans ⟨rfl, le_max_left _ _, id, id, fun h => le_trans h (le_max_left _ _), id, id⟩

theorem State.setReg_keeps {s₀ : State} (s : State) (a : Nat) (w : Word) (h_s : Keeps s₀ s)
    : Keeps s₀ (State.setReg s a w) :=
  h_s.updRegs (cwf_rset a w)

theorem State.setRf_keeps {s₀ : State} (s : State) (a : Nat) (hi : Nat) (lo : Nat) (v : Nat) (h_s : Keeps s₀ s)
    : Keeps s₀ (State.setRf s a hi lo v) := by
  unfold State.setRf
  try dsimp only
  with_reducible
    repeat'
      first
      | assumption | apply State.setReg_keeps | (apply Keeps.foldl; intro u a hu; try dsimp only) | apply Keeps.ite
      | split | intro _ | refine Keeps.written rfl rfl rfl rfl rfl rfl rfl rfl ?_

theorem State.cntSat_keeps {s₀ : State} (s : State) (a : Nat) (hi : Nat) (lo : Nat) (n : Nat) (h_s : Keeps s₀ s)
    : Keeps s₀ (State.cntSat s a hi lo n) := by
  unfold State.cntSat
  try dsimp only
  with_reducible
    repeat'
      first
      | assumption | apply State.setRf_keeps | (apply Keeps.foldl; intro u a hu; try dsimp only) | apply Keeps.ite | split
      | intro _ | refine Keeps.written rfl rfl rfl rfl rfl rfl rfl rfl ?_

theorem State.cntWrap_keeps {s₀ : State} (s : State) (a : Nat) (hi : Nat) (lo : Nat) (n : Nat) (h_s : Keeps s₀ s)
    : Keeps s₀ (State.cntWrap s a hi lo n) := by
  unfold State.cntWrap
  try dsimp only
  with_reducible
    repeat'
      first
      | assumption | apply State.setRf_keeps | (apply Keeps.foldl; intro u a hu; try dsimp only) | apply Keeps.ite | split
      | intro _ | refine Keeps.written rfl rfl rfl rfl rfl rfl rfl rfl ?_

theorem State.emit_keeps {s₀ : State} (s : State) (k : Traffic) (l : List Sent) (h_s : Keeps s₀ s)
    : Keeps s₀ (State.emit s k l) := by
  unfold State.emit
  try dsimp only
  with_reducible
    repeat'
      first
      | assumption | (apply Keeps.foldl; intro u a hu; try dsimp only) | apply Keeps.ite | split | intro _
      | refine Keeps.written rfl rfl rfl rfl rfl rfl rfl rfl ?_

theorem State.keepPast_keeps {s₀ : State} (s : State) (h_s : Keeps s₀ s) : Keeps s₀ (State.keepPast s) := by
  unfold State.keepPast
  try dsimp only
  with_reducible
    repeat'
      first
      | assumption | (apply Keeps.foldl; intro u a hu; try dsimp only) | apply Keeps.ite | split | intro _
      | refine Keeps.written rfl rfl rfl rfl rfl rfl rfl rfl ?_

theorem State.putBytes_keeps {s₀ : State} (s : State) (a : Nat) (l : List Byte) (h_s : Keeps s₀ s)
    : Keeps s₀ (State.putBytes s a l) :=
  h_s.updMem (cwf_memPut l a)

theorem State.putWords_keeps {s₀ : State} (s : State) (a : Nat) (l : List Word) (h_s : Keeps s₀ s)
    : Keeps s₀ (State.putWords s a l) := by
  unfold State.putWords
  try dsimp only
  with_reducible
    repeat'
      first
      | assumption | apply State.putBytes_keeps | (apply Keeps.foldl; intro u a hu; try dsimp only) | apply Keeps.ite
      | split | intro _ | refine Keeps.written rfl rfl rfl rfl rfl rfl rfl rfl ?_

theorem State.refuseWrite_keeps {s₀ : State} (s : State) (bar2 : Bool) (h_s : Keeps s₀ s)
    : Keeps s₀ (State.refuseWrite s bar2) :=
  h_s.trans ⟨rfl, le_refl _, id, id, id, fun _ _ => rfl, fun _ => min_le_left _ _⟩

theorem State.setDom_keeps {s₀ : State} (s : State) (d : Nat) (x3 : Mech) (h_s : Keeps s₀ s)
    : Keeps s₀ (State.setDom s d x3) := by
  unfold State.setDom
  try dsimp only
  with_reducible
    repeat'
      first
      | assumption | (apply Keeps.foldl; intro u a hu; try dsimp only) | apply Keeps.ite | split | intro _
      | refine Keeps.written rfl rfl rfl rfl rfl rfl rfl rfl ?_

theorem State.setEl_keeps {s₀ : State} (s : State) (d : Nat) (x3 : Elec) (h_s : Keeps s₀ s)
    : Keeps s₀ (State.setEl s d x3) := by
  unfold State.setEl
  try dsimp only
  with_reducible
    repeat'
      first
      | assumption | (apply Keeps.foldl; intro u a hu; try dsimp only) | apply Keeps.ite | split | intro _
      | refine Keeps.written rfl rfl rfl rfl rfl rfl rfl rfl ?_

theorem State.unFirst_keeps {s₀ : State} (s : State) (h_s : Keeps s₀ s) : Keeps s₀ (State.unFirst s) :=
  h_s.trans ⟨rfl, le_refl _, id, id, id, fun _ _ => rfl, id⟩

theorem State.answer_only {m : Nat} {s₀ : State} (hm : 16 ||| m = m) (s : State) (l : List Word)
    (h_s : Only m s₀ s) : Only m s₀ (State.answer s l) := by
  unfold State.answer
  try dsimp only
  with_reducible
    repeat'
      first
      | assumption | exact .inr (mask_bit hm (by decide)) | exact .inl rfl | exact mask_trans (by decide) hm
      | (apply Only.foldl; intro u a hu; try dsimp only) | apply Only.ite | split | intro _
      | refine Only.written rfl ?_ ?_ ?_ ?_ ?_ ?_ ?_ ?_ ?_ ?_ ?_ ?_ ?_ ?_ ?_ ?_ ?_ ?_ ?_ ?_ ?_ ?_ ?_ ?_ ?_ ?_ ?_ ?_ ?_ ?_ ?_ ?_ ?_ ?_ ?_ ?_ ?_ ?_

theorem State.tick_only {m : Nat} {s₀ : State} (hm : 1 ||| m = m) (s : State) (t : Nat)
    (h_s : Only m s₀ s) : Only m s₀ (State.tick s t) := by
  unfold State.tick
  try dsimp only
  with_reducible
    repeat'
      first
      | assumption | exact .inr (mask_bit hm (by decide)) | exact .inl rfl | exact mask_trans (by decide) hm
      | (apply Only.foldl; intro u a hu; try dsimp only) | apply Only.ite | split | intro _
      | refine Only.written rfl ?_ ?_ ?_ ?_ ?_ ?_ ?_ ?_ ?_ ?_ ?_ ?_ ?_ ?_ ?_ ?_ ?_ ?_ ?_ ?_ ?_ ?_ ?_ ?_ ?_ ?_ ?_ ?_ ?_ ?_ ?_ ?_ ?_ ?_ ?_ ?_ ?_ ?_

theorem State.setReg_only {m : Nat} {s₀ : State} (hm : 4 ||| m = m) (s : State) (a : Nat) (w : Word)
    (h_s : Only m s₀ s) : Only m s₀ (State.setReg s a w) := by
  unfold State.setReg
  try dsimp only
  with_reducible
    repeat'
      first
      | assumption | exact .inr (mask_bit hm (by decide)) | exact .inl rfl | exact mask_trans (by decide) hm
      | (apply Only.foldl; intro u a hu; try dsimp only) | apply Only.ite | split | intro _
      | refine Only.written rfl ?_ ?_ ?_ ?_ ?_ ?_ ?_ ?_ ?_ ?_ ?_ ?_ ?_ ?_ ?_ ?_ ?_ ?_ ?_ ?_ ?_ ?_ ?_ ?_ ?_ ?_ ?_ ?_ ?_ ?_ ?_ ?_ ?_ ?_ ?_ ?_ ?_ ?_

theorem State.setRf_only {m : Nat} {s₀ : State} (hm : 4 ||| m = m) (s : State) (a : Nat) (hi : Nat) (lo : Nat) (v : Nat)
    (h_s : Only m s₀ s) : Only m s₀ (State.setRf s a hi lo v) := by
  unfold State.setRf
  try dsimp only
  with_reducible
    repeat'
      first
      | assumption | exact mask_trans (by decide) hm | apply State.setReg_only
      | (apply Only.foldl; intro u a hu; try dsimp only) | apply Only.ite | split | intro _

theorem State.cntSat_only {m : Nat} {s₀ : State} (hm : 4 ||| m = m) (s : State) (a : Nat) (hi : Nat) (lo : Nat) (n : Nat)
    (h_s : Only m s₀ s) : Only m s₀ (State.cntSat s a hi lo n) := by
  unfold State.cntSat
  try dsimp only
  with_reducible
    repeat'
      first
      | assumption | exact mask_trans (by decide) hm | apply State.setRf_only
      | (apply Only.foldl; intro u a hu; try dsimp only) | apply Only.ite | split | intro _

theorem State.cntWrap_only {m : Nat} {s₀ : State} (hm : 4 ||| m = m) (s : State) (a : Nat) (hi : Nat) (lo : Nat) (n : Nat)
    (h_s : Only m s₀ s) : Only m s₀ (State.cntWrap s a hi lo n) := by
  unfold State.cntWrap
  try dsimp only
  with_reducible
    repeat'
      first
      | assumption | exact mask_trans (by decide) hm | apply State.setRf_only
      | (apply Only.foldl; intro u a hu; try dsimp only) | apply Only.ite | split | intro _

theorem State.emit_only {m : Nat} {s₀ : State} (hm : 16 ||| m = m) (s : State) (k : Traffic) (l : List Sent)
    (h_s : Only m s₀ s) : Only m s₀ (State.emit s k l) := by
  unfold State.emit
  try dsimp only
  with_reducible
    repeat'
      first
      | assumption | exact .inr (mask_bit hm (by decide)) | exact .inl rfl | exact mask_trans (by decide) hm
      | (apply Only.foldl; intro u a hu; try dsimp only) | apply Only.ite | split | intro _
      | refine Only.written rfl ?_ ?_ ?_ ?_ ?_ ?_ ?_ ?_ ?_ ?_ ?_ ?_ ?_ ?_ ?_ ?_ ?_ ?_ ?_ ?_ ?_ ?_ ?_ ?_ ?_ ?_ ?_ ?_ ?_ ?_ ?_ ?_ ?_ ?_ ?_ ?_ ?_ ?_

theorem State.keepPast_only {m : Nat} {s₀ : State} (hm : 34359738368 ||| m = m) (s : State)
    (h_s : Only m s₀ s) : Only m s₀ (State.keepPast s) := by
  unfold State.keepPast
  try dsimp only
  with_reducible
    repeat'
      first
      | assumption | exact .inr (mask_bit hm (by decide)) | exact .inl rfl | exact mask_trans (by decide) hm
      | (apply Only.foldl; intro u a hu; try dsimp only) | apply Only.ite | split | intro _
      | refine Only.written rfl ?_ ?_ ?_ ?_ ?_ ?_ ?_ ?_ ?_ ?_ ?_ ?_ ?_ ?_ ?_ ?_ ?_ ?_ ?_ ?_ ?_ ?_ ?_ ?_ ?_ ?_ ?_ ?_ ?_ ?_ ?_ ?_ ?_ ?_ ?_ ?_ ?_ ?_

theorem State.putBytes_only {m : Nat} {s₀ : State} (hm : 8 ||| m = m) (s : State) (a : Nat) (l : List Byte)
    (h_s : Only m s₀ s) : Only m s₀ (State.putBytes s a l) := by
  unfold State.putBytes
  try dsimp only
  with_reducible
    repeat'
      first
      | assumption | exact .inr (mask_bit hm (by decide)) | exact .inl rfl | exact mask_trans (by decide) hm
      | (apply Only.foldl; intro u a hu; try dsimp only) | apply Only.ite | split | intro _
      | refine Only.written rfl ?_ ?_ ?_ ?_ ?_ ?_ ?_ ?_ ?_ ?_ ?_ ?_ ?_ ?_ ?_ ?_ ?_ ?_ ?_ ?_ ?_ ?_ ?_ ?_ ?_ ?_ ?_ ?_ ?_ ?_ ?_ ?_ ?_ ?_ ?_ ?_ ?_ ?_

theorem State.putWords_only {m : Nat} {s₀ : State} (hm : 8 ||| m = m) (s : State) (a : Nat) (l : List Word)
    (h_s : Only m s₀ s) : Only m s₀ (State.putWords s a l) := by
  unfold State.putWords
  try dsimp only
  with_reducible
    repeat'
      first
      | assumption | exact mask_trans (by decide) hm | apply State.putBytes_only
      | (apply Only.foldl; intro u a hu; try dsimp only) | apply Only.ite | split | intro _

theorem State.refuseWrite_only {m : Nat} {s₀ : State} (hm : 2 ||| m = m) (s : State) (bar2 : Bool)
    (h_s : Only m s₀ s) : Only m s₀ (State.refuseWrite s bar2) := by
  unfold State.refuseWrite
  try dsimp only
  with_reducible
    repeat'
      first
      | assumption | exact .inr (mask_bit hm (by decide)) | exact .inl rfl | exact mask_trans (by decide) hm
      | (apply Only.foldl; intro u a hu; try dsimp only) | apply Only.ite | split | intro _
      | refine Only.written rfl ?_ ?_ ?_ ?_ ?_ ?_ ?_ ?_ ?_ ?_ ?_ ?_ ?_ ?_ ?_ ?_ ?_ ?_ ?_ ?_ ?_ ?_ ?_ ?_ ?_ ?_ ?_ ?_ ?_ ?_ ?_ ?_ ?_ ?_ ?_ ?_ ?_ ?_

theorem State.setDom_only {m : Nat} {s₀ : State} (hm : 32768 ||| m = m) (s : State) (d : Nat) (x3 : Mech)
    (h_s : Only m s₀ s) : Only m s₀ (State.setDom s d x3) := by
  unfold State.setDom
  try dsimp only
  with_reducible
    repeat'
      first
      | assumption | exact .inr (mask_bit hm (by decide)) | exact .inl rfl | exact mask_trans (by decide) hm
      | (apply Only.foldl; intro u a hu; try dsimp only) | apply Only.ite | split | intro _
      | refine Only.written rfl ?_ ?_ ?_ ?_ ?_ ?_ ?_ ?_ ?_ ?_ ?_ ?_ ?_ ?_ ?_ ?_ ?_ ?_ ?_ ?_ ?_ ?_ ?_ ?_ ?_ ?_ ?_ ?_ ?_ ?_ ?_ ?_ ?_ ?_ ?_ ?_ ?_ ?_

theorem State.setEl_only {m : Nat} {s₀ : State} (hm : 65536 ||| m = m) (s : State) (d : Nat) (x3 : Elec)
    (h_s : Only m s₀ s) : Only m s₀ (State.setEl s d x3) := by
  unfold State.setEl
  try dsimp only
  with_reducible
    repeat'
      first
      | assumption | exact .inr (mask_bit hm (by decide)) | exact .inl rfl | exact mask_trans (by decide) hm
      | (apply Only.foldl; intro u a hu; try dsimp only) | apply Only.ite | split | intro _
      | refine Only.written rfl ?_ ?_ ?_ ?_ ?_ ?_ ?_ ?_ ?_ ?_ ?_ ?_ ?_ ?_ ?_ ?_ ?_ ?_ ?_ ?_ ?_ ?_ ?_ ?_ ?_ ?_ ?_ ?_ ?_ ?_ ?_ ?_ ?_ ?_ ?_ ?_ ?_ ?_

theorem State.unFirst_only {m : Nat} {s₀ : State} (hm : 2 ||| m = m) (s : State)
    (h_s : Only m s₀ s) : Only m s₀ (State.unFirst s) := by
  unfold State.unFirst
  try dsimp only
  with_reducible
    repeat'
      first
      | assumption | exact .inr (mask_bit hm (by decide)) | exact .inl rfl | exact mask_trans (by decide) hm
      | (apply Only.foldl; intro u a hu; try dsimp only) | apply Only.ite | split | intro _
      | refine Only.written rfl ?_ ?_ ?_ ?_ ?_ ?_ ?_ ?_ ?_ ?_ ?_ ?_ ?_ ?_ ?_ ?_ ?_ ?_ ?_ ?_ ?_ ?_ ?_ ?_ ?_ ?_ ?_ ?_ ?_ ?_ ?_ ?_ ?_ ?_ ?_ ?_ ?_ ?_

end Sys2Proof.Machine
end

