-- ==== Sys2Proof/Laws/AdcTrig.lean ====
section
/-!
SUPPORT. Machine/AdcTrig.lean: every operation of it keeps what `Keeps` says, and changes only the parts of its mask.
-/
set_option linter.unusedTactic false
set_option linter.unreachableTactic false
set_option linter.unusedVariables false

namespace Sys2Proof.Machine

theorem State.setConv_keeps {s₀ : State} (s : State) (k : Nat) (x3 : Adc) (h_s : Keeps s₀ s)
    : Keeps s₀ (State.setConv s k x3) := by
  unfold State.setConv
  try dsimp only
  with_reducible
    repeat'
      first
      | assumption | (apply Keeps.foldl; intro u a hu; try dsimp only) | apply Keeps.ite | split | intro _
      | refine Keeps.written rfl rfl rfl rfl rfl rfl rfl rfl ?_

theorem dropInst_keeps {s₀ : State} (s : State) (k : Nat) (st : Nat) (h_s : Keeps s₀ s) : Keeps s₀ (dropInst s k st) := by
  unfold dropInst
  try dsimp only
  with_reducible
    repeat'
      first
      | assumption | apply State.setConv_keeps | apply State.cntSat_keeps
      | (apply Keeps.foldl; intro u a hu; try dsimp only) | apply Keeps.ite | split | intro _
      | refine Keeps.written rfl rfl rfl rfl rfl rfl rfl rfl ?_

theorem stepTrigger_keeps {s₀ : State} (s : State) (k : Nat) (st : Nat) (at_ : Nat) (h_s : Keeps s₀ s)
    : Keeps s₀ (stepTrigger s k st at_) := by
  unfold stepTrigger
  try dsimp only
  with_reducible
    repeat'
      first
      | assumption | apply State.setConv_keeps | apply State.cntSat_keeps | apply dropInst_keeps
      | (apply Keeps.foldl; intro u a hu; try dsimp only) | apply Keeps.ite | split | intro _
      | refine Keeps.written rfl rfl rfl rfl rfl rfl rfl rfl ?_

theorem convTrigger_keeps {s₀ : State} (s : State) (k : Nat) (trig : Nat) (src : Nat) (at_ : Nat) (h_s : Keeps s₀ s)
    : Keeps s₀ (convTrigger s k trig src at_) := by
  unfold convTrigger
  try dsimp only
  with_reducible
    repeat'
      first
      | assumption | apply stepTrigger_keeps | (apply Keeps.foldl; intro u a hu; try dsimp only) | apply Keeps.ite | split
      | intro _ | refine Keeps.written rfl rfl rfl rfl rfl rfl rfl rfl ?_

theorem phaseTrigger_keeps {s₀ : State} (s : State) (c : Nat) (phase : Nat) (at_ : Nat) (h_s : Keeps s₀ s)
    : Keeps s₀ (phaseTrigger s c phase at_) := by
  unfold phaseTrigger
  try dsimp only
  with_reducible
    repeat'
      first
      | assumption | apply convTrigger_keeps | (apply Keeps.foldl; intro u a hu; try dsimp only) | apply Keeps.ite | split
      | intro _ | refine Keeps.written rfl rfl rfl rfl rfl rfl rfl rfl ?_

theorem markTrigger_keeps {s₀ : State} (s : State) (m : Nat) (h_s : Keeps s₀ s) : Keeps s₀ (markTrigger s m) := by
  unfold markTrigger
  try dsimp only
  with_reducible
    repeat'
      first
      | assumption | apply convTrigger_keeps | (apply Keeps.foldl; intro u a hu; try dsimp only) | apply Keeps.ite | split
      | intro _ | refine Keeps.written rfl rfl rfl rfl rfl rfl rfl rfl ?_

theorem chainTrigger_keeps {s₀ : State} (s : State) (k : Nat) (h_s : Keeps s₀ s) : Keeps s₀ (chainTrigger s k) := by
  unfold chainTrigger
  try dsimp only
  with_reducible
    repeat'
      first
      | assumption | apply convTrigger_keeps | (apply Keeps.foldl; intro u a hu; try dsimp only) | apply Keeps.ite | split
      | intro _ | refine Keeps.written rfl rfl rfl rfl rfl rfl rfl rfl ?_

theorem State.setConv_only {m : Nat} {s₀ : State} (hm : 262144 ||| m = m) (s : State) (k : Nat) (x3 : Adc)
    (h_s : Only m s₀ s) : Only m s₀ (State.setConv s k x3) := by
  unfold State.setConv
  try dsimp only
  with_reducible
    repeat'
      first
      | assumption | exact .inr (mask_bit hm (by decide)) | exact .inl rfl | exact mask_trans (by decide) hm
      | (apply Only.foldl; intro u a hu; try dsimp only) | apply Only.ite | split | intro _
      | refine Only.written rfl ?_ ?_ ?_ ?_ ?_ ?_ ?_ ?_ ?_ ?_ ?_ ?_ ?_ ?_ ?_ ?_ ?_ ?_ ?_ ?_ ?_ ?_ ?_ ?_ ?_ ?_ ?_ ?_ ?_ ?_ ?_ ?_ ?_ ?_ ?_ ?_ ?_ ?_

theorem dropInst_only {m : Nat} {s₀ : State} (hm : 262148 ||| m = m) (s : State) (k : Nat) (st : Nat)
    (h_s : Only m s₀ s) : Only m s₀ (dropInst s k st) := by
  unfold dropInst
  try dsimp only
  with_reducible
    repeat'
      first
      | assumption | exact mask_trans (by decide) hm | apply State.setConv_only | apply State.cntSat_only
      | (apply Only.foldl; intro u a hu; try dsimp only) | apply Only.ite | split | intro _

theorem stepTrigger_only {m : Nat} {s₀ : State} (hm : 262148 ||| m = m) (s : State) (k : Nat) (st : Nat) (at_ : Nat)
    (h_s : Only m s₀ s) : Only m s₀ (stepTrigger s k st at_) := by
  unfold stepTrigger
  try dsimp only
  with_reducible
    repeat'
      first
      | assumption | exact mask_trans (by decide) hm | apply State.setConv_only | apply State.cntSat_only
      | apply dropInst_only | (apply Only.foldl; intro u a hu; try dsimp only) | apply Only.ite | split | intro _

theorem convTrigger_only {m : Nat} {s₀ : State} (hm : 262148 ||| m = m) (s : State) (k : Nat) (trig : Nat) (src : Nat)
    (at_ : Nat) (h_s : Only m s₀ s) : Only m s₀ (convTrigger s k trig src at_) := by
  unfold convTrigger
  try dsimp only
  with_reducible
    repeat'
      first
      | assumption | exact mask_trans (by decide) hm | apply stepTrigger_only
      | (apply Only.foldl; intro u a hu; try dsimp only) | apply Only.ite | split | intro _

theorem phaseTrigger_only {m : Nat} {s₀ : State} (hm : 262148 ||| m = m) (s : State) (c : Nat) (phase : Nat) (at_ : Nat)
    (h_s : Only m s₀ s) : Only m s₀ (phaseTrigger s c phase at_) := by
  unfold phaseTrigger
  try dsimp only
  with_reducible
    repeat'
      first
      | assumption | exact mask_trans (by decide) hm | apply convTrigger_only
      | (apply Only.foldl; intro u a hu; try dsimp only) | apply Only.ite | split | intro _

theorem markTrigger_only {m : Nat} {s₀ : State} (hm : 262148 ||| m = m) (s : State) (m2 : Nat)
    (h_s : Only m s₀ s) : Only m s₀ (markTrigger s m2) := by
  unfold markTrigger
  try dsimp only
  with_reducible
    repeat'
      first
      | assumption | exact mask_trans (by decide) hm | apply convTrigger_only
      | (apply Only.foldl; intro u a hu; try dsimp only) | apply Only.ite | split | intro _

theorem chainTrigger_only {m : Nat} {s₀ : State} (hm : 262148 ||| m = m) (s : State) (k : Nat)
    (h_s : Only m s₀ s) : Only m s₀ (chainTrigger s k) := by
  unfold chainTrigger
  try dsimp only
  with_reducible
    repeat'
      first
      | assumption | exact mask_trans (by decide) hm | apply convTrigger_only
      | (apply Only.foldl; intro u a hu; try dsimp only) | apply Only.ite | split | intro _

end Sys2Proof.Machine
end

