-- ==== Sys2Proof/Laws/Irq.lean ====
section
/-!
SUPPORT. Machine/Irq.lean: every operation of it keeps what `Keeps` says, and changes only the parts of its mask.
-/
set_option linter.unusedTactic false
set_option linter.unreachableTactic false
set_option linter.unusedVariables false

namespace Sys2Proof.Machine

theorem State.arrive_keeps {s₀ : State} (s : State) (src : Nat) (h_s : Keeps s₀ s) : Keeps s₀ (State.arrive s src) := by
  unfold State.arrive
  try dsimp only
  with_reducible
    repeat'
      first
      | assumption | (apply Keeps.foldl; intro u a hu; try dsimp only) | apply Keeps.ite | split | intro _
      | refine Keeps.written rfl rfl rfl rfl rfl rfl rfl rfl ?_

theorem State.irqTurn_keeps {s₀ : State} (s : State) (rank : Nat) (h_s : Keeps s₀ s) : Keeps s₀ (State.irqTurn s rank) := by
  unfold State.irqTurn
  try dsimp only
  with_reducible
    repeat'
      first
      | assumption | apply State.tick_keeps | (apply Keeps.foldl; intro u a hu; try dsimp only) | apply Keeps.ite | split
      | intro _ | refine Keeps.written rfl rfl rfl rfl rfl rfl rfl rfl ?_

theorem State.claim_keeps {s₀ : State} (s : State) (t : Nat) (h_s : Keeps s₀ s) : Keeps s₀ (State.claim s t) := by
  unfold State.claim
  try dsimp only
  with_reducible
    repeat'
      first
      | assumption | apply State.irqTurn_keeps | (apply Keeps.foldl; intro u a hu; try dsimp only) | apply Keeps.ite
      | split | intro _ | refine Keeps.written rfl rfl rfl rfl rfl rfl rfl rfl ?_

theorem State.complete_keeps {s₀ : State} (s : State) (t : Nat) (src : Nat) (h_s : Keeps s₀ s)
    : Keeps s₀ (State.complete s t src) := by
  unfold State.complete
  try dsimp only
  with_reducible
    repeat'
      first
      | assumption | apply State.irqTurn_keeps | (apply Keeps.foldl; intro u a hu; try dsimp only) | apply Keeps.ite
      | split | intro _ | refine Keeps.written rfl rfl rfl rfl rfl rfl rfl rfl ?_

theorem State.irqReview_keeps {s₀ : State} (s : State) (h_s : Keeps s₀ s) : Keeps s₀ (State.irqReview s) := by
  unfold State.irqReview
  try dsimp only
  with_reducible
    repeat'
      first
      | assumption | (apply Keeps.foldl; intro u a hu; try dsimp only) | apply Keeps.ite | split | intro _
      | refine Keeps.written rfl rfl rfl rfl rfl rfl rfl rfl ?_

theorem idleWrite_keeps {s₀ : State} (set : Bool) (byWarden : Bool) (v : Word) (s : State) (h_s : Keeps s₀ s)
    : Keeps s₀ (idleWrite set byWarden v s) := by
  unfold idleWrite
  try dsimp only
  with_reducible
    repeat'
      first
      | assumption | apply State.irqReview_keeps | (apply Keeps.foldl; intro u a hu; try dsimp only) | apply Keeps.ite
      | split | intro _ | refine Keeps.written rfl rfl rfl rfl rfl rfl rfl rfl ?_

theorem pendSet_keeps {s₀ : State} (s : State) (w : Nat) (v : Word) (h_s : Keeps s₀ s) : Keeps s₀ (pendSet s w v) := by
  unfold pendSet
  try dsimp only
  with_reducible
    repeat'
      first
      | assumption | (apply Keeps.foldl; intro u a hu; try dsimp only) | apply Keeps.ite | split | intro _
      | refine Keeps.written rfl rfl rfl rfl rfl rfl rfl rfl ?_

theorem enWrite_keeps {s₀ : State} (set : Bool) (k : Nat) (w : Nat) (v : Word) (s : State) (h_s : Keeps s₀ s)
    : Keeps s₀ (enWrite set k w v s) := by
  unfold enWrite
  try dsimp only
  with_reducible
    repeat'
      first
      | assumption | apply State.irqReview_keeps | apply State.setReg_keeps
      | (apply Keeps.foldl; intro u a hu; try dsimp only) | apply Keeps.ite | split | intro _
      | refine Keeps.written rfl rfl rfl rfl rfl rfl rfl rfl ?_

theorem msixIssue_keeps {s₀ : State} (k : Nat) (s : State) (h_s : Keeps s₀ s) : Keeps s₀ (msixIssue k s) := by
  unfold msixIssue
  try dsimp only
  with_reducible
    repeat'
      first
      | assumption | apply State.emit_keeps | (apply Keeps.foldl; intro u a hu; try dsimp only) | apply Keeps.ite | split
      | intro _ | refine Keeps.written rfl rfl rfl rfl rfl rfl rfl rfl ?_

theorem State.arrive_only {m : Nat} {s₀ : State} (hm : 544 ||| m = m) (s : State) (src : Nat)
    (h_s : Only m s₀ s) : Only m s₀ (State.arrive s src) := by
  unfold State.arrive
  try dsimp only
  with_reducible
    repeat'
      first
      | assumption | exact .inr (mask_bit hm (by decide)) | exact .inl rfl | exact mask_trans (by decide) hm
      | (apply Only.foldl; intro u a hu; try dsimp only) | apply Only.ite | split | intro _
      | refine Only.written rfl ?_ ?_ ?_ ?_ ?_ ?_ ?_ ?_ ?_ ?_ ?_ ?_ ?_ ?_ ?_ ?_ ?_ ?_ ?_ ?_ ?_ ?_ ?_ ?_ ?_ ?_ ?_ ?_ ?_ ?_ ?_ ?_ ?_ ?_ ?_ ?_ ?_ ?_

theorem State.irqTurn_only {m : Nat} {s₀ : State} (hm : 513 ||| m = m) (s : State) (rank : Nat)
    (h_s : Only m s₀ s) : Only m s₀ (State.irqTurn s rank) := by
  unfold State.irqTurn
  try dsimp only
  with_reducible
    repeat'
      first
      | assumption | exact .inr (mask_bit hm (by decide)) | exact .inl rfl | exact mask_trans (by decide) hm
      | apply State.tick_only | (apply Only.foldl; intro u a hu; try dsimp only) | apply Only.ite | split | intro _
      | refine Only.written rfl ?_ ?_ ?_ ?_ ?_ ?_ ?_ ?_ ?_ ?_ ?_ ?_ ?_ ?_ ?_ ?_ ?_ ?_ ?_ ?_ ?_ ?_ ?_ ?_ ?_ ?_ ?_ ?_ ?_ ?_ ?_ ?_ ?_ ?_ ?_ ?_ ?_ ?_

theorem State.claim_only {m : Nat} {s₀ : State} (hm : 529 ||| m = m) (s : State) (t : Nat)
    (h_s : Only m s₀ s) : Only m s₀ (State.claim s t) := by
  unfold State.claim
  try dsimp only
  with_reducible
    repeat'
      first
      | assumption | exact .inr (mask_bit hm (by decide)) | exact .inl rfl | exact mask_trans (by decide) hm
      | apply State.irqTurn_only | (apply Only.foldl; intro u a hu; try dsimp only) | apply Only.ite | split | intro _
      | refine Only.written rfl ?_ ?_ ?_ ?_ ?_ ?_ ?_ ?_ ?_ ?_ ?_ ?_ ?_ ?_ ?_ ?_ ?_ ?_ ?_ ?_ ?_ ?_ ?_ ?_ ?_ ?_ ?_ ?_ ?_ ?_ ?_ ?_ ?_ ?_ ?_ ?_ ?_ ?_

theorem State.complete_only {m : Nat} {s₀ : State} (hm : 513 ||| m = m) (s : State) (t : Nat) (src : Nat)
    (h_s : Only m s₀ s) : Only m s₀ (State.complete s t src) := by
  unfold State.complete
  try dsimp only
  with_reducible
    repeat'
      first
      | assumption | exact .inr (mask_bit hm (by decide)) | exact .inl rfl | exact mask_trans (by decide) hm
      | apply State.irqTurn_only | (apply Only.foldl; intro u a hu; try dsimp only) | apply Only.ite | split | intro _
      | refine Only.written rfl ?_ ?_ ?_ ?_ ?_ ?_ ?_ ?_ ?_ ?_ ?_ ?_ ?_ ?_ ?_ ?_ ?_ ?_ ?_ ?_ ?_ ?_ ?_ ?_ ?_ ?_ ?_ ?_ ?_ ?_ ?_ ?_ ?_ ?_ ?_ ?_ ?_ ?_

theorem State.irqReview_only {m : Nat} {s₀ : State} (hm : 512 ||| m = m) (s : State)
    (h_s : Only m s₀ s) : Only m s₀ (State.irqReview s) := by
  unfold State.irqReview
  try dsimp only
  with_reducible
    repeat'
      first
      | assumption | exact .inr (mask_bit hm (by decide)) | exact .inl rfl | exact mask_trans (by decide) hm
      | (apply Only.foldl; intro u a hu; try dsimp only) | apply Only.ite | split | intro _
      | refine Only.written rfl ?_ ?_ ?_ ?_ ?_ ?_ ?_ ?_ ?_ ?_ ?_ ?_ ?_ ?_ ?_ ?_ ?_ ?_ ?_ ?_ ?_ ?_ ?_ ?_ ?_ ?_ ?_ ?_ ?_ ?_ ?_ ?_ ?_ ?_ ?_ ?_ ?_ ?_

theorem idleWrite_only {m : Nat} {s₀ : State} (hm : 512 ||| m = m) (set : Bool) (byWarden : Bool) (v : Word) (s : State)
    (h_s : Only m s₀ s) : Only m s₀ (idleWrite set byWarden v s) := by
  unfold idleWrite
  try dsimp only
  with_reducible
    repeat'
      first
      | assumption | exact .inr (mask_bit hm (by decide)) | exact .inl rfl | exact mask_trans (by decide) hm
      | apply State.irqReview_only | (apply Only.foldl; intro u a hu; try dsimp only) | apply Only.ite | split | intro _
      | refine Only.written rfl ?_ ?_ ?_ ?_ ?_ ?_ ?_ ?_ ?_ ?_ ?_ ?_ ?_ ?_ ?_ ?_ ?_ ?_ ?_ ?_ ?_ ?_ ?_ ?_ ?_ ?_ ?_ ?_ ?_ ?_ ?_ ?_ ?_ ?_ ?_ ?_ ?_ ?_

theorem pendSet_only {m : Nat} {s₀ : State} (hm : 544 ||| m = m) (s : State) (w : Nat) (v : Word)
    (h_s : Only m s₀ s) : Only m s₀ (pendSet s w v) := by
  unfold pendSet
  try dsimp only
  with_reducible
    repeat'
      first
      | assumption | exact .inr (mask_bit hm (by decide)) | exact .inl rfl | exact mask_trans (by decide) hm
      | (apply Only.foldl; intro u a hu; try dsimp only) | apply Only.ite | split | intro _
      | refine Only.written rfl ?_ ?_ ?_ ?_ ?_ ?_ ?_ ?_ ?_ ?_ ?_ ?_ ?_ ?_ ?_ ?_ ?_ ?_ ?_ ?_ ?_ ?_ ?_ ?_ ?_ ?_ ?_ ?_ ?_ ?_ ?_ ?_ ?_ ?_ ?_ ?_ ?_ ?_

theorem enWrite_only {m : Nat} {s₀ : State} (hm : 516 ||| m = m) (set : Bool) (k : Nat) (w : Nat) (v : Word) (s : State)
    (h_s : Only m s₀ s) : Only m s₀ (enWrite set k w v s) := by
  unfold enWrite
  try dsimp only
  with_reducible
    repeat'
      first
      | assumption | exact mask_trans (by decide) hm | apply State.irqReview_only | apply State.setReg_only
      | (apply Only.foldl; intro u a hu; try dsimp only) | apply Only.ite | split | intro _

theorem msixIssue_only {m : Nat} {s₀ : State} (hm : 528 ||| m = m) (k : Nat) (s : State)
    (h_s : Only m s₀ s) : Only m s₀ (msixIssue k s) := by
  unfold msixIssue
  try dsimp only
  with_reducible
    repeat'
      first
      | assumption | exact .inr (mask_bit hm (by decide)) | exact .inl rfl | exact mask_trans (by decide) hm
      | apply State.emit_only | (apply Only.foldl; intro u a hu; try dsimp only) | apply Only.ite | split | intro _
      | refine Only.written rfl ?_ ?_ ?_ ?_ ?_ ?_ ?_ ?_ ?_ ?_ ?_ ?_ ?_ ?_ ?_ ?_ ?_ ?_ ?_ ?_ ?_ ?_ ?_ ?_ ?_ ?_ ?_ ?_ ?_ ?_ ?_ ?_ ?_ ?_ ?_ ?_ ?_ ?_

end Sys2Proof.Machine
end

