-- ==== Sys2Proof/Laws/Cmp.lean ====
section
/-!
SUPPORT. Machine/Cmp.lean: every operation of it keeps what `Keeps` says, and changes only the parts of its mask.
-/
set_option linter.unusedTactic false
set_option linter.unreachableTactic false
set_option linter.unusedVariables false

namespace Sys2Proof.Machine

theorem State.setWin_keeps {s₀ : State} (s : State) (w : Nat) (x3 : Win) (h_s : Keeps s₀ s)
    : Keeps s₀ (State.setWin s w x3) := by
  unfold State.setWin
  try dsimp only
  with_reducible
    repeat'
      first
      | assumption | (apply Keeps.foldl; intro u a hu; try dsimp only) | apply Keeps.ite | split | intro _
      | refine Keeps.written rfl rfl rfl rfl rfl rfl rfl rfl ?_

theorem blankEdge_keeps {s₀ : State} (s : State) (w : Nat) (at_ : Nat) (h_s : Keeps s₀ s)
    : Keeps s₀ (blankEdge s w at_) := by
  unfold blankEdge
  try dsimp only
  with_reducible
    repeat'
      first
      | assumption | apply State.setWin_keeps | (apply Keeps.foldl; intro u a hu; try dsimp only) | apply Keeps.ite
      | split | intro _ | refine Keeps.written rfl rfl rfl rfl rfl rfl rfl rfl ?_

theorem unblankEdge_keeps {s₀ : State} (s : State) (w : Nat) (h_s : Keeps s₀ s) : Keeps s₀ (unblankEdge s w) := by
  unfold unblankEdge
  try dsimp only
  with_reducible
    repeat'
      first
      | assumption | apply State.setWin_keeps | (apply Keeps.foldl; intro u a hu; try dsimp only) | apply Keeps.ite
      | split | intro _ | refine Keeps.written rfl rfl rfl rfl rfl rfl rfl rfl ?_

theorem winLoad_keeps {s₀ : State} (s : State) (c : Nat) (old : Nat × Nat) (new : Nat × Nat) (at_ : Nat) (h_s
    : Keeps s₀ s) : Keeps s₀ (winLoad s c old new at_) := by
  unfold winLoad
  try dsimp only
  with_reducible
    repeat'
      first
      | assumption | apply State.setWin_keeps | (apply Keeps.foldl; intro u a hu; try dsimp only) | apply Keeps.ite
      | split | intro _ | refine Keeps.written rfl rfl rfl rfl rfl rfl rfl rfl ?_

theorem winUndecide_keeps {s₀ : State} (s : State) (w : Nat) (h_s : Keeps s₀ s) : Keeps s₀ (winUndecide s w) := by
  unfold winUndecide
  try dsimp only
  with_reducible
    repeat'
      first
      | assumption | apply State.setWin_keeps | (apply Keeps.foldl; intro u a hu; try dsimp only) | apply Keeps.ite
      | split | intro _ | refine Keeps.written rfl rfl rfl rfl rfl rfl rfl rfl ?_

theorem winEvent_keeps {s₀ : State} (s : State) (w : Nat) (h_s : Keeps s₀ s) : Keeps s₀ (winEvent s w) := by
  unfold winEvent
  try dsimp only
  with_reducible
    repeat'
      first
      | assumption | apply State.arrive_keeps | (apply Keeps.foldl; intro u a hu; try dsimp only) | apply Keeps.ite
      | split | intro _ | refine Keeps.written rfl rfl rfl rfl rfl rfl rfl rfl ?_

theorem winPresent_keeps {s₀ : State} (s : State) (w : Nat) (h_s : Keeps s₀ s) : Keeps s₀ (winPresent s w) := by
  unfold winPresent
  try dsimp only
  with_reducible
    repeat'
      first
      | assumption | apply State.setWin_keeps | apply winEvent_keeps | (apply Keeps.foldl; intro u a hu; try dsimp only)
      | apply Keeps.ite | split | intro _ | refine Keeps.written rfl rfl rfl rfl rfl rfl rfl rfl ?_

theorem winElements_keeps {s₀ : State} (s : State) (w : Nat) (uv : Int × Int) (e : Bool × Bool) (h_s : Keeps s₀ s)
    : Keeps s₀ (winElements s w uv e) := by
  unfold winElements
  try dsimp only
  with_reducible
    repeat'
      first
      | assumption | apply State.setWin_keeps | apply winPresent_keeps | (apply Keeps.foldl; intro u a hu; try dsimp only)
      | apply Keeps.ite | split | intro _ | refine Keeps.written rfl rfl rfl rfl rfl rfl rfl rfl ?_

theorem winDecide_keeps {s₀ : State} (s : State) (w : Nat) (uv : Int × Int) (e : Bool × Bool) (h_s : Keeps s₀ s)
    : Keeps s₀ (winDecide s w uv e) := by
  unfold winDecide
  try dsimp only
  with_reducible
    repeat'
      first
      | assumption | apply State.setWin_keeps | (apply Keeps.foldl; intro u a hu; try dsimp only) | apply Keeps.ite
      | split | intro _ | refine Keeps.written rfl rfl rfl rfl rfl rfl rfl rfl ?_

theorem State.setWin_only {m : Nat} {s₀ : State} (hm : 1048576 ||| m = m) (s : State) (w : Nat) (x3 : Win)
    (h_s : Only m s₀ s) : Only m s₀ (State.setWin s w x3) := by
  unfold State.setWin
  try dsimp only
  with_reducible
    repeat'
      first
      | assumption | exact .inr (mask_bit hm (by decide)) | exact .inl rfl | exact mask_trans (by decide) hm
      | (apply Only.foldl; intro u a hu; try dsimp only) | apply Only.ite | split | intro _
      | refine Only.written rfl ?_ ?_ ?_ ?_ ?_ ?_ ?_ ?_ ?_ ?_ ?_ ?_ ?_ ?_ ?_ ?_ ?_ ?_ ?_ ?_ ?_ ?_ ?_ ?_ ?_ ?_ ?_ ?_ ?_ ?_ ?_ ?_ ?_ ?_ ?_ ?_ ?_ ?_

theorem blankEdge_only {m : Nat} {s₀ : State} (hm : 1048576 ||| m = m) (s : State) (w : Nat) (at_ : Nat)
    (h_s : Only m s₀ s) : Only m s₀ (blankEdge s w at_) := by
  unfold blankEdge
  try dsimp only
  with_reducible
    repeat'
      first
      | assumption | exact mask_trans (by decide) hm | apply State.setWin_only
      | (apply Only.foldl; intro u a hu; try dsimp only) | apply Only.ite | split | intro _

theorem unblankEdge_only {m : Nat} {s₀ : State} (hm : 1048576 ||| m = m) (s : State) (w : Nat)
    (h_s : Only m s₀ s) : Only m s₀ (unblankEdge s w) := by
  unfold unblankEdge
  try dsimp only
  with_reducible
    repeat'
      first
      | assumption | exact mask_trans (by decide) hm | apply State.setWin_only
      | (apply Only.foldl; intro u a hu; try dsimp only) | apply Only.ite | split | intro _

theorem winLoad_only {m : Nat} {s₀ : State} (hm : 1048576 ||| m = m) (s : State) (c : Nat) (old : Nat × Nat)
    (new : Nat × Nat) (at_ : Nat) (h_s : Only m s₀ s) : Only m s₀ (winLoad s c old new at_) := by
  unfold winLoad
  try dsimp only
  with_reducible
    repeat'
      first
      | assumption | exact mask_trans (by decide) hm | apply State.setWin_only
      | (apply Only.foldl; intro u a hu; try dsimp only) | apply Only.ite | split | intro _

theorem winUndecide_only {m : Nat} {s₀ : State} (hm : 1048576 ||| m = m) (s : State) (w : Nat)
    (h_s : Only m s₀ s) : Only m s₀ (winUndecide s w) := by
  unfold winUndecide
  try dsimp only
  with_reducible
    repeat'
      first
      | assumption | exact mask_trans (by decide) hm | apply State.setWin_only
      | (apply Only.foldl; intro u a hu; try dsimp only) | apply Only.ite | split | intro _

theorem winEvent_only {m : Nat} {s₀ : State} (hm : 544 ||| m = m) (s : State) (w : Nat)
    (h_s : Only m s₀ s) : Only m s₀ (winEvent s w) := by
  unfold winEvent
  try dsimp only
  with_reducible
    repeat'
      first
      | assumption | exact mask_trans (by decide) hm | apply State.arrive_only
      | (apply Only.foldl; intro u a hu; try dsimp only) | apply Only.ite | split | intro _

theorem winPresent_only {m : Nat} {s₀ : State} (hm : 1049120 ||| m = m) (s : State) (w : Nat)
    (h_s : Only m s₀ s) : Only m s₀ (winPresent s w) := by
  unfold winPresent
  try dsimp only
  with_reducible
    repeat'
      first
      | assumption | exact mask_trans (by decide) hm | apply State.setWin_only | apply winEvent_only
      | (apply Only.foldl; intro u a hu; try dsimp only) | apply Only.ite | split | intro _

theorem winElements_only {m : Nat} {s₀ : State} (hm : 1049120 ||| m = m) (s : State) (w : Nat) (uv : Int × Int)
    (e : Bool × Bool) (h_s : Only m s₀ s) : Only m s₀ (winElements s w uv e) := by
  unfold winElements
  try dsimp only
  with_reducible
    repeat'
      first
      | assumption | exact mask_trans (by decide) hm | apply State.setWin_only | apply winPresent_only
      | (apply Only.foldl; intro u a hu; try dsimp only) | apply Only.ite | split | intro _

theorem winDecide_only {m : Nat} {s₀ : State} (hm : 1048576 ||| m = m) (s : State) (w : Nat) (uv : Int × Int) (e : Bool × Bool)
    (h_s : Only m s₀ s) : Only m s₀ (winDecide s w uv e) := by
  unfold winDecide
  try dsimp only
  with_reducible
    repeat'
      first
      | assumption | exact mask_trans (by decide) hm | apply State.setWin_only
      | (apply Only.foldl; intro u a hu; try dsimp only) | apply Only.ite | split | intro _

end Sys2Proof.Machine
end

