-- ==== Sys2Proof/Laws/Rings.lean ====
section
/-!
SUPPORT. Machine/Rings.lean: every operation of it keeps what `Keeps` says, and changes only the parts of its mask.
-/
set_option linter.unusedTactic false
set_option linter.unreachableTactic false
set_option linter.unusedVariables false

namespace Sys2Proof.Machine

theorem State.setProd_keeps {s₀ : State} (s : State) (i : Nat) (p : Producer) (h_s : Keeps s₀ s)
    : Keeps s₀ (State.setProd s i p) := by
  unfold State.setProd
  try dsimp only
  with_reducible
    repeat'
      first
      | assumption | (apply Keeps.foldl; intro u a hu; try dsimp only) | apply Keeps.ite | split | intro _
      | refine Keeps.written rfl rfl rfl rfl rfl rfl rfl rfl ?_

theorem ringEntry_keeps {s₀ : State} (s : State) (r : Nat) (ws : List Word) (h_s : Keeps s₀ s)
    : Keeps s₀ (ringEntry s r ws) :=
  State.arrive_keeps _ _ (h_s.trans ⟨rfl, le_refl _, fun h => cwf_rset _ _ (cwf_rset _ _ h), id, id, id, id⟩)

theorem ringOffer_keeps {s₀ : State} (s : State) (r : Nat) (ws : List Word) (h_s : Keeps s₀ s)
    : Keeps s₀ (ringOffer s r ws) := by
  unfold ringOffer
  try dsimp only
  with_reducible
    repeat'
      first
      | assumption | apply State.cntSat_keeps | apply ringEntry_keeps | (apply Keeps.foldl; intro u a hu; try dsimp only)
      | apply Keeps.ite | split | intro _ | refine Keeps.written rfl rfl rfl rfl rfl rfl rfl rfl ?_

theorem publish_keeps {s₀ : State} (s : State) (i : Nat) (e : List Word) (st : PubState) (c : Capture) (till : Nat) (h_s
    : Keeps s₀ s) : Keeps s₀ (publish s i e st c till) := by
  unfold publish
  try dsimp only
  with_reducible
    repeat'
      first
      | assumption | apply State.setProd_keeps | apply ringOffer_keeps | (apply Keeps.foldl; intro u a hu; try dsimp only)
      | apply Keeps.ite | split | intro _ | refine Keeps.written rfl rfl rfl rfl rfl rfl rfl rfl ?_

theorem publishFresh_keeps {s₀ : State} (s : State) (i : Nat) (e : List Word) (c : Capture) (h_s : Keeps s₀ s)
    : Keeps s₀ (publishFresh s i e c) := by
  unfold publishFresh
  try dsimp only
  with_reducible
    repeat'
      first
      | assumption | apply publish_keeps | (apply Keeps.foldl; intro u a hu; try dsimp only) | apply Keeps.ite | split
      | intro _ | refine Keeps.written rfl rfl rfl rfl rfl rfl rfl rfl ?_

theorem tlmRecord_keeps {s₀ : State} (s : State) (kind : Nat) (dom : Option Nat) (ws : List Word) (h_s : Keeps s₀ s)
    : Keeps s₀ (tlmRecord s kind dom ws) := by
  unfold tlmRecord
  try dsimp only
  with_reducible
    repeat'
      first
      | assumption | apply publishFresh_keeps | (apply Keeps.foldl; intro u a hu; try dsimp only) | apply Keeps.ite
      | split | intro _ | refine Keeps.written rfl rfl rfl rfl rfl rfl rfl rfl ?_

theorem tlmUndefOne_keeps {s₀ : State} (s : State) (i : Nat) (e : List Word) (h_s : Keeps s₀ s)
    : Keeps s₀ (tlmUndefOne s i e) := by
  unfold tlmUndefOne
  try dsimp only
  with_reducible
    repeat'
      first
      | assumption | apply publish_keeps | (apply Keeps.foldl; intro u a hu; try dsimp only) | apply Keeps.ite | split
      | intro _ | refine Keeps.written rfl rfl rfl rfl rfl rfl rfl rfl ?_

theorem tlmUndef_keeps {s₀ : State} (s : State) (kind : Nat) (inst : Nat) (sub : Nat) (h_s : Keeps s₀ s)
    : Keeps s₀ (tlmUndef s kind inst sub) := by
  unfold tlmUndef
  try dsimp only
  with_reducible
    repeat'
      first
      | assumption | apply tlmUndefOne_keeps | (apply Keeps.foldl; intro u a hu; try dsimp only) | apply Keeps.ite | split
      | intro _ | refine Keeps.written rfl rfl rfl rfl rfl rfl rfl rfl ?_

theorem tlmCaptureOne_keeps {s₀ : State} (s : State) (i : Nat) (e : List Word) (c : Capture) (h_s : Keeps s₀ s)
    : Keeps s₀ (tlmCaptureOne s i e c) := by
  unfold tlmCaptureOne
  try dsimp only
  with_reducible
    repeat'
      first
      | assumption | apply State.setProd_keeps | apply publishFresh_keeps
      | (apply Keeps.foldl; intro u a hu; try dsimp only) | apply Keeps.ite | split | intro _
      | refine Keeps.written rfl rfl rfl rfl rfl rfl rfl rfl ?_

theorem tlmCaptureWith_keeps {s₀ : State} (s : State) (kind : Nat) (inst : Nat) (sub : Nat) (mk : Nat → Capture) (h_s
    : Keeps s₀ s) : Keeps s₀ (tlmCaptureWith s kind inst sub mk) := by
  unfold tlmCaptureWith
  try dsimp only
  with_reducible
    repeat'
      first
      | assumption | apply hmk | apply tlmCaptureOne_keeps | (apply Keeps.foldl; intro u a hu; try dsimp only)
      | apply Keeps.ite | split | intro _ | refine Keeps.written rfl rfl rfl rfl rfl rfl rfl rfl ?_

theorem tlmCapture_keeps {s₀ : State} (s : State) (kind : Nat) (inst : Nat) (sub : Nat) (ws : List Word) (h_s
    : Keeps s₀ s) : Keeps s₀ (tlmCapture s kind inst sub ws) := by
  unfold tlmCapture
  try dsimp only
  with_reducible
    repeat'
      first
      | assumption | apply tlmCaptureWith_keeps | (apply Keeps.foldl; intro u a hu; try dsimp only) | apply Keeps.ite
      | split | intro _ | refine Keeps.written rfl rfl rfl rfl rfl rfl rfl rfl ?_

theorem tableFails_keeps {s₀ : State} (s : State) (i : Nat) (h_s : Keeps s₀ s) : Keeps s₀ (tableFails s i) := by
  unfold tableFails
  try dsimp only
  with_reducible
    repeat'
      first
      | assumption | apply State.setRf_keeps | (apply Keeps.foldl; intro u a hu; try dsimp only) | apply Keeps.ite | split
      | intro _ | refine Keeps.written rfl rfl rfl rfl rfl rfl rfl rfl ?_

theorem tableTake_keeps {s₀ : State} (s : State) (h_s : Keeps s₀ s) : Keeps s₀ (tableTake s) := by
  unfold tableTake
  try dsimp only
  with_reducible
    repeat'
      first
      | assumption | (apply Keeps.foldl; intro u a hu; try dsimp only) | apply Keeps.ite | split | intro _
      | refine Keeps.written rfl rfl rfl rfl rfl rfl rfl rfl ?_

theorem ringComplete_keeps {s₀ : State} (s : State) (r : Nat) (ws : List Word) (h_s : Keeps s₀ s)
    : Keeps s₀ (ringComplete s r ws) := by
  unfold ringComplete
  try dsimp only
  with_reducible
    repeat'
      first
      | assumption | apply ringEntry_keeps | (apply Keeps.foldl; intro u a hu; try dsimp only) | apply Keeps.ite | split
      | intro _ | refine Keeps.written rfl rfl rfl rfl rfl rfl rfl rfl ?_

theorem complete_keeps {s₀ : State} (s : State) (ring : Nat) (opcode : Nat) (cstat : Nat) (hstat : Nat) (tag : Nat)
    (idx : Nat) (r0 : Word) (r1 : Word) (applied : Bool) (h_s : Keeps s₀ s)
    : Keeps s₀ (complete s ring opcode cstat hstat tag idx r0 r1 applied) := by
  unfold complete
  try dsimp only
  with_reducible
    repeat'
      first
      | assumption | apply State.cntWrap_keeps | apply State.cntSat_keeps | apply ringComplete_keeps
      | (apply Keeps.foldl; intro u a hu; try dsimp only) | apply Keeps.ite | split | intro _
      | refine Keeps.written rfl rfl rfl rfl rfl rfl rfl rfl ?_

theorem tableCheckTake_keeps {s₀ : State} (s : State) (h_s : Keeps s₀ s) : Keeps s₀ (tableCheckTake s) := by
  unfold tableCheckTake
  try dsimp only
  with_reducible
    repeat'
      first
      | assumption | apply tableFails_keeps | apply tableTake_keeps | (apply Keeps.foldl; intro u a hu; try dsimp only)
      | apply Keeps.ite | split | intro _ | refine Keeps.written rfl rfl rfl rfl rfl rfl rfl rfl ?_

theorem freshnessLapse_keeps {s₀ : State} (s : State) (i : Nat) (e : List Word) (h_s : Keeps s₀ s)
    : Keeps s₀ (freshnessLapse s i e) := by
  unfold freshnessLapse
  try dsimp only
  with_reducible
    repeat'
      first
      | assumption | apply publishFresh_keeps | apply State.cntSat_keeps | apply publish_keeps
      | (apply Keeps.foldl; intro u a hu; try dsimp only) | apply Keeps.ite | split | intro _
      | refine Keeps.written rfl rfl rfl rfl rfl rfl rfl rfl ?_

theorem flushBacklog_keeps {s₀ : State} (s : State) (h_s : Keeps s₀ s) : Keeps s₀ (flushBacklog s) := by
  unfold flushBacklog
  try dsimp only
  with_reducible
    repeat'
      first
      | assumption | apply ringEntry_keeps | (apply Keeps.foldl; intro u a hu; try dsimp only) | apply Keeps.ite | split
      | intro _ | refine Keeps.written rfl rfl rfl rfl rfl rfl rfl rfl ?_

theorem publishLatest_keeps {s₀ : State} (s : State) (i : Nat) (e : List Word) (h_s : Keeps s₀ s)
    : Keeps s₀ (publishLatest s i e) := by
  unfold publishLatest
  try dsimp only
  with_reducible
    repeat'
      first
      | assumption | apply publishFresh_keeps | (apply Keeps.foldl; intro u a hu; try dsimp only) | apply Keeps.ite
      | split | intro _ | refine Keeps.written rfl rfl rfl rfl rfl rfl rfl rfl ?_

theorem State.setProd_only {m : Nat} {s₀ : State} (hm : 32 ||| m = m) (s : State) (i : Nat) (p : Producer)
    (h_s : Only m s₀ s) : Only m s₀ (State.setProd s i p) := by
  unfold State.setProd
  try dsimp only
  with_reducible
    repeat'
      first
      | assumption | exact .inr (mask_bit hm (by decide)) | exact .inl rfl | exact mask_trans (by decide) hm
      | (apply Only.foldl; intro u a hu; try dsimp only) | apply Only.ite | split | intro _
      | refine Only.written rfl ?_ ?_ ?_ ?_ ?_ ?_ ?_ ?_ ?_ ?_ ?_ ?_ ?_ ?_ ?_ ?_ ?_ ?_ ?_ ?_ ?_ ?_ ?_ ?_ ?_ ?_ ?_ ?_ ?_ ?_ ?_ ?_ ?_ ?_ ?_ ?_ ?_ ?_

theorem ringEntry_only {m : Nat} {s₀ : State} (hm : 564 ||| m = m) (s : State) (r : Nat) (ws : List Word)
    (h_s : Only m s₀ s) : Only m s₀ (ringEntry s r ws) := by
  unfold ringEntry
  try dsimp only
  with_reducible
    repeat'
      first
      | assumption | exact .inr (mask_bit hm (by decide)) | exact .inl rfl | exact mask_trans (by decide) hm
      | apply State.arrive_only | apply State.emit_only | (apply Only.foldl; intro u a hu; try dsimp only)
      | apply Only.ite | split | intro _
      | refine Only.written rfl ?_ ?_ ?_ ?_ ?_ ?_ ?_ ?_ ?_ ?_ ?_ ?_ ?_ ?_ ?_ ?_ ?_ ?_ ?_ ?_ ?_ ?_ ?_ ?_ ?_ ?_ ?_ ?_ ?_ ?_ ?_ ?_ ?_ ?_ ?_ ?_ ?_ ?_

theorem ringOffer_only {m : Nat} {s₀ : State} (hm : 564 ||| m = m) (s : State) (r : Nat) (ws : List Word)
    (h_s : Only m s₀ s) : Only m s₀ (ringOffer s r ws) := by
  unfold ringOffer
  try dsimp only
  with_reducible
    repeat'
      first
      | assumption | exact mask_trans (by decide) hm | apply State.cntSat_only | apply ringEntry_only
      | (apply Only.foldl; intro u a hu; try dsimp only) | apply Only.ite | split | intro _

theorem publish_only {m : Nat} {s₀ : State} (hm : 564 ||| m = m) (s : State) (i : Nat) (e : List Word) (st : PubState)
    (c : Capture) (till : Nat) (h_s : Only m s₀ s) : Only m s₀ (publish s i e st c till) := by
  unfold publish
  try dsimp only
  with_reducible
    repeat'
      first
      | assumption | exact mask_trans (by decide) hm | apply State.setProd_only | apply ringOffer_only
      | (apply Only.foldl; intro u a hu; try dsimp only) | apply Only.ite | split | intro _

theorem publishFresh_only {m : Nat} {s₀ : State} (hm : 564 ||| m = m) (s : State) (i : Nat) (e : List Word) (c : Capture)
    (h_s : Only m s₀ s) : Only m s₀ (publishFresh s i e c) := by
  unfold publishFresh
  try dsimp only
  with_reducible
    repeat'
      first
      | assumption | exact mask_trans (by decide) hm | apply publish_only
      | (apply Only.foldl; intro u a hu; try dsimp only) | apply Only.ite | split | intro _

theorem tlmRecord_only {m : Nat} {s₀ : State} (hm : 564 ||| m = m) (s : State) (kind : Nat) (dom : Option Nat)
    (ws : List Word) (h_s : Only m s₀ s) : Only m s₀ (tlmRecord s kind dom ws) := by
  unfold tlmRecord
  try dsimp only
  with_reducible
    repeat'
      first
      | assumption | exact mask_trans (by decide) hm | apply publishFresh_only
      | (apply Only.foldl; intro u a hu; try dsimp only) | apply Only.ite | split | intro _

theorem tlmUndefOne_only {m : Nat} {s₀ : State} (hm : 68719477300 ||| m = m) (s : State) (i : Nat) (e : List Word)
    (h_s : Only m s₀ s) : Only m s₀ (tlmUndefOne s i e) := by
  unfold tlmUndefOne
  try dsimp only
  with_reducible
    repeat'
      first
      | assumption | exact .inr (mask_bit hm (by decide)) | exact .inl rfl | exact mask_trans (by decide) hm
      | apply publish_only | (apply Only.foldl; intro u a hu; try dsimp only) | apply Only.ite | split | intro _
      | refine Only.written rfl ?_ ?_ ?_ ?_ ?_ ?_ ?_ ?_ ?_ ?_ ?_ ?_ ?_ ?_ ?_ ?_ ?_ ?_ ?_ ?_ ?_ ?_ ?_ ?_ ?_ ?_ ?_ ?_ ?_ ?_ ?_ ?_ ?_ ?_ ?_ ?_ ?_ ?_

theorem tlmUndef_only {m : Nat} {s₀ : State} (hm : 68719477300 ||| m = m) (s : State) (kind : Nat) (inst : Nat)
    (sub : Nat) (h_s : Only m s₀ s) : Only m s₀ (tlmUndef s kind inst sub) := by
  unfold tlmUndef
  try dsimp only
  with_reducible
    repeat'
      first
      | assumption | exact mask_trans (by decide) hm | apply tlmUndefOne_only
      | (apply Only.foldl; intro u a hu; try dsimp only) | apply Only.ite | split | intro _

theorem tlmCaptureOne_only {m : Nat} {s₀ : State} (hm : 564 ||| m = m) (s : State) (i : Nat) (e : List Word) (c : Capture)
    (h_s : Only m s₀ s) : Only m s₀ (tlmCaptureOne s i e c) := by
  unfold tlmCaptureOne
  try dsimp only
  with_reducible
    repeat'
      first
      | assumption | exact mask_trans (by decide) hm | apply State.setProd_only | apply publishFresh_only
      | (apply Only.foldl; intro u a hu; try dsimp only) | apply Only.ite | split | intro _

theorem tlmCaptureWith_only {m : Nat} {s₀ : State} (hm : 564 ||| m = m) (s : State) (kind : Nat) (inst : Nat) (sub : Nat)
    (mk : Nat → Capture) (h_s : Only m s₀ s) : Only m s₀ (tlmCaptureWith s kind inst sub mk) := by
  unfold tlmCaptureWith
  try dsimp only
  with_reducible
    repeat'
      first
      | assumption | exact mask_trans (by decide) hm | apply hmk | apply tlmCaptureOne_only
      | (apply Only.foldl; intro u a hu; try dsimp only) | apply Only.ite | split | intro _

theorem tlmCapture_only {m : Nat} {s₀ : State} (hm : 564 ||| m = m) (s : State) (kind : Nat) (inst : Nat) (sub : Nat)
    (ws : List Word) (h_s : Only m s₀ s) : Only m s₀ (tlmCapture s kind inst sub ws) := by
  unfold tlmCapture
  try dsimp only
  with_reducible
    repeat'
      first
      | assumption | exact mask_trans (by decide) hm | apply tlmCaptureWith_only
      | (apply Only.foldl; intro u a hu; try dsimp only) | apply Only.ite | split | intro _

theorem tableFails_only {m : Nat} {s₀ : State} (hm : 4 ||| m = m) (s : State) (i : Nat)
    (h_s : Only m s₀ s) : Only m s₀ (tableFails s i) := by
  unfold tableFails
  try dsimp only
  with_reducible
    repeat'
      first
      | assumption | exact mask_trans (by decide) hm | apply State.setRf_only
      | (apply Only.foldl; intro u a hu; try dsimp only) | apply Only.ite | split | intro _

theorem tableTake_only {m : Nat} {s₀ : State} (hm : 32 ||| m = m) (s : State)
    (h_s : Only m s₀ s) : Only m s₀ (tableTake s) := by
  unfold tableTake
  try dsimp only
  with_reducible
    repeat'
      first
      | assumption | exact .inr (mask_bit hm (by decide)) | exact .inl rfl | exact mask_trans (by decide) hm
      | (apply Only.foldl; intro u a hu; try dsimp only) | apply Only.ite | split | intro _
      | refine Only.written rfl ?_ ?_ ?_ ?_ ?_ ?_ ?_ ?_ ?_ ?_ ?_ ?_ ?_ ?_ ?_ ?_ ?_ ?_ ?_ ?_ ?_ ?_ ?_ ?_ ?_ ?_ ?_ ?_ ?_ ?_ ?_ ?_ ?_ ?_ ?_ ?_ ?_ ?_

theorem ringComplete_only {m : Nat} {s₀ : State} (hm : 564 ||| m = m) (s : State) (r : Nat) (ws : List Word)
    (h_s : Only m s₀ s) : Only m s₀ (ringComplete s r ws) := by
  unfold ringComplete
  try dsimp only
  with_reducible
    repeat'
      first
      | assumption | exact .inr (mask_bit hm (by decide)) | exact .inl rfl | exact mask_trans (by decide) hm
      | apply ringEntry_only | (apply Only.foldl; intro u a hu; try dsimp only) | apply Only.ite | split | intro _
      | refine Only.written rfl ?_ ?_ ?_ ?_ ?_ ?_ ?_ ?_ ?_ ?_ ?_ ?_ ?_ ?_ ?_ ?_ ?_ ?_ ?_ ?_ ?_ ?_ ?_ ?_ ?_ ?_ ?_ ?_ ?_ ?_ ?_ ?_ ?_ ?_ ?_ ?_ ?_ ?_

theorem complete_only {m : Nat} {s₀ : State} (hm : 564 ||| m = m) (s : State) (ring : Nat) (opcode : Nat) (cstat : Nat)
    (hstat : Nat) (tag : Nat) (idx : Nat) (r0 : Word) (r1 : Word) (applied : Bool)
    (h_s : Only m s₀ s) : Only m s₀ (complete s ring opcode cstat hstat tag idx r0 r1 applied) := by
  unfold complete
  try dsimp only
  with_reducible
    repeat'
      first
      | assumption | exact mask_trans (by decide) hm | apply State.cntWrap_only | apply State.cntSat_only
      | apply ringComplete_only | (apply Only.foldl; intro u a hu; try dsimp only) | apply Only.ite | split | intro _

theorem tableCheckTake_only {m : Nat} {s₀ : State} (hm : 36 ||| m = m) (s : State)
    (h_s : Only m s₀ s) : Only m s₀ (tableCheckTake s) := by
  unfold tableCheckTake
  try dsimp only
  with_reducible
    repeat'
      first
      | assumption | exact mask_trans (by decide) hm | apply tableFails_only | apply tableTake_only
      | (apply Only.foldl; intro u a hu; try dsimp only) | apply Only.ite | split | intro _

theorem freshnessLapse_only {m : Nat} {s₀ : State} (hm : 564 ||| m = m) (s : State) (i : Nat) (e : List Word)
    (h_s : Only m s₀ s) : Only m s₀ (freshnessLapse s i e) := by
  unfold freshnessLapse
  try dsimp only
  with_reducible
    repeat'
      first
      | assumption | exact mask_trans (by decide) hm | apply publishFresh_only | apply State.cntSat_only
      | apply publish_only | (apply Only.foldl; intro u a hu; try dsimp only) | apply Only.ite | split | intro _

theorem flushBacklog_only {m : Nat} {s₀ : State} (hm : 564 ||| m = m) (s : State)
    (h_s : Only m s₀ s) : Only m s₀ (flushBacklog s) := by
  unfold flushBacklog
  try dsimp only
  with_reducible
    repeat'
      first
      | assumption | exact .inr (mask_bit hm (by decide)) | exact .inl rfl | exact mask_trans (by decide) hm
      | apply ringEntry_only | (apply Only.foldl; intro u a hu; try dsimp only) | apply Only.ite | split | intro _
      | refine Only.written rfl ?_ ?_ ?_ ?_ ?_ ?_ ?_ ?_ ?_ ?_ ?_ ?_ ?_ ?_ ?_ ?_ ?_ ?_ ?_ ?_ ?_ ?_ ?_ ?_ ?_ ?_ ?_ ?_ ?_ ?_ ?_ ?_ ?_ ?_ ?_ ?_ ?_ ?_

theorem publishLatest_only {m : Nat} {s₀ : State} (hm : 564 ||| m = m) (s : State) (i : Nat) (e : List Word)
    (h_s : Only m s₀ s) : Only m s₀ (publishLatest s i e) := by
  unfold publishLatest
  try dsimp only
  with_reducible
    repeat'
      first
      | assumption | exact mask_trans (by decide) hm | apply publishFresh_only
      | (apply Only.foldl; intro u a hu; try dsimp only) | apply Only.ite | split | intro _

end Sys2Proof.Machine
end

