-- ==== Sys2Proof/Laws/Faults.lean ====
section
/-!
SUPPORT. Machine/Faults.lean: every operation of it keeps what `Keeps` says, and changes only the parts of its mask.
-/
set_option linter.unusedTactic false
set_option linter.unreachableTactic false
set_option linter.unusedVariables false

namespace Sys2Proof.Machine

theorem State.setRefl_keeps {s₀ : State} (s : State) (n : Nat) (r : Refl) (h_s : Keeps s₀ s)
    : Keeps s₀ (State.setRefl s n r) := by
  unfold State.setRefl
  try dsimp only
  with_reducible
    repeat'
      first
      | assumption | (apply Keeps.foldl; intro u a hu; try dsimp only) | apply Keeps.ite | split | intro _
      | refine Keeps.written rfl rfl rfl rfl rfl rfl rfl rfl ?_

theorem State.setRegs_keeps {s₀ : State} (s : State) (a : Nat) (l : List Word) (h_s : Keeps s₀ s)
    : Keeps s₀ (State.setRegs s a l) := by
  induction l generalizing s a with
  | nil => exact h_s
  | cons w t ih => exact ih _ _ (State.setReg_keeps _ _ _ h_s)

theorem State.setUnit_keeps {s₀ : State} (s : State) (u : Nat) (x3 : SUnit) (h_s : Keeps s₀ s)
    : Keeps s₀ (State.setUnit s u x3) := by
  unfold State.setUnit
  try dsimp only
  with_reducible
    repeat'
      first
      | assumption | (apply Keeps.foldl; intro u a hu; try dsimp only) | apply Keeps.ite | split | intro _
      | refine Keeps.written rfl rfl rfl rfl rfl rfl rfl rfl ?_

theorem faultEntry_keeps {s₀ : State} (s : State) (ws : List Word) (h_s : Keeps s₀ s) : Keeps s₀ (faultEntry s ws) := by
  unfold faultEntry
  try dsimp only
  with_reducible
    repeat'
      first
      | assumption | apply State.putWords_keeps | (apply Keeps.foldl; intro u a hu; try dsimp only) | apply Keeps.ite
      | split | intro _ | refine Keeps.written rfl rfl rfl rfl rfl rfl rfl rfl ?_

theorem progressWrite_keeps {s₀ : State} (s : State) (base : Nat) (h_s : Keeps s₀ s) : Keeps s₀ (progressWrite s base) := by
  unfold progressWrite
  try dsimp only
  with_reducible
    repeat'
      first
      | assumption | (apply Keeps.foldl; intro u a hu; try dsimp only) | apply Keeps.ite | split | intro _
      | refine Keeps.written rfl rfl rfl rfl rfl rfl rfl rfl ?_

theorem progressNote_keeps {s₀ : State} (s : State) (h_s : Keeps s₀ s) : Keeps s₀ (progressNote s) := by
  unfold progressNote
  try dsimp only
  with_reducible
    repeat'
      first
      | assumption | apply progressWrite_keeps | (apply Keeps.foldl; intro u a hu; try dsimp only) | apply Keeps.ite
      | split | intro _ | refine Keeps.written rfl rfl rfl rfl rfl rfl rfl rfl ?_

theorem faultRecord_keeps {s₀ : State} (s : State) (level : Nat) (code : Nat) (unit : Nat) (phys : Nat) (d0 : Word)
    (d1 : Word) (h_s : Keeps s₀ s) : Keeps s₀ (faultRecord s level code unit phys d0 d1) := by
  unfold faultRecord
  try dsimp only
  with_reducible
    repeat'
      first
      | assumption | apply State.setRegs_keeps | apply progressNote_keeps | apply State.arrive_keeps
      | apply State.setRf_keeps | apply faultEntry_keeps | apply tlmRecord_keeps
      | (apply Keeps.foldl; intro u a hu; try dsimp only) | apply Keeps.ite | split | intro _
      | refine Keeps.written rfl rfl rfl rfl rfl rfl rfl rfl ?_

theorem regionFaultRecord_keeps {s₀ : State} (s : State) (role : Nat) (u : Nat) (code : Nat) (d0 : Word) (d1 : Word) (h_s
    : Keeps s₀ s) : Keeps s₀ (regionFaultRecord s role u code d0 d1) := by
  unfold regionFaultRecord
  try dsimp only
  with_reducible
    repeat'
      first
      | assumption | apply State.setUnit_keeps | apply State.arrive_keeps | apply faultRecord_keeps
      | (apply Keeps.foldl; intro u a hu; try dsimp only) | apply Keeps.ite | split | intro _
      | refine Keeps.written rfl rfl rfl rfl rfl rfl rfl rfl ?_

theorem bankFaultRecord_keeps {s₀ : State} (s : State) (b : Nat) (code : Nat) (d0 : Word) (d1 : Word) (h_s : Keeps s₀ s)
    : Keeps s₀ (bankFaultRecord s b code d0 d1) := by
  unfold bankFaultRecord
  try dsimp only
  with_reducible
    repeat'
      first
      | assumption | apply State.arrive_keeps | apply faultRecord_keeps
      | (apply Keeps.foldl; intro u a hu; try dsimp only) | apply Keeps.ite | split | intro _
      | refine Keeps.written rfl rfl rfl rfl rfl rfl rfl rfl ?_

theorem reflNotice_keeps {s₀ : State} (s : State) (before : List Word) (h_s : Keeps s₀ s)
    : Keeps s₀ (reflNotice s before) := by
  unfold reflNotice
  try dsimp only
  with_reducible
    repeat'
      first
      | assumption | apply tlmCapture_keeps | (apply Keeps.foldl; intro u a hu; try dsimp only) | apply Keeps.ite | split
      | intro _ | refine Keeps.written rfl rfl rfl rfl rfl rfl rfl rfl ?_

theorem State.setRefl_only {m : Nat} {s₀ : State} (hm : 33554432 ||| m = m) (s : State) (n : Nat) (r : Refl)
    (h_s : Only m s₀ s) : Only m s₀ (State.setRefl s n r) := by
  unfold State.setRefl
  try dsimp only
  with_reducible
    repeat'
      first
      | assumption | exact .inr (mask_bit hm (by decide)) | exact .inl rfl | exact mask_trans (by decide) hm
      | (apply Only.foldl; intro u a hu; try dsimp only) | apply Only.ite | split | intro _
      | refine Only.written rfl ?_ ?_ ?_ ?_ ?_ ?_ ?_ ?_ ?_ ?_ ?_ ?_ ?_ ?_ ?_ ?_ ?_ ?_ ?_ ?_ ?_ ?_ ?_ ?_ ?_ ?_ ?_ ?_ ?_ ?_ ?_ ?_ ?_ ?_ ?_ ?_ ?_ ?_

theorem State.setRegs_only {m : Nat} {s₀ : State} (hm : 4 ||| m = m) (s : State) (a : Nat) (l : List Word)
    (h_s : Only m s₀ s) : Only m s₀ (State.setRegs s a l) := by
  induction l generalizing s a with
  | nil => exact h_s
  | cons w t ih => exact ih _ _ (State.setReg_only (mask_trans (by decide) hm) _ _ _ h_s)

theorem State.setUnit_only {m : Nat} {s₀ : State} (hm : 8192 ||| m = m) (s : State) (u : Nat) (x3 : SUnit)
    (h_s : Only m s₀ s) : Only m s₀ (State.setUnit s u x3) := by
  unfold State.setUnit
  try dsimp only
  with_reducible
    repeat'
      first
      | assumption | exact .inr (mask_bit hm (by decide)) | exact .inl rfl | exact mask_trans (by decide) hm
      | (apply Only.foldl; intro u a hu; try dsimp only) | apply Only.ite | split | intro _
      | refine Only.written rfl ?_ ?_ ?_ ?_ ?_ ?_ ?_ ?_ ?_ ?_ ?_ ?_ ?_ ?_ ?_ ?_ ?_ ?_ ?_ ?_ ?_ ?_ ?_ ?_ ?_ ?_ ?_ ?_ ?_ ?_ ?_ ?_ ?_ ?_ ?_ ?_ ?_ ?_

theorem faultEntry_only {m : Nat} {s₀ : State} (hm : 8 ||| m = m) (s : State) (ws : List Word)
    (h_s : Only m s₀ s) : Only m s₀ (faultEntry s ws) := by
  unfold faultEntry
  try dsimp only
  with_reducible
    repeat'
      first
      | assumption | exact mask_trans (by decide) hm | apply State.putWords_only
      | (apply Only.foldl; intro u a hu; try dsimp only) | apply Only.ite | split | intro _

theorem progressWrite_only {m : Nat} {s₀ : State} (hm : 1073741824 ||| m = m) (s : State) (base : Nat)
    (h_s : Only m s₀ s) : Only m s₀ (progressWrite s base) := by
  unfold progressWrite
  try dsimp only
  with_reducible
    repeat'
      first
      | assumption | exact .inr (mask_bit hm (by decide)) | exact .inl rfl | exact mask_trans (by decide) hm
      | (apply Only.foldl; intro u a hu; try dsimp only) | apply Only.ite | split | intro _
      | refine Only.written rfl ?_ ?_ ?_ ?_ ?_ ?_ ?_ ?_ ?_ ?_ ?_ ?_ ?_ ?_ ?_ ?_ ?_ ?_ ?_ ?_ ?_ ?_ ?_ ?_ ?_ ?_ ?_ ?_ ?_ ?_ ?_ ?_ ?_ ?_ ?_ ?_ ?_ ?_

theorem progressNote_only {m : Nat} {s₀ : State} (hm : 1073741824 ||| m = m) (s : State)
    (h_s : Only m s₀ s) : Only m s₀ (progressNote s) := by
  unfold progressNote
  try dsimp only
  with_reducible
    repeat'
      first
      | assumption | exact mask_trans (by decide) hm | apply progressWrite_only
      | (apply Only.foldl; intro u a hu; try dsimp only) | apply Only.ite | split | intro _

theorem faultRecord_only {m : Nat} {s₀ : State} (hm : 1140851260 ||| m = m) (s : State) (level : Nat) (code : Nat)
    (unit : Nat) (phys : Nat) (d0 : Word) (d1 : Word)
    (h_s : Only m s₀ s) : Only m s₀ (faultRecord s level code unit phys d0 d1) := by
  unfold faultRecord
  try dsimp only
  with_reducible
    repeat'
      first
      | assumption | exact .inr (mask_bit hm (by decide)) | exact .inl rfl | exact mask_trans (by decide) hm
      | apply State.setRegs_only | apply progressNote_only | apply State.arrive_only | apply State.setRf_only
      | apply faultEntry_only | apply tlmRecord_only | (apply Only.foldl; intro u a hu; try dsimp only) | apply Only.ite
      | split | intro _
      | refine Only.written rfl ?_ ?_ ?_ ?_ ?_ ?_ ?_ ?_ ?_ ?_ ?_ ?_ ?_ ?_ ?_ ?_ ?_ ?_ ?_ ?_ ?_ ?_ ?_ ?_ ?_ ?_ ?_ ?_ ?_ ?_ ?_ ?_ ?_ ?_ ?_ ?_ ?_ ?_

theorem regionFaultRecord_only {m : Nat} {s₀ : State} (hm : 1140859452 ||| m = m) (s : State) (role : Nat) (u : Nat)
    (code : Nat) (d0 : Word) (d1 : Word) (h_s : Only m s₀ s) : Only m s₀ (regionFaultRecord s role u code d0 d1) := by
  unfold regionFaultRecord
  try dsimp only
  with_reducible
    repeat'
      first
      | assumption | exact mask_trans (by decide) hm | apply State.setUnit_only | apply State.arrive_only
      | apply faultRecord_only | (apply Only.foldl; intro u a hu; try dsimp only) | apply Only.ite | split | intro _

theorem bankFaultRecord_only {m : Nat} {s₀ : State} (hm : 1140851260 ||| m = m) (s : State) (b : Nat) (code : Nat)
    (d0 : Word) (d1 : Word) (h_s : Only m s₀ s) : Only m s₀ (bankFaultRecord s b code d0 d1) := by
  unfold bankFaultRecord
  try dsimp only
  with_reducible
    repeat'
      first
      | assumption | exact mask_trans (by decide) hm | apply State.arrive_only | apply faultRecord_only
      | (apply Only.foldl; intro u a hu; try dsimp only) | apply Only.ite | split | intro _

theorem reflNotice_only {m : Nat} {s₀ : State} (hm : 564 ||| m = m) (s : State) (before : List Word)
    (h_s : Only m s₀ s) : Only m s₀ (reflNotice s before) := by
  unfold reflNotice
  try dsimp only
  with_reducible
    repeat'
      first
      | assumption | exact mask_trans (by decide) hm | apply tlmCapture_only
      | (apply Only.foldl; intro u a hu; try dsimp only) | apply Only.ite | split | intro _

end Sys2Proof.Machine
end

