-- ==== Sys2Proof/Laws/TraceBuf.lean ====
section
/-!
SUPPORT. Machine/TraceBuf.lean: every operation of it keeps what `Keeps` says, and changes only the parts of its mask.
-/
set_option linter.unusedTactic false
set_option linter.unreachableTactic false
set_option linter.unusedVariables false

namespace Sys2Proof.Machine

theorem traceWrite_keeps {s₀ : State} (s : State) (family : Nat) (sub : Nat) (body : List Word) (mark : Bool) (h_s
    : Keeps s₀ s) : Keeps s₀ (traceWrite s family sub body mark) := by
  unfold traceWrite
  try dsimp only
  with_reducible
    repeat'
      first
      | assumption | apply State.arrive_keeps | (apply Keeps.foldl; intro u a hu; try dsimp only) | apply Keeps.ite
      | split | intro _ | refine Keeps.written rfl rfl rfl rfl rfl rfl rfl rfl ?_

theorem traceMark_keeps {s₀ : State} (s : State) (kind : Nat) (dom : Nat) (cyc : Nat) (h_s : Keeps s₀ s)
    : Keeps s₀ (traceMark s kind dom cyc) := by
  unfold traceMark
  try dsimp only
  with_reducible
    repeat'
      first
      | assumption | apply traceWrite_keeps | (apply Keeps.foldl; intro u a hu; try dsimp only) | apply Keeps.ite | split
      | intro _ | refine Keeps.written rfl rfl rfl rfl rfl rfl rfl rfl ?_

theorem traceWrite_only {m : Nat} {s₀ : State} (hm : 800 ||| m = m) (s : State) (family : Nat) (sub : Nat)
    (body : List Word) (mark : Bool) (h_s : Only m s₀ s) : Only m s₀ (traceWrite s family sub body mark) := by
  unfold traceWrite
  try dsimp only
  with_reducible
    repeat'
      first
      | assumption | exact .inr (mask_bit hm (by decide)) | exact .inl rfl | exact mask_trans (by decide) hm
      | apply State.arrive_only | (apply Only.foldl; intro u a hu; try dsimp only) | apply Only.ite | split | intro _
      | refine Only.written rfl ?_ ?_ ?_ ?_ ?_ ?_ ?_ ?_ ?_ ?_ ?_ ?_ ?_ ?_ ?_ ?_ ?_ ?_ ?_ ?_ ?_ ?_ ?_ ?_ ?_ ?_ ?_ ?_ ?_ ?_ ?_ ?_ ?_ ?_ ?_ ?_ ?_ ?_

theorem traceMark_only {m : Nat} {s₀ : State} (hm : 800 ||| m = m) (s : State) (kind : Nat) (dom : Nat) (cyc : Nat)
    (h_s : Only m s₀ s) : Only m s₀ (traceMark s kind dom cyc) := by
  unfold traceMark
  try dsimp only
  with_reducible
    repeat'
      first
      | assumption | exact mask_trans (by decide) hm | apply traceWrite_only
      | (apply Only.foldl; intro u a hu; try dsimp only) | apply Only.ite | split | intro _

end Sys2Proof.Machine
end

