-- ==== Sys2Proof/Laws/Queue.lean ====
section
/-!
SUPPORT. Machine/Queue.lean: every operation of it keeps what `Keeps` says, and changes only the parts of its mask.
-/
set_option linter.unusedTactic false
set_option linter.unreachableTactic false
set_option linter.unusedVariables false

namespace Sys2Proof.Machine

theorem State.emitXfr_keeps {s₀ : State} (s : State) (l : List Sent) (h_s : Keeps s₀ s) : Keeps s₀ (State.emitXfr s l) := by
  unfold State.emitXfr
  try dsimp only
  with_reducible
    repeat'
      first
      | assumption | apply State.emit_keeps | (apply Keeps.foldl; intro u a hu; try dsimp only) | apply Keeps.ite | split
      | intro _ | refine Keeps.written rfl rfl rfl rfl rfl rfl rfl rfl ?_

theorem State.setQ_keeps {s₀ : State} (s : State) (q : Nat) (c : QCell) (h_s : Keeps s₀ s)
    : Keeps s₀ (State.setQ s q c) := by
  unfold State.setQ
  try dsimp only
  with_reducible
    repeat'
      first
      | assumption | (apply Keeps.foldl; intro u a hu; try dsimp only) | apply Keeps.ite | split | intro _
      | refine Keeps.written rfl rfl rfl rfl rfl rfl rfl rfl ?_

theorem State.setRing_keeps {s₀ : State} (s : State) (r : Nat) (x3 : RingRt) (h_s : Keeps s₀ s)
    : Keeps s₀ (State.setRing s r x3) := by
  unfold State.setRing
  try dsimp only
  with_reducible
    repeat'
      first
      | assumption | (apply Keeps.foldl; intro u a hu; try dsimp only) | apply Keeps.ite | split | intro _
      | refine Keeps.written rfl rfl rfl rfl rfl rfl rfl rfl ?_

theorem State.setX_keeps {s₀ : State} (s : State) (n : Nat) (c : XCh) (h_s : Keeps s₀ s) : Keeps s₀ (State.setX s n c) := by
  unfold State.setX
  try dsimp only
  with_reducible
    repeat'
      first
      | assumption | (apply Keeps.foldl; intro u a hu; try dsimp only) | apply Keeps.ite | split | intro _
      | refine Keeps.written rfl rfl rfl rfl rfl rfl rfl rfl ?_

theorem issueRead_keeps {s₀ : State} (s : State) (n : Nat) (k : XRead) (h_s : Keeps s₀ s) : Keeps s₀ (issueRead s n k) := by
  unfold issueRead
  try dsimp only
  with_reducible
    repeat'
      first
      | assumption | apply State.setX_keeps | apply State.emit_keeps | (apply Keeps.foldl; intro u a hu; try dsimp only)
      | apply Keeps.ite | split | intro _ | refine Keeps.written rfl rfl rfl rfl rfl rfl rfl rfl ?_

theorem blockStart_keeps {s₀ : State} (s : State) (n : Nat) (h_s : Keeps s₀ s) : Keeps s₀ (blockStart s n) := by
  unfold blockStart
  try dsimp only
  with_reducible
    repeat'
      first
      | assumption | apply State.setX_keeps | apply issueRead_keeps | (apply Keeps.foldl; intro u a hu; try dsimp only)
      | apply Keeps.ite | split | intro _ | refine Keeps.written rfl rfl rfl rfl rfl rfl rfl rfl ?_

theorem qlevelStart_keeps {s₀ : State} (s : State) (q : Nat) (h_s : Keeps s₀ s) : Keeps s₀ (qlevelStart s q) := by
  unfold qlevelStart
  try dsimp only
  with_reducible
    repeat'
      first
      | assumption | apply blockStart_keeps | (apply Keeps.foldl; intro u a hu; try dsimp only) | apply Keeps.ite | split
      | intro _ | refine Keeps.written rfl rfl rfl rfl rfl rfl rfl rfl ?_

theorem levelNotice_keeps {s₀ : State} (s : State) (q : Nat) (before : Bool) (h_s : Keeps s₀ s)
    : Keeps s₀ (levelNotice s q before) := by
  unfold levelNotice
  try dsimp only
  with_reducible
    repeat'
      first
      | assumption | apply State.arrive_keeps | apply State.setQ_keeps | (apply Keeps.foldl; intro u a hu; try dsimp only)
      | apply Keeps.ite | split | intro _ | refine Keeps.written rfl rfl rfl rfl rfl rfl rfl rfl ?_

theorem qChange_keeps {s₀ : State} (s : State) (q : Nat) (c : QCell) (h_s : Keeps s₀ s) : Keeps s₀ (qChange s q c) := by
  unfold qChange
  try dsimp only
  with_reducible
    repeat'
      first
      | assumption | apply qlevelStart_keeps | apply levelNotice_keeps | apply State.setQ_keeps
      | (apply Keeps.foldl; intro u a hu; try dsimp only) | apply Keeps.ite | split | intro _
      | refine Keeps.written rfl rfl rfl rfl rfl rfl rfl rfl ?_

theorem qProduce_keeps {s₀ : State} (s : State) (kind : Nat) (inst : Nat) (items : List Word) (isGroup : Bool) (h_s
    : Keeps s₀ s) : Keeps s₀ (qProduce s kind inst items isGroup) := by
  unfold qProduce
  try dsimp only
  with_reducible
    repeat'
      first
      | assumption | apply State.setReg_keeps | apply qChange_keeps | (apply Keeps.foldl; intro u a hu; try dsimp only)
      | apply Keeps.ite | split | intro _ | refine Keeps.written rfl rfl rfl rfl rfl rfl rfl rfl ?_

theorem trigger_keeps {s₀ : State} (s : State) (n : Nat) (h_s : Keeps s₀ s) : Keeps s₀ (trigger s n) := by
  unfold trigger
  try dsimp only
  with_reducible
    repeat'
      first
      | assumption | apply blockStart_keeps | apply State.setX_keeps | (apply Keeps.foldl; intro u a hu; try dsimp only)
      | apply Keeps.ite | split | intro _ | refine Keeps.written rfl rfl rfl rfl rfl rfl rfl rfl ?_

theorem xfrTrigger_keeps {s₀ : State} (s : State) (pace : Nat) (src : Nat) (h_s : Keeps s₀ s)
    : Keeps s₀ (xfrTrigger s pace src) := by
  unfold xfrTrigger
  try dsimp only
  with_reducible
    repeat'
      first
      | assumption | apply trigger_keeps | (apply Keeps.foldl; intro u a hu; try dsimp only) | apply Keeps.ite | split
      | intro _ | refine Keeps.written rfl rfl rfl rfl rfl rfl rfl rfl ?_

theorem noteOwner_keeps {s₀ : State} (s : State) (h_s : Keeps s₀ s) : Keeps s₀ (noteOwner s) := by
  unfold noteOwner
  try dsimp only
  with_reducible
    repeat'
      first
      | assumption | (apply Keeps.foldl; intro u a hu; try dsimp only) | apply Keeps.ite | split | intro _
      | refine Keeps.written rfl rfl rfl rfl rfl rfl rfl rfl ?_

theorem qFlush_keeps {s₀ : State} (s : State) (q : Nat) (h_s : Keeps s₀ s) : Keeps s₀ (qFlush s q) := by
  unfold qFlush
  try dsimp only
  with_reducible
    repeat'
      first
      | assumption | apply State.setQ_keeps | (apply Keeps.foldl; intro u a hu; try dsimp only) | apply Keeps.ite | split
      | intro _ | refine Keeps.written rfl rfl rfl rfl rfl rfl rfl rfl ?_

theorem qAck_keeps {s₀ : State} (s : State) (q : Nat) (h_s : Keeps s₀ s) : Keeps s₀ (qAck s q) := by
  unfold qAck
  try dsimp only
  with_reducible
    repeat'
      first
      | assumption | apply State.setQ_keeps | (apply Keeps.foldl; intro u a hu; try dsimp only) | apply Keeps.ite | split
      | intro _ | refine Keeps.written rfl rfl rfl rfl rfl rfl rfl rfl ?_

theorem capturePair_keeps {s₀ : State} (s : State) (r : Nat) (second : List Word) (h_s : Keeps s₀ s)
    : Keeps s₀ (capturePair s r second) := by
  unfold capturePair
  try dsimp only
  with_reducible
    repeat'
      first
      | assumption | apply State.setRing_keeps | apply ringOffer_keeps | (apply Keeps.foldl; intro u a hu; try dsimp only)
      | apply Keeps.ite | split | intro _ | refine Keeps.written rfl rfl rfl rfl rfl rfl rfl rfl ?_

theorem captureTake_keeps {s₀ : State} (s : State) (r : Nat) (q : Nat) (w : QWord) (h_s : Keeps s₀ s)
    : Keeps s₀ (captureTake s r q w) := by
  unfold captureTake
  try dsimp only
  with_reducible
    repeat'
      first
      | assumption | apply State.setRing_keeps | apply capturePair_keeps | apply ringOffer_keeps
      | (apply Keeps.foldl; intro u a hu; try dsimp only) | apply Keeps.ite | split | intro _
      | refine Keeps.written rfl rfl rfl rfl rfl rfl rfl rfl ?_

theorem queueCloseTimeout_keeps {s₀ : State} (s : State) (q : Nat) (h_s : Keeps s₀ s)
    : Keeps s₀ (queueCloseTimeout s q) := by
  unfold queueCloseTimeout
  try dsimp only
  with_reducible
    repeat'
      first
      | assumption | apply qChange_keeps | (apply Keeps.foldl; intro u a hu; try dsimp only) | apply Keeps.ite | split
      | intro _ | refine Keeps.written rfl rfl rfl rfl rfl rfl rfl rfl ?_

theorem qTake_keeps {s₀ : State} (s : State) (q : Nat) (h_s : Keeps s₀ s) : Keeps s₀ (qTake s q) := by
  unfold qTake
  try dsimp only
  with_reducible
    repeat'
      first
      | assumption | apply State.setQ_keeps | (apply Keeps.foldl; intro u a hu; try dsimp only) | apply Keeps.ite | split
      | intro _ | refine Keeps.written rfl rfl rfl rfl rfl rfl rfl rfl ?_

theorem qEndBurst_keeps {s₀ : State} (s : State) (kind : Nat) (inst : Nat) (h_s : Keeps s₀ s)
    : Keeps s₀ (qEndBurst s kind inst) := by
  unfold qEndBurst
  try dsimp only
  with_reducible
    repeat'
      first
      | assumption | apply qChange_keeps | (apply Keeps.foldl; intro u a hu; try dsimp only) | apply Keeps.ite | split
      | intro _ | refine Keeps.written rfl rfl rfl rfl rfl rfl rfl rfl ?_

theorem resumeReads_keeps {s₀ : State} (s : State) (h_s : Keeps s₀ s) : Keeps s₀ (resumeReads s) := by
  unfold resumeReads
  try dsimp only
  with_reducible
    repeat'
      first
      | assumption | apply State.emit_keeps | apply State.setX_keeps | (apply Keeps.foldl; intro u a hu; try dsimp only)
      | apply Keeps.ite | split | intro _ | refine Keeps.written rfl rfl rfl rfl rfl rfl rfl rfl ?_

theorem State.emitXfr_only {m : Nat} {s₀ : State} (hm : 144 ||| m = m) (s : State) (l : List Sent)
    (h_s : Only m s₀ s) : Only m s₀ (State.emitXfr s l) := by
  unfold State.emitXfr
  try dsimp only
  with_reducible
    repeat'
      first
      | assumption | exact .inr (mask_bit hm (by decide)) | exact .inl rfl | exact mask_trans (by decide) hm
      | apply State.emit_only | (apply Only.foldl; intro u a hu; try dsimp only) | apply Only.ite | split | intro _
      | refine Only.written rfl ?_ ?_ ?_ ?_ ?_ ?_ ?_ ?_ ?_ ?_ ?_ ?_ ?_ ?_ ?_ ?_ ?_ ?_ ?_ ?_ ?_ ?_ ?_ ?_ ?_ ?_ ?_ ?_ ?_ ?_ ?_ ?_ ?_ ?_ ?_ ?_ ?_ ?_

theorem State.setQ_only {m : Nat} {s₀ : State} (hm : 64 ||| m = m) (s : State) (q : Nat) (c : QCell)
    (h_s : Only m s₀ s) : Only m s₀ (State.setQ s q c) := by
  unfold State.setQ
  try dsimp only
  with_reducible
    repeat'
      first
      | assumption | exact .inr (mask_bit hm (by decide)) | exact .inl rfl | exact mask_trans (by decide) hm
      | (apply Only.foldl; intro u a hu; try dsimp only) | apply Only.ite | split | intro _
      | refine Only.written rfl ?_ ?_ ?_ ?_ ?_ ?_ ?_ ?_ ?_ ?_ ?_ ?_ ?_ ?_ ?_ ?_ ?_ ?_ ?_ ?_ ?_ ?_ ?_ ?_ ?_ ?_ ?_ ?_ ?_ ?_ ?_ ?_ ?_ ?_ ?_ ?_ ?_ ?_

theorem State.setRing_only {m : Nat} {s₀ : State} (hm : 32 ||| m = m) (s : State) (r : Nat) (x3 : RingRt)
    (h_s : Only m s₀ s) : Only m s₀ (State.setRing s r x3) := by
  unfold State.setRing
  try dsimp only
  with_reducible
    repeat'
      first
      | assumption | exact .inr (mask_bit hm (by decide)) | exact .inl rfl | exact mask_trans (by decide) hm
      | (apply Only.foldl; intro u a hu; try dsimp only) | apply Only.ite | split | intro _
      | refine Only.written rfl ?_ ?_ ?_ ?_ ?_ ?_ ?_ ?_ ?_ ?_ ?_ ?_ ?_ ?_ ?_ ?_ ?_ ?_ ?_ ?_ ?_ ?_ ?_ ?_ ?_ ?_ ?_ ?_ ?_ ?_ ?_ ?_ ?_ ?_ ?_ ?_ ?_ ?_

theorem State.setX_only {m : Nat} {s₀ : State} (hm : 128 ||| m = m) (s : State) (n : Nat) (c : XCh)
    (h_s : Only m s₀ s) : Only m s₀ (State.setX s n c) := by
  unfold State.setX
  try dsimp only
  with_reducible
    repeat'
      first
      | assumption | exact .inr (mask_bit hm (by decide)) | exact .inl rfl | exact mask_trans (by decide) hm
      | (apply Only.foldl; intro u a hu; try dsimp only) | apply Only.ite | split | intro _
      | refine Only.written rfl ?_ ?_ ?_ ?_ ?_ ?_ ?_ ?_ ?_ ?_ ?_ ?_ ?_ ?_ ?_ ?_ ?_ ?_ ?_ ?_ ?_ ?_ ?_ ?_ ?_ ?_ ?_ ?_ ?_ ?_ ?_ ?_ ?_ ?_ ?_ ?_ ?_ ?_

theorem issueRead_only {m : Nat} {s₀ : State} (hm : 144 ||| m = m) (s : State) (n : Nat) (k : XRead)
    (h_s : Only m s₀ s) : Only m s₀ (issueRead s n k) := by
  unfold issueRead
  try dsimp only
  with_reducible
    repeat'
      first
      | assumption | exact mask_trans (by decide) hm | apply State.setX_only | apply State.emit_only
      | (apply Only.foldl; intro u a hu; try dsimp only) | apply Only.ite | split | intro _

theorem blockStart_only {m : Nat} {s₀ : State} (hm : 144 ||| m = m) (s : State) (n : Nat)
    (h_s : Only m s₀ s) : Only m s₀ (blockStart s n) := by
  unfold blockStart
  try dsimp only
  with_reducible
    repeat'
      first
      | assumption | exact mask_trans (by decide) hm | apply State.setX_only | apply issueRead_only
      | (apply Only.foldl; intro u a hu; try dsimp only) | apply Only.ite | split | intro _

theorem qlevelStart_only {m : Nat} {s₀ : State} (hm : 144 ||| m = m) (s : State) (q : Nat)
    (h_s : Only m s₀ s) : Only m s₀ (qlevelStart s q) := by
  unfold qlevelStart
  try dsimp only
  with_reducible
    repeat'
      first
      | assumption | exact mask_trans (by decide) hm | apply blockStart_only
      | (apply Only.foldl; intro u a hu; try dsimp only) | apply Only.ite | split | intro _

theorem levelNotice_only {m : Nat} {s₀ : State} (hm : 608 ||| m = m) (s : State) (q : Nat) (before : Bool)
    (h_s : Only m s₀ s) : Only m s₀ (levelNotice s q before) := by
  unfold levelNotice
  try dsimp only
  with_reducible
    repeat'
      first
      | assumption | exact mask_trans (by decide) hm | apply State.arrive_only | apply State.setQ_only
      | (apply Only.foldl; intro u a hu; try dsimp only) | apply Only.ite | split | intro _

theorem qChange_only {m : Nat} {s₀ : State} (hm : 752 ||| m = m) (s : State) (q : Nat) (c : QCell)
    (h_s : Only m s₀ s) : Only m s₀ (qChange s q c) := by
  unfold qChange
  try dsimp only
  with_reducible
    repeat'
      first
      | assumption | exact mask_trans (by decide) hm | apply qlevelStart_only | apply levelNotice_only
      | apply State.setQ_only | (apply Only.foldl; intro u a hu; try dsimp only) | apply Only.ite | split | intro _

theorem qProduce_only {m : Nat} {s₀ : State} (hm : 756 ||| m = m) (s : State) (kind : Nat) (inst : Nat)
    (items : List Word) (isGroup : Bool) (h_s : Only m s₀ s) : Only m s₀ (qProduce s kind inst items isGroup) := by
  unfold qProduce
  try dsimp only
  with_reducible
    repeat'
      first
      | assumption | exact mask_trans (by decide) hm | apply State.setReg_only | apply qChange_only
      | (apply Only.foldl; intro u a hu; try dsimp only) | apply Only.ite | split | intro _

theorem trigger_only {m : Nat} {s₀ : State} (hm : 144 ||| m = m) (s : State) (n : Nat)
    (h_s : Only m s₀ s) : Only m s₀ (trigger s n) := by
  unfold trigger
  try dsimp only
  with_reducible
    repeat'
      first
      | assumption | exact mask_trans (by decide) hm | apply blockStart_only | apply State.setX_only
      | (apply Only.foldl; intro u a hu; try dsimp only) | apply Only.ite | split | intro _

theorem xfrTrigger_only {m : Nat} {s₀ : State} (hm : 144 ||| m = m) (s : State) (pace : Nat) (src : Nat)
    (h_s : Only m s₀ s) : Only m s₀ (xfrTrigger s pace src) := by
  unfold xfrTrigger
  try dsimp only
  with_reducible
    repeat'
      first
      | assumption | exact mask_trans (by decide) hm | apply trigger_only
      | (apply Only.foldl; intro u a hu; try dsimp only) | apply Only.ite | split | intro _

theorem noteOwner_only {m : Nat} {s₀ : State} (hm : 256 ||| m = m) (s : State)
    (h_s : Only m s₀ s) : Only m s₀ (noteOwner s) := by
  unfold noteOwner
  try dsimp only
  with_reducible
    repeat'
      first
      | assumption | exact .inr (mask_bit hm (by decide)) | exact .inl rfl | exact mask_trans (by decide) hm
      | (apply Only.foldl; intro u a hu; try dsimp only) | apply Only.ite | split | intro _
      | refine Only.written rfl ?_ ?_ ?_ ?_ ?_ ?_ ?_ ?_ ?_ ?_ ?_ ?_ ?_ ?_ ?_ ?_ ?_ ?_ ?_ ?_ ?_ ?_ ?_ ?_ ?_ ?_ ?_ ?_ ?_ ?_ ?_ ?_ ?_ ?_ ?_ ?_ ?_ ?_

theorem qFlush_only {m : Nat} {s₀ : State} (hm : 64 ||| m = m) (s : State) (q : Nat)
    (h_s : Only m s₀ s) : Only m s₀ (qFlush s q) := by
  unfold qFlush
  try dsimp only
  with_reducible
    repeat'
      first
      | assumption | exact mask_trans (by decide) hm | apply State.setQ_only
      | (apply Only.foldl; intro u a hu; try dsimp only) | apply Only.ite | split | intro _

theorem qAck_only {m : Nat} {s₀ : State} (hm : 64 ||| m = m) (s : State) (q : Nat)
    (h_s : Only m s₀ s) : Only m s₀ (qAck s q) := by
  unfold qAck
  try dsimp only
  with_reducible
    repeat'
      first
      | assumption | exact mask_trans (by decide) hm | apply State.setQ_only
      | (apply Only.foldl; intro u a hu; try dsimp only) | apply Only.ite | split | intro _

theorem capturePair_only {m : Nat} {s₀ : State} (hm : 564 ||| m = m) (s : State) (r : Nat) (second : List Word)
    (h_s : Only m s₀ s) : Only m s₀ (capturePair s r second) := by
  unfold capturePair
  try dsimp only
  with_reducible
    repeat'
      first
      | assumption | exact mask_trans (by decide) hm | apply State.setRing_only | apply ringOffer_only
      | (apply Only.foldl; intro u a hu; try dsimp only) | apply Only.ite | split | intro _

theorem captureTake_only {m : Nat} {s₀ : State} (hm : 564 ||| m = m) (s : State) (r : Nat) (q : Nat) (w : QWord)
    (h_s : Only m s₀ s) : Only m s₀ (captureTake s r q w) := by
  unfold captureTake
  try dsimp only
  with_reducible
    repeat'
      first
      | assumption | exact mask_trans (by decide) hm | apply State.setRing_only | apply capturePair_only
      | apply ringOffer_only | (apply Only.foldl; intro u a hu; try dsimp only) | apply Only.ite | split | intro _

theorem queueCloseTimeout_only {m : Nat} {s₀ : State} (hm : 752 ||| m = m) (s : State) (q : Nat)
    (h_s : Only m s₀ s) : Only m s₀ (queueCloseTimeout s q) := by
  unfold queueCloseTimeout
  try dsimp only
  with_reducible
    repeat'
      first
      | assumption | exact mask_trans (by decide) hm | apply qChange_only
      | (apply Only.foldl; intro u a hu; try dsimp only) | apply Only.ite | split | intro _

theorem qTake_only {m : Nat} {s₀ : State} (hm : 64 ||| m = m) (s : State) (q : Nat)
    (h_s : Only m s₀ s) : Only m s₀ (qTake s q) := by
  unfold qTake
  try dsimp only
  with_reducible
    repeat'
      first
      | assumption | exact mask_trans (by decide) hm | apply State.setQ_only
      | (apply Only.foldl; intro u a hu; try dsimp only) | apply Only.ite | split | intro _

theorem qEndBurst_only {m : Nat} {s₀ : State} (hm : 752 ||| m = m) (s : State) (kind : Nat) (inst : Nat)
    (h_s : Only m s₀ s) : Only m s₀ (qEndBurst s kind inst) := by
  unfold qEndBurst
  try dsimp only
  with_reducible
    repeat'
      first
      | assumption | exact mask_trans (by decide) hm | apply qChange_only
      | (apply Only.foldl; intro u a hu; try dsimp only) | apply Only.ite | split | intro _

theorem resumeReads_only {m : Nat} {s₀ : State} (hm : 144 ||| m = m) (s : State)
    (h_s : Only m s₀ s) : Only m s₀ (resumeReads s) := by
  unfold resumeReads
  try dsimp only
  with_reducible
    repeat'
      first
      | assumption | exact .inr (mask_bit hm (by decide)) | exact .inl rfl | exact mask_trans (by decide) hm
      | apply State.emit_only | apply State.setX_only | (apply Only.foldl; intro u a hu; try dsimp only) | apply Only.ite
      | split | intro _
      | refine Only.written rfl ?_ ?_ ?_ ?_ ?_ ?_ ?_ ?_ ?_ ?_ ?_ ?_ ?_ ?_ ?_ ?_ ?_ ?_ ?_ ?_ ?_ ?_ ?_ ?_ ?_ ?_ ?_ ?_ ?_ ?_ ?_ ?_ ?_ ?_ ?_ ?_ ?_ ?_

end Sys2Proof.Machine
end

