-- ==== Sys2Proof/Laws/Stage.lean ====
section
/-!
SUPPORT. Machine/Stage.lean: every operation of it keeps what `Keeps` says, and changes only the parts of its mask.
-/
set_option linter.unusedTactic false
set_option linter.unreachableTactic false
set_option linter.unusedVariables false

namespace Sys2Proof.Machine

theorem State.setBank_keeps {s₀ : State} (s : State) (b : Nat) (x3 : Bank) (h_s : Keeps s₀ s)
    : Keeps s₀ (State.setBank s b x3) := by
  unfold State.setBank
  try dsimp only
  with_reducible
    repeat'
      first
      | assumption | (apply Keeps.foldl; intro u a hu; try dsimp only) | apply Keeps.ite | split | intro _
      | refine Keeps.written rfl rfl rfl rfl rfl rfl rfl rfl ?_

theorem State.setCell_keeps {s₀ : State} (s : State) (c : Nat) (x3 : Cell) (h_s : Keeps s₀ s)
    : Keeps s₀ (State.setCell s c x3) := by
  unfold State.setCell
  try dsimp only
  with_reducible
    repeat'
      first
      | assumption | (apply Keeps.foldl; intro u a hu; try dsimp only) | apply Keeps.ite | split | intro _
      | refine Keeps.written rfl rfl rfl rfl rfl rfl rfl rfl ?_

theorem State.setShot_keeps {s₀ : State} (s : State) (c : Nat) (x3 : Shot) (h_s : Keeps s₀ s)
    : Keeps s₀ (State.setShot s c x3) := by
  unfold State.setShot
  try dsimp only
  with_reducible
    repeat'
      first
      | assumption | apply State.setCell_keeps | (apply Keeps.foldl; intro u a hu; try dsimp only) | apply Keeps.ite
      | split | intro _ | refine Keeps.written rfl rfl rfl rfl rfl rfl rfl rfl ?_

theorem evsClose_keeps {s₀ : State} (s : State) (cmd : StartCmd) (h_s : Keeps s₀ s) : Keeps s₀ (evsClose s cmd) := by
  unfold evsClose
  try dsimp only
  with_reducible
    repeat'
      first
      | assumption | apply State.setUnit_keeps | (apply Keeps.foldl; intro u a hu; try dsimp only) | apply Keeps.ite
      | split | intro _ | refine Keeps.written rfl rfl rfl rfl rfl rfl rfl rfl ?_

theorem gateBlank_keeps {s₀ : State} (s : State) (ws : List Nat) (g : Gate) (level : Bool) (now_ : Bool) (at_ : Nat) (h_s
    : Keeps s₀ s) : Keeps s₀ (gateBlank s ws g level now_ at_) := by
  unfold gateBlank
  try dsimp only
  with_reducible
    repeat'
      first
      | assumption | apply unblankEdge_keeps | apply blankEdge_keeps | (apply Keeps.foldl; intro u a hu; try dsimp only)
      | apply Keeps.ite | split | intro _ | refine Keeps.written rfl rfl rfl rfl rfl rfl rfl rfl ?_

theorem setHs_keeps {s₀ : State} (s : State) (b : Nat) (isHsb : Bool) (level : Bool) (at_ : Nat) (h_s : Keeps s₀ s)
    : Keeps s₀ (setHs s b isHsb level at_) := by
  unfold setHs
  try dsimp only
  with_reducible
    repeat'
      first
      | assumption | apply State.setBank_keeps | apply gateBlank_keeps | (apply Keeps.foldl; intro u a hu; try dsimp only)
      | apply Keeps.ite | split | intro _ | refine Keeps.written rfl rfl rfl rfl rfl rfl rfl rfl ?_

theorem setLsg_keeps {s₀ : State} (s : State) (c : Nat) (level : Bool) (at_ : Nat) (h_s : Keeps s₀ s)
    : Keeps s₀ (setLsg s c level at_) := by
  unfold setLsg
  try dsimp only
  with_reducible
    repeat'
      first
      | assumption | apply State.setCell_keeps | apply gateBlank_keeps | (apply Keeps.foldl; intro u a hu; try dsimp only)
      | apply Keeps.ite | split | intro _ | refine Keeps.written rfl rfl rfl rfl rfl rfl rfl rfl ?_

theorem countForced_keeps {s₀ : State} (s : State) (b : Nat) (c : Nat) (driven : Bool) (x5 : Shot) (h_s : Keeps s₀ s)
    : Keeps s₀ (countForced s b c driven x5) := by
  unfold countForced
  try dsimp only
  with_reducible
    repeat'
      first
      | assumption | apply State.setShot_keeps | apply State.cntSat_keeps
      | (apply Keeps.foldl; intro u a hu; try dsimp only) | apply Keeps.ite | split | intro _
      | refine Keeps.written rfl rfl rfl rfl rfl rfl rfl rfl ?_

theorem chanEval_keeps {s₀ : State} (b : Nat) (at_ : Nat) (driven : Bool) (s : State) (c : Nat) (h_s : Keeps s₀ s)
    : Keeps s₀ (chanEval b at_ driven s c) := by
  unfold chanEval
  try dsimp only
  with_reducible
    repeat'
      first
      | assumption | apply countForced_keeps | apply setLsg_keeps | (apply Keeps.foldl; intro u a hu; try dsimp only)
      | apply Keeps.ite | split | intro _ | refine Keeps.written rfl rfl rfl rfl rfl rfl rfl rfl ?_

theorem bankEval_keeps {s₀ : State} (s : State) (b : Nat) (lat : Nat) (h_s : Keeps s₀ s) : Keeps s₀ (bankEval s b lat) := by
  unfold bankEval
  try dsimp only
  with_reducible
    repeat'
      first
      | assumption | apply chanEval_keeps | apply setHs_keeps | (apply Keeps.foldl; intro u a hu; try dsimp only)
      | apply Keeps.ite | split | intro _ | refine Keeps.written rfl rfl rfl rfl rfl rfl rfl rfl ?_

theorem driveRecord_keeps {s₀ : State} (s : State) (kind : Nat) (reason : Nat) (cmd : StartCmd) (delay : Nat)
    (other : Nat) (flags : Nat) (h_s : Keeps s₀ s) : Keeps s₀ (driveRecord s kind reason cmd delay other flags) := by
  unfold driveRecord
  try dsimp only
  with_reducible
    repeat'
      first
      | assumption | apply State.setRegs_keeps | apply State.arrive_keeps | apply traceWrite_keeps | apply tlmRecord_keeps
      | (apply Keeps.foldl; intro u a hu; try dsimp only) | apply Keeps.ite | split | intro _
      | refine Keeps.written rfl rfl rfl rfl rfl rfl rfl rfl ?_

theorem loadThresholds_keeps {s₀ : State} (s : State) (c : Nat) (at_ : Nat) (h_s : Keeps s₀ s)
    : Keeps s₀ (loadThresholds s c at_) := by
  unfold loadThresholds
  try dsimp only
  with_reducible
    repeat'
      first
      | assumption | apply winLoad_keeps | (apply Keeps.foldl; intro u a hu; try dsimp only) | apply Keeps.ite | split
      | intro _ | refine Keeps.written rfl rfl rfl rfl rfl rfl rfl rfl ?_

theorem regulate_keeps {s₀ : State} (s : State) (c : Nat) (h_s : Keeps s₀ s) : Keeps s₀ (regulate s c) := by
  unfold regulate
  try dsimp only
  with_reducible
    repeat'
      first
      | assumption | apply State.setShot_keeps | (apply Keeps.foldl; intro u a hu; try dsimp only) | apply Keeps.ite
      | split | intro _ | refine Keeps.written rfl rfl rfl rfl rfl rfl rfl rfl ?_

theorem loadIdle_keeps {s₀ : State} (s : State) (c : Nat) (h_s : Keeps s₀ s) : Keeps s₀ (loadIdle s c) := by
  unfold loadIdle
  try dsimp only
  with_reducible
    repeat'
      first
      | assumption | apply State.setWin_keeps | (apply Keeps.foldl; intro u a hu; try dsimp only) | apply Keeps.ite
      | split | intro _ | refine Keeps.written rfl rfl rfl rfl rfl rfl rfl rfl ?_

theorem diagRecord_keeps {s₀ : State} (s : State) (c : Nat) (code : Nat) (disabled : Bool) (escalated : Bool) (slot : Nat)
    (value : Nat) (run : Nat) (prof : Nat) (phase : Nat) (region : Nat) (h_s : Keeps s₀ s)
    : Keeps s₀ (diagRecord s c code disabled escalated slot value run prof phase region) := by
  unfold diagRecord
  try dsimp only
  with_reducible
    repeat'
      first
      | assumption | apply State.arrive_keeps | apply traceWrite_keeps | apply tlmRecord_keeps
      | (apply Keeps.foldl; intro u a hu; try dsimp only) | apply Keeps.ite | split | intro _
      | refine Keeps.written rfl rfl rfl rfl rfl rfl rfl rfl ?_

theorem winThrWrite_keeps {s₀ : State} (s : State) (w : Nat) (v : Word) (h_s : Keeps s₀ s)
    : Keeps s₀ (winThrWrite s w v) := by
  unfold winThrWrite
  try dsimp only
  with_reducible
    repeat'
      first
      | assumption | apply State.setReg_keeps | apply State.setWin_keeps
      | (apply Keeps.foldl; intro u a hu; try dsimp only) | apply Keeps.ite | split | intro _
      | refine Keeps.written rfl rfl rfl rfl rfl rfl rfl rfl ?_

theorem State.setBank_only {m : Nat} {s₀ : State} (hm : 4096 ||| m = m) (s : State) (b : Nat) (x3 : Bank)
    (h_s : Only m s₀ s) : Only m s₀ (State.setBank s b x3) := by
  unfold State.setBank
  try dsimp only
  with_reducible
    repeat'
      first
      | assumption | exact .inr (mask_bit hm (by decide)) | exact .inl rfl | exact mask_trans (by decide) hm
      | (apply Only.foldl; intro u a hu; try dsimp only) | apply Only.ite | split | intro _
      | refine Only.written rfl ?_ ?_ ?_ ?_ ?_ ?_ ?_ ?_ ?_ ?_ ?_ ?_ ?_ ?_ ?_ ?_ ?_ ?_ ?_ ?_ ?_ ?_ ?_ ?_ ?_ ?_ ?_ ?_ ?_ ?_ ?_ ?_ ?_ ?_ ?_ ?_ ?_ ?_

theorem State.setCell_only {m : Nat} {s₀ : State} (hm : 2048 ||| m = m) (s : State) (c : Nat) (x3 : Cell)
    (h_s : Only m s₀ s) : Only m s₀ (State.setCell s c x3) := by
  unfold State.setCell
  try dsimp only
  with_reducible
    repeat'
      first
      | assumption | exact .inr (mask_bit hm (by decide)) | exact .inl rfl | exact mask_trans (by decide) hm
      | (apply Only.foldl; intro u a hu; try dsimp only) | apply Only.ite | split | intro _
      | refine Only.written rfl ?_ ?_ ?_ ?_ ?_ ?_ ?_ ?_ ?_ ?_ ?_ ?_ ?_ ?_ ?_ ?_ ?_ ?_ ?_ ?_ ?_ ?_ ?_ ?_ ?_ ?_ ?_ ?_ ?_ ?_ ?_ ?_ ?_ ?_ ?_ ?_ ?_ ?_

theorem State.setShot_only {m : Nat} {s₀ : State} (hm : 2048 ||| m = m) (s : State) (c : Nat) (x3 : Shot)
    (h_s : Only m s₀ s) : Only m s₀ (State.setShot s c x3) := by
  unfold State.setShot
  try dsimp only
  with_reducible
    repeat'
      first
      | assumption | exact mask_trans (by decide) hm | apply State.setCell_only
      | (apply Only.foldl; intro u a hu; try dsimp only) | apply Only.ite | split | intro _

theorem evsClose_only {m : Nat} {s₀ : State} (hm : 8192 ||| m = m) (s : State) (cmd : StartCmd)
    (h_s : Only m s₀ s) : Only m s₀ (evsClose s cmd) := by
  unfold evsClose
  try dsimp only
  with_reducible
    repeat'
      first
      | assumption | exact mask_trans (by decide) hm | apply State.setUnit_only
      | (apply Only.foldl; intro u a hu; try dsimp only) | apply Only.ite | split | intro _

theorem gateBlank_only {m : Nat} {s₀ : State} (hm : 1048576 ||| m = m) (s : State) (ws : List Nat) (g : Gate)
    (level : Bool) (now_ : Bool) (at_ : Nat) (h_s : Only m s₀ s) : Only m s₀ (gateBlank s ws g level now_ at_) := by
  unfold gateBlank
  try dsimp only
  with_reducible
    repeat'
      first
      | assumption | exact mask_trans (by decide) hm | apply unblankEdge_only | apply blankEdge_only
      | (apply Only.foldl; intro u a hu; try dsimp only) | apply Only.ite | split | intro _

theorem setHs_only {m : Nat} {s₀ : State} (hm : 1052672 ||| m = m) (s : State) (b : Nat) (isHsb : Bool) (level : Bool)
    (at_ : Nat) (h_s : Only m s₀ s) : Only m s₀ (setHs s b isHsb level at_) := by
  unfold setHs
  try dsimp only
  with_reducible
    repeat'
      first
      | assumption | exact mask_trans (by decide) hm | apply State.setBank_only | apply gateBlank_only
      | (apply Only.foldl; intro u a hu; try dsimp only) | apply Only.ite | split | intro _

theorem setLsg_only {m : Nat} {s₀ : State} (hm : 1050624 ||| m = m) (s : State) (c : Nat) (level : Bool) (at_ : Nat)
    (h_s : Only m s₀ s) : Only m s₀ (setLsg s c level at_) := by
  unfold setLsg
  try dsimp only
  with_reducible
    repeat'
      first
      | assumption | exact mask_trans (by decide) hm | apply State.setCell_only | apply gateBlank_only
      | (apply Only.foldl; intro u a hu; try dsimp only) | apply Only.ite | split | intro _

theorem countForced_only {m : Nat} {s₀ : State} (hm : 2052 ||| m = m) (s : State) (b : Nat) (c : Nat) (driven : Bool)
    (x5 : Shot) (h_s : Only m s₀ s) : Only m s₀ (countForced s b c driven x5) := by
  unfold countForced
  try dsimp only
  with_reducible
    repeat'
      first
      | assumption | exact mask_trans (by decide) hm | apply State.setShot_only | apply State.cntSat_only
      | (apply Only.foldl; intro u a hu; try dsimp only) | apply Only.ite | split | intro _

theorem chanEval_only {m : Nat} {s₀ : State} (hm : 1050628 ||| m = m) (b : Nat) (at_ : Nat) (driven : Bool) (s : State)
    (c : Nat) (h_s : Only m s₀ s) : Only m s₀ (chanEval b at_ driven s c) := by
  unfold chanEval
  try dsimp only
  with_reducible
    repeat'
      first
      | assumption | exact mask_trans (by decide) hm | apply countForced_only | apply setLsg_only
      | (apply Only.foldl; intro u a hu; try dsimp only) | apply Only.ite | split | intro _

theorem bankEval_only {m : Nat} {s₀ : State} (hm : 68720531460 ||| m = m) (s : State) (b : Nat) (lat : Nat)
    (h_s : Only m s₀ s) : Only m s₀ (bankEval s b lat) := by
  unfold bankEval
  try dsimp only
  with_reducible
    repeat'
      first
      | assumption | exact .inr (mask_bit hm (by decide)) | exact .inl rfl | exact mask_trans (by decide) hm
      | apply chanEval_only | apply setHs_only | (apply Only.foldl; intro u a hu; try dsimp only) | apply Only.ite | split
      | intro _
      | refine Only.written rfl ?_ ?_ ?_ ?_ ?_ ?_ ?_ ?_ ?_ ?_ ?_ ?_ ?_ ?_ ?_ ?_ ?_ ?_ ?_ ?_ ?_ ?_ ?_ ?_ ?_ ?_ ?_ ?_ ?_ ?_ ?_ ?_ ?_ ?_ ?_ ?_ ?_ ?_

theorem driveRecord_only {m : Nat} {s₀ : State} (hm : 820 ||| m = m) (s : State) (kind : Nat) (reason : Nat)
    (cmd : StartCmd) (delay : Nat) (other : Nat) (flags : Nat)
    (h_s : Only m s₀ s) : Only m s₀ (driveRecord s kind reason cmd delay other flags) := by
  unfold driveRecord
  try dsimp only
  with_reducible
    repeat'
      first
      | assumption | exact mask_trans (by decide) hm | apply State.setRegs_only | apply State.arrive_only
      | apply traceWrite_only | apply tlmRecord_only | (apply Only.foldl; intro u a hu; try dsimp only) | apply Only.ite
      | split | intro _

theorem loadThresholds_only {m : Nat} {s₀ : State} (hm : 1048576 ||| m = m) (s : State) (c : Nat) (at_ : Nat)
    (h_s : Only m s₀ s) : Only m s₀ (loadThresholds s c at_) := by
  unfold loadThresholds
  try dsimp only
  with_reducible
    repeat'
      first
      | assumption | exact mask_trans (by decide) hm | apply winLoad_only
      | (apply Only.foldl; intro u a hu; try dsimp only) | apply Only.ite | split | intro _

theorem regulate_only {m : Nat} {s₀ : State} (hm : 2048 ||| m = m) (s : State) (c : Nat)
    (h_s : Only m s₀ s) : Only m s₀ (regulate s c) := by
  unfold regulate
  try dsimp only
  with_reducible
    repeat'
      first
      | assumption | exact mask_trans (by decide) hm | apply State.setShot_only
      | (apply Only.foldl; intro u a hu; try dsimp only) | apply Only.ite | split | intro _

theorem loadIdle_only {m : Nat} {s₀ : State} (hm : 1048576 ||| m = m) (s : State) (c : Nat)
    (h_s : Only m s₀ s) : Only m s₀ (loadIdle s c) := by
  unfold loadIdle
  try dsimp only
  with_reducible
    repeat'
      first
      | assumption | exact mask_trans (by decide) hm | apply State.setWin_only
      | (apply Only.foldl; intro u a hu; try dsimp only) | apply Only.ite | split | intro _

theorem diagRecord_only {m : Nat} {s₀ : State} (hm : 820 ||| m = m) (s : State) (c : Nat) (code : Nat) (disabled : Bool)
    (escalated : Bool) (slot : Nat) (value : Nat) (run : Nat) (prof : Nat) (phase : Nat) (region : Nat)
    (h_s : Only m s₀ s) : Only m s₀ (diagRecord s c code disabled escalated slot value run prof phase region) := by
  unfold diagRecord
  try dsimp only
  with_reducible
    repeat'
      first
      | assumption | exact mask_trans (by decide) hm | apply State.arrive_only | apply traceWrite_only
      | apply tlmRecord_only | (apply Only.foldl; intro u a hu; try dsimp only) | apply Only.ite | split | intro _

theorem winThrWrite_only {m : Nat} {s₀ : State} (hm : 1048580 ||| m = m) (s : State) (w : Nat) (v : Word)
    (h_s : Only m s₀ s) : Only m s₀ (winThrWrite s w v) := by
  unfold winThrWrite
  try dsimp only
  with_reducible
    repeat'
      first
      | assumption | exact mask_trans (by decide) hm | apply State.setReg_only | apply State.setWin_only
      | (apply Only.foldl; intro u a hu; try dsimp only) | apply Only.ite | split | intro _

end Sys2Proof.Machine
end

