-- ==== Sys2Proof/Laws/Sense.lean ====
section
/-!
SUPPORT. Machine/Sense.lean: every operation of it keeps what `Keeps` says, and changes only the parts of its mask.
-/
set_option linter.unusedTactic false
set_option linter.unreachableTactic false
set_option linter.unusedVariables false

namespace Sys2Proof.Machine

theorem countGrade_keeps {s₀ : State} (s : State) (c : Nat) (grade : Nat) (h_s : Keeps s₀ s)
    : Keeps s₀ (countGrade s c grade) := by
  unfold countGrade
  try dsimp only
  with_reducible
    repeat'
      first
      | assumption | apply State.cntSat_keeps | (apply Keeps.foldl; intro u a hu; try dsimp only) | apply Keeps.ite
      | split | intro _ | refine Keeps.written rfl rfl rfl rfl rfl rfl rfl rfl ?_

theorem closingRecord_keeps {s₀ : State} (s : State) (k : Kink) (r : Closing) (h_s : Keeps s₀ s)
    : Keeps s₀ (closingRecord s k r) := by
  unfold closingRecord
  try dsimp only
  with_reducible
    repeat'
      first
      | assumption | apply State.setRegs_keeps | apply traceWrite_keeps | apply countGrade_keeps | apply qProduce_keeps
      | (apply Keeps.foldl; intro u a hu; try dsimp only) | apply Keeps.ite | split | intro _
      | refine Keeps.written rfl rfl rfl rfl rfl rfl rfl rfl ?_

theorem kinkOpen_keeps {s₀ : State} (s : State) (c : Nat) (te : Nat) (h_s : Keeps s₀ s) : Keeps s₀ (kinkOpen s c te) := by
  unfold kinkOpen
  try dsimp only
  with_reducible
    repeat'
      first
      | assumption | apply closingRecord_keeps | apply State.setBank_keeps | apply State.cntSat_keeps
      | (apply Keeps.foldl; intro u a hu; try dsimp only) | apply Keeps.ite | split | intro _
      | refine Keeps.written rfl rfl rfl rfl rfl rfl rfl rfl ?_

theorem entryMade_keeps {s₀ : State} (s : State) (e : Nat × Nat × Nat) (h_s : Keeps s₀ s) : Keeps s₀ (entryMade s e) := by
  unfold entryMade
  try dsimp only
  with_reducible
    repeat'
      first
      | assumption | apply phaseTrigger_keeps | apply kinkOpen_keeps | (apply Keeps.foldl; intro u a hu; try dsimp only)
      | apply Keeps.ite | split | intro _ | refine Keeps.written rfl rfl rfl rfl rfl rfl rfl rfl ?_

theorem bankSettle_keeps {s₀ : State} (s : State) (b : Nat) (upTo : Nat) (h_s : Keeps s₀ s)
    : Keeps s₀ (bankSettle s b upTo) := by
  unfold bankSettle
  try dsimp only
  with_reducible
    repeat'
      first
      | assumption | apply State.setBank_keeps | apply entryMade_keeps | (apply Keeps.foldl; intro u a hu; try dsimp only)
      | apply Keeps.ite | split | intro _ | refine Keeps.written rfl rfl rfl rfl rfl rfl rfl rfl ?_

theorem entryDrop_keeps {s₀ : State} (s : State) (c : Nat) (h_s : Keeps s₀ s) : Keeps s₀ (entryDrop s c) := by
  unfold entryDrop
  try dsimp only
  with_reducible
    repeat'
      first
      | assumption | apply State.setBank_keeps | apply bankSettle_keeps
      | (apply Keeps.foldl; intro u a hu; try dsimp only) | apply Keeps.ite | split | intro _
      | refine Keeps.written rfl rfl rfl rfl rfl rfl rfl rfl ?_

theorem entryAt_keeps {s₀ : State} (s : State) (c : Nat) (q : Nat) (at_ : Nat) (h_s : Keeps s₀ s)
    : Keeps s₀ (entryAt s c q at_) := by
  unfold entryAt
  try dsimp only
  with_reducible
    repeat'
      first
      | assumption | apply State.setBank_keeps | apply entryMade_keeps | (apply Keeps.foldl; intro u a hu; try dsimp only)
      | apply Keeps.ite | split | intro _ | refine Keeps.written rfl rfl rfl rfl rfl rfl rfl rfl ?_

theorem kinkAbort_keeps {s₀ : State} (s : State) (b : Nat) (h_s : Keeps s₀ s) : Keeps s₀ (kinkAbort s b) := by
  unfold kinkAbort
  try dsimp only
  with_reducible
    repeat'
      first
      | assumption | apply closingRecord_keeps | apply State.setBank_keeps | apply State.cntSat_keeps
      | (apply Keeps.foldl; intro u a hu; try dsimp only) | apply Keeps.ite | split | intro _
      | refine Keeps.written rfl rfl rfl rfl rfl rfl rfl rfl ?_

theorem kinkAbortChan_keeps {s₀ : State} (s : State) (c : Nat) (h_s : Keeps s₀ s) : Keeps s₀ (kinkAbortChan s c) := by
  unfold kinkAbortChan
  try dsimp only
  with_reducible
    repeat'
      first
      | assumption | apply bankSettle_keeps | apply kinkAbort_keeps | (apply Keeps.foldl; intro u a hu; try dsimp only)
      | apply Keeps.ite | split | intro _ | refine Keeps.written rfl rfl rfl rfl rfl rfl rfl rfl ?_

theorem setCellWord_keeps {s₀ : State} (s : State) (c : Nat) (i : Nat) (j : Nat) (k : Nat) (w : Word) (h_s : Keeps s₀ s)
    : Keeps s₀ (setCellWord s c i j k w) := by
  unfold setCellWord
  try dsimp only
  with_reducible
    repeat'
      first
      | assumption | apply State.putWords_keeps | apply State.keepPast_keeps
      | (apply Keeps.foldl; intro u a hu; try dsimp only) | apply Keeps.ite | split | intro _
      | refine Keeps.written rfl rfl rfl rfl rfl rfl rfl rfl ?_

theorem stampCell_keeps {s₀ : State} (s : State) (c : Nat) (i : Nat) (j : Nat) (h_s : Keeps s₀ s)
    : Keeps s₀ (stampCell s c i j) := by
  unfold stampCell
  try dsimp only
  with_reducible
    repeat'
      first
      | assumption | apply setCellWord_keeps | (apply Keeps.foldl; intro u a hu; try dsimp only) | apply Keeps.ite | split
      | intro _ | refine Keeps.written rfl rfl rfl rfl rfl rfl rfl rfl ?_

theorem learnPeak_keeps {s₀ : State} (s : State) (x2 : Shot) (peak : Nat) (h_s : Keeps s₀ s)
    : Keeps s₀ (learnPeak s x2 peak) := by
  unfold learnPeak
  try dsimp only
  with_reducible
    repeat'
      first
      | assumption | apply setCellWord_keeps | apply stampCell_keeps | (apply Keeps.foldl; intro u a hu; try dsimp only)
      | apply Keeps.ite | split | intro _ | refine Keeps.written rfl rfl rfl rfl rfl rfl rfl rfl ?_

theorem kinkSample_keeps {s₀ : State} (s : State) (b : Nat) (code : Nat) (ovr : Bool) (h_s : Keeps s₀ s)
    : Keeps s₀ (kinkSample s b code ovr) := by
  unfold kinkSample
  try dsimp only
  with_reducible
    repeat'
      first
      | assumption | apply State.setBank_keeps | apply bankSettle_keeps
      | (apply Keeps.foldl; intro u a hu; try dsimp only) | apply Keeps.ite | split | intro _
      | refine Keeps.written rfl rfl rfl rfl rfl rfl rfl rfl ?_

theorem noteClose_keeps {s₀ : State} (s : State) (c : Nat) (tclose : Nat) (h_s : Keeps s₀ s)
    : Keeps s₀ (noteClose s c tclose) := by
  unfold noteClose
  try dsimp only
  with_reducible
    repeat'
      first
      | assumption | apply State.setCell_keeps | apply State.setReg_keeps
      | (apply Keeps.foldl; intro u a hu; try dsimp only) | apply Keeps.ite | split | intro _
      | refine Keeps.written rfl rfl rfl rfl rfl rfl rfl rfl ?_

theorem learnOutlier_keeps {s₀ : State} (s : State) (x2 : Shot) (h_s : Keeps s₀ s) : Keeps s₀ (learnOutlier s x2) := by
  unfold learnOutlier
  try dsimp only
  with_reducible
    repeat'
      first
      | assumption | apply setCellWord_keeps | apply diagRecord_keeps | (apply Keeps.foldl; intro u a hu; try dsimp only)
      | apply Keeps.ite | split | intro _ | refine Keeps.written rfl rfl rfl rfl rfl rfl rfl rfl ?_

theorem learnClose_keeps {s₀ : State} (s : State) (x2 : Shot) (v : Nat) (h_s : Keeps s₀ s)
    : Keeps s₀ (learnClose s x2 v) := by
  unfold learnClose
  try dsimp only
  with_reducible
    repeat'
      first
      | assumption | apply setCellWord_keeps | apply stampCell_keeps | (apply Keeps.foldl; intro u a hu; try dsimp only)
      | apply Keeps.ite | split | intro _ | refine Keeps.written rfl rfl rfl rfl rfl rfl rfl rfl ?_

theorem kinkPublish_keeps {s₀ : State} (s : State) (k : Kink) (h_s : Keeps s₀ s) : Keeps s₀ (kinkPublish s k) := by
  unfold kinkPublish
  try dsimp only
  with_reducible
    repeat'
      first
      | assumption | apply closingRecord_keeps | apply learnOutlier_keeps | apply learnClose_keeps | apply noteClose_keeps
      | (apply Keeps.foldl; intro u a hu; try dsimp only) | apply Keeps.ite | split | intro _
      | refine Keeps.written rfl rfl rfl rfl rfl rfl rfl rfl ?_

theorem kinkResult_keeps {s₀ : State} (s : State) (b : Nat) (h_s : Keeps s₀ s) : Keeps s₀ (kinkResult s b) := by
  unfold kinkResult
  try dsimp only
  with_reducible
    repeat'
      first
      | assumption | apply State.setBank_keeps | apply kinkPublish_keeps
      | (apply Keeps.foldl; intro u a hu; try dsimp only) | apply Keeps.ite | split | intro _
      | refine Keeps.written rfl rfl rfl rfl rfl rfl rfl rfl ?_

theorem countGrade_only {m : Nat} {s₀ : State} (hm : 4 ||| m = m) (s : State) (c : Nat) (grade : Nat)
    (h_s : Only m s₀ s) : Only m s₀ (countGrade s c grade) := by
  unfold countGrade
  try dsimp only
  with_reducible
    repeat'
      first
      | assumption | exact mask_trans (by decide) hm | apply State.cntSat_only
      | (apply Only.foldl; intro u a hu; try dsimp only) | apply Only.ite | split | intro _

theorem closingRecord_only {m : Nat} {s₀ : State} (hm : 1012 ||| m = m) (s : State) (k : Kink) (r : Closing)
    (h_s : Only m s₀ s) : Only m s₀ (closingRecord s k r) := by
  unfold closingRecord
  try dsimp only
  with_reducible
    repeat'
      first
      | assumption | exact mask_trans (by decide) hm | apply State.setRegs_only | apply traceWrite_only
      | apply countGrade_only | apply qProduce_only | (apply Only.foldl; intro u a hu; try dsimp only) | apply Only.ite
      | split | intro _

theorem kinkOpen_only {m : Nat} {s₀ : State} (hm : 5108 ||| m = m) (s : State) (c : Nat) (te : Nat)
    (h_s : Only m s₀ s) : Only m s₀ (kinkOpen s c te) := by
  unfold kinkOpen
  try dsimp only
  with_reducible
    repeat'
      first
      | assumption | exact mask_trans (by decide) hm | apply closingRecord_only | apply State.setBank_only
      | apply State.cntSat_only | (apply Only.foldl; intro u a hu; try dsimp only) | apply Only.ite | split | intro _

theorem entryMade_only {m : Nat} {s₀ : State} (hm : 267252 ||| m = m) (s : State) (e : Nat × Nat × Nat)
    (h_s : Only m s₀ s) : Only m s₀ (entryMade s e) := by
  unfold entryMade
  try dsimp only
  with_reducible
    repeat'
      first
      | assumption | exact mask_trans (by decide) hm | apply phaseTrigger_only | apply kinkOpen_only
      | (apply Only.foldl; intro u a hu; try dsimp only) | apply Only.ite | split | intro _

theorem bankSettle_only {m : Nat} {s₀ : State} (hm : 267252 ||| m = m) (s : State) (b : Nat) (upTo : Nat)
    (h_s : Only m s₀ s) : Only m s₀ (bankSettle s b upTo) := by
  unfold bankSettle
  try dsimp only
  with_reducible
    repeat'
      first
      | assumption | exact mask_trans (by decide) hm | apply State.setBank_only | apply entryMade_only
      | (apply Only.foldl; intro u a hu; try dsimp only) | apply Only.ite | split | intro _

theorem entryDrop_only {m : Nat} {s₀ : State} (hm : 267252 ||| m = m) (s : State) (c : Nat)
    (h_s : Only m s₀ s) : Only m s₀ (entryDrop s c) := by
  unfold entryDrop
  try dsimp only
  with_reducible
    repeat'
      first
      | assumption | exact mask_trans (by decide) hm | apply State.setBank_only | apply bankSettle_only
      | (apply Only.foldl; intro u a hu; try dsimp only) | apply Only.ite | split | intro _

theorem entryAt_only {m : Nat} {s₀ : State} (hm : 267252 ||| m = m) (s : State) (c : Nat) (q : Nat) (at_ : Nat)
    (h_s : Only m s₀ s) : Only m s₀ (entryAt s c q at_) := by
  unfold entryAt
  try dsimp only
  with_reducible
    repeat'
      first
      | assumption | exact mask_trans (by decide) hm | apply State.setBank_only | apply entryMade_only
      | (apply Only.foldl; intro u a hu; try dsimp only) | apply Only.ite | split | intro _

theorem kinkAbort_only {m : Nat} {s₀ : State} (hm : 5108 ||| m = m) (s : State) (b : Nat)
    (h_s : Only m s₀ s) : Only m s₀ (kinkAbort s b) := by
  unfold kinkAbort
  try dsimp only
  with_reducible
    repeat'
      first
      | assumption | exact mask_trans (by decide) hm | apply closingRecord_only | apply State.setBank_only
      | apply State.cntSat_only | (apply Only.foldl; intro u a hu; try dsimp only) | apply Only.ite | split | intro _

theorem kinkAbortChan_only {m : Nat} {s₀ : State} (hm : 267252 ||| m = m) (s : State) (c : Nat)
    (h_s : Only m s₀ s) : Only m s₀ (kinkAbortChan s c) := by
  unfold kinkAbortChan
  try dsimp only
  with_reducible
    repeat'
      first
      | assumption | exact mask_trans (by decide) hm | apply bankSettle_only | apply kinkAbort_only
      | (apply Only.foldl; intro u a hu; try dsimp only) | apply Only.ite | split | intro _

theorem setCellWord_only {m : Nat} {s₀ : State} (hm : 34359738376 ||| m = m) (s : State) (c : Nat) (i : Nat) (j : Nat)
    (k : Nat) (w : Word) (h_s : Only m s₀ s) : Only m s₀ (setCellWord s c i j k w) := by
  unfold setCellWord
  try dsimp only
  with_reducible
    repeat'
      first
      | assumption | exact mask_trans (by decide) hm | apply State.putWords_only | apply State.keepPast_only
      | (apply Only.foldl; intro u a hu; try dsimp only) | apply Only.ite | split | intro _

theorem stampCell_only {m : Nat} {s₀ : State} (hm : 34359738376 ||| m = m) (s : State) (c : Nat) (i : Nat) (j : Nat)
    (h_s : Only m s₀ s) : Only m s₀ (stampCell s c i j) := by
  unfold stampCell
  try dsimp only
  with_reducible
    repeat'
      first
      | assumption | exact mask_trans (by decide) hm | apply setCellWord_only
      | (apply Only.foldl; intro u a hu; try dsimp only) | apply Only.ite | split | intro _

theorem learnPeak_only {m : Nat} {s₀ : State} (hm : 34359738376 ||| m = m) (s : State) (x2 : Shot) (peak : Nat)
    (h_s : Only m s₀ s) : Only m s₀ (learnPeak s x2 peak) := by
  unfold learnPeak
  try dsimp only
  with_reducible
    repeat'
      first
      | assumption | exact mask_trans (by decide) hm | apply setCellWord_only | apply stampCell_only
      | (apply Only.foldl; intro u a hu; try dsimp only) | apply Only.ite | split | intro _

theorem kinkSample_only {m : Nat} {s₀ : State} (hm : 267252 ||| m = m) (s : State) (b : Nat) (code : Nat) (ovr : Bool)
    (h_s : Only m s₀ s) : Only m s₀ (kinkSample s b code ovr) := by
  unfold kinkSample
  try dsimp only
  with_reducible
    repeat'
      first
      | assumption | exact mask_trans (by decide) hm | apply State.setBank_only | apply bankSettle_only
      | (apply Only.foldl; intro u a hu; try dsimp only) | apply Only.ite | split | intro _

theorem noteClose_only {m : Nat} {s₀ : State} (hm : 2052 ||| m = m) (s : State) (c : Nat) (tclose : Nat)
    (h_s : Only m s₀ s) : Only m s₀ (noteClose s c tclose) := by
  unfold noteClose
  try dsimp only
  with_reducible
    repeat'
      first
      | assumption | exact mask_trans (by decide) hm | apply State.setCell_only | apply State.setReg_only
      | (apply Only.foldl; intro u a hu; try dsimp only) | apply Only.ite | split | intro _

theorem learnOutlier_only {m : Nat} {s₀ : State} (hm : 34359739196 ||| m = m) (s : State) (x2 : Shot)
    (h_s : Only m s₀ s) : Only m s₀ (learnOutlier s x2) := by
  unfold learnOutlier
  try dsimp only
  with_reducible
    repeat'
      first
      | assumption | exact mask_trans (by decide) hm | apply setCellWord_only | apply diagRecord_only
      | (apply Only.foldl; intro u a hu; try dsimp only) | apply Only.ite | split | intro _

theorem learnClose_only {m : Nat} {s₀ : State} (hm : 34359738376 ||| m = m) (s : State) (x2 : Shot) (v : Nat)
    (h_s : Only m s₀ s) : Only m s₀ (learnClose s x2 v) := by
  unfold learnClose
  try dsimp only
  with_reducible
    repeat'
      first
      | assumption | exact mask_trans (by decide) hm | apply setCellWord_only | apply stampCell_only
      | (apply Only.foldl; intro u a hu; try dsimp only) | apply Only.ite | split | intro _

theorem kinkPublish_only {m : Nat} {s₀ : State} (hm : 103079218172 ||| m = m) (s : State) (k : Kink)
    (h_s : Only m s₀ s) : Only m s₀ (kinkPublish s k) := by
  unfold kinkPublish
  try dsimp only
  with_reducible
    repeat'
      first
      | assumption | exact .inr (mask_bit hm (by decide)) | exact .inl rfl | exact mask_trans (by decide) hm
      | apply closingRecord_only | apply learnOutlier_only | apply learnClose_only | apply noteClose_only
      | (apply Only.foldl; intro u a hu; try dsimp only) | apply Only.ite | split | intro _
      | refine Only.written rfl ?_ ?_ ?_ ?_ ?_ ?_ ?_ ?_ ?_ ?_ ?_ ?_ ?_ ?_ ?_ ?_ ?_ ?_ ?_ ?_ ?_ ?_ ?_ ?_ ?_ ?_ ?_ ?_ ?_ ?_ ?_ ?_ ?_ ?_ ?_ ?_ ?_ ?_

theorem kinkResult_only {m : Nat} {s₀ : State} (hm : 103079222268 ||| m = m) (s : State) (b : Nat)
    (h_s : Only m s₀ s) : Only m s₀ (kinkResult s b) := by
  unfold kinkResult
  try dsimp only
  with_reducible
    repeat'
      first
      | assumption | exact mask_trans (by decide) hm | apply State.setBank_only | apply kinkPublish_only
      | (apply Only.foldl; intro u a hu; try dsimp only) | apply Only.ite | split | intro _

end Sys2Proof.Machine
end

