-- ==== Sys2Proof/Laws/Drive.lean ====
section
/-!
SUPPORT. Machine/Drive.lean: every operation of it keeps what `Keeps` says, and changes only the parts of its mask.
-/
set_option linter.unusedTactic false
set_option linter.unreachableTactic false
set_option linter.unusedVariables false

namespace Sys2Proof.Machine

theorem abandonShot_keeps {s₀ : State} (s : State) (c : Nat) (h_s : Keeps s₀ s) : Keeps s₀ (abandonShot s c) := by
  unfold abandonShot
  try dsimp only
  with_reducible
    repeat'
      first
      | assumption | apply State.setCell_keeps | apply entryDrop_keeps | apply evsClose_keeps | apply bankEval_keeps
      | (apply Keeps.foldl; intro u a hu; try dsimp only) | apply Keeps.ite | split | intro _
      | refine Keeps.written rfl rfl rfl rfl rfl rfl rfl rfl ?_

theorem idleReview_keeps {s₀ : State} (s : State) (c : Nat) (h_s : Keeps s₀ s) : Keeps s₀ (idleReview s c) := by
  unfold idleReview
  try dsimp only
  with_reducible
    repeat'
      first
      | assumption | apply State.setCell_keeps | (apply Keeps.foldl; intro u a hu; try dsimp only) | apply Keeps.ite
      | split | intro _ | refine Keeps.written rfl rfl rfl rfl rfl rfl rfl rfl ?_

theorem hsNote_keeps {s₀ : State} (s : State) (c : Nat) (d : Nat) (h_s : Keeps s₀ s) : Keeps s₀ (hsNote s c d) := by
  unfold hsNote
  try dsimp only
  with_reducible
    repeat'
      first
      | assumption | apply State.setBank_keeps | (apply Keeps.foldl; intro u a hu; try dsimp only) | apply Keeps.ite
      | split | intro _ | refine Keeps.written rfl rfl rfl rfl rfl rfl rfl rfl ?_

theorem hsReview_keeps {s₀ : State} (s : State) (c : Nat) (h_s : Keeps s₀ s) : Keeps s₀ (hsReview s c) := by
  unfold hsReview
  try dsimp only
  with_reducible
    repeat'
      first
      | assumption | apply State.setBank_keeps | apply hsNote_keeps | (apply Keeps.foldl; intro u a hu; try dsimp only)
      | apply Keeps.ite | split | intro _ | refine Keeps.written rfl rfl rfl rfl rfl rfl rfl rfl ?_

theorem lowReview_keeps {s₀ : State} (s : State) (b : Nat) (h_s : Keeps s₀ s) : Keeps s₀ (lowReview s b) := by
  unfold lowReview
  try dsimp only
  with_reducible
    repeat'
      first
      | assumption | apply State.setBank_keeps | (apply Keeps.foldl; intro u a hu; try dsimp only) | apply Keeps.ite
      | split | intro _ | refine Keeps.written rfl rfl rfl rfl rfl rfl rfl rfl ?_

theorem bankReview_keeps {s₀ : State} (s : State) (b : Nat) (lat : Nat) (h_s : Keeps s₀ s)
    : Keeps s₀ (bankReview s b lat) := by
  unfold bankReview
  try dsimp only
  with_reducible
    repeat'
      first
      | assumption | apply idleReview_keeps | apply lowReview_keeps | apply bankEval_keeps | apply hsReview_keeps
      | (apply Keeps.foldl; intro u a hu; try dsimp only) | apply Keeps.ite | split | intro _
      | refine Keeps.written rfl rfl rfl rfl rfl rfl rfl rfl ?_

theorem setWait_keeps {s₀ : State} (s : State) (c : Nat) (w : Option Waiting) (h_s : Keeps s₀ s)
    : Keeps s₀ (setWait s c w) := by
  unfold setWait
  try dsimp only
  with_reducible
    repeat'
      first
      | assumption | apply State.setCell_keeps | (apply Keeps.foldl; intro u a hu; try dsimp only) | apply Keeps.ite
      | split | intro _ | refine Keeps.written rfl rfl rfl rfl rfl rfl rfl rfl ?_

theorem takePlace_keeps {s₀ : State} (s : State) (c : Nat) (w : Waiting) (h_s : Keeps s₀ s)
    : Keeps s₀ (takePlace s c w) := by
  unfold takePlace
  try dsimp only
  with_reducible
    repeat'
      first
      | assumption | apply State.setBank_keeps | apply setWait_keeps | (apply Keeps.foldl; intro u a hu; try dsimp only)
      | apply Keeps.ite | split | intro _ | refine Keeps.written rfl rfl rfl rfl rfl rfl rfl rfl ?_

theorem passOverlap_keeps {s₀ : State} (s : State) (c : Nat) (h_s : Keeps s₀ s) : Keeps s₀ (passOverlap s c) := by
  unfold passOverlap
  try dsimp only
  with_reducible
    repeat'
      first
      | assumption | apply takePlace_keeps | (apply Keeps.foldl; intro u a hu; try dsimp only) | apply Keeps.ite | split
      | intro _ | refine Keeps.written rfl rfl rfl rfl rfl rfl rfl rfl ?_

theorem passNext_keeps {s₀ : State} (s : State) (b : Nat) (h_s : Keeps s₀ s) : Keeps s₀ (passNext s b) := by
  unfold passNext
  try dsimp only
  with_reducible
    repeat'
      first
      | assumption | apply passOverlap_keeps | (apply Keeps.foldl; intro u a hu; try dsimp only) | apply Keeps.ite | split
      | intro _ | refine Keeps.written rfl rfl rfl rfl rfl rfl rfl rfl ?_

theorem hsFresh_keeps {s₀ : State} (s : State) (c : Nat) (h_s : Keeps s₀ s) : Keeps s₀ (hsFresh s c) := by
  unfold hsFresh
  try dsimp only
  with_reducible
    repeat'
      first
      | assumption | apply State.setBank_keeps | (apply Keeps.foldl; intro u a hu; try dsimp only) | apply Keeps.ite
      | split | intro _ | refine Keeps.written rfl rfl rfl rfl rfl rfl rfl rfl ?_

theorem boostRelease_keeps {s₀ : State} (s : State) (c : Nat) (h_s : Keeps s₀ s) : Keeps s₀ (boostRelease s c) := by
  unfold boostRelease
  try dsimp only
  with_reducible
    repeat'
      first
      | assumption | apply State.setBank_keeps | apply passNext_keeps | (apply Keeps.foldl; intro u a hu; try dsimp only)
      | apply Keeps.ite | split | intro _ | refine Keeps.written rfl rfl rfl rfl rfl rfl rfl rfl ?_

theorem phaseEnter_keeps {s₀ : State} (s : State) (c : Nat) (q : Nat) (at_ : Nat) (h_s : Keeps s₀ s)
    : Keeps s₀ (phaseEnter s c q at_) := by
  unfold phaseEnter
  try dsimp only
  with_reducible
    repeat'
      first
      | assumption | apply loadThresholds_keeps | apply State.setShot_keeps | apply boostRelease_keeps
      | apply bankSettle_keeps | apply regulate_keeps | apply hsFresh_keeps | apply entryAt_keeps
      | (apply Keeps.foldl; intro u a hu; try dsimp only) | apply Keeps.ite | split | intro _
      | refine Keeps.written rfl rfl rfl rfl rfl rfl rfl rfl ?_

theorem enterEnd_keeps {s₀ : State} (s : State) (c : Nat) (cause : Nat) (lat : Nat) (out : Nat) (h_s : Keeps s₀ s)
    : Keeps s₀ (enterEnd s c cause lat out) := by
  unfold enterEnd
  try dsimp only
  with_reducible
    repeat'
      first
      | assumption | apply State.setShot_keeps | apply bankReview_keeps | apply phaseEnter_keeps
      | (apply Keeps.foldl; intro u a hu; try dsimp only) | apply Keeps.ite | split | intro _
      | refine Keeps.written rfl rfl rfl rfl rfl rfl rfl rfl ?_

theorem dropStart_keeps {s₀ : State} (s : State) (w : Waiting) (reason : Nat) (h_s : Keeps s₀ s)
    : Keeps s₀ (dropStart s w reason) := by
  unfold dropStart
  try dsimp only
  with_reducible
    repeat'
      first
      | assumption | apply State.cntSat_keeps | apply driveRecord_keeps | apply evsClose_keeps | apply enterEnd_keeps
      | (apply Keeps.foldl; intro u a hu; try dsimp only) | apply Keeps.ite | split | intro _
      | refine Keeps.written rfl rfl rfl rfl rfl rfl rfl rfl ?_

theorem dropWaiting_keeps {s₀ : State} (s : State) (c : Nat) (reason : Nat) (h_s : Keeps s₀ s)
    : Keeps s₀ (dropWaiting s c reason) := by
  unfold dropWaiting
  try dsimp only
  with_reducible
    repeat'
      first
      | assumption | apply dropStart_keeps | apply passNext_keeps | apply setWait_keeps
      | (apply Keeps.foldl; intro u a hu; try dsimp only) | apply Keeps.ite | split | intro _
      | refine Keeps.written rfl rfl rfl rfl rfl rfl rfl rfl ?_

theorem beginHold_keeps {s₀ : State} (s : State) (c : Nat) (x3 : Shot) (rem : Nat) (h_s : Keeps s₀ s)
    : Keeps s₀ (beginHold s c x3 rem) := by
  unfold beginHold
  try dsimp only
  with_reducible
    repeat'
      first
      | assumption | apply State.setShot_keeps | apply State.setReg_keeps
      | (apply Keeps.foldl; intro u a hu; try dsimp only) | apply Keeps.ite | split | intro _
      | refine Keeps.written rfl rfl rfl rfl rfl rfl rfl rfl ?_

theorem endCommand_keeps {s₀ : State} (s : State) (c : Nat) (slot : Nat) (epoch : Nat) (rem : Option Nat) (h_s
    : Keeps s₀ s) : Keeps s₀ (endCommand s c slot epoch rem) := by
  unfold endCommand
  try dsimp only
  with_reducible
    repeat'
      first
      | assumption | apply State.cntSat_keeps | apply dropWaiting_keeps | apply bankReview_keeps | apply beginHold_keeps
      | apply enterEnd_keeps | (apply Keeps.foldl; intro u a hu; try dsimp only) | apply Keeps.ite | split | intro _
      | refine Keeps.written rfl rfl rfl rfl rfl rfl rfl rfl ?_

theorem stopShot_keeps {s₀ : State} (s : State) (c : Nat) (h_s : Keeps s₀ s) : Keeps s₀ (stopShot s c) := by
  unfold stopShot
  try dsimp only
  with_reducible
    repeat'
      first
      | assumption | apply State.setCell_keeps | apply boostRelease_keeps | apply entryDrop_keeps | apply loadIdle_keeps
      | apply evsClose_keeps | (apply Keeps.foldl; intro u a hu; try dsimp only) | apply Keeps.ite | split | intro _
      | refine Keeps.written rfl rfl rfl rfl rfl rfl rfl rfl ?_

theorem safeChan_keeps {s₀ : State} (record : Bool) (s : State) (c : Nat) (h_s : Keeps s₀ s)
    : Keeps s₀ (safeChan record s c) := by
  unfold safeChan
  try dsimp only
  with_reducible
    repeat'
      first
      | assumption | apply State.cntSat_keeps | apply dropStart_keeps | apply stopShot_keeps | apply evsClose_keeps
      | apply setWait_keeps | (apply Keeps.foldl; intro u a hu; try dsimp only) | apply Keeps.ite | split | intro _
      | refine Keeps.written rfl rfl rfl rfl rfl rfl rfl rfl ?_

theorem bankToSafe_keeps {s₀ : State} (s : State) (b : Nat) (record : Bool) (h_s : Keeps s₀ s)
    : Keeps s₀ (bankToSafe s b record) := by
  unfold bankToSafe
  try dsimp only
  with_reducible
    repeat'
      first
      | assumption | apply State.setBank_keeps | apply State.cntSat_keeps | apply bankReview_keeps | apply kinkAbort_keeps
      | apply safeChan_keeps | (apply Keeps.foldl; intro u a hu; try dsimp only) | apply Keeps.ite | split | intro _
      | refine Keeps.written rfl rfl rfl rfl rfl rfl rfl rfl ?_

theorem bankSafe_keeps {s₀ : State} (s : State) (b : Nat) (code : Nat) (d0 : Word) (d1 : Word) (h_s : Keeps s₀ s)
    : Keeps s₀ (bankSafe s b code d0 d1) := by
  unfold bankSafe
  try dsimp only
  with_reducible
    repeat'
      first
      | assumption | apply bankFaultRecord_keeps | apply State.setRf_keeps | apply bankToSafe_keeps
      | (apply Keeps.foldl; intro u a hu; try dsimp only) | apply Keeps.ite | split | intro _
      | refine Keeps.written rfl rfl rfl rfl rfl rfl rfl rfl ?_

theorem chanFault_keeps {s₀ : State} (s : State) (c : Nat) (code : Nat) (value : Nat) (run : Nat) (h_s : Keeps s₀ s)
    : Keeps s₀ (chanFault s c code value run) := by
  unfold chanFault
  try dsimp only
  with_reducible
    repeat'
      first
      | assumption | apply kinkAbortChan_keeps | apply State.setCell_keeps | apply dropWaiting_keeps
      | apply diagRecord_keeps | apply bankReview_keeps | apply stopShot_keeps | apply bankSafe_keeps
      | (apply Keeps.foldl; intro u a hu; try dsimp only) | apply Keeps.ite | split | intro _
      | refine Keeps.written rfl rfl rfl rfl rfl rfl rfl rfl ?_

theorem leakTimeout_keeps {s₀ : State} (s : State) (c : Nat) (h_s : Keeps s₀ s) : Keeps s₀ (leakTimeout s c) := by
  unfold leakTimeout
  try dsimp only
  with_reducible
    repeat'
      first
      | assumption | apply chanFault_keeps | (apply Keeps.foldl; intro u a hu; try dsimp only) | apply Keeps.ite | split
      | intro _ | refine Keeps.written rfl rfl rfl rfl rfl rfl rfl rfl ?_

theorem completeShot_keeps {s₀ : State} (s : State) (c : Nat) (h_s : Keeps s₀ s) : Keeps s₀ (completeShot s c) := by
  unfold completeShot
  try dsimp only
  with_reducible
    repeat'
      first
      | assumption | apply bankReview_keeps | apply stopShot_keeps | (apply Keeps.foldl; intro u a hu; try dsimp only)
      | apply Keeps.ite | split | intro _ | refine Keeps.written rfl rfl rfl rfl rfl rfl rfl rfl ?_

theorem notePeak_keeps {s₀ : State} (s : State) (c : Nat) (x3 : Shot) (peak : Nat) (h_s : Keeps s₀ s)
    : Keeps s₀ (notePeak s c x3 peak) := by
  unfold notePeak
  try dsimp only
  with_reducible
    repeat'
      first
      | assumption | apply State.setCell_keeps | apply State.setRf_keeps | apply learnPeak_keeps
      | (apply Keeps.foldl; intro u a hu; try dsimp only) | apply Keeps.ite | split | intro _
      | refine Keeps.written rfl rfl rfl rfl rfl rfl rfl rfl ?_

theorem ptCount_keeps {s₀ : State} (s : State) (c : Nat) (x3 : Shot) (peak : Option Nat) (h_s : Keeps s₀ s)
    : Keeps s₀ (ptCount s c x3 peak) := by
  unfold ptCount
  try dsimp only
  with_reducible
    repeat'
      first
      | assumption | apply State.setCell_keeps | apply diagRecord_keeps
      | (apply Keeps.foldl; intro u a hu; try dsimp only) | apply Keeps.ite | split | intro _
      | refine Keeps.written rfl rfl rfl rfl rfl rfl rfl rfl ?_

theorem boostPeak_keeps {s₀ : State} (s : State) (c : Nat) (x3 : Shot) (h_s : Keeps s₀ s) : Keeps s₀ (boostPeak s c x3) := by
  unfold boostPeak
  try dsimp only
  with_reducible
    repeat'
      first
      | assumption | apply State.setShot_keeps | apply chanFault_keeps | apply notePeak_keeps | apply ptCount_keeps
      | (apply Keeps.foldl; intro u a hu; try dsimp only) | apply Keeps.ite | split | intro _
      | refine Keeps.written rfl rfl rfl rfl rfl rfl rfl rfl ?_

theorem heldExit_keeps {s₀ : State} (s : State) (c : Nat) (x3 : Shot) (byTimer : Bool) (h_s : Keeps s₀ s)
    : Keeps s₀ (heldExit s c x3 byTimer) := by
  unfold heldExit
  try dsimp only
  with_reducible
    repeat'
      first
      | assumption | apply boostPeak_keeps | (apply Keeps.foldl; intro u a hu; try dsimp only) | apply Keeps.ite | split
      | intro _ | refine Keeps.written rfl rfl rfl rfl rfl rfl rfl rfl ?_

theorem boostLimit_keeps {s₀ : State} (s : State) (c : Nat) (x3 : Shot) (h_s : Keeps s₀ s)
    : Keeps s₀ (boostLimit s c x3) := by
  unfold boostLimit
  try dsimp only
  with_reducible
    repeat'
      first
      | assumption | apply chanFault_keeps | apply ptCount_keeps | (apply Keeps.foldl; intro u a hu; try dsimp only)
      | apply Keeps.ite | split | intro _ | refine Keeps.written rfl rfl rfl rfl rfl rfl rfl rfl ?_

theorem truncateHold_keeps {s₀ : State} (c : Nat) (s : State) (o : Nat) (h_s : Keeps s₀ s)
    : Keeps s₀ (truncateHold c s o) := by
  unfold truncateHold
  try dsimp only
  with_reducible
    repeat'
      first
      | assumption | apply State.cntSat_keeps | apply driveRecord_keeps | apply enterEnd_keeps
      | (apply Keeps.foldl; intro u a hu; try dsimp only) | apply Keeps.ite | split | intro _
      | refine Keeps.written rfl rfl rfl rfl rfl rfl rfl rfl ?_

theorem exclusiveHold_keeps {s₀ : State} (s : State) (c : Nat) (h_s : Keeps s₀ s) : Keeps s₀ (exclusiveHold s c) := by
  unfold exclusiveHold
  try dsimp only
  with_reducible
    repeat'
      first
      | assumption | apply truncateHold_keeps | (apply Keeps.foldl; intro u a hu; try dsimp only) | apply Keeps.ite
      | split | intro _ | refine Keeps.written rfl rfl rfl rfl rfl rfl rfl rfl ?_

theorem nextPhase_keeps {s₀ : State} (s : State) (c : Nat) (x3 : Shot) (h_s : Keeps s₀ s) : Keeps s₀ (nextPhase s c x3) := by
  unfold nextPhase
  try dsimp only
  with_reducible
    repeat'
      first
      | assumption | apply State.setShot_keeps | apply exclusiveHold_keeps | apply bankReview_keeps
      | apply phaseEnter_keeps | (apply Keeps.foldl; intro u a hu; try dsimp only) | apply Keeps.ite | split | intro _
      | refine Keeps.written rfl rfl rfl rfl rfl rfl rfl rfl ?_

theorem exitPhase_keeps {s₀ : State} (s : State) (c : Nat) (byTimer : Bool) (h_s : Keeps s₀ s)
    : Keeps s₀ (exitPhase s c byTimer) := by
  unfold exitPhase
  try dsimp only
  with_reducible
    repeat'
      first
      | assumption | apply completeShot_keeps | apply boostLimit_keeps | apply chanFault_keeps | apply boostPeak_keeps
      | apply nextPhase_keeps | apply heldExit_keeps | (apply Keeps.foldl; intro u a hu; try dsimp only) | apply Keeps.ite
      | split | intro _ | refine Keeps.written rfl rfl rfl rfl rfl rfl rfl rfl ?_

theorem phaseTimer_keeps {s₀ : State} (s : State) (c : Nat) (h_s : Keeps s₀ s) : Keeps s₀ (phaseTimer s c) := by
  unfold phaseTimer
  try dsimp only
  with_reducible
    repeat'
      first
      | assumption | apply exitPhase_keeps | (apply Keeps.foldl; intro u a hu; try dsimp only) | apply Keeps.ite | split
      | intro _ | refine Keeps.written rfl rfl rfl rfl rfl rfl rfl rfl ?_

theorem holdExpiry_keeps {s₀ : State} (s : State) (c : Nat) (h_s : Keeps s₀ s) : Keeps s₀ (holdExpiry s c) := by
  unfold holdExpiry
  try dsimp only
  with_reducible
    repeat'
      first
      | assumption | apply enterEnd_keeps | (apply Keeps.foldl; intro u a hu; try dsimp only) | apply Keeps.ite | split
      | intro _ | refine Keeps.written rfl rfl rfl rfl rfl rfl rfl rfl ?_

theorem boostCollapse_keeps {s₀ : State} (s : State) (b : Nat) (h_s : Keeps s₀ s) : Keeps s₀ (boostCollapse s b) := by
  unfold boostCollapse
  try dsimp only
  with_reducible
    repeat'
      first
      | assumption | apply bankSafe_keeps | (apply Keeps.foldl; intro u a hu; try dsimp only) | apply Keeps.ite | split
      | intro _ | refine Keeps.written rfl rfl rfl rfl rfl rfl rfl rfl ?_

theorem hsShort_keeps {s₀ : State} (s : State) (c : Nat) (h_s : Keeps s₀ s) : Keeps s₀ (hsShort s c) := by
  unfold hsShort
  try dsimp only
  with_reducible
    repeat'
      first
      | assumption | apply bankSafe_keeps | (apply Keeps.foldl; intro u a hu; try dsimp only) | apply Keeps.ite | split
      | intro _ | refine Keeps.written rfl rfl rfl rfl rfl rfl rfl rfl ?_

theorem noteArrival_keeps {s₀ : State} (s : State) (c : Nat) (h_s : Keeps s₀ s) : Keeps s₀ (noteArrival s c) := by
  unfold noteArrival
  try dsimp only
  with_reducible
    repeat'
      first
      | assumption | apply State.setBank_keeps | (apply Keeps.foldl; intro u a hu; try dsimp only) | apply Keeps.ite
      | split | intro _ | refine Keeps.written rfl rfl rfl rfl rfl rfl rfl rfl ?_

theorem noteSource_keeps {s₀ : State} (s : State) (c : Nat) (d : Cond) (h_s : Keeps s₀ s) : Keeps s₀ (noteSource s c d) := by
  unfold noteSource
  try dsimp only
  with_reducible
    repeat'
      first
      | assumption | apply State.setCell_keeps | apply State.cntSat_keeps
      | (apply Keeps.foldl; intro u a hu; try dsimp only) | apply Keeps.ite | split | intro _
      | refine Keeps.written rfl rfl rfl rfl rfl rfl rfl rfl ?_

theorem noteAdmit_keeps {s₀ : State} (s : State) (x2 : Shot) (h_s : Keeps s₀ s) : Keeps s₀ (noteAdmit s x2) := by
  unfold noteAdmit
  try dsimp only
  with_reducible
    repeat'
      first
      | assumption | apply State.cntWrap_keeps | apply State.cntSat_keeps | apply driveRecord_keeps
      | (apply Keeps.foldl; intro u a hu; try dsimp only) | apply Keeps.ite | split | intro _
      | refine Keeps.written rfl rfl rfl rfl rfl rfl rfl rfl ?_

theorem admitStart_keeps {s₀ : State} (s : State) (w : Waiting) (weak : Bool) (h_s : Keeps s₀ s)
    : Keeps s₀ (admitStart s w weak) := by
  unfold admitStart
  try dsimp only
  with_reducible
    repeat'
      first
      | assumption | apply kinkAbortChan_keeps | apply State.setCell_keeps | apply State.setBank_keeps
      | apply abandonShot_keeps | apply noteSource_keeps | apply phaseEnter_keeps | apply bankReview_keeps
      | apply noteAdmit_keeps | (apply Keeps.foldl; intro u a hu; try dsimp only) | apply Keeps.ite | split | intro _
      | refine Keeps.written rfl rfl rfl rfl rfl rfl rfl rfl ?_

theorem overlapStep_keeps {s₀ : State} (s : State) (c : Nat) (h_s : Keeps s₀ s) : Keeps s₀ (overlapStep s c) := by
  unfold overlapStep
  try dsimp only
  with_reducible
    repeat'
      first
      | assumption | apply State.cntSat_keeps | apply passOverlap_keeps | apply driveRecord_keeps
      | apply dropWaiting_keeps | apply enterEnd_keeps | (apply Keeps.foldl; intro u a hu; try dsimp only)
      | apply Keeps.ite | split | intro _ | refine Keeps.written rfl rfl rfl rfl rfl rfl rfl rfl ?_

theorem backToOverlap_keeps {s₀ : State} (s : State) (c : Nat) (h_s : Keeps s₀ s) : Keeps s₀ (backToOverlap s c) := by
  unfold backToOverlap
  try dsimp only
  with_reducible
    repeat'
      first
      | assumption | apply overlapStep_keeps | apply takePlace_keeps | (apply Keeps.foldl; intro u a hu; try dsimp only)
      | apply Keeps.ite | split | intro _ | refine Keeps.written rfl rfl rfl rfl rfl rfl rfl rfl ?_

theorem returnOthers_keeps {s₀ : State} (s : State) (before : List Nat) (h_s : Keeps s₀ s)
    : Keeps s₀ (returnOthers s before) := by
  unfold returnOthers
  try dsimp only
  with_reducible
    repeat'
      first
      | assumption | apply backToOverlap_keeps | (apply Keeps.foldl; intro u a hu; try dsimp only) | apply Keeps.ite
      | split | intro _ | refine Keeps.written rfl rfl rfl rfl rfl rfl rfl rfl ?_

theorem admitFrom_keeps {s₀ : State} (s : State) (c : Nat) (weak : Bool) (h_s : Keeps s₀ s)
    : Keeps s₀ (admitFrom s c weak) := by
  unfold admitFrom
  try dsimp only
  with_reducible
    repeat'
      first
      | assumption | apply returnOthers_keeps | apply admitStart_keeps | (apply Keeps.foldl; intro u a hu; try dsimp only)
      | apply Keeps.ite | split | intro _ | refine Keeps.written rfl rfl rfl rfl rfl rfl rfl rfl ?_

theorem tryAdmit_keeps {s₀ : State} (s : State) (c : Nat) (h_s : Keeps s₀ s) : Keeps s₀ (tryAdmit s c) := by
  unfold tryAdmit
  try dsimp only
  with_reducible
    repeat'
      first
      | assumption | apply admitFrom_keeps | (apply Keeps.foldl; intro u a hu; try dsimp only) | apply Keeps.ite | split
      | intro _ | refine Keeps.written rfl rfl rfl rfl rfl rfl rfl rfl ?_

theorem acceptStart_keeps {s₀ : State} (s : State) (w : Waiting) (h_s : Keeps s₀ s) : Keeps s₀ (acceptStart s w) := by
  unfold acceptStart
  try dsimp only
  with_reducible
    repeat'
      first
      | assumption | apply dropWaiting_keeps | apply overlapStep_keeps | apply admitStart_keeps | apply takePlace_keeps
      | apply tryAdmit_keeps | (apply Keeps.foldl; intro u a hu; try dsimp only) | apply Keeps.ite | split | intro _
      | refine Keeps.written rfl rfl rfl rfl rfl rfl rfl rfl ?_

theorem startCommand_keeps {s₀ : State} (s : State) (cmd : StartCmd) (epoch : Nat) (h_s : Keeps s₀ s)
    : Keeps s₀ (startCommand s cmd epoch) := by
  unfold startCommand
  try dsimp only
  with_reducible
    repeat'
      first
      | assumption | apply State.cntSat_keeps | apply noteArrival_keeps | apply acceptStart_keeps | apply bankReview_keeps
      | apply dropStart_keeps | (apply Keeps.foldl; intro u a hu; try dsimp only) | apply Keeps.ite | split | intro _
      | refine Keeps.written rfl rfl rfl rfl rfl rfl rfl rfl ?_

theorem bankResume_keeps {s₀ : State} (s : State) (b : Nat) (h_s : Keeps s₀ s) : Keeps s₀ (bankResume s b) := by
  unfold bankResume
  try dsimp only
  with_reducible
    repeat'
      first
      | assumption | apply State.setBank_keeps | apply bankReview_keeps
      | (apply Keeps.foldl; intro u a hu; try dsimp only) | apply Keeps.ite | split | intro _
      | refine Keeps.written rfl rfl rfl rfl rfl rfl rfl rfl ?_

theorem chanEnable_keeps {s₀ : State} (s : State) (c : Nat) (h_s : Keeps s₀ s) : Keeps s₀ (chanEnable s c) := by
  unfold chanEnable
  try dsimp only
  with_reducible
    repeat'
      first
      | assumption | apply State.setCell_keeps | apply State.setRf_keeps | apply bankReview_keeps
      | (apply Keeps.foldl; intro u a hu; try dsimp only) | apply Keeps.ite | split | intro _
      | refine Keeps.written rfl rfl rfl rfl rfl rfl rfl rfl ?_

theorem chanDisable_keeps {s₀ : State} (s : State) (c : Nat) (h_s : Keeps s₀ s) : Keeps s₀ (chanDisable s c) := by
  unfold chanDisable
  try dsimp only
  with_reducible
    repeat'
      first
      | assumption | apply kinkAbortChan_keeps | apply State.setCell_keeps | apply dropWaiting_keeps
      | apply bankReview_keeps | apply stopShot_keeps | (apply Keeps.foldl; intro u a hu; try dsimp only)
      | apply Keeps.ite | split | intro _ | refine Keeps.written rfl rfl rfl rfl rfl rfl rfl rfl ?_

theorem chanCfgWrite_keeps {s₀ : State} (s : State) (c : Nat) (v : Word) (h_s : Keeps s₀ s)
    : Keeps s₀ (chanCfgWrite s c v) := by
  unfold chanCfgWrite
  try dsimp only
  with_reducible
    repeat'
      first
      | assumption | apply State.setCell_keeps | apply State.setRf_keeps | apply chanDisable_keeps
      | apply chanEnable_keeps | (apply Keeps.foldl; intro u a hu; try dsimp only) | apply Keeps.ite | split | intro _
      | refine Keeps.written rfl rfl rfl rfl rfl rfl rfl rfl ?_

theorem chanReenable_keeps {s₀ : State} (s : State) (c : Nat) (h_s : Keeps s₀ s) : Keeps s₀ (chanReenable s c) := by
  unfold chanReenable
  try dsimp only
  with_reducible
    repeat'
      first
      | assumption | apply State.setCell_keeps | apply bankReview_keeps
      | (apply Keeps.foldl; intro u a hu; try dsimp only) | apply Keeps.ite | split | intro _
      | refine Keeps.written rfl rfl rfl rfl rfl rfl rfl rfl ?_

theorem chanCtlWrite_keeps {s₀ : State} (s : State) (c : Nat) (v : Word) (h_s : Keeps s₀ s)
    : Keeps s₀ (chanCtlWrite s c v) := by
  unfold chanCtlWrite
  try dsimp only
  with_reducible
    repeat'
      first
      | assumption | apply chanReenable_keeps | apply chanDisable_keeps
      | (apply Keeps.foldl; intro u a hu; try dsimp only) | apply Keeps.ite | split | intro _
      | refine Keeps.written rfl rfl rfl rfl rfl rfl rfl rfl ?_

theorem hsBefore_keeps {s₀ : State} (s : State) (w : Nat) (h_s : Keeps s₀ s) : Keeps s₀ (hsBefore s w) := by
  unfold hsBefore
  try dsimp only
  with_reducible
    repeat'
      first
      | assumption | apply hsNote_keeps | (apply Keeps.foldl; intro u a hu; try dsimp only) | apply Keeps.ite | split
      | intro _ | refine Keeps.written rfl rfl rfl rfl rfl rfl rfl rfl ?_

theorem boostRecovered_keeps {s₀ : State} (s : State) (b : Nat) (h_s : Keeps s₀ s) : Keeps s₀ (boostRecovered s b) := by
  unfold boostRecovered
  try dsimp only
  with_reducible
    repeat'
      first
      | assumption | apply State.setBank_keeps | (apply Keeps.foldl; intro u a hu; try dsimp only) | apply Keeps.ite
      | split | intro _ | refine Keeps.written rfl rfl rfl rfl rfl rfl rfl rfl ?_

theorem boostNotice_keeps {s₀ : State} (s : State) (w : Nat) (h_s : Keeps s₀ s) : Keeps s₀ (boostNotice s w) := by
  unfold boostNotice
  try dsimp only
  with_reducible
    repeat'
      first
      | assumption | apply boostRecovered_keeps | (apply Keeps.foldl; intro u a hu; try dsimp only) | apply Keeps.ite
      | split | intro _ | refine Keeps.written rfl rfl rfl rfl rfl rfl rfl rfl ?_

theorem cellReact_keeps {s₀ : State} (s : State) (c : Nat) (h_s : Keeps s₀ s) : Keeps s₀ (cellReact s c) := by
  unfold cellReact
  try dsimp only
  with_reducible
    repeat'
      first
      | assumption | apply bankReview_keeps | apply exitPhase_keeps | apply regulate_keeps
      | (apply Keeps.foldl; intro u a hu; try dsimp only) | apply Keeps.ite | split | intro _
      | refine Keeps.written rfl rfl rfl rfl rfl rfl rfl rfl ?_

theorem winUsers_keeps {s₀ : State} (s : State) (w : Nat) (h_s : Keeps s₀ s) : Keeps s₀ (winUsers s w) := by
  unfold winUsers
  try dsimp only
  with_reducible
    repeat'
      first
      | assumption | apply cellReact_keeps | apply lowReview_keeps | (apply Keeps.foldl; intro u a hu; try dsimp only)
      | apply Keeps.ite | split | intro _ | refine Keeps.written rfl rfl rfl rfl rfl rfl rfl rfl ?_

theorem blankingEnd_keeps {s₀ : State} (s : State) (w : Nat) (h_s : Keeps s₀ s) : Keeps s₀ (blankingEnd s w) := by
  unfold blankingEnd
  try dsimp only
  with_reducible
    repeat'
      first
      | assumption | apply boostNotice_keeps | apply winElements_keeps | apply hsBefore_keeps | apply winUsers_keeps
      | (apply Keeps.foldl; intro u a hu; try dsimp only) | apply Keeps.ite | split | intro _
      | refine Keeps.written rfl rfl rfl rfl rfl rfl rfl rfl ?_

theorem ditherHalf_keeps {s₀ : State} (s : State) (c : Nat) (h_s : Keeps s₀ s) : Keeps s₀ (ditherHalf s c) := by
  unfold ditherHalf
  try dsimp only
  with_reducible
    repeat'
      first
      | assumption | apply loadThresholds_keeps | apply State.setShot_keeps
      | (apply Keeps.foldl; intro u a hu; try dsimp only) | apply Keeps.ite | split | intro _
      | refine Keeps.written rfl rfl rfl rfl rfl rfl rfl rfl ?_

theorem initialDecision_keeps {s₀ : State} (s : State) (w : Nat) (uv : Int × Int) (h_s : Keeps s₀ s)
    : Keeps s₀ (initialDecision s w uv) := by
  unfold initialDecision
  try dsimp only
  with_reducible
    repeat'
      first
      | assumption | apply boostNotice_keeps | apply winDecide_keeps | apply winUsers_keeps
      | (apply Keeps.foldl; intro u a hu; try dsimp only) | apply Keeps.ite | split | intro _
      | refine Keeps.written rfl rfl rfl rfl rfl rfl rfl rfl ?_

theorem mixExpiry_keeps {s₀ : State} (s : State) (c : Nat) (h_s : Keeps s₀ s) : Keeps s₀ (mixExpiry s c) := by
  unfold mixExpiry
  try dsimp only
  with_reducible
    repeat'
      first
      | assumption | apply bankReview_keeps | apply cellReact_keeps | (apply Keeps.foldl; intro u a hu; try dsimp only)
      | apply Keeps.ite | split | intro _ | refine Keeps.written rfl rfl rfl rfl rfl rfl rfl rfl ?_

theorem overlapTimeout_keeps {s₀ : State} (s : State) (c : Nat) (h_s : Keeps s₀ s) : Keeps s₀ (overlapTimeout s c) := by
  unfold overlapTimeout
  try dsimp only
  with_reducible
    repeat'
      first
      | assumption | apply dropWaiting_keeps | apply bankReview_keeps | (apply Keeps.foldl; intro u a hu; try dsimp only)
      | apply Keeps.ite | split | intro _ | refine Keeps.written rfl rfl rfl rfl rfl rfl rfl rfl ?_

theorem reboostExpiry_keeps {s₀ : State} (s : State) (c : Nat) (h_s : Keeps s₀ s) : Keeps s₀ (reboostExpiry s c) := by
  unfold reboostExpiry
  try dsimp only
  with_reducible
    repeat'
      first
      | assumption | apply bankReview_keeps | apply admitFrom_keeps | (apply Keeps.foldl; intro u a hu; try dsimp only)
      | apply Keeps.ite | split | intro _ | refine Keeps.written rfl rfl rfl rfl rfl rfl rfl rfl ?_

theorem windowCrossing_keeps {s₀ : State} (s : State) (w : Nat) (uv : Int × Int) (h_s : Keeps s₀ s)
    : Keeps s₀ (windowCrossing s w uv) := by
  unfold windowCrossing
  try dsimp only
  with_reducible
    repeat'
      first
      | assumption | apply boostNotice_keeps | apply winElements_keeps | apply hsBefore_keeps | apply winUsers_keeps
      | (apply Keeps.foldl; intro u a hu; try dsimp only) | apply Keeps.ite | split | intro _
      | refine Keeps.written rfl rfl rfl rfl rfl rfl rfl rfl ?_

theorem abandonShot_only {m : Nat} {s₀ : State} (hm : 68720802804 ||| m = m) (s : State) (c : Nat)
    (h_s : Only m s₀ s) : Only m s₀ (abandonShot s c) := by
  unfold abandonShot
  try dsimp only
  with_reducible
    repeat'
      first
      | assumption | exact mask_trans (by decide) hm | apply State.setCell_only | apply entryDrop_only
      | apply evsClose_only | apply bankEval_only | (apply Only.foldl; intro u a hu; try dsimp only) | apply Only.ite
      | split | intro _

theorem idleReview_only {m : Nat} {s₀ : State} (hm : 2048 ||| m = m) (s : State) (c : Nat)
    (h_s : Only m s₀ s) : Only m s₀ (idleReview s c) := by
  unfold idleReview
  try dsimp only
  with_reducible
    repeat'
      first
      | assumption | exact mask_trans (by decide) hm | apply State.setCell_only
      | (apply Only.foldl; intro u a hu; try dsimp only) | apply Only.ite | split | intro _

theorem hsNote_only {m : Nat} {s₀ : State} (hm : 4096 ||| m = m) (s : State) (c : Nat) (d : Nat)
    (h_s : Only m s₀ s) : Only m s₀ (hsNote s c d) := by
  unfold hsNote
  try dsimp only
  with_reducible
    repeat'
      first
      | assumption | exact mask_trans (by decide) hm | apply State.setBank_only
      | (apply Only.foldl; intro u a hu; try dsimp only) | apply Only.ite | split | intro _

theorem hsReview_only {m : Nat} {s₀ : State} (hm : 4096 ||| m = m) (s : State) (c : Nat)
    (h_s : Only m s₀ s) : Only m s₀ (hsReview s c) := by
  unfold hsReview
  try dsimp only
  with_reducible
    repeat'
      first
      | assumption | exact mask_trans (by decide) hm | apply State.setBank_only | apply hsNote_only
      | (apply Only.foldl; intro u a hu; try dsimp only) | apply Only.ite | split | intro _

theorem lowReview_only {m : Nat} {s₀ : State} (hm : 4096 ||| m = m) (s : State) (b : Nat)
    (h_s : Only m s₀ s) : Only m s₀ (lowReview s b) := by
  unfold lowReview
  try dsimp only
  with_reducible
    repeat'
      first
      | assumption | exact mask_trans (by decide) hm | apply State.setBank_only
      | (apply Only.foldl; intro u a hu; try dsimp only) | apply Only.ite | split | intro _

theorem bankReview_only {m : Nat} {s₀ : State} (hm : 68720531460 ||| m = m) (s : State) (b : Nat) (lat : Nat)
    (h_s : Only m s₀ s) : Only m s₀ (bankReview s b lat) := by
  unfold bankReview
  try dsimp only
  with_reducible
    repeat'
      first
      | assumption | exact mask_trans (by decide) hm | apply idleReview_only | apply lowReview_only | apply bankEval_only
      | apply hsReview_only | (apply Only.foldl; intro u a hu; try dsimp only) | apply Only.ite | split | intro _

theorem setWait_only {m : Nat} {s₀ : State} (hm : 2048 ||| m = m) (s : State) (c : Nat) (w : Option Waiting)
    (h_s : Only m s₀ s) : Only m s₀ (setWait s c w) := by
  unfold setWait
  try dsimp only
  with_reducible
    repeat'
      first
      | assumption | exact mask_trans (by decide) hm | apply State.setCell_only
      | (apply Only.foldl; intro u a hu; try dsimp only) | apply Only.ite | split | intro _

theorem takePlace_only {m : Nat} {s₀ : State} (hm : 6144 ||| m = m) (s : State) (c : Nat) (w : Waiting)
    (h_s : Only m s₀ s) : Only m s₀ (takePlace s c w) := by
  unfold takePlace
  try dsimp only
  with_reducible
    repeat'
      first
      | assumption | exact mask_trans (by decide) hm | apply State.setBank_only | apply setWait_only
      | (apply Only.foldl; intro u a hu; try dsimp only) | apply Only.ite | split | intro _

theorem passOverlap_only {m : Nat} {s₀ : State} (hm : 6144 ||| m = m) (s : State) (c : Nat)
    (h_s : Only m s₀ s) : Only m s₀ (passOverlap s c) := by
  unfold passOverlap
  try dsimp only
  with_reducible
    repeat'
      first
      | assumption | exact mask_trans (by decide) hm | apply takePlace_only
      | (apply Only.foldl; intro u a hu; try dsimp only) | apply Only.ite | split | intro _

theorem passNext_only {m : Nat} {s₀ : State} (hm : 6144 ||| m = m) (s : State) (b : Nat)
    (h_s : Only m s₀ s) : Only m s₀ (passNext s b) := by
  unfold passNext
  try dsimp only
  with_reducible
    repeat'
      first
      | assumption | exact mask_trans (by decide) hm | apply passOverlap_only
      | (apply Only.foldl; intro u a hu; try dsimp only) | apply Only.ite | split | intro _

theorem hsFresh_only {m : Nat} {s₀ : State} (hm : 4096 ||| m = m) (s : State) (c : Nat)
    (h_s : Only m s₀ s) : Only m s₀ (hsFresh s c) := by
  unfold hsFresh
  try dsimp only
  with_reducible
    repeat'
      first
      | assumption | exact mask_trans (by decide) hm | apply State.setBank_only
      | (apply Only.foldl; intro u a hu; try dsimp only) | apply Only.ite | split | intro _

theorem boostRelease_only {m : Nat} {s₀ : State} (hm : 6144 ||| m = m) (s : State) (c : Nat)
    (h_s : Only m s₀ s) : Only m s₀ (boostRelease s c) := by
  unfold boostRelease
  try dsimp only
  with_reducible
    repeat'
      first
      | assumption | exact mask_trans (by decide) hm | apply State.setBank_only | apply passNext_only
      | (apply Only.foldl; intro u a hu; try dsimp only) | apply Only.ite | split | intro _

theorem phaseEnter_only {m : Nat} {s₀ : State} (hm : 1317876 ||| m = m) (s : State) (c : Nat) (q : Nat) (at_ : Nat)
    (h_s : Only m s₀ s) : Only m s₀ (phaseEnter s c q at_) := by
  unfold phaseEnter
  try dsimp only
  with_reducible
    repeat'
      first
      | assumption | exact mask_trans (by decide) hm | apply loadThresholds_only | apply State.setShot_only
      | apply boostRelease_only | apply bankSettle_only | apply regulate_only | apply hsFresh_only | apply entryAt_only
      | (apply Only.foldl; intro u a hu; try dsimp only) | apply Only.ite | split | intro _

theorem enterEnd_only {m : Nat} {s₀ : State} (hm : 68720794612 ||| m = m) (s : State) (c : Nat) (cause : Nat) (lat : Nat)
    (out : Nat) (h_s : Only m s₀ s) : Only m s₀ (enterEnd s c cause lat out) := by
  unfold enterEnd
  try dsimp only
  with_reducible
    repeat'
      first
      | assumption | exact mask_trans (by decide) hm | apply State.setShot_only | apply bankReview_only
      | apply phaseEnter_only | (apply Only.foldl; intro u a hu; try dsimp only) | apply Only.ite | split | intro _

theorem dropStart_only {m : Nat} {s₀ : State} (hm : 68720802804 ||| m = m) (s : State) (w : Waiting) (reason : Nat)
    (h_s : Only m s₀ s) : Only m s₀ (dropStart s w reason) := by
  unfold dropStart
  try dsimp only
  with_reducible
    repeat'
      first
      | assumption | exact mask_trans (by decide) hm | apply State.cntSat_only | apply driveRecord_only
      | apply evsClose_only | apply enterEnd_only | (apply Only.foldl; intro u a hu; try dsimp only) | apply Only.ite
      | split | intro _

theorem dropWaiting_only {m : Nat} {s₀ : State} (hm : 68720802804 ||| m = m) (s : State) (c : Nat) (reason : Nat)
    (h_s : Only m s₀ s) : Only m s₀ (dropWaiting s c reason) := by
  unfold dropWaiting
  try dsimp only
  with_reducible
    repeat'
      first
      | assumption | exact mask_trans (by decide) hm | apply dropStart_only | apply passNext_only | apply setWait_only
      | (apply Only.foldl; intro u a hu; try dsimp only) | apply Only.ite | split | intro _

theorem beginHold_only {m : Nat} {s₀ : State} (hm : 2052 ||| m = m) (s : State) (c : Nat) (x3 : Shot) (rem : Nat)
    (h_s : Only m s₀ s) : Only m s₀ (beginHold s c x3 rem) := by
  unfold beginHold
  try dsimp only
  with_reducible
    repeat'
      first
      | assumption | exact mask_trans (by decide) hm | apply State.setShot_only | apply State.setReg_only
      | (apply Only.foldl; intro u a hu; try dsimp only) | apply Only.ite | split | intro _

theorem endCommand_only {m : Nat} {s₀ : State} (hm : 68720802804 ||| m = m) (s : State) (c : Nat) (slot : Nat)
    (epoch : Nat) (rem : Option Nat) (h_s : Only m s₀ s) : Only m s₀ (endCommand s c slot epoch rem) := by
  unfold endCommand
  try dsimp only
  with_reducible
    repeat'
      first
      | assumption | exact mask_trans (by decide) hm | apply State.cntSat_only | apply dropWaiting_only
      | apply bankReview_only | apply beginHold_only | apply enterEnd_only
      | (apply Only.foldl; intro u a hu; try dsimp only) | apply Only.ite | split | intro _

theorem stopShot_only {m : Nat} {s₀ : State} (hm : 1326068 ||| m = m) (s : State) (c : Nat)
    (h_s : Only m s₀ s) : Only m s₀ (stopShot s c) := by
  unfold stopShot
  try dsimp only
  with_reducible
    repeat'
      first
      | assumption | exact mask_trans (by decide) hm | apply State.setCell_only | apply boostRelease_only
      | apply entryDrop_only | apply loadIdle_only | apply evsClose_only
      | (apply Only.foldl; intro u a hu; try dsimp only) | apply Only.ite | split | intro _

theorem safeChan_only {m : Nat} {s₀ : State} (hm : 68720802804 ||| m = m) (record : Bool) (s : State) (c : Nat)
    (h_s : Only m s₀ s) : Only m s₀ (safeChan record s c) := by
  unfold safeChan
  try dsimp only
  with_reducible
    repeat'
      first
      | assumption | exact mask_trans (by decide) hm | apply State.cntSat_only | apply dropStart_only
      | apply stopShot_only | apply evsClose_only | apply setWait_only | (apply Only.foldl; intro u a hu; try dsimp only)
      | apply Only.ite | split | intro _

theorem bankToSafe_only {m : Nat} {s₀ : State} (hm : 68720802804 ||| m = m) (s : State) (b : Nat) (record : Bool)
    (h_s : Only m s₀ s) : Only m s₀ (bankToSafe s b record) := by
  unfold bankToSafe
  try dsimp only
  with_reducible
    repeat'
      first
      | assumption | exact mask_trans (by decide) hm | apply State.setBank_only | apply State.cntSat_only
      | apply bankReview_only | apply kinkAbort_only | apply safeChan_only
      | (apply Only.foldl; intro u a hu; try dsimp only) | apply Only.ite | split | intro _

theorem bankSafe_only {m : Nat} {s₀ : State} (hm : 69861653500 ||| m = m) (s : State) (b : Nat) (code : Nat) (d0 : Word)
    (d1 : Word) (h_s : Only m s₀ s) : Only m s₀ (bankSafe s b code d0 d1) := by
  unfold bankSafe
  try dsimp only
  with_reducible
    repeat'
      first
      | assumption | exact mask_trans (by decide) hm | apply bankFaultRecord_only | apply State.setRf_only
      | apply bankToSafe_only | (apply Only.foldl; intro u a hu; try dsimp only) | apply Only.ite | split | intro _

theorem chanFault_only {m : Nat} {s₀ : State} (hm : 69861653500 ||| m = m) (s : State) (c : Nat) (code : Nat)
    (value : Nat) (run : Nat) (h_s : Only m s₀ s) : Only m s₀ (chanFault s c code value run) := by
  unfold chanFault
  try dsimp only
  with_reducible
    repeat'
      first
      | assumption | exact mask_trans (by decide) hm | apply kinkAbortChan_only | apply State.setCell_only
      | apply dropWaiting_only | apply diagRecord_only | apply bankReview_only | apply stopShot_only | apply bankSafe_only
      | (apply Only.foldl; intro u a hu; try dsimp only) | apply Only.ite | split | intro _

theorem leakTimeout_only {m : Nat} {s₀ : State} (hm : 69861653500 ||| m = m) (s : State) (c : Nat)
    (h_s : Only m s₀ s) : Only m s₀ (leakTimeout s c) := by
  unfold leakTimeout
  try dsimp only
  with_reducible
    repeat'
      first
      | assumption | exact mask_trans (by decide) hm | apply chanFault_only
      | (apply Only.foldl; intro u a hu; try dsimp only) | apply Only.ite | split | intro _

theorem completeShot_only {m : Nat} {s₀ : State} (hm : 68720802804 ||| m = m) (s : State) (c : Nat)
    (h_s : Only m s₀ s) : Only m s₀ (completeShot s c) := by
  unfold completeShot
  try dsimp only
  with_reducible
    repeat'
      first
      | assumption | exact mask_trans (by decide) hm | apply bankReview_only | apply stopShot_only
      | (apply Only.foldl; intro u a hu; try dsimp only) | apply Only.ite | split | intro _

theorem notePeak_only {m : Nat} {s₀ : State} (hm : 34359740428 ||| m = m) (s : State) (c : Nat) (x3 : Shot) (peak : Nat)
    (h_s : Only m s₀ s) : Only m s₀ (notePeak s c x3 peak) := by
  unfold notePeak
  try dsimp only
  with_reducible
    repeat'
      first
      | assumption | exact mask_trans (by decide) hm | apply State.setCell_only | apply State.setRf_only
      | apply learnPeak_only | (apply Only.foldl; intro u a hu; try dsimp only) | apply Only.ite | split | intro _

theorem ptCount_only {m : Nat} {s₀ : State} (hm : 2868 ||| m = m) (s : State) (c : Nat) (x3 : Shot) (peak : Option Nat)
    (h_s : Only m s₀ s) : Only m s₀ (ptCount s c x3 peak) := by
  unfold ptCount
  try dsimp only
  with_reducible
    repeat'
      first
      | assumption | exact mask_trans (by decide) hm | apply State.setCell_only | apply diagRecord_only
      | (apply Only.foldl; intro u a hu; try dsimp only) | apply Only.ite | split | intro _

theorem boostPeak_only {m : Nat} {s₀ : State} (hm : 104221391868 ||| m = m) (s : State) (c : Nat) (x3 : Shot)
    (h_s : Only m s₀ s) : Only m s₀ (boostPeak s c x3) := by
  unfold boostPeak
  try dsimp only
  with_reducible
    repeat'
      first
      | assumption | exact mask_trans (by decide) hm | apply State.setShot_only | apply chanFault_only
      | apply notePeak_only | apply ptCount_only | (apply Only.foldl; intro u a hu; try dsimp only) | apply Only.ite
      | split | intro _

theorem heldExit_only {m : Nat} {s₀ : State} (hm : 104221391868 ||| m = m) (s : State) (c : Nat) (x3 : Shot)
    (byTimer : Bool) (h_s : Only m s₀ s) : Only m s₀ (heldExit s c x3 byTimer) := by
  unfold heldExit
  try dsimp only
  with_reducible
    repeat'
      first
      | assumption | exact mask_trans (by decide) hm | apply boostPeak_only
      | (apply Only.foldl; intro u a hu; try dsimp only) | apply Only.ite | split | intro _

theorem boostLimit_only {m : Nat} {s₀ : State} (hm : 69861653500 ||| m = m) (s : State) (c : Nat) (x3 : Shot)
    (h_s : Only m s₀ s) : Only m s₀ (boostLimit s c x3) := by
  unfold boostLimit
  try dsimp only
  with_reducible
    repeat'
      first
      | assumption | exact mask_trans (by decide) hm | apply chanFault_only | apply ptCount_only
      | (apply Only.foldl; intro u a hu; try dsimp only) | apply Only.ite | split | intro _

theorem truncateHold_only {m : Nat} {s₀ : State} (hm : 68720794612 ||| m = m) (c : Nat) (s : State) (o : Nat)
    (h_s : Only m s₀ s) : Only m s₀ (truncateHold c s o) := by
  unfold truncateHold
  try dsimp only
  with_reducible
    repeat'
      first
      | assumption | exact mask_trans (by decide) hm | apply State.cntSat_only | apply driveRecord_only
      | apply enterEnd_only | (apply Only.foldl; intro u a hu; try dsimp only) | apply Only.ite | split | intro _

theorem exclusiveHold_only {m : Nat} {s₀ : State} (hm : 68720794612 ||| m = m) (s : State) (c : Nat)
    (h_s : Only m s₀ s) : Only m s₀ (exclusiveHold s c) := by
  unfold exclusiveHold
  try dsimp only
  with_reducible
    repeat'
      first
      | assumption | exact mask_trans (by decide) hm | apply truncateHold_only
      | (apply Only.foldl; intro u a hu; try dsimp only) | apply Only.ite | split | intro _

theorem nextPhase_only {m : Nat} {s₀ : State} (hm : 68720794612 ||| m = m) (s : State) (c : Nat) (x3 : Shot)
    (h_s : Only m s₀ s) : Only m s₀ (nextPhase s c x3) := by
  unfold nextPhase
  try dsimp only
  with_reducible
    repeat'
      first
      | assumption | exact mask_trans (by decide) hm | apply State.setShot_only | apply exclusiveHold_only
      | apply bankReview_only | apply phaseEnter_only | (apply Only.foldl; intro u a hu; try dsimp only) | apply Only.ite
      | split | intro _

theorem exitPhase_only {m : Nat} {s₀ : State} (hm : 104221391868 ||| m = m) (s : State) (c : Nat) (byTimer : Bool)
    (h_s : Only m s₀ s) : Only m s₀ (exitPhase s c byTimer) := by
  unfold exitPhase
  try dsimp only
  with_reducible
    repeat'
      first
      | assumption | exact mask_trans (by decide) hm | apply completeShot_only | apply boostLimit_only
      | apply chanFault_only | apply boostPeak_only | apply nextPhase_only | apply heldExit_only
      | (apply Only.foldl; intro u a hu; try dsimp only) | apply Only.ite | split | intro _

theorem phaseTimer_only {m : Nat} {s₀ : State} (hm : 104221391868 ||| m = m) (s : State) (c : Nat)
    (h_s : Only m s₀ s) : Only m s₀ (phaseTimer s c) := by
  unfold phaseTimer
  try dsimp only
  with_reducible
    repeat'
      first
      | assumption | exact mask_trans (by decide) hm | apply exitPhase_only
      | (apply Only.foldl; intro u a hu; try dsimp only) | apply Only.ite | split | intro _

theorem holdExpiry_only {m : Nat} {s₀ : State} (hm : 68720794612 ||| m = m) (s : State) (c : Nat)
    (h_s : Only m s₀ s) : Only m s₀ (holdExpiry s c) := by
  unfold holdExpiry
  try dsimp only
  with_reducible
    repeat'
      first
      | assumption | exact mask_trans (by decide) hm | apply enterEnd_only
      | (apply Only.foldl; intro u a hu; try dsimp only) | apply Only.ite | split | intro _

theorem boostCollapse_only {m : Nat} {s₀ : State} (hm : 69861653500 ||| m = m) (s : State) (b : Nat)
    (h_s : Only m s₀ s) : Only m s₀ (boostCollapse s b) := by
  unfold boostCollapse
  try dsimp only
  with_reducible
    repeat'
      first
      | assumption | exact mask_trans (by decide) hm | apply bankSafe_only
      | (apply Only.foldl; intro u a hu; try dsimp only) | apply Only.ite | split | intro _

theorem hsShort_only {m : Nat} {s₀ : State} (hm : 69861653500 ||| m = m) (s : State) (c : Nat)
    (h_s : Only m s₀ s) : Only m s₀ (hsShort s c) := by
  unfold hsShort
  try dsimp only
  with_reducible
    repeat'
      first
      | assumption | exact mask_trans (by decide) hm | apply bankSafe_only
      | (apply Only.foldl; intro u a hu; try dsimp only) | apply Only.ite | split | intro _

theorem noteArrival_only {m : Nat} {s₀ : State} (hm : 4096 ||| m = m) (s : State) (c : Nat)
    (h_s : Only m s₀ s) : Only m s₀ (noteArrival s c) := by
  unfold noteArrival
  try dsimp only
  with_reducible
    repeat'
      first
      | assumption | exact mask_trans (by decide) hm | apply State.setBank_only
      | (apply Only.foldl; intro u a hu; try dsimp only) | apply Only.ite | split | intro _

theorem noteSource_only {m : Nat} {s₀ : State} (hm : 2052 ||| m = m) (s : State) (c : Nat) (d : Cond)
    (h_s : Only m s₀ s) : Only m s₀ (noteSource s c d) := by
  unfold noteSource
  try dsimp only
  with_reducible
    repeat'
      first
      | assumption | exact mask_trans (by decide) hm | apply State.setCell_only | apply State.cntSat_only
      | (apply Only.foldl; intro u a hu; try dsimp only) | apply Only.ite | split | intro _

theorem noteAdmit_only {m : Nat} {s₀ : State} (hm : 820 ||| m = m) (s : State) (x2 : Shot)
    (h_s : Only m s₀ s) : Only m s₀ (noteAdmit s x2) := by
  unfold noteAdmit
  try dsimp only
  with_reducible
    repeat'
      first
      | assumption | exact mask_trans (by decide) hm | apply State.cntWrap_only | apply State.cntSat_only
      | apply driveRecord_only | (apply Only.foldl; intro u a hu; try dsimp only) | apply Only.ite | split | intro _

theorem admitStart_only {m : Nat} {s₀ : State} (hm : 68720802804 ||| m = m) (s : State) (w : Waiting) (weak : Bool)
    (h_s : Only m s₀ s) : Only m s₀ (admitStart s w weak) := by
  unfold admitStart
  try dsimp only
  with_reducible
    repeat'
      first
      | assumption | exact mask_trans (by decide) hm | apply kinkAbortChan_only | apply State.setCell_only
      | apply State.setBank_only | apply abandonShot_only | apply noteSource_only | apply phaseEnter_only
      | apply bankReview_only | apply noteAdmit_only | (apply Only.foldl; intro u a hu; try dsimp only) | apply Only.ite
      | split | intro _

theorem overlapStep_only {m : Nat} {s₀ : State} (hm : 68720802804 ||| m = m) (s : State) (c : Nat)
    (h_s : Only m s₀ s) : Only m s₀ (overlapStep s c) := by
  unfold overlapStep
  try dsimp only
  with_reducible
    repeat'
      first
      | assumption | exact mask_trans (by decide) hm | apply State.cntSat_only | apply passOverlap_only
      | apply driveRecord_only | apply dropWaiting_only | apply enterEnd_only
      | (apply Only.foldl; intro u a hu; try dsimp only) | apply Only.ite | split | intro _

theorem backToOverlap_only {m : Nat} {s₀ : State} (hm : 68720802804 ||| m = m) (s : State) (c : Nat)
    (h_s : Only m s₀ s) : Only m s₀ (backToOverlap s c) := by
  unfold backToOverlap
  try dsimp only
  with_reducible
    repeat'
      first
      | assumption | exact mask_trans (by decide) hm | apply overlapStep_only | apply takePlace_only
      | (apply Only.foldl; intro u a hu; try dsimp only) | apply Only.ite | split | intro _

theorem returnOthers_only {m : Nat} {s₀ : State} (hm : 68720802804 ||| m = m) (s : State) (before : List Nat)
    (h_s : Only m s₀ s) : Only m s₀ (returnOthers s before) := by
  unfold returnOthers
  try dsimp only
  with_reducible
    repeat'
      first
      | assumption | exact mask_trans (by decide) hm | apply backToOverlap_only
      | (apply Only.foldl; intro u a hu; try dsimp only) | apply Only.ite | split | intro _

theorem admitFrom_only {m : Nat} {s₀ : State} (hm : 68720802804 ||| m = m) (s : State) (c : Nat) (weak : Bool)
    (h_s : Only m s₀ s) : Only m s₀ (admitFrom s c weak) := by
  unfold admitFrom
  try dsimp only
  with_reducible
    repeat'
      first
      | assumption | exact mask_trans (by decide) hm | apply returnOthers_only | apply admitStart_only
      | (apply Only.foldl; intro u a hu; try dsimp only) | apply Only.ite | split | intro _

theorem tryAdmit_only {m : Nat} {s₀ : State} (hm : 68720802804 ||| m = m) (s : State) (c : Nat)
    (h_s : Only m s₀ s) : Only m s₀ (tryAdmit s c) := by
  unfold tryAdmit
  try dsimp only
  with_reducible
    repeat'
      first
      | assumption | exact mask_trans (by decide) hm | apply admitFrom_only
      | (apply Only.foldl; intro u a hu; try dsimp only) | apply Only.ite | split | intro _

theorem acceptStart_only {m : Nat} {s₀ : State} (hm : 68720802804 ||| m = m) (s : State) (w : Waiting)
    (h_s : Only m s₀ s) : Only m s₀ (acceptStart s w) := by
  unfold acceptStart
  try dsimp only
  with_reducible
    repeat'
      first
      | assumption | exact mask_trans (by decide) hm | apply dropWaiting_only | apply overlapStep_only
      | apply admitStart_only | apply takePlace_only | apply tryAdmit_only
      | (apply Only.foldl; intro u a hu; try dsimp only) | apply Only.ite | split | intro _

theorem startCommand_only {m : Nat} {s₀ : State} (hm : 68720802804 ||| m = m) (s : State) (cmd : StartCmd) (epoch : Nat)
    (h_s : Only m s₀ s) : Only m s₀ (startCommand s cmd epoch) := by
  unfold startCommand
  try dsimp only
  with_reducible
    repeat'
      first
      | assumption | exact mask_trans (by decide) hm | apply State.cntSat_only | apply noteArrival_only
      | apply acceptStart_only | apply bankReview_only | apply dropStart_only
      | (apply Only.foldl; intro u a hu; try dsimp only) | apply Only.ite | split | intro _

theorem bankResume_only {m : Nat} {s₀ : State} (hm : 68720531460 ||| m = m) (s : State) (b : Nat)
    (h_s : Only m s₀ s) : Only m s₀ (bankResume s b) := by
  unfold bankResume
  try dsimp only
  with_reducible
    repeat'
      first
      | assumption | exact mask_trans (by decide) hm | apply State.setBank_only | apply bankReview_only
      | (apply Only.foldl; intro u a hu; try dsimp only) | apply Only.ite | split | intro _

theorem chanEnable_only {m : Nat} {s₀ : State} (hm : 68720531460 ||| m = m) (s : State) (c : Nat)
    (h_s : Only m s₀ s) : Only m s₀ (chanEnable s c) := by
  unfold chanEnable
  try dsimp only
  with_reducible
    repeat'
      first
      | assumption | exact mask_trans (by decide) hm | apply State.setCell_only | apply State.setRf_only
      | apply bankReview_only | (apply Only.foldl; intro u a hu; try dsimp only) | apply Only.ite | split | intro _

theorem chanDisable_only {m : Nat} {s₀ : State} (hm : 68720802804 ||| m = m) (s : State) (c : Nat)
    (h_s : Only m s₀ s) : Only m s₀ (chanDisable s c) := by
  unfold chanDisable
  try dsimp only
  with_reducible
    repeat'
      first
      | assumption | exact mask_trans (by decide) hm | apply kinkAbortChan_only | apply State.setCell_only
      | apply dropWaiting_only | apply bankReview_only | apply stopShot_only
      | (apply Only.foldl; intro u a hu; try dsimp only) | apply Only.ite | split | intro _

theorem chanCfgWrite_only {m : Nat} {s₀ : State} (hm : 68720802804 ||| m = m) (s : State) (c : Nat) (v : Word)
    (h_s : Only m s₀ s) : Only m s₀ (chanCfgWrite s c v) := by
  unfold chanCfgWrite
  try dsimp only
  with_reducible
    repeat'
      first
      | assumption | exact mask_trans (by decide) hm | apply State.setCell_only | apply State.setRf_only
      | apply chanDisable_only | apply chanEnable_only | (apply Only.foldl; intro u a hu; try dsimp only) | apply Only.ite
      | split | intro _

theorem chanReenable_only {m : Nat} {s₀ : State} (hm : 68720531460 ||| m = m) (s : State) (c : Nat)
    (h_s : Only m s₀ s) : Only m s₀ (chanReenable s c) := by
  unfold chanReenable
  try dsimp only
  with_reducible
    repeat'
      first
      | assumption | exact mask_trans (by decide) hm | apply State.setCell_only | apply bankReview_only
      | (apply Only.foldl; intro u a hu; try dsimp only) | apply Only.ite | split | intro _

theorem chanCtlWrite_only {m : Nat} {s₀ : State} (hm : 68720802804 ||| m = m) (s : State) (c : Nat) (v : Word)
    (h_s : Only m s₀ s) : Only m s₀ (chanCtlWrite s c v) := by
  unfold chanCtlWrite
  try dsimp only
  with_reducible
    repeat'
      first
      | assumption | exact mask_trans (by decide) hm | apply chanReenable_only | apply chanDisable_only
      | (apply Only.foldl; intro u a hu; try dsimp only) | apply Only.ite | split | intro _

theorem hsBefore_only {m : Nat} {s₀ : State} (hm : 4096 ||| m = m) (s : State) (w : Nat)
    (h_s : Only m s₀ s) : Only m s₀ (hsBefore s w) := by
  unfold hsBefore
  try dsimp only
  with_reducible
    repeat'
      first
      | assumption | exact mask_trans (by decide) hm | apply hsNote_only
      | (apply Only.foldl; intro u a hu; try dsimp only) | apply Only.ite | split | intro _

theorem boostRecovered_only {m : Nat} {s₀ : State} (hm : 4096 ||| m = m) (s : State) (b : Nat)
    (h_s : Only m s₀ s) : Only m s₀ (boostRecovered s b) := by
  unfold boostRecovered
  try dsimp only
  with_reducible
    repeat'
      first
      | assumption | exact mask_trans (by decide) hm | apply State.setBank_only
      | (apply Only.foldl; intro u a hu; try dsimp only) | apply Only.ite | split | intro _

theorem boostNotice_only {m : Nat} {s₀ : State} (hm : 4096 ||| m = m) (s : State) (w : Nat)
    (h_s : Only m s₀ s) : Only m s₀ (boostNotice s w) := by
  unfold boostNotice
  try dsimp only
  with_reducible
    repeat'
      first
      | assumption | exact mask_trans (by decide) hm | apply boostRecovered_only
      | (apply Only.foldl; intro u a hu; try dsimp only) | apply Only.ite | split | intro _

theorem cellReact_only {m : Nat} {s₀ : State} (hm : 104221391868 ||| m = m) (s : State) (c : Nat)
    (h_s : Only m s₀ s) : Only m s₀ (cellReact s c) := by
  unfold cellReact
  try dsimp only
  with_reducible
    repeat'
      first
      | assumption | exact mask_trans (by decide) hm | apply bankReview_only | apply exitPhase_only | apply regulate_only
      | (apply Only.foldl; intro u a hu; try dsimp only) | apply Only.ite | split | intro _

theorem winUsers_only {m : Nat} {s₀ : State} (hm : 104221391868 ||| m = m) (s : State) (w : Nat)
    (h_s : Only m s₀ s) : Only m s₀ (winUsers s w) := by
  unfold winUsers
  try dsimp only
  with_reducible
    repeat'
      first
      | assumption | exact mask_trans (by decide) hm | apply cellReact_only | apply lowReview_only
      | (apply Only.foldl; intro u a hu; try dsimp only) | apply Only.ite | split | intro _

theorem blankingEnd_only {m : Nat} {s₀ : State} (hm : 104221391868 ||| m = m) (s : State) (w : Nat)
    (h_s : Only m s₀ s) : Only m s₀ (blankingEnd s w) := by
  unfold blankingEnd
  try dsimp only
  with_reducible
    repeat'
      first
      | assumption | exact mask_trans (by decide) hm | apply boostNotice_only | apply winElements_only
      | apply hsBefore_only | apply winUsers_only | (apply Only.foldl; intro u a hu; try dsimp only) | apply Only.ite
      | split | intro _

theorem ditherHalf_only {m : Nat} {s₀ : State} (hm : 1050624 ||| m = m) (s : State) (c : Nat)
    (h_s : Only m s₀ s) : Only m s₀ (ditherHalf s c) := by
  unfold ditherHalf
  try dsimp only
  with_reducible
    repeat'
      first
      | assumption | exact mask_trans (by decide) hm | apply loadThresholds_only | apply State.setShot_only
      | (apply Only.foldl; intro u a hu; try dsimp only) | apply Only.ite | split | intro _

theorem initialDecision_only {m : Nat} {s₀ : State} (hm : 104221391868 ||| m = m) (s : State) (w : Nat) (uv : Int × Int)
    (h_s : Only m s₀ s) : Only m s₀ (initialDecision s w uv) := by
  unfold initialDecision
  try dsimp only
  with_reducible
    repeat'
      first
      | assumption | exact .inr (mask_bit hm (by decide)) | exact .inl rfl | exact mask_trans (by decide) hm
      | apply boostNotice_only | apply winDecide_only | apply winUsers_only
      | (apply Only.foldl; intro u a hu; try dsimp only) | apply Only.ite | split | intro _
      | refine Only.written rfl ?_ ?_ ?_ ?_ ?_ ?_ ?_ ?_ ?_ ?_ ?_ ?_ ?_ ?_ ?_ ?_ ?_ ?_ ?_ ?_ ?_ ?_ ?_ ?_ ?_ ?_ ?_ ?_ ?_ ?_ ?_ ?_ ?_ ?_ ?_ ?_ ?_ ?_

theorem mixExpiry_only {m : Nat} {s₀ : State} (hm : 104221391868 ||| m = m) (s : State) (c : Nat)
    (h_s : Only m s₀ s) : Only m s₀ (mixExpiry s c) := by
  unfold mixExpiry
  try dsimp only
  with_reducible
    repeat'
      first
      | assumption | exact mask_trans (by decide) hm | apply bankReview_only | apply cellReact_only
      | (apply Only.foldl; intro u a hu; try dsimp only) | apply Only.ite | split | intro _

theorem overlapTimeout_only {m : Nat} {s₀ : State} (hm : 68720802804 ||| m = m) (s : State) (c : Nat)
    (h_s : Only m s₀ s) : Only m s₀ (overlapTimeout s c) := by
  unfold overlapTimeout
  try dsimp only
  with_reducible
    repeat'
      first
      | assumption | exact mask_trans (by decide) hm | apply dropWaiting_only | apply bankReview_only
      | (apply Only.foldl; intro u a hu; try dsimp only) | apply Only.ite | split | intro _

theorem reboostExpiry_only {m : Nat} {s₀ : State} (hm : 68720802804 ||| m = m) (s : State) (c : Nat)
    (h_s : Only m s₀ s) : Only m s₀ (reboostExpiry s c) := by
  unfold reboostExpiry
  try dsimp only
  with_reducible
    repeat'
      first
      | assumption | exact mask_trans (by decide) hm | apply bankReview_only | apply admitFrom_only
      | (apply Only.foldl; intro u a hu; try dsimp only) | apply Only.ite | split | intro _

theorem windowCrossing_only {m : Nat} {s₀ : State} (hm : 104221391868 ||| m = m) (s : State) (w : Nat) (uv : Int × Int)
    (h_s : Only m s₀ s) : Only m s₀ (windowCrossing s w uv) := by
  unfold windowCrossing
  try dsimp only
  with_reducible
    repeat'
      first
      | assumption | exact mask_trans (by decide) hm | apply boostNotice_only | apply winElements_only
      | apply hsBefore_only | apply winUsers_only | (apply Only.foldl; intro u a hu; try dsimp only) | apply Only.ite
      | split | intro _

end Sys2Proof.Machine
end

