-- ==== Sys2Proof/Laws/LinkOps.lean ====
section
/-!
SUPPORT. Machine/LinkOps.lean: every operation of it keeps what `Keeps` says, and changes only the parts of its mask.
-/
set_option linter.unusedTactic false
set_option linter.unreachableTactic false
set_option linter.unusedVariables false

namespace Sys2Proof.Machine

theorem State.setV_keeps {s₀ : State} (s : State) (v : Vlk) (h_s : Keeps s₀ s) : Keeps s₀ (State.setV s v) := by
  unfold State.setV
  try dsimp only
  with_reducible
    repeat'
      first
      | assumption | (apply Keeps.foldl; intro u a hu; try dsimp only) | apply Keeps.ite | split | intro _
      | refine Keeps.written rfl rfl rfl rfl rfl rfl rfl rfl ?_

theorem State.countFrame_keeps {s₀ : State} (s : State) (h_s : Keeps s₀ s) : Keeps s₀ (State.countFrame s) := by
  unfold State.countFrame
  try dsimp only
  with_reducible
    repeat'
      first
      | assumption | apply State.setV_keeps | (apply Keeps.foldl; intro u a hu; try dsimp only) | apply Keeps.ite | split
      | intro _ | refine Keeps.written rfl rfl rfl rfl rfl rfl rfl rfl ?_

theorem State.linkOut_keeps {s₀ : State} (s : State) (l : List LinkSent) (h_s : Keeps s₀ s)
    : Keeps s₀ (State.linkOut s l) := by
  unfold State.linkOut
  try dsimp only
  with_reducible
    repeat'
      first
      | assumption | (apply Keeps.foldl; intro u a hu; try dsimp only) | apply Keeps.ite | split | intro _
      | refine Keeps.written rfl rfl rfl rfl rfl rfl rfl rfl ?_

theorem State.setRole_keeps {s₀ : State} (s : State) (r : Nat) (x3 : LRole) (h_s : Keeps s₀ s)
    : Keeps s₀ (State.setRole s r x3) := by
  unfold State.setRole
  try dsimp only
  with_reducible
    repeat'
      first
      | assumption | apply State.setV_keeps | (apply Keeps.foldl; intro u a hu; try dsimp only) | apply Keeps.ite | split
      | intro _ | refine Keeps.written rfl rfl rfl rfl rfl rfl rfl rfl ?_

theorem putFrame_keeps {s₀ : State} (s : State) (head : Nat) (seq : Nat) (pay : List Word) (h_s : Keeps s₀ s)
    : Keeps s₀ (putFrame s head seq pay) := by
  unfold putFrame
  try dsimp only
  with_reducible
    repeat'
      first
      | assumption | apply State.linkOut_keeps | (apply Keeps.foldl; intro u a hu; try dsimp only) | apply Keeps.ite
      | split | intro _ | refine Keeps.written rfl rfl rfl rfl rfl rfl rfl rfl ?_

theorem sendFrame_keeps {s₀ : State} (s : State) (ty : Nat) (bcast : Bool) (dest : Nat) (pay : List Word) (h_s
    : Keeps s₀ s) : Keeps s₀ (sendFrame s ty bcast dest pay) := by
  unfold sendFrame
  try dsimp only
  with_reducible
    repeat'
      first
      | assumption | apply State.countFrame_keeps | apply putFrame_keeps
      | (apply Keeps.foldl; intro u a hu; try dsimp only) | apply Keeps.ite | split | intro _
      | refine Keeps.written rfl rfl rfl rfl rfl rfl rfl rfl ?_

theorem sendUnlessDup_keeps {s₀ : State} (s : State) (ty : Nat) (bcast : Bool) (dest : Nat) (pay : List Word) (h_s
    : Keeps s₀ s) : Keeps s₀ (sendUnlessDup s ty bcast dest pay) := by
  unfold sendUnlessDup
  try dsimp only
  with_reducible
    repeat'
      first
      | assumption | apply sendFrame_keeps | (apply Keeps.foldl; intro u a hu; try dsimp only) | apply Keeps.ite | split
      | intro _ | refine Keeps.written rfl rfl rfl rfl rfl rfl rfl rfl ?_

theorem sendAnnounce_keeps {s₀ : State} (s : State) (r : Nat) (status : Nat) (h_s : Keeps s₀ s)
    : Keeps s₀ (sendAnnounce s r status) := by
  unfold sendAnnounce
  try dsimp only
  with_reducible
    repeat'
      first
      | assumption | apply sendUnlessDup_keeps | (apply Keeps.foldl; intro u a hu; try dsimp only) | apply Keeps.ite
      | split | intro _ | refine Keeps.written rfl rfl rfl rfl rfl rfl rfl rfl ?_

theorem roleNotice_keeps {s₀ : State} (s : State) (r : Nat) (b : LRole) (h_s : Keeps s₀ s)
    : Keeps s₀ (roleNotice s r b) := by
  unfold roleNotice
  try dsimp only
  with_reducible
    repeat'
      first
      | assumption | apply State.arrive_keeps | (apply Keeps.foldl; intro u a hu; try dsimp only) | apply Keeps.ite
      | split | intro _ | refine Keeps.written rfl rfl rfl rfl rfl rfl rfl rfl ?_

theorem changeRole_keeps {s₀ : State} (s : State) (r : Nat) (x3 : LRole) (h_s : Keeps s₀ s)
    : Keeps s₀ (changeRole s r x3) := by
  unfold changeRole
  try dsimp only
  with_reducible
    repeat'
      first
      | assumption | apply State.setRole_keeps | apply roleNotice_keeps
      | (apply Keeps.foldl; intro u a hu; try dsimp only) | apply Keeps.ite | split | intro _
      | refine Keeps.written rfl rfl rfl rfl rfl rfl rfl rfl ?_

theorem resign_keeps {s₀ : State} (s : State) (r : Nat) (h_s : Keeps s₀ s) : Keeps s₀ (resign s r) := by
  unfold resign
  try dsimp only
  with_reducible
    repeat'
      first
      | assumption | apply sendAnnounce_keeps | apply changeRole_keeps | (apply Keeps.foldl; intro u a hu; try dsimp only)
      | apply Keeps.ite | split | intro _ | refine Keeps.written rfl rfl rfl rfl rfl rfl rfl rfl ?_

theorem linkSafe_keeps {s₀ : State} (s : State) (h_s : Keeps s₀ s) : Keeps s₀ (linkSafe s) := by
  unfold linkSafe
  try dsimp only
  with_reducible
    repeat'
      first
      | assumption | apply resign_keeps | (apply Keeps.foldl; intro u a hu; try dsimp only) | apply Keeps.ite | split
      | intro _ | refine Keeps.written rfl rfl rfl rfl rfl rfl rfl rfl ?_

theorem sendLocal_keeps {s₀ : State} (s : State) (p : Nat) (ty : Nat) (pay : List Word) (h_s : Keeps s₀ s)
    : Keeps s₀ (sendLocal s p ty pay) := by
  unfold sendLocal
  try dsimp only
  with_reducible
    repeat'
      first
      | assumption | apply State.countFrame_keeps | apply State.linkOut_keeps
      | (apply Keeps.foldl; intro u a hu; try dsimp only) | apply Keeps.ite | split | intro _
      | refine Keeps.written rfl rfl rfl rfl rfl rfl rfl rfl ?_

theorem sendTopo_keeps {s₀ : State} (s : State) (event : Nat) (p : Nat) (h_s : Keeps s₀ s)
    : Keeps s₀ (sendTopo s event p) := by
  unfold sendTopo
  try dsimp only
  with_reducible
    repeat'
      first
      | assumption | apply sendUnlessDup_keeps | (apply Keeps.foldl; intro u a hu; try dsimp only) | apply Keeps.ite
      | split | intro _ | refine Keeps.written rfl rfl rfl rfl rfl rfl rfl rfl ?_

theorem State.setV_only {m : Nat} {s₀ : State} (hm : 268435456 ||| m = m) (s : State) (v : Vlk)
    (h_s : Only m s₀ s) : Only m s₀ (State.setV s v) := by
  unfold State.setV
  try dsimp only
  with_reducible
    repeat'
      first
      | assumption | exact .inr (mask_bit hm (by decide)) | exact .inl rfl | exact mask_trans (by decide) hm
      | (apply Only.foldl; intro u a hu; try dsimp only) | apply Only.ite | split | intro _
      | refine Only.written rfl ?_ ?_ ?_ ?_ ?_ ?_ ?_ ?_ ?_ ?_ ?_ ?_ ?_ ?_ ?_ ?_ ?_ ?_ ?_ ?_ ?_ ?_ ?_ ?_ ?_ ?_ ?_ ?_ ?_ ?_ ?_ ?_ ?_ ?_ ?_ ?_ ?_ ?_

theorem State.countFrame_only {m : Nat} {s₀ : State} (hm : 268435456 ||| m = m) (s : State)
    (h_s : Only m s₀ s) : Only m s₀ (State.countFrame s) := by
  unfold State.countFrame
  try dsimp only
  with_reducible
    repeat'
      first
      | assumption | exact mask_trans (by decide) hm | apply State.setV_only
      | (apply Only.foldl; intro u a hu; try dsimp only) | apply Only.ite | split | intro _

theorem State.linkOut_only {m : Nat} {s₀ : State} (hm : 16 ||| m = m) (s : State) (l : List LinkSent)
    (h_s : Only m s₀ s) : Only m s₀ (State.linkOut s l) := by
  unfold State.linkOut
  try dsimp only
  with_reducible
    repeat'
      first
      | assumption | exact .inr (mask_bit hm (by decide)) | exact .inl rfl | exact mask_trans (by decide) hm
      | (apply Only.foldl; intro u a hu; try dsimp only) | apply Only.ite | split | intro _
      | refine Only.written rfl ?_ ?_ ?_ ?_ ?_ ?_ ?_ ?_ ?_ ?_ ?_ ?_ ?_ ?_ ?_ ?_ ?_ ?_ ?_ ?_ ?_ ?_ ?_ ?_ ?_ ?_ ?_ ?_ ?_ ?_ ?_ ?_ ?_ ?_ ?_ ?_ ?_ ?_

theorem State.setRole_only {m : Nat} {s₀ : State} (hm : 268435456 ||| m = m) (s : State) (r : Nat) (x3 : LRole)
    (h_s : Only m s₀ s) : Only m s₀ (State.setRole s r x3) := by
  unfold State.setRole
  try dsimp only
  with_reducible
    repeat'
      first
      | assumption | exact mask_trans (by decide) hm | apply State.setV_only
      | (apply Only.foldl; intro u a hu; try dsimp only) | apply Only.ite | split | intro _

theorem putFrame_only {m : Nat} {s₀ : State} (hm : 16 ||| m = m) (s : State) (head : Nat) (seq : Nat) (pay : List Word)
    (h_s : Only m s₀ s) : Only m s₀ (putFrame s head seq pay) := by
  unfold putFrame
  try dsimp only
  with_reducible
    repeat'
      first
      | assumption | exact mask_trans (by decide) hm | apply State.linkOut_only
      | (apply Only.foldl; intro u a hu; try dsimp only) | apply Only.ite | split | intro _

theorem sendFrame_only {m : Nat} {s₀ : State} (hm : 268435472 ||| m = m) (s : State) (ty : Nat) (bcast : Bool)
    (dest : Nat) (pay : List Word) (h_s : Only m s₀ s) : Only m s₀ (sendFrame s ty bcast dest pay) := by
  unfold sendFrame
  try dsimp only
  with_reducible
    repeat'
      first
      | assumption | exact mask_trans (by decide) hm | apply State.countFrame_only | apply putFrame_only
      | (apply Only.foldl; intro u a hu; try dsimp only) | apply Only.ite | split | intro _

theorem sendUnlessDup_only {m : Nat} {s₀ : State} (hm : 268435472 ||| m = m) (s : State) (ty : Nat) (bcast : Bool)
    (dest : Nat) (pay : List Word) (h_s : Only m s₀ s) : Only m s₀ (sendUnlessDup s ty bcast dest pay) := by
  unfold sendUnlessDup
  try dsimp only
  with_reducible
    repeat'
      first
      | assumption | exact mask_trans (by decide) hm | apply sendFrame_only
      | (apply Only.foldl; intro u a hu; try dsimp only) | apply Only.ite | split | intro _

theorem sendAnnounce_only {m : Nat} {s₀ : State} (hm : 268435472 ||| m = m) (s : State) (r : Nat) (status : Nat)
    (h_s : Only m s₀ s) : Only m s₀ (sendAnnounce s r status) := by
  unfold sendAnnounce
  try dsimp only
  with_reducible
    repeat'
      first
      | assumption | exact mask_trans (by decide) hm | apply sendUnlessDup_only
      | (apply Only.foldl; intro u a hu; try dsimp only) | apply Only.ite | split | intro _

theorem roleNotice_only {m : Nat} {s₀ : State} (hm : 544 ||| m = m) (s : State) (r : Nat) (b : LRole)
    (h_s : Only m s₀ s) : Only m s₀ (roleNotice s r b) := by
  unfold roleNotice
  try dsimp only
  with_reducible
    repeat'
      first
      | assumption | exact mask_trans (by decide) hm | apply State.arrive_only
      | (apply Only.foldl; intro u a hu; try dsimp only) | apply Only.ite | split | intro _

theorem changeRole_only {m : Nat} {s₀ : State} (hm : 268436000 ||| m = m) (s : State) (r : Nat) (x3 : LRole)
    (h_s : Only m s₀ s) : Only m s₀ (changeRole s r x3) := by
  unfold changeRole
  try dsimp only
  with_reducible
    repeat'
      first
      | assumption | exact mask_trans (by decide) hm | apply State.setRole_only | apply roleNotice_only
      | (apply Only.foldl; intro u a hu; try dsimp only) | apply Only.ite | split | intro _

theorem resign_only {m : Nat} {s₀ : State} (hm : 268436016 ||| m = m) (s : State) (r : Nat)
    (h_s : Only m s₀ s) : Only m s₀ (resign s r) := by
  unfold resign
  try dsimp only
  with_reducible
    repeat'
      first
      | assumption | exact mask_trans (by decide) hm | apply sendAnnounce_only | apply changeRole_only
      | (apply Only.foldl; intro u a hu; try dsimp only) | apply Only.ite | split | intro _

theorem linkSafe_only {m : Nat} {s₀ : State} (hm : 268436016 ||| m = m) (s : State)
    (h_s : Only m s₀ s) : Only m s₀ (linkSafe s) := by
  unfold linkSafe
  try dsimp only
  with_reducible
    repeat'
      first
      | assumption | exact mask_trans (by decide) hm | apply resign_only
      | (apply Only.foldl; intro u a hu; try dsimp only) | apply Only.ite | split | intro _

theorem sendLocal_only {m : Nat} {s₀ : State} (hm : 268435472 ||| m = m) (s : State) (p : Nat) (ty : Nat)
    (pay : List Word) (h_s : Only m s₀ s) : Only m s₀ (sendLocal s p ty pay) := by
  unfold sendLocal
  try dsimp only
  with_reducible
    repeat'
      first
      | assumption | exact mask_trans (by decide) hm | apply State.countFrame_only | apply State.linkOut_only
      | (apply Only.foldl; intro u a hu; try dsimp only) | apply Only.ite | split | intro _

theorem sendTopo_only {m : Nat} {s₀ : State} (hm : 268435472 ||| m = m) (s : State) (event : Nat) (p : Nat)
    (h_s : Only m s₀ s) : Only m s₀ (sendTopo s event p) := by
  unfold sendTopo
  try dsimp only
  with_reducible
    repeat'
      first
      | assumption | exact mask_trans (by decide) hm | apply sendUnlessDup_only
      | (apply Only.foldl; intro u a hu; try dsimp only) | apply Only.ite | split | intro _

end Sys2Proof.Machine
end

