-- ==== Sys2Proof/Laws/ReelOps.lean ====
section
/-!
SUPPORT. Machine/ReelOps.lean: every operation of it keeps what `Keeps` says, and changes only the parts of its mask.
-/
set_option linter.unusedTactic false
set_option linter.unreachableTactic false
set_option linter.unusedVariables false

namespace Sys2Proof.Machine

theorem State.setReel_keeps {s₀ : State} (s : State) (r : Reel) (h_s : Keeps s₀ s) : Keeps s₀ (State.setReel s r) := by
  unfold State.setReel
  try dsimp only
  with_reducible
    repeat'
      first
      | assumption | (apply Keeps.foldl; intro u a hu; try dsimp only) | apply Keeps.ite | split | intro _
      | refine Keeps.written rfl rfl rfl rfl rfl rfl rfl rfl ?_

theorem State.reelTurn_keeps {s₀ : State} (s : State) (rank : Nat) (h_s : Keeps s₀ s)
    : Keeps s₀ (State.reelTurn s rank) := by
  unfold State.reelTurn
  try dsimp only
  with_reducible
    repeat'
      first
      | assumption | apply State.setReel_keeps | apply State.tick_keeps
      | (apply Keeps.foldl; intro u a hu; try dsimp only) | apply Keeps.ite | split | intro _
      | refine Keeps.written rfl rfl rfl rfl rfl rfl rfl rfl ?_

theorem reelEvent_keeps {s₀ : State} (s : State) (i : Nat) (h_s : Keeps s₀ s) : Keeps s₀ (reelEvent s i) := by
  unfold reelEvent
  try dsimp only
  with_reducible
    repeat'
      first
      | assumption | apply State.setReel_keeps | (apply Keeps.foldl; intro u a hu; try dsimp only) | apply Keeps.ite
      | split | intro _ | refine Keeps.written rfl rfl rfl rfl rfl rfl rfl rfl ?_

theorem reelHoldBegin_keeps {s₀ : State} (s : State) (h_s : Keeps s₀ s) : Keeps s₀ (reelHoldBegin s) := by
  unfold reelHoldBegin
  try dsimp only
  with_reducible
    repeat'
      first
      | assumption | apply State.setReel_keeps | (apply Keeps.foldl; intro u a hu; try dsimp only) | apply Keeps.ite
      | split | intro _ | refine Keeps.written rfl rfl rfl rfl rfl rfl rfl rfl ?_

theorem reelHoldEnd_keeps {s₀ : State} (s : State) (h_s : Keeps s₀ s) : Keeps s₀ (reelHoldEnd s) := by
  unfold reelHoldEnd
  try dsimp only
  with_reducible
    repeat'
      first
      | assumption | apply State.setReel_keeps | (apply Keeps.foldl; intro u a hu; try dsimp only) | apply Keeps.ite
      | split | intro _ | refine Keeps.written rfl rfl rfl rfl rfl rfl rfl rfl ?_

theorem reelReview_keeps {s₀ : State} (s : State) (h_s : Keeps s₀ s) : Keeps s₀ (reelReview s) := by
  unfold reelReview
  try dsimp only
  with_reducible
    repeat'
      first
      | assumption | apply reelHoldBegin_keeps | apply reelHoldEnd_keeps
      | (apply Keeps.foldl; intro u a hu; try dsimp only) | apply Keeps.ite | split | intro _
      | refine Keeps.written rfl rfl rfl rfl rfl rfl rfl rfl ?_

theorem reelRx_keeps {s₀ : State} (s : State) (e : Nat) (h_s : Keeps s₀ s) : Keeps s₀ (reelRx s e) := by
  unfold reelRx
  try dsimp only
  with_reducible
    repeat'
      first
      | assumption | apply State.setReel_keeps | apply State.answer_keeps
      | (apply Keeps.foldl; intro u a hu; try dsimp only) | apply Keeps.ite | split | intro _
      | refine Keeps.written rfl rfl rfl rfl rfl rfl rfl rfl ?_

theorem reelFlagWrite_keeps {s₀ : State} (s : State) (set : Nat) (clr : Nat) (h_s : Keeps s₀ s)
    : Keeps s₀ (reelFlagWrite s set clr) := by
  unfold reelFlagWrite
  try dsimp only
  with_reducible
    repeat'
      first
      | assumption | apply State.setReel_keeps | (apply Keeps.foldl; intro u a hu; try dsimp only) | apply Keeps.ite
      | split | intro _ | refine Keeps.written rfl rfl rfl rfl rfl rfl rfl rfl ?_

theorem reelFlushOut_keeps {s₀ : State} (s : State) (e : Nat) (h_s : Keeps s₀ s) : Keeps s₀ (reelFlushOut s e) := by
  unfold reelFlushOut
  try dsimp only
  with_reducible
    repeat'
      first
      | assumption | apply State.setReel_keeps | (apply Keeps.foldl; intro u a hu; try dsimp only) | apply Keeps.ite
      | split | intro _ | refine Keeps.written rfl rfl rfl rfl rfl rfl rfl rfl ?_

theorem reelFlushIn_keeps {s₀ : State} (s : State) (e : Nat) (h_s : Keeps s₀ s) : Keeps s₀ (reelFlushIn s e) := by
  unfold reelFlushIn
  try dsimp only
  with_reducible
    repeat'
      first
      | assumption | apply State.setReel_keeps | (apply Keeps.foldl; intro u a hu; try dsimp only) | apply Keeps.ite
      | split | intro _ | refine Keeps.written rfl rfl rfl rfl rfl rfl rfl rfl ?_

theorem reelEnable_keeps {s₀ : State} (s : State) (e : Nat) (h_s : Keeps s₀ s) : Keeps s₀ (reelEnable s e) := by
  unfold reelEnable
  try dsimp only
  with_reducible
    repeat'
      first
      | assumption | apply State.setReel_keeps | apply State.setRf_keeps
      | (apply Keeps.foldl; intro u a hu; try dsimp only) | apply Keeps.ite | split | intro _
      | refine Keeps.written rfl rfl rfl rfl rfl rfl rfl rfl ?_

theorem reelDisable_keeps {s₀ : State} (s : State) (e : Nat) (h_s : Keeps s₀ s) : Keeps s₀ (reelDisable s e) := by
  unfold reelDisable
  try dsimp only
  with_reducible
    repeat'
      first
      | assumption | apply State.setReel_keeps | apply State.setRf_keeps
      | (apply Keeps.foldl; intro u a hu; try dsimp only) | apply Keeps.ite | split | intro _
      | refine Keeps.written rfl rfl rfl rfl rfl rfl rfl rfl ?_

theorem reelWrapSet_keeps {s₀ : State} (s : State) (e : Nat) (top : Nat) (target : Nat) (h_s : Keeps s₀ s)
    : Keeps s₀ (reelWrapSet s e top target) := by
  unfold reelWrapSet
  try dsimp only
  with_reducible
    repeat'
      first
      | assumption | apply State.setReel_keeps | apply State.setRf_keeps
      | (apply Keeps.foldl; intro u a hu; try dsimp only) | apply Keeps.ite | split | intro _
      | refine Keeps.written rfl rfl rfl rfl rfl rfl rfl rfl ?_

theorem reelRestart_keeps {s₀ : State} (s : State) (e : Nat) (h_s : Keeps s₀ s) : Keeps s₀ (reelRestart s e) := by
  unfold reelRestart
  try dsimp only
  with_reducible
    repeat'
      first
      | assumption | apply State.setReel_keeps | (apply Keeps.foldl; intro u a hu; try dsimp only) | apply Keeps.ite
      | split | intro _ | refine Keeps.written rfl rfl rfl rfl rfl rfl rfl rfl ?_

theorem reelAppend_keeps {s₀ : State} (s : State) (e : Nat) (ws : List Word) (h_s : Keeps s₀ s)
    : Keeps s₀ (reelAppend s e ws) := by
  unfold reelAppend
  try dsimp only
  with_reducible
    repeat'
      first
      | assumption | apply State.setReel_keeps | (apply Keeps.foldl; intro u a hu; try dsimp only) | apply Keeps.ite
      | split | intro _ | refine Keeps.written rfl rfl rfl rfl rfl rfl rfl rfl ?_

theorem reelTx_keeps {s₀ : State} (s : State) (e : Nat) (v : Word) (h_s : Keeps s₀ s) : Keeps s₀ (reelTx s e v) := by
  unfold reelTx
  try dsimp only
  with_reducible
    repeat'
      first
      | assumption | apply State.setReel_keeps | apply reelAppend_keeps
      | (apply Keeps.foldl; intro u a hu; try dsimp only) | apply Keeps.ite | split | intro _
      | refine Keeps.written rfl rfl rfl rfl rfl rfl rfl rfl ?_

theorem reelInject_keeps {s₀ : State} (s : State) (e : Nat) (w : Nat) (h_s : Keeps s₀ s) : Keeps s₀ (reelInject s e w) := by
  unfold reelInject
  try dsimp only
  with_reducible
    repeat'
      first
      | assumption | apply State.setReel_keeps | (apply Keeps.foldl; intro u a hu; try dsimp only) | apply Keeps.ite
      | split | intro _ | refine Keeps.written rfl rfl rfl rfl rfl rfl rfl rfl ?_

theorem reelImemWord_keeps {s₀ : State} (s : State) (a : Nat) (w : Word) (h_s : Keeps s₀ s)
    : Keeps s₀ (reelImemWord s a w) := by
  unfold reelImemWord
  try dsimp only
  with_reducible
    repeat'
      first
      | assumption | apply State.putWords_keeps | apply State.setReel_keeps
      | (apply Keeps.foldl; intro u a hu; try dsimp only) | apply Keeps.ite | split | intro _
      | refine Keeps.written rfl rfl rfl rfl rfl rfl rfl rfl ?_

theorem pinEdge_keeps {s₀ : State} (s : State) (p : Nat) (at_ : Nat) (h_s : Keeps s₀ s) : Keeps s₀ (pinEdge s p at_) := by
  unfold pinEdge
  try dsimp only
  with_reducible
    repeat'
      first
      | assumption | apply blankEdge_keeps | (apply Keeps.foldl; intro u a hu; try dsimp only) | apply Keeps.ite | split
      | intro _ | refine Keeps.written rfl rfl rfl rfl rfl rfl rfl rfl ?_

theorem drivenEdges_keeps {s₀ : State} (s : State) (old : Reel) (h_s : Keeps s₀ s) : Keeps s₀ (drivenEdges s old) := by
  unfold drivenEdges
  try dsimp only
  with_reducible
    repeat'
      first
      | assumption | apply pinEdge_keeps | (apply Keeps.foldl; intro u a hu; try dsimp only) | apply Keeps.ite | split
      | intro _ | refine Keeps.written rfl rfl rfl rfl rfl rfl rfl rfl ?_

theorem reelCycle_keeps {s₀ : State} (s : State) (e : Nat) (h_s : Keeps s₀ s) : Keeps s₀ (reelCycle s e) := by
  unfold reelCycle
  try dsimp only
  with_reducible
    repeat'
      first
      | assumption | apply State.setReel_keeps | apply State.arrive_keeps | apply drivenEdges_keeps
      | (apply Keeps.foldl; intro u a hu; try dsimp only) | apply Keeps.ite | split | intro _
      | refine Keeps.written rfl rfl rfl rfl rfl rfl rfl rfl ?_

theorem reelInstr_keeps {s₀ : State} (s : State) (e : Nat) (op : Nat) (h_s : Keeps s₀ s) : Keeps s₀ (reelInstr s e op) := by
  unfold reelInstr
  try dsimp only
  with_reducible
    repeat'
      first
      | assumption | apply State.reelTurn_keeps | apply reelCycle_keeps
      | (apply Keeps.foldl; intro u a hu; try dsimp only) | apply Keeps.ite | split | intro _
      | refine Keeps.written rfl rfl rfl rfl rfl rfl rfl rfl ?_

theorem reelIdle_keeps {s₀ : State} (s : State) (e : Nat) (h_s : Keeps s₀ s) : Keeps s₀ (reelIdle s e) := by
  unfold reelIdle
  try dsimp only
  with_reducible
    repeat'
      first
      | assumption | apply State.reelTurn_keeps | apply State.setReel_keeps
      | (apply Keeps.foldl; intro u a hu; try dsimp only) | apply Keeps.ite | split | intro _
      | refine Keeps.written rfl rfl rfl rfl rfl rfl rfl rfl ?_

theorem reelInTransfer_keeps {s₀ : State} (s : State) (e : Nat) (h_s : Keeps s₀ s) : Keeps s₀ (reelInTransfer s e) := by
  unfold reelInTransfer
  try dsimp only
  with_reducible
    repeat'
      first
      | assumption | apply State.reelTurn_keeps | apply State.setReel_keeps | apply State.tick_keeps
      | apply qEndBurst_keeps | apply qProduce_keeps | (apply Keeps.foldl; intro u a hu; try dsimp only) | apply Keeps.ite
      | split | intro _ | refine Keeps.written rfl rfl rfl rfl rfl rfl rfl rfl ?_

theorem rpPin_keeps {s₀ : State} (s : State) (p : Nat) (ts : Nat) (level : Bool) (h_s : Keeps s₀ s)
    : Keeps s₀ (rpPin s p ts level) := by
  unfold rpPin
  try dsimp only
  with_reducible
    repeat'
      first
      | assumption | apply State.setReel_keeps | apply pinEdge_keeps | (apply Keeps.foldl; intro u a hu; try dsimp only)
      | apply Keeps.ite | split | intro _ | refine Keeps.written rfl rfl rfl rfl rfl rfl rfl rfl ?_

theorem State.setReel_only {m : Nat} {s₀ : State} (hm : 1024 ||| m = m) (s : State) (r : Reel)
    (h_s : Only m s₀ s) : Only m s₀ (State.setReel s r) := by
  unfold State.setReel
  try dsimp only
  with_reducible
    repeat'
      first
      | assumption | exact .inr (mask_bit hm (by decide)) | exact .inl rfl | exact mask_trans (by decide) hm
      | (apply Only.foldl; intro u a hu; try dsimp only) | apply Only.ite | split | intro _
      | refine Only.written rfl ?_ ?_ ?_ ?_ ?_ ?_ ?_ ?_ ?_ ?_ ?_ ?_ ?_ ?_ ?_ ?_ ?_ ?_ ?_ ?_ ?_ ?_ ?_ ?_ ?_ ?_ ?_ ?_ ?_ ?_ ?_ ?_ ?_ ?_ ?_ ?_ ?_ ?_

theorem State.reelTurn_only {m : Nat} {s₀ : State} (hm : 1025 ||| m = m) (s : State) (rank : Nat)
    (h_s : Only m s₀ s) : Only m s₀ (State.reelTurn s rank) := by
  unfold State.reelTurn
  try dsimp only
  with_reducible
    repeat'
      first
      | assumption | exact mask_trans (by decide) hm | apply State.setReel_only | apply State.tick_only
      | (apply Only.foldl; intro u a hu; try dsimp only) | apply Only.ite | split | intro _

theorem reelEvent_only {m : Nat} {s₀ : State} (hm : 1024 ||| m = m) (s : State) (i : Nat)
    (h_s : Only m s₀ s) : Only m s₀ (reelEvent s i) := by
  unfold reelEvent
  try dsimp only
  with_reducible
    repeat'
      first
      | assumption | exact mask_trans (by decide) hm | apply State.setReel_only
      | (apply Only.foldl; intro u a hu; try dsimp only) | apply Only.ite | split | intro _

theorem reelHoldBegin_only {m : Nat} {s₀ : State} (hm : 1024 ||| m = m) (s : State)
    (h_s : Only m s₀ s) : Only m s₀ (reelHoldBegin s) := by
  unfold reelHoldBegin
  try dsimp only
  with_reducible
    repeat'
      first
      | assumption | exact mask_trans (by decide) hm | apply State.setReel_only
      | (apply Only.foldl; intro u a hu; try dsimp only) | apply Only.ite | split | intro _

theorem reelHoldEnd_only {m : Nat} {s₀ : State} (hm : 1024 ||| m = m) (s : State)
    (h_s : Only m s₀ s) : Only m s₀ (reelHoldEnd s) := by
  unfold reelHoldEnd
  try dsimp only
  with_reducible
    repeat'
      first
      | assumption | exact mask_trans (by decide) hm | apply State.setReel_only
      | (apply Only.foldl; intro u a hu; try dsimp only) | apply Only.ite | split | intro _

theorem reelReview_only {m : Nat} {s₀ : State} (hm : 1024 ||| m = m) (s : State)
    (h_s : Only m s₀ s) : Only m s₀ (reelReview s) := by
  unfold reelReview
  try dsimp only
  with_reducible
    repeat'
      first
      | assumption | exact mask_trans (by decide) hm | apply reelHoldBegin_only | apply reelHoldEnd_only
      | (apply Only.foldl; intro u a hu; try dsimp only) | apply Only.ite | split | intro _

theorem reelRx_only {m : Nat} {s₀ : State} (hm : 1040 ||| m = m) (s : State) (e : Nat)
    (h_s : Only m s₀ s) : Only m s₀ (reelRx s e) := by
  unfold reelRx
  try dsimp only
  with_reducible
    repeat'
      first
      | assumption | exact mask_trans (by decide) hm | apply State.setReel_only | apply State.answer_only
      | (apply Only.foldl; intro u a hu; try dsimp only) | apply Only.ite | split | intro _

theorem reelFlagWrite_only {m : Nat} {s₀ : State} (hm : 1024 ||| m = m) (s : State) (set : Nat) (clr : Nat)
    (h_s : Only m s₀ s) : Only m s₀ (reelFlagWrite s set clr) := by
  unfold reelFlagWrite
  try dsimp only
  with_reducible
    repeat'
      first
      | assumption | exact mask_trans (by decide) hm | apply State.setReel_only
      | (apply Only.foldl; intro u a hu; try dsimp only) | apply Only.ite | split | intro _

theorem reelFlushOut_only {m : Nat} {s₀ : State} (hm : 1024 ||| m = m) (s : State) (e : Nat)
    (h_s : Only m s₀ s) : Only m s₀ (reelFlushOut s e) := by
  unfold reelFlushOut
  try dsimp only
  with_reducible
    repeat'
      first
      | assumption | exact mask_trans (by decide) hm | apply State.setReel_only
      | (apply Only.foldl; intro u a hu; try dsimp only) | apply Only.ite | split | intro _

theorem reelFlushIn_only {m : Nat} {s₀ : State} (hm : 1024 ||| m = m) (s : State) (e : Nat)
    (h_s : Only m s₀ s) : Only m s₀ (reelFlushIn s e) := by
  unfold reelFlushIn
  try dsimp only
  with_reducible
    repeat'
      first
      | assumption | exact mask_trans (by decide) hm | apply State.setReel_only
      | (apply Only.foldl; intro u a hu; try dsimp only) | apply Only.ite | split | intro _

theorem reelEnable_only {m : Nat} {s₀ : State} (hm : 1028 ||| m = m) (s : State) (e : Nat)
    (h_s : Only m s₀ s) : Only m s₀ (reelEnable s e) := by
  unfold reelEnable
  try dsimp only
  with_reducible
    repeat'
      first
      | assumption | exact mask_trans (by decide) hm | apply State.setReel_only | apply State.setRf_only
      | (apply Only.foldl; intro u a hu; try dsimp only) | apply Only.ite | split | intro _

theorem reelDisable_only {m : Nat} {s₀ : State} (hm : 1028 ||| m = m) (s : State) (e : Nat)
    (h_s : Only m s₀ s) : Only m s₀ (reelDisable s e) := by
  unfold reelDisable
  try dsimp only
  with_reducible
    repeat'
      first
      | assumption | exact mask_trans (by decide) hm | apply State.setReel_only | apply State.setRf_only
      | (apply Only.foldl; intro u a hu; try dsimp only) | apply Only.ite | split | intro _

theorem reelWrapSet_only {m : Nat} {s₀ : State} (hm : 1028 ||| m = m) (s : State) (e : Nat) (top : Nat) (target : Nat)
    (h_s : Only m s₀ s) : Only m s₀ (reelWrapSet s e top target) := by
  unfold reelWrapSet
  try dsimp only
  with_reducible
    repeat'
      first
      | assumption | exact mask_trans (by decide) hm | apply State.setReel_only | apply State.setRf_only
      | (apply Only.foldl; intro u a hu; try dsimp only) | apply Only.ite | split | intro _

theorem reelRestart_only {m : Nat} {s₀ : State} (hm : 1024 ||| m = m) (s : State) (e : Nat)
    (h_s : Only m s₀ s) : Only m s₀ (reelRestart s e) := by
  unfold reelRestart
  try dsimp only
  with_reducible
    repeat'
      first
      | assumption | exact mask_trans (by decide) hm | apply State.setReel_only
      | (apply Only.foldl; intro u a hu; try dsimp only) | apply Only.ite | split | intro _

theorem reelAppend_only {m : Nat} {s₀ : State} (hm : 1024 ||| m = m) (s : State) (e : Nat) (ws : List Word)
    (h_s : Only m s₀ s) : Only m s₀ (reelAppend s e ws) := by
  unfold reelAppend
  try dsimp only
  with_reducible
    repeat'
      first
      | assumption | exact mask_trans (by decide) hm | apply State.setReel_only
      | (apply Only.foldl; intro u a hu; try dsimp only) | apply Only.ite | split | intro _

theorem reelTx_only {m : Nat} {s₀ : State} (hm : 1024 ||| m = m) (s : State) (e : Nat) (v : Word)
    (h_s : Only m s₀ s) : Only m s₀ (reelTx s e v) := by
  unfold reelTx
  try dsimp only
  with_reducible
    repeat'
      first
      | assumption | exact mask_trans (by decide) hm | apply State.setReel_only | apply reelAppend_only
      | (apply Only.foldl; intro u a hu; try dsimp only) | apply Only.ite | split | intro _

theorem reelInject_only {m : Nat} {s₀ : State} (hm : 1024 ||| m = m) (s : State) (e : Nat) (w : Nat)
    (h_s : Only m s₀ s) : Only m s₀ (reelInject s e w) := by
  unfold reelInject
  try dsimp only
  with_reducible
    repeat'
      first
      | assumption | exact mask_trans (by decide) hm | apply State.setReel_only
      | (apply Only.foldl; intro u a hu; try dsimp only) | apply Only.ite | split | intro _

theorem reelImemWord_only {m : Nat} {s₀ : State} (hm : 1032 ||| m = m) (s : State) (a : Nat) (w : Word)
    (h_s : Only m s₀ s) : Only m s₀ (reelImemWord s a w) := by
  unfold reelImemWord
  try dsimp only
  with_reducible
    repeat'
      first
      | assumption | exact mask_trans (by decide) hm | apply State.putWords_only | apply State.setReel_only
      | (apply Only.foldl; intro u a hu; try dsimp only) | apply Only.ite | split | intro _

theorem pinEdge_only {m : Nat} {s₀ : State} (hm : 1048576 ||| m = m) (s : State) (p : Nat) (at_ : Nat)
    (h_s : Only m s₀ s) : Only m s₀ (pinEdge s p at_) := by
  unfold pinEdge
  try dsimp only
  with_reducible
    repeat'
      first
      | assumption | exact mask_trans (by decide) hm | apply blankEdge_only
      | (apply Only.foldl; intro u a hu; try dsimp only) | apply Only.ite | split | intro _

theorem drivenEdges_only {m : Nat} {s₀ : State} (hm : 1048576 ||| m = m) (s : State) (old : Reel)
    (h_s : Only m s₀ s) : Only m s₀ (drivenEdges s old) := by
  unfold drivenEdges
  try dsimp only
  with_reducible
    repeat'
      first
      | assumption | exact mask_trans (by decide) hm | apply pinEdge_only
      | (apply Only.foldl; intro u a hu; try dsimp only) | apply Only.ite | split | intro _

theorem reelCycle_only {m : Nat} {s₀ : State} (hm : 1050144 ||| m = m) (s : State) (e : Nat)
    (h_s : Only m s₀ s) : Only m s₀ (reelCycle s e) := by
  unfold reelCycle
  try dsimp only
  with_reducible
    repeat'
      first
      | assumption | exact mask_trans (by decide) hm | apply State.setReel_only | apply State.arrive_only
      | apply drivenEdges_only | (apply Only.foldl; intro u a hu; try dsimp only) | apply Only.ite | split | intro _

theorem reelInstr_only {m : Nat} {s₀ : State} (hm : 1050145 ||| m = m) (s : State) (e : Nat) (op : Nat)
    (h_s : Only m s₀ s) : Only m s₀ (reelInstr s e op) := by
  unfold reelInstr
  try dsimp only
  with_reducible
    repeat'
      first
      | assumption | exact mask_trans (by decide) hm | apply State.reelTurn_only | apply reelCycle_only
      | (apply Only.foldl; intro u a hu; try dsimp only) | apply Only.ite | split | intro _

theorem reelIdle_only {m : Nat} {s₀ : State} (hm : 1025 ||| m = m) (s : State) (e : Nat)
    (h_s : Only m s₀ s) : Only m s₀ (reelIdle s e) := by
  unfold reelIdle
  try dsimp only
  with_reducible
    repeat'
      first
      | assumption | exact mask_trans (by decide) hm | apply State.reelTurn_only | apply State.setReel_only
      | (apply Only.foldl; intro u a hu; try dsimp only) | apply Only.ite | split | intro _

theorem reelInTransfer_only {m : Nat} {s₀ : State} (hm : 1781 ||| m = m) (s : State) (e : Nat)
    (h_s : Only m s₀ s) : Only m s₀ (reelInTransfer s e) := by
  unfold reelInTransfer
  try dsimp only
  with_reducible
    repeat'
      first
      | assumption | exact mask_trans (by decide) hm | apply State.reelTurn_only | apply State.setReel_only
      | apply State.tick_only | apply qEndBurst_only | apply qProduce_only
      | (apply Only.foldl; intro u a hu; try dsimp only) | apply Only.ite | split | intro _

theorem rpPin_only {m : Nat} {s₀ : State} (hm : 1049600 ||| m = m) (s : State) (p : Nat) (ts : Nat) (level : Bool)
    (h_s : Only m s₀ s) : Only m s₀ (rpPin s p ts level) := by
  unfold rpPin
  try dsimp only
  with_reducible
    repeat'
      first
      | assumption | exact mask_trans (by decide) hm | apply State.setReel_only | apply pinEdge_only
      | (apply Only.foldl; intro u a hu; try dsimp only) | apply Only.ite | split | intro _

end Sys2Proof.Machine
end

