-- ==== Sys2Proof/Laws/Fatal.lean ====
section
/-!
SUPPORT. Machine/Fatal.lean: every operation of it keeps what `Keeps` says, and changes only the parts of its mask.
-/
set_option linter.unusedTactic false
set_option linter.unreachableTactic false
set_option linter.unusedVariables false

namespace Sys2Proof.Machine

theorem banksToSafe_keeps {s₀ : State} (s : State) (h_s : Keeps s₀ s) : Keeps s₀ (banksToSafe s) := by
  unfold banksToSafe
  try dsimp only
  with_reducible
    repeat'
      first
      | assumption | apply bankToSafe_keeps | (apply Keeps.foldl; intro u a hu; try dsimp only) | apply Keeps.ite | split
      | intro _ | refine Keeps.written rfl rfl rfl rfl rfl rfl rfl rfl ?_

theorem unitsToSafe_keeps {s₀ : State} (s : State) (h_s : Keeps s₀ s) : Keeps s₀ (unitsToSafe s) := by
  unfold unitsToSafe
  try dsimp only
  with_reducible
    repeat'
      first
      | assumption | apply State.setUnit_keeps | (apply Keeps.foldl; intro u a hu; try dsimp only) | apply Keeps.ite
      | split | intro _ | refine Keeps.written rfl rfl rfl rfl rfl rfl rfl rfl ?_

theorem chipFatal_keeps {s₀ : State} (s : State) (code : Nat) (d0 : Word) (d1 : Word) (h_s : Keeps s₀ s)
    : Keeps s₀ (chipFatal s code d0 d1) := by
  unfold chipFatal
  try dsimp only
  with_reducible
    repeat'
      first
      | assumption | apply State.arrive_keeps | apply banksToSafe_keeps | apply unitsToSafe_keeps
      | apply faultRecord_keeps | apply State.setRf_keeps | apply reelReview_keeps | apply linkSafe_keeps
      | (apply Keeps.foldl; intro u a hu; try dsimp only) | apply Keeps.ite | split | intro _
      | refine Keeps.written rfl rfl rfl rfl rfl rfl rfl rfl ?_

theorem fatalNow_keeps {s₀ : State} (s : State) (code : Nat) (h_s : Keeps s₀ s) : Keeps s₀ (fatalNow s code) := by
  unfold fatalNow
  try dsimp only
  with_reducible
    repeat'
      first
      | assumption | apply reflNotice_keeps | apply chipFatal_keeps | (apply Keeps.foldl; intro u a hu; try dsimp only)
      | apply Keeps.ite | split | intro _ | refine Keeps.written rfl rfl rfl rfl rfl rfl rfl rfl ?_

theorem banksToSafe_only {m : Nat} {s₀ : State} (hm : 68720802804 ||| m = m) (s : State)
    (h_s : Only m s₀ s) : Only m s₀ (banksToSafe s) := by
  unfold banksToSafe
  try dsimp only
  with_reducible
    repeat'
      first
      | assumption | exact mask_trans (by decide) hm | apply bankToSafe_only
      | (apply Only.foldl; intro u a hu; try dsimp only) | apply Only.ite | split | intro _

theorem unitsToSafe_only {m : Nat} {s₀ : State} (hm : 8192 ||| m = m) (s : State)
    (h_s : Only m s₀ s) : Only m s₀ (unitsToSafe s) := by
  unfold unitsToSafe
  try dsimp only
  with_reducible
    repeat'
      first
      | assumption | exact mask_trans (by decide) hm | apply State.setUnit_only
      | (apply Only.foldl; intro u a hu; try dsimp only) | apply Only.ite | split | intro _

theorem chipFatal_only {m : Nat} {s₀ : State} (hm : 70130089982 ||| m = m) (s : State) (code : Nat) (d0 : Word)
    (d1 : Word) (h_s : Only m s₀ s) : Only m s₀ (chipFatal s code d0 d1) := by
  unfold chipFatal
  try dsimp only
  with_reducible
    repeat'
      first
      | assumption | exact .inr (mask_bit hm (by decide)) | exact .inl rfl | exact mask_trans (by decide) hm
      | apply State.arrive_only | apply banksToSafe_only | apply unitsToSafe_only | apply faultRecord_only
      | apply State.setRf_only | apply reelReview_only | apply linkSafe_only
      | (apply Only.foldl; intro u a hu; try dsimp only) | apply Only.ite | split | intro _
      | refine Only.written rfl ?_ ?_ ?_ ?_ ?_ ?_ ?_ ?_ ?_ ?_ ?_ ?_ ?_ ?_ ?_ ?_ ?_ ?_ ?_ ?_ ?_ ?_ ?_ ?_ ?_ ?_ ?_ ?_ ?_ ?_ ?_ ?_ ?_ ?_ ?_ ?_ ?_ ?_

theorem fatalNow_only {m : Nat} {s₀ : State} (hm : 70130089982 ||| m = m) (s : State) (code : Nat)
    (h_s : Only m s₀ s) : Only m s₀ (fatalNow s code) := by
  unfold fatalNow
  try dsimp only
  with_reducible
    repeat'
      first
      | assumption | exact mask_trans (by decide) hm | apply reflNotice_only | apply chipFatal_only
      | (apply Only.foldl; intro u a hu; try dsimp only) | apply Only.ite | split | intro _

end Sys2Proof.Machine
end

