-- ==== Sys2Proof/Laws/Sched.lean ====
section
/-!
SUPPORT. Machine/Sched.lean: every operation of it keeps what `Keeps` says, and changes only the parts of its mask.
-/
set_option linter.unusedTactic false
set_option linter.unreachableTactic false
set_option linter.unusedVariables false

namespace Sys2Proof.Machine

theorem wdnNoteSync_keeps {s₀ : State} (s : State) (d : Nat) (old : SyncSt) (new : SyncSt) (h_s : Keeps s₀ s)
    : Keeps s₀ (wdnNoteSync s d old new) := by
  unfold wdnNoteSync
  try dsimp only
  with_reducible
    repeat'
      first
      | assumption | (apply Keeps.foldl; intro u a hu; try dsimp only) | apply Keeps.ite | split | intro _
      | refine Keeps.written rfl rfl rfl rfl rfl rfl rfl rfl ?_

theorem outcome_keeps {s₀ : State} (s : State) (u : Nat) (kind : Nat) (reason : Nat) (dom : Nat) (chan : Nat) (slot : Nat)
    (occ : Nat) (late : Nat) (h_s : Keeps s₀ s) : Keeps s₀ (outcome s u kind reason dom chan slot occ late) := by
  unfold outcome
  try dsimp only
  with_reducible
    repeat'
      first
      | assumption | apply State.setUnit_keeps | apply State.arrive_keeps | apply traceWrite_keeps | apply tlmRecord_keeps
      | (apply Keeps.foldl; intro u a hu; try dsimp only) | apply Keeps.ite | split | intro _
      | refine Keeps.written rfl rfl rfl rfl rfl rfl rfl rfl ?_

theorem cancelSlot_keeps {s₀ : State} (s : State) (u : Nat) (slot : Nat) (reason : Nat) (h_s : Keeps s₀ s)
    : Keeps s₀ (cancelSlot s u slot reason) := by
  unfold cancelSlot
  try dsimp only
  with_reducible
    repeat'
      first
      | assumption | apply State.setUnit_keeps | apply outcome_keeps | (apply Keeps.foldl; intro u a hu; try dsimp only)
      | apply Keeps.ite | split | intro _ | refine Keeps.written rfl rfl rfl rfl rfl rfl rfl rfl ?_

theorem endHeld_keeps {s₀ : State} (s : State) (u : Nat) (d : Nat) (slot : Nat) (h_s : Keeps s₀ s)
    : Keeps s₀ (endHeld s u d slot) := by
  unfold endHeld
  try dsimp only
  with_reducible
    repeat'
      first
      | assumption | apply State.setUnit_keeps | apply endCommand_keeps
      | (apply Keeps.foldl; intro u a hu; try dsimp only) | apply Keeps.ite | split | intro _
      | refine Keeps.written rfl rfl rfl rfl rfl rfl rfl rfl ?_

theorem closeSlotRun_keeps {s₀ : State} (s : State) (u : Nat) (slot : Nat) (h_s : Keeps s₀ s)
    : Keeps s₀ (closeSlotRun s u slot) := by
  unfold closeSlotRun
  try dsimp only
  with_reducible
    repeat'
      first
      | assumption | apply State.setUnit_keeps | (apply Keeps.foldl; intro u a hu; try dsimp only) | apply Keeps.ite
      | split | intro _ | refine Keeps.written rfl rfl rfl rfl rfl rfl rfl rfl ?_

theorem endAtOnce_keeps {s₀ : State} (s : State) (u : Nat) (slot : Nat) (reason : Nat) (h_s : Keeps s₀ s)
    : Keeps s₀ (endAtOnce s u slot reason) := by
  unfold endAtOnce
  try dsimp only
  with_reducible
    repeat'
      first
      | assumption | apply closeSlotRun_keeps | apply endCommand_keeps | apply outcome_keeps
      | (apply Keeps.foldl; intro u a hu; try dsimp only) | apply Keeps.ite | split | intro _
      | refine Keeps.written rfl rfl rfl rfl rfl rfl rfl rfl ?_

theorem slotLost_keeps {s₀ : State} (s : State) (u : Nat) (d : Nat) (slot : Nat) (h_s : Keeps s₀ s)
    : Keeps s₀ (slotLost s u d slot) := by
  unfold slotLost
  try dsimp only
  with_reducible
    repeat'
      first
      | assumption | apply State.setUnit_keeps | apply cancelSlot_keeps | apply endAtOnce_keeps | apply endHeld_keeps
      | (apply Keeps.foldl; intro u a hu; try dsimp only) | apply Keeps.ite | split | intro _
      | refine Keeps.written rfl rfl rfl rfl rfl rfl rfl rfl ?_

theorem slotSync_keeps {s₀ : State} (s : State) (u : Nat) (d : Nat) (old : SyncSt) (new : SyncSt) (slot : Nat) (h_s
    : Keeps s₀ s) : Keeps s₀ (slotSync s u d old new slot) := by
  unfold slotSync
  try dsimp only
  with_reducible
    repeat'
      first
      | assumption | apply State.setUnit_keeps | apply cancelSlot_keeps | apply slotLost_keeps
      | (apply Keeps.foldl; intro u a hu; try dsimp only) | apply Keeps.ite | split | intro _
      | refine Keeps.written rfl rfl rfl rfl rfl rfl rfl rfl ?_

theorem unitSync_keeps {s₀ : State} (s : State) (u : Nat) (d : Nat) (old : SyncSt) (new : SyncSt) (h_s : Keeps s₀ s)
    : Keeps s₀ (unitSync s u d old new) := by
  unfold unitSync
  try dsimp only
  with_reducible
    repeat'
      first
      | assumption | apply slotSync_keeps | (apply Keeps.foldl; intro u a hu; try dsimp only) | apply Keeps.ite | split
      | intro _ | refine Keeps.written rfl rfl rfl rfl rfl rfl rfl rfl ?_

theorem schedSync_keeps {s₀ : State} (s : State) (d : Nat) (old : SyncSt) (new : SyncSt) (h_s : Keeps s₀ s)
    : Keeps s₀ (schedSync s d old new) := by
  unfold schedSync
  try dsimp only
  with_reducible
    repeat'
      first
      | assumption | apply wdnNoteSync_keeps | apply unitSync_keeps | (apply Keeps.foldl; intro u a hu; try dsimp only)
      | apply Keeps.ite | split | intro _ | refine Keeps.written rfl rfl rfl rfl rfl rfl rfl rfl ?_

theorem endByAngle_keeps {s₀ : State} (s : State) (u : Nat) (slot : Nat) (v : Upd) (h_s : Keeps s₀ s)
    : Keeps s₀ (endByAngle s u slot v) := by
  unfold endByAngle
  try dsimp only
  with_reducible
    repeat'
      first
      | assumption | apply State.setUnit_keeps | apply endCommand_keeps
      | (apply Keeps.foldl; intro u a hu; try dsimp only) | apply Keeps.ite | split | intro _
      | refine Keeps.written rfl rfl rfl rfl rfl rfl rfl rfl ?_

theorem timeCapExpiry_keeps {s₀ : State} (s : State) (c : Nat) (h_s : Keeps s₀ s) : Keeps s₀ (timeCapExpiry s c) := by
  unfold timeCapExpiry
  try dsimp only
  with_reducible
    repeat'
      first
      | assumption | apply closeSlotRun_keeps | apply enterEnd_keeps | apply outcome_keeps
      | (apply Keeps.foldl; intro u a hu; try dsimp only) | apply Keeps.ite | split | intro _
      | refine Keeps.written rfl rfl rfl rfl rfl rfl rfl rfl ?_

theorem bankDue_keeps {s₀ : State} (s : State) (b : Nat) (h_s : Keeps s₀ s) : Keeps s₀ (bankDue s b) := by
  unfold bankDue
  try dsimp only
  with_reducible
    repeat'
      first
      | assumption | apply timeCapExpiry_keeps | apply boostCollapse_keeps | apply leakTimeout_keeps
      | apply phaseTimer_keeps | apply holdExpiry_keeps | apply hsShort_keeps
      | (apply Keeps.foldl; intro u a hu; try dsimp only) | apply Keeps.ite | split | intro _
      | refine Keeps.written rfl rfl rfl rfl rfl rfl rfl rfl ?_

theorem issueStart_keeps {s₀ : State} (s : State) (u : Nat) (slot : Nat) (w : List Word) (occ : Nat) (late : Nat) (h_s
    : Keeps s₀ s) : Keeps s₀ (issueStart s u slot w occ late) := by
  unfold issueStart
  try dsimp only
  with_reducible
    repeat'
      first
      | assumption | apply State.setUnit_keeps | apply startCommand_keeps | apply bankDue_keeps
      | (apply Keeps.foldl; intro u a hu; try dsimp only) | apply Keeps.ite | split | intro _
      | refine Keeps.written rfl rfl rfl rfl rfl rfl rfl rfl ?_

theorem issueQueued_keeps {s₀ : State} (s : State) (u : Nat) (q : Queued) (h_s : Keeps s₀ s)
    : Keeps s₀ (issueQueued s u q) := by
  unfold issueQueued
  try dsimp only
  with_reducible
    repeat'
      first
      | assumption | apply State.setUnit_keeps | apply issueStart_keeps | apply outcome_keeps
      | (apply Keeps.foldl; intro u a hu; try dsimp only) | apply Keeps.ite | split | intro _
      | refine Keeps.written rfl rfl rfl rfl rfl rfl rfl rfl ?_

theorem drainQueue_keeps {s₀ : State} (u n : Nat) (s : State) (h_s : Keeps s₀ s) : Keeps s₀ (drainQueue u n s) := by
  induction n generalizing s with
  | zero => exact h_s
  | succ n ih =>
    rw [drainQueue]
    split
    · exact h_s
    · split
      · exact ih _ (issueQueued_keeps _ _ _ h_s)
      · exact h_s

theorem drainWaiting_keeps {s₀ : State} (s : State) (u : Nat) (h_s : Keeps s₀ s) : Keeps s₀ (drainWaiting s u) := by
  unfold drainWaiting
  try dsimp only
  with_reducible
    repeat'
      first
      | assumption | apply drainQueue_keeps | (apply Keeps.foldl; intro u a hu; try dsimp only) | apply Keeps.ite | split
      | intro _ | refine Keeps.written rfl rfl rfl rfl rfl rfl rfl rfl ?_

theorem queueStart_keeps {s₀ : State} (s : State) (u : Nat) (slot : Nat) (reason : Nat) (w : List Word) (occ : Nat) (h_s
    : Keeps s₀ s) : Keeps s₀ (queueStart s u slot reason w occ) := by
  unfold queueStart
  try dsimp only
  with_reducible
    repeat'
      first
      | assumption | apply State.setUnit_keeps | (apply Keeps.foldl; intro u a hu; try dsimp only) | apply Keeps.ite
      | split | intro _ | refine Keeps.written rfl rfl rfl rfl rfl rfl rfl rfl ?_

theorem lateStart0_keeps {s₀ : State} (s : State) (u : Nat) (slot : Nat) (reason : Nat) (late : Nat) (w : List Word)
    (occ : Nat) (h_s : Keeps s₀ s) : Keeps s₀ (lateStart0 s u slot reason late w occ) := by
  unfold lateStart0
  try dsimp only
  with_reducible
    repeat'
      first
      | assumption | apply drainWaiting_keeps | apply queueStart_keeps | apply issueStart_keeps | apply outcome_keeps
      | (apply Keeps.foldl; intro u a hu; try dsimp only) | apply Keeps.ite | split | intro _
      | refine Keeps.written rfl rfl rfl rfl rfl rfl rfl rfl ?_

theorem lateStart_keeps {s₀ : State} (s : State) (u : Nat) (slot : Nat) (reason : Nat) (late : Nat) (w : List Word)
    (occ : Nat) (h_s : Keeps s₀ s) : Keeps s₀ (lateStart s u slot reason late w occ) := by
  unfold lateStart
  try dsimp only
  with_reducible
    repeat'
      first
      | assumption | apply State.setUnit_keeps | apply lateStart0_keeps
      | (apply Keeps.foldl; intro u a hu; try dsimp only) | apply Keeps.ite | split | intro _
      | refine Keeps.written rfl rfl rfl rfl rfl rfl rfl rfl ?_

theorem placeSlot_keeps {s₀ : State} (s : State) (u : Nat) (slot : Nat) (x4 : Nat) (b : Nat) (cyc : Nat) (h_s
    : Keeps s₀ s) : Keeps s₀ (placeSlot s u slot x4 b cyc) := by
  unfold placeSlot
  try dsimp only
  with_reducible
    repeat'
      first
      | assumption | apply State.setUnit_keeps | apply lateStart_keeps | (apply Keeps.foldl; intro u a hu; try dsimp only)
      | apply Keeps.ite | split | intro _ | refine Keeps.written rfl rfl rfl rfl rfl rfl rfl rfl ?_

theorem handOver_keeps {s₀ : State} (s : State) (u : Nat) (slot : Nat) (v : Upd) (x5 : Nat) (cyc : Nat) (h_s : Keeps s₀ s)
    : Keeps s₀ (handOver s u slot v x5 cyc) := by
  unfold handOver
  try dsimp only
  with_reducible
    repeat'
      first
      | assumption | apply State.setUnit_keeps | apply placeSlot_keeps | (apply Keeps.foldl; intro u a hu; try dsimp only)
      | apply Keeps.ite | split | intro _ | refine Keeps.written rfl rfl rfl rfl rfl rfl rfl rfl ?_

theorem passArm_keeps {s₀ : State} (s : State) (u : Nat) (slot : Nat) (v : Upd) (x5 : Nat) (cyc : Nat) (h_s : Keeps s₀ s)
    : Keeps s₀ (passArm s u slot v x5 cyc) := by
  unfold passArm
  try dsimp only
  with_reducible
    repeat'
      first
      | assumption | apply State.setUnit_keeps | apply handOver_keeps | (apply Keeps.foldl; intro u a hu; try dsimp only)
      | apply Keeps.ite | split | intro _ | refine Keeps.written rfl rfl rfl rfl rfl rfl rfl rfl ?_

theorem onTimeStart_keeps {s₀ : State} (s : State) (u : Nat) (slot : Nat) (late : Nat) (w : List Word) (occ : Nat) (h_s
    : Keeps s₀ s) : Keeps s₀ (onTimeStart s u slot late w occ) := by
  unfold onTimeStart
  try dsimp only
  with_reducible
    repeat'
      first
      | assumption | apply State.setUnit_keeps | apply drainWaiting_keeps | apply issueStart_keeps
      | apply queueStart_keeps | apply outcome_keeps | (apply Keeps.foldl; intro u a hu; try dsimp only) | apply Keeps.ite
      | split | intro _ | refine Keeps.written rfl rfl rfl rfl rfl rfl rfl rfl ?_

theorem passStart_keeps {s₀ : State} (s : State) (u : Nat) (slot : Nat) (v : Upd) (h_s : Keeps s₀ s)
    : Keeps s₀ (passStart s u slot v) := by
  unfold passStart
  try dsimp only
  with_reducible
    repeat'
      first
      | assumption | apply State.setUnit_keeps | apply onTimeStart_keeps | apply lateStart_keeps
      | (apply Keeps.foldl; intro u a hu; try dsimp only) | apply Keeps.ite | split | intro _
      | refine Keeps.written rfl rfl rfl rfl rfl rfl rfl rfl ?_

theorem doAct_keeps {s₀ : State} (s : State) (u : Nat) (v : Upd) (x4 : Act) (h_s : Keeps s₀ s)
    : Keeps s₀ (doAct s u v x4) := by
  unfold doAct
  try dsimp only
  with_reducible
    repeat'
      first
      | assumption | apply endByAngle_keeps | apply passStart_keeps | apply passArm_keeps
      | (apply Keeps.foldl; intro u a hu; try dsimp only) | apply Keeps.ite | split | intro _
      | refine Keeps.written rfl rfl rfl rfl rfl rfl rfl rfl ?_

theorem unitUpdate_keeps {s₀ : State} (u : Nat) (v : Upd) (n : Nat) (last : Option Act) (s : State) (h_s : Keeps s₀ s) :
    Keeps s₀ (unitUpdate u v n last s) := by
  induction n generalizing s last with
  | zero => exact h_s
  | succ n ih =>
    rw [unitUpdate]
    split
    · exact ih _ _ (doAct_keeps _ _ _ _ h_s)
    · exact h_s

theorem schedUpdate_keeps {s₀ : State} (s : State) (v : Upd) (h_s : Keeps s₀ s) : Keeps s₀ (schedUpdate s v) := by
  unfold schedUpdate
  try dsimp only
  with_reducible
    repeat'
      first
      | assumption | apply unitUpdate_keeps | (apply Keeps.foldl; intro u a hu; try dsimp only) | apply Keeps.ite | split
      | intro _ | refine Keeps.written rfl rfl rfl rfl rfl rfl rfl rfl ?_

theorem slotCancel_keeps {s₀ : State} (s : State) (u : Nat) (slot : Nat) (endNow : Bool) (h_s : Keeps s₀ s)
    : Keeps s₀ (slotCancel s u slot endNow).2 := by
  unfold slotCancel
  try dsimp only
  with_reducible
    repeat'
      first
      | assumption | apply cancelSlot_keeps | apply endAtOnce_keeps | (apply Keeps.foldl; intro u a hu; try dsimp only)
      | apply Keeps.ite | split | intro _ | refine Keeps.written rfl rfl rfl rfl rfl rfl rfl rfl ?_

theorem domainCancel_keeps {s₀ : State} (s : State) (u d : Nat) (endNow : Bool) (h_s : Keeps s₀ s)
    : Keeps s₀ (domainCancel s u d endNow).2 := by
  unfold domainCancel
  refine Keeps.foldlSnd (fun p a h => ?_) h_s
  exact slotCancel_keeps _ _ _ _ h

theorem shadowDrop_keeps {s₀ : State} (s : State) (u : Nat) (slot : Nat) (h_s : Keeps s₀ s)
    : Keeps s₀ (shadowDrop s u slot).2 := by
  unfold shadowDrop
  try dsimp only
  with_reducible
    repeat'
      first
      | assumption | apply State.setUnit_keeps | (apply Keeps.foldl; intro u a hu; try dsimp only) | apply Keeps.ite
      | split | intro _ | refine Keeps.written rfl rfl rfl rfl rfl rfl rfl rfl ?_

theorem slotWrite_keeps {s₀ : State} (s : State) (u : Nat) (n : Nat) (slot : Nat) (w : List Word) (imm : Bool) (h_s
    : Keeps s₀ s) : Keeps s₀ (slotWrite s u n slot w imm).2 := by
  unfold slotWrite
  try dsimp only
  with_reducible
    repeat'
      first
      | assumption | apply State.setUnit_keeps | (apply Keeps.foldl; intro u a hu; try dsimp only) | apply Keeps.ite
      | split | intro _ | refine Keeps.written rfl rfl rfl rfl rfl rfl rfl rfl ?_

theorem startUnitFree_keeps {s₀ : State} (s : State) (u : Nat) (h_s : Keeps s₀ s) : Keeps s₀ (startUnitFree s u) := by
  unfold startUnitFree
  try dsimp only
  with_reducible
    repeat'
      first
      | assumption | apply drainWaiting_keeps | (apply Keeps.foldl; intro u a hu; try dsimp only) | apply Keeps.ite
      | split | intro _ | refine Keeps.written rfl rfl rfl rfl rfl rfl rfl rfl ?_

theorem wdnNoteSync_only {m : Nat} {s₀ : State} (hm : 33554432 ||| m = m) (s : State) (d : Nat) (old : SyncSt)
    (new : SyncSt) (h_s : Only m s₀ s) : Only m s₀ (wdnNoteSync s d old new) := by
  unfold wdnNoteSync
  try dsimp only
  with_reducible
    repeat'
      first
      | assumption | exact .inr (mask_bit hm (by decide)) | exact .inl rfl | exact mask_trans (by decide) hm
      | (apply Only.foldl; intro u a hu; try dsimp only) | apply Only.ite | split | intro _
      | refine Only.written rfl ?_ ?_ ?_ ?_ ?_ ?_ ?_ ?_ ?_ ?_ ?_ ?_ ?_ ?_ ?_ ?_ ?_ ?_ ?_ ?_ ?_ ?_ ?_ ?_ ?_ ?_ ?_ ?_ ?_ ?_ ?_ ?_ ?_ ?_ ?_ ?_ ?_ ?_

theorem outcome_only {m : Nat} {s₀ : State} (hm : 9012 ||| m = m) (s : State) (u : Nat) (kind : Nat) (reason : Nat)
    (dom : Nat) (chan : Nat) (slot : Nat) (occ : Nat) (late : Nat)
    (h_s : Only m s₀ s) : Only m s₀ (outcome s u kind reason dom chan slot occ late) := by
  unfold outcome
  try dsimp only
  with_reducible
    repeat'
      first
      | assumption | exact mask_trans (by decide) hm | apply State.setUnit_only | apply State.arrive_only
      | apply traceWrite_only | apply tlmRecord_only | (apply Only.foldl; intro u a hu; try dsimp only) | apply Only.ite
      | split | intro _

theorem cancelSlot_only {m : Nat} {s₀ : State} (hm : 9012 ||| m = m) (s : State) (u : Nat) (slot : Nat) (reason : Nat)
    (h_s : Only m s₀ s) : Only m s₀ (cancelSlot s u slot reason) := by
  unfold cancelSlot
  try dsimp only
  with_reducible
    repeat'
      first
      | assumption | exact mask_trans (by decide) hm | apply State.setUnit_only | apply outcome_only
      | (apply Only.foldl; intro u a hu; try dsimp only) | apply Only.ite | split | intro _

theorem endHeld_only {m : Nat} {s₀ : State} (hm : 68720802804 ||| m = m) (s : State) (u : Nat) (d : Nat) (slot : Nat)
    (h_s : Only m s₀ s) : Only m s₀ (endHeld s u d slot) := by
  unfold endHeld
  try dsimp only
  with_reducible
    repeat'
      first
      | assumption | exact mask_trans (by decide) hm | apply State.setUnit_only | apply endCommand_only
      | (apply Only.foldl; intro u a hu; try dsimp only) | apply Only.ite | split | intro _

theorem closeSlotRun_only {m : Nat} {s₀ : State} (hm : 8192 ||| m = m) (s : State) (u : Nat) (slot : Nat)
    (h_s : Only m s₀ s) : Only m s₀ (closeSlotRun s u slot) := by
  unfold closeSlotRun
  try dsimp only
  with_reducible
    repeat'
      first
      | assumption | exact mask_trans (by decide) hm | apply State.setUnit_only
      | (apply Only.foldl; intro u a hu; try dsimp only) | apply Only.ite | split | intro _

theorem endAtOnce_only {m : Nat} {s₀ : State} (hm : 68720802804 ||| m = m) (s : State) (u : Nat) (slot : Nat)
    (reason : Nat) (h_s : Only m s₀ s) : Only m s₀ (endAtOnce s u slot reason) := by
  unfold endAtOnce
  try dsimp only
  with_reducible
    repeat'
      first
      | assumption | exact mask_trans (by decide) hm | apply closeSlotRun_only | apply endCommand_only
      | apply outcome_only | (apply Only.foldl; intro u a hu; try dsimp only) | apply Only.ite | split | intro _

theorem slotLost_only {m : Nat} {s₀ : State} (hm : 68720802804 ||| m = m) (s : State) (u : Nat) (d : Nat) (slot : Nat)
    (h_s : Only m s₀ s) : Only m s₀ (slotLost s u d slot) := by
  unfold slotLost
  try dsimp only
  with_reducible
    repeat'
      first
      | assumption | exact mask_trans (by decide) hm | apply State.setUnit_only | apply cancelSlot_only
      | apply endAtOnce_only | apply endHeld_only | (apply Only.foldl; intro u a hu; try dsimp only) | apply Only.ite
      | split | intro _

theorem slotSync_only {m : Nat} {s₀ : State} (hm : 68720802804 ||| m = m) (s : State) (u : Nat) (d : Nat) (old : SyncSt)
    (new : SyncSt) (slot : Nat) (h_s : Only m s₀ s) : Only m s₀ (slotSync s u d old new slot) := by
  unfold slotSync
  try dsimp only
  with_reducible
    repeat'
      first
      | assumption | exact mask_trans (by decide) hm | apply State.setUnit_only | apply cancelSlot_only
      | apply slotLost_only | (apply Only.foldl; intro u a hu; try dsimp only) | apply Only.ite | split | intro _

theorem unitSync_only {m : Nat} {s₀ : State} (hm : 68720802804 ||| m = m) (s : State) (u : Nat) (d : Nat) (old : SyncSt)
    (new : SyncSt) (h_s : Only m s₀ s) : Only m s₀ (unitSync s u d old new) := by
  unfold unitSync
  try dsimp only
  with_reducible
    repeat'
      first
      | assumption | exact mask_trans (by decide) hm | apply slotSync_only
      | (apply Only.foldl; intro u a hu; try dsimp only) | apply Only.ite | split | intro _

theorem schedSync_only {m : Nat} {s₀ : State} (hm : 68754373620 ||| m = m) (s : State) (d : Nat) (old : SyncSt)
    (new : SyncSt) (h_s : Only m s₀ s) : Only m s₀ (schedSync s d old new) := by
  unfold schedSync
  try dsimp only
  with_reducible
    repeat'
      first
      | assumption | exact .inr (mask_bit hm (by decide)) | exact .inl rfl | exact mask_trans (by decide) hm
      | apply wdnNoteSync_only | apply unitSync_only | (apply Only.foldl; intro u a hu; try dsimp only) | apply Only.ite
      | split | intro _
      | refine Only.written rfl ?_ ?_ ?_ ?_ ?_ ?_ ?_ ?_ ?_ ?_ ?_ ?_ ?_ ?_ ?_ ?_ ?_ ?_ ?_ ?_ ?_ ?_ ?_ ?_ ?_ ?_ ?_ ?_ ?_ ?_ ?_ ?_ ?_ ?_ ?_ ?_ ?_ ?_

theorem endByAngle_only {m : Nat} {s₀ : State} (hm : 68720802804 ||| m = m) (s : State) (u : Nat) (slot : Nat) (v : Upd)
    (h_s : Only m s₀ s) : Only m s₀ (endByAngle s u slot v) := by
  unfold endByAngle
  try dsimp only
  with_reducible
    repeat'
      first
      | assumption | exact mask_trans (by decide) hm | apply State.setUnit_only | apply endCommand_only
      | (apply Only.foldl; intro u a hu; try dsimp only) | apply Only.ite | split | intro _

theorem timeCapExpiry_only {m : Nat} {s₀ : State} (hm : 68720802804 ||| m = m) (s : State) (c : Nat)
    (h_s : Only m s₀ s) : Only m s₀ (timeCapExpiry s c) := by
  unfold timeCapExpiry
  try dsimp only
  with_reducible
    repeat'
      first
      | assumption | exact mask_trans (by decide) hm | apply closeSlotRun_only | apply enterEnd_only | apply outcome_only
      | (apply Only.foldl; intro u a hu; try dsimp only) | apply Only.ite | split | intro _

theorem bankDue_only {m : Nat} {s₀ : State} (hm : 104221391868 ||| m = m) (s : State) (b : Nat)
    (h_s : Only m s₀ s) : Only m s₀ (bankDue s b) := by
  unfold bankDue
  try dsimp only
  with_reducible
    repeat'
      first
      | assumption | exact mask_trans (by decide) hm | apply timeCapExpiry_only | apply boostCollapse_only
      | apply leakTimeout_only | apply phaseTimer_only | apply holdExpiry_only | apply hsShort_only
      | (apply Only.foldl; intro u a hu; try dsimp only) | apply Only.ite | split | intro _

theorem issueStart_only {m : Nat} {s₀ : State} (hm : 104221391868 ||| m = m) (s : State) (u : Nat) (slot : Nat)
    (w : List Word) (occ : Nat) (late : Nat) (h_s : Only m s₀ s) : Only m s₀ (issueStart s u slot w occ late) := by
  unfold issueStart
  try dsimp only
  with_reducible
    repeat'
      first
      | assumption | exact mask_trans (by decide) hm | apply State.setUnit_only | apply startCommand_only
      | apply bankDue_only | (apply Only.foldl; intro u a hu; try dsimp only) | apply Only.ite | split | intro _

theorem issueQueued_only {m : Nat} {s₀ : State} (hm : 104221391868 ||| m = m) (s : State) (u : Nat) (q : Queued)
    (h_s : Only m s₀ s) : Only m s₀ (issueQueued s u q) := by
  unfold issueQueued
  try dsimp only
  with_reducible
    repeat'
      first
      | assumption | exact mask_trans (by decide) hm | apply State.setUnit_only | apply issueStart_only
      | apply outcome_only | (apply Only.foldl; intro u a hu; try dsimp only) | apply Only.ite | split | intro _

theorem drainQueue_only {m : Nat} {s₀ : State} (hm : 104221391868 ||| m = m) (u n : Nat) (s : State)
    (h_s : Only m s₀ s) : Only m s₀ (drainQueue u n s) := by
  induction n generalizing s with
  | zero => exact h_s
  | succ n ih =>
    rw [drainQueue]
    split
    · exact h_s
    · split
      · exact ih _ (issueQueued_only (mask_trans (by decide) hm) _ _ _ h_s)
      · exact h_s

theorem drainWaiting_only {m : Nat} {s₀ : State} (hm : 104221391868 ||| m = m) (s : State) (u : Nat)
    (h_s : Only m s₀ s) : Only m s₀ (drainWaiting s u) := by
  unfold drainWaiting
  try dsimp only
  with_reducible
    repeat'
      first
      | assumption | exact mask_trans (by decide) hm | apply drainQueue_only
      | (apply Only.foldl; intro u a hu; try dsimp only) | apply Only.ite | split | intro _

theorem queueStart_only {m : Nat} {s₀ : State} (hm : 8192 ||| m = m) (s : State) (u : Nat) (slot : Nat) (reason : Nat)
    (w : List Word) (occ : Nat) (h_s : Only m s₀ s) : Only m s₀ (queueStart s u slot reason w occ) := by
  unfold queueStart
  try dsimp only
  with_reducible
    repeat'
      first
      | assumption | exact mask_trans (by decide) hm | apply State.setUnit_only
      | (apply Only.foldl; intro u a hu; try dsimp only) | apply Only.ite | split | intro _

theorem lateStart0_only {m : Nat} {s₀ : State} (hm : 104221391868 ||| m = m) (s : State) (u : Nat) (slot : Nat)
    (reason : Nat) (late : Nat) (w : List Word) (occ : Nat)
    (h_s : Only m s₀ s) : Only m s₀ (lateStart0 s u slot reason late w occ) := by
  unfold lateStart0
  try dsimp only
  with_reducible
    repeat'
      first
      | assumption | exact mask_trans (by decide) hm | apply drainWaiting_only | apply queueStart_only
      | apply issueStart_only | apply outcome_only | (apply Only.foldl; intro u a hu; try dsimp only) | apply Only.ite
      | split | intro _

theorem lateStart_only {m : Nat} {s₀ : State} (hm : 104221391868 ||| m = m) (s : State) (u : Nat) (slot : Nat)
    (reason : Nat) (late : Nat) (w : List Word) (occ : Nat)
    (h_s : Only m s₀ s) : Only m s₀ (lateStart s u slot reason late w occ) := by
  unfold lateStart
  try dsimp only
  with_reducible
    repeat'
      first
      | assumption | exact mask_trans (by decide) hm | apply State.setUnit_only | apply lateStart0_only
      | (apply Only.foldl; intro u a hu; try dsimp only) | apply Only.ite | split | intro _

theorem placeSlot_only {m : Nat} {s₀ : State} (hm : 104221391868 ||| m = m) (s : State) (u : Nat) (slot : Nat) (x4 : Nat)
    (b : Nat) (cyc : Nat) (h_s : Only m s₀ s) : Only m s₀ (placeSlot s u slot x4 b cyc) := by
  unfold placeSlot
  try dsimp only
  with_reducible
    repeat'
      first
      | assumption | exact mask_trans (by decide) hm | apply State.setUnit_only | apply lateStart_only
      | (apply Only.foldl; intro u a hu; try dsimp only) | apply Only.ite | split | intro _

theorem handOver_only {m : Nat} {s₀ : State} (hm : 104221391868 ||| m = m) (s : State) (u : Nat) (slot : Nat) (v : Upd)
    (x5 : Nat) (cyc : Nat) (h_s : Only m s₀ s) : Only m s₀ (handOver s u slot v x5 cyc) := by
  unfold handOver
  try dsimp only
  with_reducible
    repeat'
      first
      | assumption | exact mask_trans (by decide) hm | apply State.setUnit_only | apply placeSlot_only
      | (apply Only.foldl; intro u a hu; try dsimp only) | apply Only.ite | split | intro _

theorem passArm_only {m : Nat} {s₀ : State} (hm : 104221391868 ||| m = m) (s : State) (u : Nat) (slot : Nat) (v : Upd)
    (x5 : Nat) (cyc : Nat) (h_s : Only m s₀ s) : Only m s₀ (passArm s u slot v x5 cyc) := by
  unfold passArm
  try dsimp only
  with_reducible
    repeat'
      first
      | assumption | exact mask_trans (by decide) hm | apply State.setUnit_only | apply handOver_only
      | (apply Only.foldl; intro u a hu; try dsimp only) | apply Only.ite | split | intro _

theorem onTimeStart_only {m : Nat} {s₀ : State} (hm : 104221391868 ||| m = m) (s : State) (u : Nat) (slot : Nat)
    (late : Nat) (w : List Word) (occ : Nat) (h_s : Only m s₀ s) : Only m s₀ (onTimeStart s u slot late w occ) := by
  unfold onTimeStart
  try dsimp only
  with_reducible
    repeat'
      first
      | assumption | exact mask_trans (by decide) hm | apply State.setUnit_only | apply drainWaiting_only
      | apply issueStart_only | apply queueStart_only | apply outcome_only
      | (apply Only.foldl; intro u a hu; try dsimp only) | apply Only.ite | split | intro _

theorem passStart_only {m : Nat} {s₀ : State} (hm : 104221391868 ||| m = m) (s : State) (u : Nat) (slot : Nat) (v : Upd)
    (h_s : Only m s₀ s) : Only m s₀ (passStart s u slot v) := by
  unfold passStart
  try dsimp only
  with_reducible
    repeat'
      first
      | assumption | exact mask_trans (by decide) hm | apply State.setUnit_only | apply onTimeStart_only
      | apply lateStart_only | (apply Only.foldl; intro u a hu; try dsimp only) | apply Only.ite | split | intro _

theorem doAct_only {m : Nat} {s₀ : State} (hm : 104221391868 ||| m = m) (s : State) (u : Nat) (v : Upd) (x4 : Act)
    (h_s : Only m s₀ s) : Only m s₀ (doAct s u v x4) := by
  unfold doAct
  try dsimp only
  with_reducible
    repeat'
      first
      | assumption | exact mask_trans (by decide) hm | apply endByAngle_only | apply passStart_only | apply passArm_only
      | (apply Only.foldl; intro u a hu; try dsimp only) | apply Only.ite | split | intro _

theorem unitUpdate_only {m : Nat} {s₀ : State} (hm : 104221391868 ||| m = m) (u : Nat) (v : Upd) (n : Nat)
    (last : Option Act) (s : State) (h_s : Only m s₀ s) :
    Only m s₀ (unitUpdate u v n last s) := by
  induction n generalizing s last with
  | zero => exact h_s
  | succ n ih =>
    rw [unitUpdate]
    split
    · exact ih _ _ (doAct_only (mask_trans (by decide) hm) _ _ _ _ h_s)
    · exact h_s

theorem schedUpdate_only {m : Nat} {s₀ : State} (hm : 104221408252 ||| m = m) (s : State) (v : Upd)
    (h_s : Only m s₀ s) : Only m s₀ (schedUpdate s v) := by
  unfold schedUpdate
  try dsimp only
  with_reducible
    repeat'
      first
      | assumption | exact .inr (mask_bit hm (by decide)) | exact .inl rfl | exact mask_trans (by decide) hm
      | apply unitUpdate_only | (apply Only.foldl; intro u a hu; try dsimp only) | apply Only.ite | split | intro _
      | refine Only.written rfl ?_ ?_ ?_ ?_ ?_ ?_ ?_ ?_ ?_ ?_ ?_ ?_ ?_ ?_ ?_ ?_ ?_ ?_ ?_ ?_ ?_ ?_ ?_ ?_ ?_ ?_ ?_ ?_ ?_ ?_ ?_ ?_ ?_ ?_ ?_ ?_ ?_ ?_

theorem slotCancel_only {m : Nat} {s₀ : State} (hm : 68720802804 ||| m = m) (s : State) (u : Nat) (slot : Nat)
    (endNow : Bool) (h_s : Only m s₀ s) : Only m s₀ (slotCancel s u slot endNow).2 := by
  unfold slotCancel
  try dsimp only
  with_reducible
    repeat'
      first
      | assumption | exact mask_trans (by decide) hm | apply cancelSlot_only | apply endAtOnce_only
      | (apply Only.foldl; intro u a hu; try dsimp only) | apply Only.ite | split | intro _

theorem domainCancel_only {m : Nat} {s₀ : State} (hm : 68720802804 ||| m = m) (s : State) (u d : Nat) (endNow : Bool)
    (h_s : Only m s₀ s) :
    Only m s₀ (domainCancel s u d endNow).2 := by
  unfold domainCancel
  refine Only.foldlSnd (fun p a h => ?_) h_s
  exact slotCancel_only (mask_trans (by decide) hm) _ _ _ _ h

theorem shadowDrop_only {m : Nat} {s₀ : State} (hm : 8192 ||| m = m) (s : State) (u : Nat) (slot : Nat)
    (h_s : Only m s₀ s) : Only m s₀ (shadowDrop s u slot).2 := by
  unfold shadowDrop
  try dsimp only
  with_reducible
    repeat'
      first
      | assumption | exact mask_trans (by decide) hm | apply State.setUnit_only
      | (apply Only.foldl; intro u a hu; try dsimp only) | apply Only.ite | split | intro _

theorem slotWrite_only {m : Nat} {s₀ : State} (hm : 8192 ||| m = m) (s : State) (u : Nat) (n : Nat) (slot : Nat)
    (w : List Word) (imm : Bool) (h_s : Only m s₀ s) : Only m s₀ (slotWrite s u n slot w imm).2 := by
  unfold slotWrite
  try dsimp only
  with_reducible
    repeat'
      first
      | assumption | exact mask_trans (by decide) hm | apply State.setUnit_only
      | (apply Only.foldl; intro u a hu; try dsimp only) | apply Only.ite | split | intro _

theorem startUnitFree_only {m : Nat} {s₀ : State} (hm : 104221391868 ||| m = m) (s : State) (u : Nat)
    (h_s : Only m s₀ s) : Only m s₀ (startUnitFree s u) := by
  unfold startUnitFree
  try dsimp only
  with_reducible
    repeat'
      first
      | assumption | exact mask_trans (by decide) hm | apply drainWaiting_only
      | (apply Only.foldl; intro u a hu; try dsimp only) | apply Only.ite | split | intro _

end Sys2Proof.Machine
end

