-- ==== Sys2Proof/Laws/Atu.lean ====
section
/-!
SUPPORT. Machine/Atu.lean: every operation of it keeps what `Keeps` says, and changes only the parts of its mask.
-/
set_option linter.unusedTactic false
set_option linter.unreachableTactic false
set_option linter.unusedVariables false

namespace Sys2Proof.Machine

theorem gapReject_keeps {s₀ : State} (s : State) (d : Nat) (rej : Bool) (h_s : Keeps s₀ s)
    : Keeps s₀ (gapReject s d rej) := by
  unfold gapReject
  try dsimp only
  with_reducible
    repeat'
      first
      | assumption | apply State.cntSat_keeps | (apply Keeps.foldl; intro u a hu; try dsimp only) | apply Keeps.ite
      | split | intro _ | refine Keeps.written rfl rfl rfl rfl rfl rfl rfl rfl ?_

theorem noiseCount_keeps {s₀ : State} (s : State) (d : Nat) (h_s : Keeps s₀ s) : Keeps s₀ (noiseCount s d) := by
  unfold noiseCount
  try dsimp only
  with_reducible
    repeat'
      first
      | assumption | apply State.cntSat_keeps | (apply Keeps.foldl; intro u a hu; try dsimp only) | apply Keeps.ite
      | split | intro _ | refine Keeps.written rfl rfl rfl rfl rfl rfl rfl rfl ?_

theorem learnAbort_keeps {s₀ : State} (s : State) (d : Nat) (h_s : Keeps s₀ s) : Keeps s₀ (learnAbort s d) := by
  unfold learnAbort
  try dsimp only
  with_reducible
    repeat'
      first
      | assumption | apply State.arrive_keeps | apply State.setDom_keeps
      | (apply Keeps.foldl; intro u a hu; try dsimp only) | apply Keeps.ite | split | intro _
      | refine Keeps.written rfl rfl rfl rfl rfl rfl rfl rfl ?_

theorem countEntry_keeps {s₀ : State} (s : State) (d : Nat) (x3 : SyncSt) (h_s : Keeps s₀ s)
    : Keeps s₀ (countEntry s d x3) := by
  unfold countEntry
  try dsimp only
  with_reducible
    repeat'
      first
      | assumption | apply State.cntSat_keeps | (apply Keeps.foldl; intro u a hu; try dsimp only) | apply Keeps.ite
      | split | intro _ | refine Keeps.written rfl rfl rfl rfl rfl rfl rfl rfl ?_

theorem setAngle_keeps {s₀ : State} (s : State) (d : Nat) (a : Option Nat) (h_s : Keeps s₀ s)
    : Keeps s₀ (setAngle s d a) := by
  unfold setAngle
  try dsimp only
  with_reducible
    repeat'
      first
      | assumption | (apply Keeps.foldl; intro u a hu; try dsimp only) | apply Keeps.ite | split | intro _
      | refine Keeps.written rfl rfl rfl rfl rfl rfl rfl rfl ?_

theorem setSync_keeps {s₀ : State} (s : State) (d : Nat) (new : SyncSt) (h_s : Keeps s₀ s) : Keeps s₀ (setSync s d new) := by
  unfold setSync
  try dsimp only
  with_reducible
    repeat'
      first
      | assumption | apply State.setDom_keeps | apply State.arrive_keeps | apply noiseCount_keeps | apply learnAbort_keeps
      | apply countEntry_keeps | apply schedSync_keeps | apply setAngle_keeps
      | (apply Keeps.foldl; intro u a hu; try dsimp only) | apply Keeps.ite | split | intro _
      | refine Keeps.written rfl rfl rfl rfl rfl rfl rfl rfl ?_

theorem learnPut_keeps {s₀ : State} (s : State) (d : Nat) (trev : Nat) (k : CTooth) (h_s : Keeps s₀ s)
    : Keeps s₀ (learnPut s d trev k) := by
  unfold learnPut
  try dsimp only
  with_reducible
    repeat'
      first
      | assumption | apply State.putBytes_keeps | (apply Keeps.foldl; intro u a hu; try dsimp only) | apply Keeps.ite
      | split | intro _ | refine Keeps.written rfl rfl rfl rfl rfl rfl rfl rfl ?_

theorem learnJudge_keeps {s₀ : State} (s : State) (d : Nat) (h_s : Keeps s₀ s) : Keeps s₀ (learnJudge s d) := by
  unfold learnJudge
  try dsimp only
  with_reducible
    repeat'
      first
      | assumption | apply State.setDom_keeps | apply State.arrive_keeps | apply learnPut_keeps
      | (apply Keeps.foldl; intro u a hu; try dsimp only) | apply Keeps.ite | split | intro _
      | refine Keeps.written rfl rfl rfl rfl rfl rfl rfl rfl ?_

theorem revStart_keeps {s₀ : State} (s : State) (d : Nat) (h_s : Keeps s₀ s) : Keeps s₀ (revStart s d) := by
  unfold revStart
  try dsimp only
  with_reducible
    repeat'
      first
      | assumption | apply State.setDom_keeps | apply learnJudge_keeps | (apply Keeps.foldl; intro u a hu; try dsimp only)
      | apply Keeps.ite | split | intro _ | refine Keeps.written rfl rfl rfl rfl rfl rfl rfl rfl ?_

theorem cycleStart_keeps {s₀ : State} (s : State) (d : Nat) (h_s : Keeps s₀ s) : Keeps s₀ (cycleStart s d) := by
  unfold cycleStart
  try dsimp only
  with_reducible
    repeat'
      first
      | assumption | apply State.setReg_keeps | apply State.setDom_keeps
      | (apply Keeps.foldl; intro u a hu; try dsimp only) | apply Keeps.ite | split | intro _
      | refine Keeps.written rfl rfl rfl rfl rfl rfl rfl rfl ?_

theorem reseedCount_keeps {s₀ : State} (s : State) (d : Nat) (re : Bool) (h_s : Keeps s₀ s)
    : Keeps s₀ (reseedCount s d re) := by
  unfold reseedCount
  try dsimp only
  with_reducible
    repeat'
      first
      | assumption | apply State.cntSat_keeps | (apply Keeps.foldl; intro u a hu; try dsimp only) | apply Keeps.ite
      | split | intro _ | refine Keeps.written rfl rfl rfl rfl rfl rfl rfl rfl ?_

theorem toothRecord_keeps {s₀ : State} (s : State) (d : Nat) (x3 : Accept) (re : Bool) (pred : Nat) (h_s : Keeps s₀ s)
    : Keeps s₀ (toothRecord s d x3 re pred) := by
  unfold toothRecord
  try dsimp only
  with_reducible
    repeat'
      first
      | assumption | apply traceWrite_keeps | (apply Keeps.foldl; intro u a hu; try dsimp only) | apply Keeps.ite | split
      | intro _ | refine Keeps.written rfl rfl rfl rfl rfl rfl rfl rfl ?_

theorem camPass_keeps {s₀ : State} (s : State) (d : Nat) (a : Nat) (b : Nat) (h_s : Keeps s₀ s)
    : Keeps s₀ (camPass s d a b) := by
  unfold camPass
  try dsimp only
  with_reducible
    repeat'
      first
      | assumption | apply State.setDom_keeps | (apply Keeps.foldl; intro u a hu; try dsimp only) | apply Keeps.ite
      | split | intro _ | refine Keeps.written rfl rfl rfl rfl rfl rfl rfl rfl ?_

theorem autoMark_keeps {s₀ : State} (s : State) (d : Nat) (h_s : Keeps s₀ s) : Keeps s₀ (autoMark s d) := by
  unfold autoMark
  try dsimp only
  with_reducible
    repeat'
      first
      | assumption | apply traceMark_keeps | (apply Keeps.foldl; intro u a hu; try dsimp only) | apply Keeps.ite | split
      | intro _ | refine Keeps.written rfl rfl rfl rfl rfl rfl rfl rfl ?_

theorem fireMark_keeps {s₀ : State} (s : State) (m : Nat) (h_s : Keeps s₀ s) : Keeps s₀ (fireMark s m) := by
  unfold fireMark
  try dsimp only
  with_reducible
    repeat'
      first
      | assumption | apply State.arrive_keeps | apply markTrigger_keeps | apply xfrTrigger_keeps | apply reelEvent_keeps
      | (apply Keeps.foldl; intro u a hu; try dsimp only) | apply Keeps.ite | split | intro _
      | refine Keeps.written rfl rfl rfl rfl rfl rfl rfl rfl ?_

theorem marksPassed_keeps {s₀ : State} (s : State) (d : Nat) (a : Nat) (b : Nat) (h_s : Keeps s₀ s)
    : Keeps s₀ (marksPassed s d a b) := by
  unfold marksPassed
  try dsimp only
  with_reducible
    repeat'
      first
      | assumption | apply fireMark_keeps | (apply Keeps.foldl; intro u a hu; try dsimp only) | apply Keeps.ite | split
      | intro _ | refine Keeps.written rfl rfl rfl rfl rfl rfl rfl rfl ?_

theorem moveAngle_keeps {s₀ : State} (s : State) (d : Nat) (b : Nat) (step : Nat) (enters : Bool) (h_s : Keeps s₀ s)
    : Keeps s₀ (moveAngle s d b step enters) := by
  unfold moveAngle
  try dsimp only
  with_reducible
    repeat'
      first
      | assumption | apply marksPassed_keeps | apply schedUpdate_keeps | apply setAngle_keeps | apply autoMark_keeps
      | apply camPass_keeps | (apply Keeps.foldl; intro u a hu; try dsimp only) | apply Keeps.ite | split | intro _
      | refine Keeps.written rfl rfl rfl rfl rfl rfl rfl rfl ?_

theorem toothMove_keeps {s₀ : State} (s : State) (d : Nat) (x3 : Accept) (h_s : Keeps s₀ s)
    : Keeps s₀ (toothMove s d x3) := by
  unfold toothMove
  try dsimp only
  with_reducible
    repeat'
      first
      | assumption | apply moveAngle_keeps | apply setAngle_keeps | (apply Keeps.foldl; intro u a hu; try dsimp only)
      | apply Keeps.ite | split | intro _ | refine Keeps.written rfl rfl rfl rfl rfl rfl rfl rfl ?_

theorem jumpReport_keeps {s₀ : State} (s : State) (d : Nat) (x3 : Accept) (j : Nat) (h_s : Keeps s₀ s)
    : Keeps s₀ (jumpReport s d x3 j) := by
  unfold jumpReport
  try dsimp only
  with_reducible
    repeat'
      first
      | assumption | apply State.setReg_keeps | apply State.setDom_keeps | apply State.arrive_keeps
      | apply traceWrite_keeps | (apply Keeps.foldl; intro u a hu; try dsimp only) | apply Keeps.ite | split | intro _
      | refine Keeps.written rfl rfl rfl rfl rfl rfl rfl rfl ?_

theorem jumpCheck_keeps {s₀ : State} (s : State) (d : Nat) (x3 : Accept) (h_s : Keeps s₀ s)
    : Keeps s₀ (jumpCheck s d x3) := by
  unfold jumpCheck
  try dsimp only
  with_reducible
    repeat'
      first
      | assumption | apply jumpReport_keeps | (apply Keeps.foldl; intro u a hu; try dsimp only) | apply Keeps.ite | split
      | intro _ | refine Keeps.written rfl rfl rfl rfl rfl rfl rfl rfl ?_

theorem acceptTooth_keeps {s₀ : State} (s : State) (d : Nat) (x3 : Accept) (h_s : Keeps s₀ s)
    : Keeps s₀ (acceptTooth s d x3) := by
  unfold acceptTooth
  try dsimp only
  with_reducible
    repeat'
      first
      | assumption | apply State.setReg_keeps | apply State.setDom_keeps | apply reseedCount_keeps
      | apply toothRecord_keeps | apply cycleStart_keeps | apply toothMove_keeps | apply jumpCheck_keeps
      | apply revStart_keeps | (apply Keeps.foldl; intro u a hu; try dsimp only) | apply Keeps.ite | split | intro _
      | refine Keeps.written rfl rfl rfl rfl rfl rfl rfl rfl ?_

theorem enterTracking_keeps {s₀ : State} (s : State) (d : Nat) (i : Nat) (r : Nat) (ts : Nat) (p : Nat) (cyc : Bool)
    (jtraj : optParam (Option Traj) Option.none) (h_s : Keeps s₀ s)
    : Keeps s₀ (enterTracking s d i r ts p cyc jtraj) := by
  unfold enterTracking
  try dsimp only
  with_reducible
    repeat'
      first
      | assumption | apply State.setDom_keeps | apply acceptTooth_keeps | apply setSync_keeps
      | (apply Keeps.foldl; intro u a hu; try dsimp only) | apply Keeps.ite | split | intro _
      | refine Keeps.written rfl rfl rfl rfl rfl rfl rfl rfl ?_

theorem provFail_keeps {s₀ : State} (s : State) (d : Nat) (h_s : Keeps s₀ s) : Keeps s₀ (provFail s d) := by
  unfold provFail
  try dsimp only
  with_reducible
    repeat'
      first
      | assumption | apply State.cntSat_keeps | apply State.setDom_keeps | apply noiseCount_keeps | apply setAngle_keeps
      | (apply Keeps.foldl; intro u a hu; try dsimp only) | apply Keeps.ite | split | intro _
      | refine Keeps.written rfl rfl rfl rfl rfl rfl rfl rfl ?_

theorem provJudge_keeps {s₀ : State} (s : State) (d : Nat) (i : Nat) (r : Nat) (ts : Nat) (p : Nat) (x7 : Accept)
    (found : Nat) (h_s : Keeps s₀ s) : Keeps s₀ (provJudge s d i r ts p x7 found) := by
  unfold provJudge
  try dsimp only
  with_reducible
    repeat'
      first
      | assumption | apply enterTracking_keeps | apply provFail_keeps | (apply Keeps.foldl; intro u a hu; try dsimp only)
      | apply Keeps.ite | split | intro _ | refine Keeps.written rfl rfl rfl rfl rfl rfl rfl rfl ?_

theorem acceptProv_keeps {s₀ : State} (s : State) (d : Nat) (x3 : Accept) (h_s : Keeps s₀ s)
    : Keeps s₀ (acceptProv s d x3) := by
  unfold acceptProv
  try dsimp only
  with_reducible
    repeat'
      first
      | assumption | apply State.setDom_keeps | apply acceptTooth_keeps | apply gapReject_keeps | apply provJudge_keeps
      | (apply Keeps.foldl; intro u a hu; try dsimp only) | apply Keeps.ite | split | intro _
      | refine Keeps.written rfl rfl rfl rfl rfl rfl rfl rfl ?_

theorem acceptAny_keeps {s₀ : State} (s : State) (d : Nat) (x3 : Accept) (h_s : Keeps s₀ s)
    : Keeps s₀ (acceptAny s d x3) := by
  unfold acceptAny
  try dsimp only
  with_reducible
    repeat'
      first
      | assumption | apply acceptTooth_keeps | apply acceptProv_keeps | (apply Keeps.foldl; intro u a hu; try dsimp only)
      | apply Keeps.ite | split | intro _ | refine Keeps.written rfl rfl rfl rfl rfl rfl rfl rfl ?_

theorem acceptSuspect_keeps {s₀ : State} (s : State) (d : Nat) (ts1 : Nat) (p1 : Nat) (how : Nat) (quiet : Bool) (h_s
    : Keeps s₀ s) : Keeps s₀ (acceptSuspect s d ts1 p1 how quiet) := by
  unfold acceptSuspect
  try dsimp only
  with_reducible
    repeat'
      first
      | assumption | apply State.setDom_keeps | apply acceptAny_keeps | (apply Keeps.foldl; intro u a hu; try dsimp only)
      | apply Keeps.ite | split | intro _ | refine Keeps.written rfl rfl rfl rfl rfl rfl rfl rfl ?_

theorem mechAdvance_keeps {s₀ : State} (s : State) (d : Nat) (h_s : Keeps s₀ s) : Keeps s₀ (mechAdvance s d) := by
  unfold mechAdvance
  try dsimp only
  with_reducible
    repeat'
      first
      | assumption | apply moveAngle_keeps | (apply Keeps.foldl; intro u a hu; try dsimp only) | apply Keeps.ite | split
      | intro _ | refine Keeps.written rfl rfl rfl rfl rfl rfl rfl rfl ?_

theorem camInRev_keeps {s₀ : State} (s : State) (d : Nat) (l : List Nat) (h_s : Keeps s₀ s) : Keeps s₀ (camInRev s d l) := by
  unfold camInRev
  try dsimp only
  with_reducible
    repeat'
      first
      | assumption | apply State.setDom_keeps | apply State.cntSat_keeps | apply setAngle_keeps | apply setSync_keeps
      | (apply Keeps.foldl; intro u a hu; try dsimp only) | apply Keeps.ite | split | intro _
      | refine Keeps.written rfl rfl rfl rfl rfl rfl rfl rfl ?_

theorem camInCycle_keeps {s₀ : State} (s : State) (d : Nat) (ang : Nat) (pol : Bool) (h_s : Keeps s₀ s)
    : Keeps s₀ (camInCycle s d ang pol) := by
  unfold camInCycle
  try dsimp only
  with_reducible
    repeat'
      first
      | assumption | apply State.setDom_keeps | apply State.cntSat_keeps | apply setSync_keeps
      | (apply Keeps.foldl; intro u a hu; try dsimp only) | apply Keeps.ite | split | intro _
      | refine Keeps.written rfl rfl rfl rfl rfl rfl rfl rfl ?_

theorem camJudge_keeps {s₀ : State} (s : State) (d : Nat) (ts : Nat) (pol : Bool) (h_s : Keeps s₀ s)
    : Keeps s₀ (camJudge s d ts pol) := by
  unfold camJudge
  try dsimp only
  with_reducible
    repeat'
      first
      | assumption | apply mechAdvance_keeps | apply camInCycle_keeps | apply camInRev_keeps | apply setSync_keeps
      | (apply Keeps.foldl; intro u a hu; try dsimp only) | apply Keeps.ite | split | intro _
      | refine Keeps.written rfl rfl rfl rfl rfl rfl rfl rfl ?_

theorem camTake_keeps {s₀ : State} (s : State) (d : Nat) (ts : Nat) (pol : Bool) (h_s : Keeps s₀ s)
    : Keeps s₀ (camTake s d ts pol) := by
  unfold camTake
  try dsimp only
  with_reducible
    repeat'
      first
      | assumption | apply camJudge_keeps | (apply Keeps.foldl; intro u a hu; try dsimp only) | apply Keeps.ite | split
      | intro _ | refine Keeps.written rfl rfl rfl rfl rfl rfl rfl rfl ?_

theorem camRelease_keeps {s₀ : State} (s : State) (d : Nat) (p : Nat × Bool → Bool) (h_s : Keeps s₀ s)
    : Keeps s₀ (camRelease s d p) := by
  unfold camRelease
  try dsimp only
  with_reducible
    repeat'
      first
      | assumption | apply hp | apply State.setDom_keeps | apply camTake_keeps
      | (apply Keeps.foldl; intro u a hu; try dsimp only) | apply Keeps.ite | split | intro _
      | refine Keeps.written rfl rfl rfl rfl rfl rfl rfl rfl ?_

theorem camDue_keeps {s₀ : State} (s : State) (d : Nat) (h_s : Keeps s₀ s) : Keeps s₀ (camDue s d) := by
  unfold camDue
  try dsimp only
  with_reducible
    repeat'
      first
      | assumption | apply camRelease_keeps | (apply Keeps.foldl; intro u a hu; try dsimp only) | apply Keeps.ite | split
      | intro _ | refine Keeps.written rfl rfl rfl rfl rfl rfl rfl rfl ?_

theorem profileTouched_keeps {s₀ : State} (s : State) (d : Nat) (h_s : Keeps s₀ s) : Keeps s₀ (profileTouched s d) := by
  unfold profileTouched
  try dsimp only
  with_reducible
    repeat'
      first
      | assumption | apply learnAbort_keeps | (apply Keeps.foldl; intro u a hu; try dsimp only) | apply Keeps.ite | split
      | intro _ | refine Keeps.written rfl rfl rfl rfl rfl rfl rfl rfl ?_

theorem mechEnable_keeps {s₀ : State} (s : State) (d : Nat) (h_s : Keeps s₀ s) : Keeps s₀ (mechEnable s d) := by
  unfold mechEnable
  try dsimp only
  with_reducible
    repeat'
      first
      | assumption | apply State.setDom_keeps | apply State.setRf_keeps
      | (apply Keeps.foldl; intro u a hu; try dsimp only) | apply Keeps.ite | split | intro _
      | refine Keeps.written rfl rfl rfl rfl rfl rfl rfl rfl ?_

theorem learnStart_keeps {s₀ : State} (s : State) (d : Nat) (h_s : Keeps s₀ s) : Keeps s₀ (learnStart s d) := by
  unfold learnStart
  try dsimp only
  with_reducible
    repeat'
      first
      | assumption | apply State.setDom_keeps | (apply Keeps.foldl; intro u a hu; try dsimp only) | apply Keeps.ite
      | split | intro _ | refine Keeps.written rfl rfl rfl rfl rfl rfl rfl rfl ?_

theorem bareEdge_keeps {s₀ : State} (s : State) (d : Nat) (ts : Nat) (h_s : Keeps s₀ s) : Keeps s₀ (bareEdge s d ts) := by
  unfold bareEdge
  try dsimp only
  with_reducible
    repeat'
      first
      | assumption | apply State.setReg_keeps | apply State.setDom_keeps
      | (apply Keeps.foldl; intro u a hu; try dsimp only) | apply Keeps.ite | split | intro _
      | refine Keeps.written rfl rfl rfl rfl rfl rfl rfl rfl ?_

theorem camEdge_keeps {s₀ : State} (s : State) (d : Nat) (ts : Nat) (lv : Int) (h_s : Keeps s₀ s)
    : Keeps s₀ (camEdge s d ts lv) := by
  unfold camEdge
  try dsimp only
  with_reducible
    repeat'
      first
      | assumption | apply State.setDom_keeps | apply camTake_keeps | apply camDue_keeps
      | (apply Keeps.foldl; intro u a hu; try dsimp only) | apply Keeps.ite | split | intro _
      | refine Keeps.written rfl rfl rfl rfl rfl rfl rfl rfl ?_

theorem edgeNone_keeps {s₀ : State} (s : State) (d : Nat) (ts : Nat) (fwd : Bool) (h_s : Keeps s₀ s)
    : Keeps s₀ (edgeNone s d ts fwd) := by
  unfold edgeNone
  try dsimp only
  with_reducible
    repeat'
      first
      | assumption | apply State.setDom_keeps | apply bareEdge_keeps | apply setSync_keeps
      | (apply Keeps.foldl; intro u a hu; try dsimp only) | apply Keeps.ite | split | intro _
      | refine Keeps.written rfl rfl rfl rfl rfl rfl rfl rfl ?_

theorem provFirst_keeps {s₀ : State} (s : State) (d : Nat) (ts : Nat) (h_s : Keeps s₀ s) : Keeps s₀ (provFirst s d ts) := by
  unfold provFirst
  try dsimp only
  with_reducible
    repeat'
      first
      | assumption | apply State.setDom_keeps | apply toothRecord_keeps | apply jumpCheck_keeps | apply revStart_keeps
      | apply setAngle_keeps | (apply Keeps.foldl; intro u a hu; try dsimp only) | apply Keeps.ite | split | intro _
      | refine Keeps.written rfl rfl rfl rfl rfl rfl rfl rfl ?_

theorem judgeEdge_keeps {s₀ : State} (s : State) (d : Nat) (ts : Nat) (how : Nat) (jtraj : Option Traj) (h_s : Keeps s₀ s)
    : Keeps s₀ (judgeEdge s d ts how jtraj) := by
  unfold judgeEdge
  try dsimp only
  with_reducible
    repeat'
      first
      | assumption | apply State.setDom_keeps | apply provFirst_keeps | apply acceptAny_keeps | apply setSync_keeps
      | (apply Keeps.foldl; intro u a hu; try dsimp only) | apply Keeps.ite | split | intro _
      | refine Keeps.written rfl rfl rfl rfl rfl rfl rfl rfl ?_

theorem resolveSuspect_keeps {s₀ : State} (s : State) (d : Nat) (ts : Nat) (ts1 : Nat) (p1 : Nat) (h_s : Keeps s₀ s)
    : Keeps s₀ (resolveSuspect s d ts ts1 p1) := by
  unfold resolveSuspect
  try dsimp only
  with_reducible
    repeat'
      first
      | assumption | apply acceptSuspect_keeps | apply State.setDom_keeps | apply State.cntSat_keeps
      | apply noiseCount_keeps | apply judgeEdge_keeps | (apply Keeps.foldl; intro u a hu; try dsimp only)
      | apply Keeps.ite | split | intro _ | refine Keeps.written rfl rfl rfl rfl rfl rfl rfl rfl ?_

theorem trackForward_keeps {s₀ : State} (s : State) (d : Nat) (ts : Nat) (h_s : Keeps s₀ s)
    : Keeps s₀ (trackForward s d ts) := by
  unfold trackForward
  try dsimp only
  with_reducible
    repeat'
      first
      | assumption | apply resolveSuspect_keeps | apply judgeEdge_keeps
      | (apply Keeps.foldl; intro u a hu; try dsimp only) | apply Keeps.ite | split | intro _
      | refine Keeps.written rfl rfl rfl rfl rfl rfl rfl rfl ?_

theorem edgeTooth_keeps {s₀ : State} (s : State) (d : Nat) (ts : Nat) (fwd : Bool) (h_s : Keeps s₀ s)
    : Keeps s₀ (edgeTooth s d ts fwd) := by
  unfold edgeTooth
  try dsimp only
  with_reducible
    repeat'
      first
      | assumption | apply enterTracking_keeps | apply State.setDom_keeps | apply gapReject_keeps | apply bareEdge_keeps
      | (apply Keeps.foldl; intro u a hu; try dsimp only) | apply Keeps.ite | split | intro _
      | refine Keeps.written rfl rfl rfl rfl rfl rfl rfl rfl ?_

theorem stallReturn_keeps {s₀ : State} (s : State) (d : Nat) (ts : Nat) (h_s : Keeps s₀ s)
    : Keeps s₀ (stallReturn s d ts) := by
  unfold stallReturn
  try dsimp only
  with_reducible
    repeat'
      first
      | assumption | apply acceptTooth_keeps | apply setSync_keeps | (apply Keeps.foldl; intro u a hu; try dsimp only)
      | apply Keeps.ite | split | intro _ | refine Keeps.written rfl rfl rfl rfl rfl rfl rfl rfl ?_

theorem edgeStall_keeps {s₀ : State} (s : State) (d : Nat) (ts : Nat) (fwd : Bool) (h_s : Keeps s₀ s)
    : Keeps s₀ (edgeStall s d ts fwd) := by
  unfold edgeStall
  try dsimp only
  with_reducible
    repeat'
      first
      | assumption | apply State.setDom_keeps | apply stallReturn_keeps | apply bareEdge_keeps | apply setSync_keeps
      | (apply Keeps.foldl; intro u a hu; try dsimp only) | apply Keeps.ite | split | intro _
      | refine Keeps.written rfl rfl rfl rfl rfl rfl rfl rfl ?_

theorem edgeReverse_keeps {s₀ : State} (s : State) (d : Nat) (ts : Nat) (fwd : Bool) (h_s : Keeps s₀ s)
    : Keeps s₀ (edgeReverse s d ts fwd) := by
  unfold edgeReverse
  try dsimp only
  with_reducible
    repeat'
      first
      | assumption | apply State.setDom_keeps | apply bareEdge_keeps | apply setSync_keeps
      | (apply Keeps.foldl; intro u a hu; try dsimp only) | apply Keeps.ite | split | intro _
      | refine Keeps.written rfl rfl rfl rfl rfl rfl rfl rfl ?_

theorem edgeLost_keeps {s₀ : State} (s : State) (d : Nat) (ts : Nat) (fwd : Bool) (h_s : Keeps s₀ s)
    : Keeps s₀ (edgeLost s d ts fwd) := by
  unfold edgeLost
  try dsimp only
  with_reducible
    repeat'
      first
      | assumption | apply State.setDom_keeps | apply edgeNone_keeps | apply setSync_keeps
      | (apply Keeps.foldl; intro u a hu; try dsimp only) | apply Keeps.ite | split | intro _
      | refine Keeps.written rfl rfl rfl rfl rfl rfl rfl rfl ?_

theorem processEdge_keeps {s₀ : State} (s : State) (d : Nat) (ts : Nat) (fwd : Bool) (h_s : Keeps s₀ s)
    : Keeps s₀ (processEdge s d ts fwd) := by
  unfold processEdge
  try dsimp only
  with_reducible
    repeat'
      first
      | assumption | apply trackForward_keeps | apply State.setDom_keeps | apply edgeReverse_keeps | apply edgeTooth_keeps
      | apply edgeStall_keeps | apply edgeNone_keeps | apply provFail_keeps | apply edgeLost_keeps | apply setSync_keeps
      | (apply Keeps.foldl; intro u a hu; try dsimp only) | apply Keeps.ite | split | intro _
      | refine Keeps.written rfl rfl rfl rfl rfl rfl rfl rfl ?_

theorem noteDir_keeps {s₀ : State} (s : State) (d : Nat) (fwd : Bool) (known : Bool) (h_s : Keeps s₀ s)
    : Keeps s₀ (noteDir s d fwd known) := by
  unfold noteDir
  try dsimp only
  with_reducible
    repeat'
      first
      | assumption | apply State.setDom_keeps | (apply Keeps.foldl; intro u a hu; try dsimp only) | apply Keeps.ite
      | split | intro _ | refine Keeps.written rfl rfl rfl rfl rfl rfl rfl rfl ?_

theorem crankActive_keeps {s₀ : State} (s : State) (d : Nat) (ts : Nat) (dir : Option Bool) (h_s : Keeps s₀ s)
    : Keeps s₀ (crankActive s d ts dir) := by
  unfold crankActive
  try dsimp only
  with_reducible
    repeat'
      first
      | assumption | apply State.setDom_keeps | apply State.cntSat_keeps | apply processEdge_keeps
      | apply mechAdvance_keeps | apply noteDir_keeps | (apply Keeps.foldl; intro u a hu; try dsimp only)
      | apply Keeps.ite | split | intro _ | refine Keeps.written rfl rfl rfl rfl rfl rfl rfl rfl ?_

theorem crankEdge_keeps {s₀ : State} (s : State) (d : Nat) (ts : Nat) (lv : Int) (dir : Option Bool) (h_s : Keeps s₀ s)
    : Keeps s₀ (crankEdge s d ts lv dir) := by
  unfold crankEdge
  try dsimp only
  with_reducible
    repeat'
      first
      | assumption | apply State.setDom_keeps | apply crankActive_keeps | apply camRelease_keeps
      | (apply Keeps.foldl; intro u a hu; try dsimp only) | apply Keeps.ite | split | intro _
      | refine Keeps.written rfl rfl rfl rfl rfl rfl rfl rfl ?_

theorem pulseDone_keeps {s₀ : State} (s : State) (d : Nat) (ts : Nat) (fwd : Bool) (h_s : Keeps s₀ s)
    : Keeps s₀ (pulseDone s d ts fwd) := by
  unfold pulseDone
  try dsimp only
  with_reducible
    repeat'
      first
      | assumption | apply State.setDom_keeps | apply processEdge_keeps | apply mechAdvance_keeps | apply camRelease_keeps
      | apply noteDir_keeps | (apply Keeps.foldl; intro u a hu; try dsimp only) | apply Keeps.ite | split | intro _
      | refine Keeps.written rfl rfl rfl rfl rfl rfl rfl rfl ?_

theorem crankTrailing_keeps {s₀ : State} (s : State) (d : Nat) (ts : Nat) (h_s : Keeps s₀ s)
    : Keeps s₀ (crankTrailing s d ts) := by
  unfold crankTrailing
  try dsimp only
  with_reducible
    repeat'
      first
      | assumption | apply State.setDom_keeps | apply pulseDone_keeps | (apply Keeps.foldl; intro u a hu; try dsimp only)
      | apply Keeps.ite | split | intro _ | refine Keeps.written rfl rfl rfl rfl rfl rfl rfl rfl ?_

theorem duskArm_keeps {s₀ : State} (s : State) (d : Nat) (cam : Bool) (mv : Int) (h_s : Keeps s₀ s)
    : Keeps s₀ (duskArm s d cam mv) := by
  unfold duskArm
  try dsimp only
  with_reducible
    repeat'
      first
      | assumption | apply State.setDom_keeps | (apply Keeps.foldl; intro u a hu; try dsimp only) | apply Keeps.ite
      | split | intro _ | refine Keeps.written rfl rfl rfl rfl rfl rfl rfl rfl ?_

theorem vrIdle_keeps {s₀ : State} (s : State) (d : Nat) (h_s : Keeps s₀ s) : Keeps s₀ (vrIdle s d) := by
  unfold vrIdle
  try dsimp only
  with_reducible
    repeat'
      first
      | assumption | apply State.setDom_keeps | (apply Keeps.foldl; intro u a hu; try dsimp only) | apply Keeps.ite
      | split | intro _ | refine Keeps.written rfl rfl rfl rfl rfl rfl rfl rfl ?_

theorem edgeTimeout_keeps {s₀ : State} (s : State) (d : Nat) (raw : Option Nat) (h_s : Keeps s₀ s)
    : Keeps s₀ (edgeTimeout s d raw) := by
  unfold edgeTimeout
  try dsimp only
  with_reducible
    repeat'
      first
      | assumption | apply State.setDom_keeps | apply setSync_keeps | apply vrIdle_keeps | apply camDue_keeps
      | (apply Keeps.foldl; intro u a hu; try dsimp only) | apply Keeps.ite | split | intro _
      | refine Keeps.written rfl rfl rfl rfl rfl rfl rfl rfl ?_

theorem stallTimeout_keeps {s₀ : State} (s : State) (d : Nat) (raw : Option Nat) (h_s : Keeps s₀ s)
    : Keeps s₀ (stallTimeout s d raw) := by
  unfold stallTimeout
  try dsimp only
  with_reducible
    repeat'
      first
      | assumption | apply mechAdvance_keeps | apply setSync_keeps | apply camDue_keeps
      | (apply Keeps.foldl; intro u a hu; try dsimp only) | apply Keeps.ite | split | intro _
      | refine Keeps.written rfl rfl rfl rfl rfl rfl rfl rfl ?_

theorem vrArm_keeps {s₀ : State} (s : State) (d : Nat) (cam : Bool) (mv : Int) (h_s : Keeps s₀ s)
    : Keeps s₀ (vrArm s d cam mv) := by
  unfold vrArm
  try dsimp only
  with_reducible
    repeat'
      first
      | assumption | apply State.setDom_keeps | apply vrIdle_keeps | (apply Keeps.foldl; intro u a hu; try dsimp only)
      | apply Keeps.ite | split | intro _ | refine Keeps.written rfl rfl rfl rfl rfl rfl rfl rfl ?_

theorem widthExpiry_keeps {s₀ : State} (s : State) (d : Nat) (h_s : Keeps s₀ s) : Keeps s₀ (widthExpiry s d) := by
  unfold widthExpiry
  try dsimp only
  with_reducible
    repeat'
      first
      | assumption | apply pulseDone_keeps | (apply Keeps.foldl; intro u a hu; try dsimp only) | apply Keeps.ite | split
      | intro _ | refine Keeps.written rfl rfl rfl rfl rfl rfl rfl rfl ?_

theorem gapReject_only {m : Nat} {s₀ : State} (hm : 4 ||| m = m) (s : State) (d : Nat) (rej : Bool)
    (h_s : Only m s₀ s) : Only m s₀ (gapReject s d rej) := by
  unfold gapReject
  try dsimp only
  with_reducible
    repeat'
      first
      | assumption | exact mask_trans (by decide) hm | apply State.cntSat_only
      | (apply Only.foldl; intro u a hu; try dsimp only) | apply Only.ite | split | intro _

theorem noiseCount_only {m : Nat} {s₀ : State} (hm : 4 ||| m = m) (s : State) (d : Nat)
    (h_s : Only m s₀ s) : Only m s₀ (noiseCount s d) := by
  unfold noiseCount
  try dsimp only
  with_reducible
    repeat'
      first
      | assumption | exact mask_trans (by decide) hm | apply State.cntSat_only
      | (apply Only.foldl; intro u a hu; try dsimp only) | apply Only.ite | split | intro _

theorem learnAbort_only {m : Nat} {s₀ : State} (hm : 33312 ||| m = m) (s : State) (d : Nat)
    (h_s : Only m s₀ s) : Only m s₀ (learnAbort s d) := by
  unfold learnAbort
  try dsimp only
  with_reducible
    repeat'
      first
      | assumption | exact mask_trans (by decide) hm | apply State.arrive_only | apply State.setDom_only
      | (apply Only.foldl; intro u a hu; try dsimp only) | apply Only.ite | split | intro _

theorem countEntry_only {m : Nat} {s₀ : State} (hm : 4 ||| m = m) (s : State) (d : Nat) (x3 : SyncSt)
    (h_s : Only m s₀ s) : Only m s₀ (countEntry s d x3) := by
  unfold countEntry
  try dsimp only
  with_reducible
    repeat'
      first
      | assumption | exact mask_trans (by decide) hm | apply State.cntSat_only
      | (apply Only.foldl; intro u a hu; try dsimp only) | apply Only.ite | split | intro _

theorem setAngle_only {m : Nat} {s₀ : State} (hm : 12582912 ||| m = m) (s : State) (d : Nat) (a : Option Nat)
    (h_s : Only m s₀ s) : Only m s₀ (setAngle s d a) := by
  unfold setAngle
  try dsimp only
  with_reducible
    repeat'
      first
      | assumption | exact .inr (mask_bit hm (by decide)) | exact .inl rfl | exact mask_trans (by decide) hm
      | (apply Only.foldl; intro u a hu; try dsimp only) | apply Only.ite | split | intro _
      | refine Only.written rfl ?_ ?_ ?_ ?_ ?_ ?_ ?_ ?_ ?_ ?_ ?_ ?_ ?_ ?_ ?_ ?_ ?_ ?_ ?_ ?_ ?_ ?_ ?_ ?_ ?_ ?_ ?_ ?_ ?_ ?_ ?_ ?_ ?_ ?_ ?_ ?_ ?_ ?_

theorem setSync_only {m : Nat} {s₀ : State} (hm : 68766989300 ||| m = m) (s : State) (d : Nat) (new : SyncSt)
    (h_s : Only m s₀ s) : Only m s₀ (setSync s d new) := by
  unfold setSync
  try dsimp only
  with_reducible
    repeat'
      first
      | assumption | exact mask_trans (by decide) hm | apply State.setDom_only | apply State.arrive_only
      | apply noiseCount_only | apply learnAbort_only | apply countEntry_only | apply schedSync_only | apply setAngle_only
      | (apply Only.foldl; intro u a hu; try dsimp only) | apply Only.ite | split | intro _

theorem learnPut_only {m : Nat} {s₀ : State} (hm : 8 ||| m = m) (s : State) (d : Nat) (trev : Nat) (k : CTooth)
    (h_s : Only m s₀ s) : Only m s₀ (learnPut s d trev k) := by
  unfold learnPut
  try dsimp only
  with_reducible
    repeat'
      first
      | assumption | exact mask_trans (by decide) hm | apply State.putBytes_only
      | (apply Only.foldl; intro u a hu; try dsimp only) | apply Only.ite | split | intro _

theorem learnJudge_only {m : Nat} {s₀ : State} (hm : 33320 ||| m = m) (s : State) (d : Nat)
    (h_s : Only m s₀ s) : Only m s₀ (learnJudge s d) := by
  unfold learnJudge
  try dsimp only
  with_reducible
    repeat'
      first
      | assumption | exact mask_trans (by decide) hm | apply State.setDom_only | apply State.arrive_only
      | apply learnPut_only | (apply Only.foldl; intro u a hu; try dsimp only) | apply Only.ite | split | intro _

theorem revStart_only {m : Nat} {s₀ : State} (hm : 33320 ||| m = m) (s : State) (d : Nat)
    (h_s : Only m s₀ s) : Only m s₀ (revStart s d) := by
  unfold revStart
  try dsimp only
  with_reducible
    repeat'
      first
      | assumption | exact mask_trans (by decide) hm | apply State.setDom_only | apply learnJudge_only
      | (apply Only.foldl; intro u a hu; try dsimp only) | apply Only.ite | split | intro _

theorem cycleStart_only {m : Nat} {s₀ : State} (hm : 32772 ||| m = m) (s : State) (d : Nat)
    (h_s : Only m s₀ s) : Only m s₀ (cycleStart s d) := by
  unfold cycleStart
  try dsimp only
  with_reducible
    repeat'
      first
      | assumption | exact mask_trans (by decide) hm | apply State.setReg_only | apply State.setDom_only
      | (apply Only.foldl; intro u a hu; try dsimp only) | apply Only.ite | split | intro _

theorem reseedCount_only {m : Nat} {s₀ : State} (hm : 4 ||| m = m) (s : State) (d : Nat) (re : Bool)
    (h_s : Only m s₀ s) : Only m s₀ (reseedCount s d re) := by
  unfold reseedCount
  try dsimp only
  with_reducible
    repeat'
      first
      | assumption | exact mask_trans (by decide) hm | apply State.cntSat_only
      | (apply Only.foldl; intro u a hu; try dsimp only) | apply Only.ite | split | intro _

theorem toothRecord_only {m : Nat} {s₀ : State} (hm : 800 ||| m = m) (s : State) (d : Nat) (x3 : Accept) (re : Bool)
    (pred : Nat) (h_s : Only m s₀ s) : Only m s₀ (toothRecord s d x3 re pred) := by
  unfold toothRecord
  try dsimp only
  with_reducible
    repeat'
      first
      | assumption | exact mask_trans (by decide) hm | apply traceWrite_only
      | (apply Only.foldl; intro u a hu; try dsimp only) | apply Only.ite | split | intro _

theorem camPass_only {m : Nat} {s₀ : State} (hm : 32768 ||| m = m) (s : State) (d : Nat) (a : Nat) (b : Nat)
    (h_s : Only m s₀ s) : Only m s₀ (camPass s d a b) := by
  unfold camPass
  try dsimp only
  with_reducible
    repeat'
      first
      | assumption | exact mask_trans (by decide) hm | apply State.setDom_only
      | (apply Only.foldl; intro u a hu; try dsimp only) | apply Only.ite | split | intro _

theorem autoMark_only {m : Nat} {s₀ : State} (hm : 800 ||| m = m) (s : State) (d : Nat)
    (h_s : Only m s₀ s) : Only m s₀ (autoMark s d) := by
  unfold autoMark
  try dsimp only
  with_reducible
    repeat'
      first
      | assumption | exact mask_trans (by decide) hm | apply traceMark_only
      | (apply Only.foldl; intro u a hu; try dsimp only) | apply Only.ite | split | intro _

theorem fireMark_only {m : Nat} {s₀ : State} (hm : 263860 ||| m = m) (s : State) (m2 : Nat)
    (h_s : Only m s₀ s) : Only m s₀ (fireMark s m2) := by
  unfold fireMark
  try dsimp only
  with_reducible
    repeat'
      first
      | assumption | exact mask_trans (by decide) hm | apply State.arrive_only | apply markTrigger_only
      | apply xfrTrigger_only | apply reelEvent_only | (apply Only.foldl; intro u a hu; try dsimp only) | apply Only.ite
      | split | intro _

theorem marksPassed_only {m : Nat} {s₀ : State} (hm : 263860 ||| m = m) (s : State) (d : Nat) (a : Nat) (b : Nat)
    (h_s : Only m s₀ s) : Only m s₀ (marksPassed s d a b) := by
  unfold marksPassed
  try dsimp only
  with_reducible
    repeat'
      first
      | assumption | exact mask_trans (by decide) hm | apply fireMark_only
      | (apply Only.foldl; intro u a hu; try dsimp only) | apply Only.ite | split | intro _

theorem moveAngle_only {m : Nat} {s₀ : State} (hm : 104234024956 ||| m = m) (s : State) (d : Nat) (b : Nat) (step : Nat)
    (enters : Bool) (h_s : Only m s₀ s) : Only m s₀ (moveAngle s d b step enters) := by
  unfold moveAngle
  try dsimp only
  with_reducible
    repeat'
      first
      | assumption | exact mask_trans (by decide) hm | apply marksPassed_only | apply schedUpdate_only
      | apply setAngle_only | apply autoMark_only | apply camPass_only | (apply Only.foldl; intro u a hu; try dsimp only)
      | apply Only.ite | split | intro _

theorem toothMove_only {m : Nat} {s₀ : State} (hm : 104234024956 ||| m = m) (s : State) (d : Nat) (x3 : Accept)
    (h_s : Only m s₀ s) : Only m s₀ (toothMove s d x3) := by
  unfold toothMove
  try dsimp only
  with_reducible
    repeat'
      first
      | assumption | exact mask_trans (by decide) hm | apply moveAngle_only | apply setAngle_only
      | (apply Only.foldl; intro u a hu; try dsimp only) | apply Only.ite | split | intro _

theorem jumpReport_only {m : Nat} {s₀ : State} (hm : 33572 ||| m = m) (s : State) (d : Nat) (x3 : Accept) (j : Nat)
    (h_s : Only m s₀ s) : Only m s₀ (jumpReport s d x3 j) := by
  unfold jumpReport
  try dsimp only
  with_reducible
    repeat'
      first
      | assumption | exact mask_trans (by decide) hm | apply State.setReg_only | apply State.setDom_only
      | apply State.arrive_only | apply traceWrite_only | (apply Only.foldl; intro u a hu; try dsimp only)
      | apply Only.ite | split | intro _

theorem jumpCheck_only {m : Nat} {s₀ : State} (hm : 33572 ||| m = m) (s : State) (d : Nat) (x3 : Accept)
    (h_s : Only m s₀ s) : Only m s₀ (jumpCheck s d x3) := by
  unfold jumpCheck
  try dsimp only
  with_reducible
    repeat'
      first
      | assumption | exact mask_trans (by decide) hm | apply jumpReport_only
      | (apply Only.foldl; intro u a hu; try dsimp only) | apply Only.ite | split | intro _

theorem acceptTooth_only {m : Nat} {s₀ : State} (hm : 104234024956 ||| m = m) (s : State) (d : Nat) (x3 : Accept)
    (h_s : Only m s₀ s) : Only m s₀ (acceptTooth s d x3) := by
  unfold acceptTooth
  try dsimp only
  with_reducible
    repeat'
      first
      | assumption | exact .inr (mask_bit hm (by decide)) | exact .inl rfl | exact mask_trans (by decide) hm
      | apply State.setReg_only | apply State.setDom_only | apply reseedCount_only | apply toothRecord_only
      | apply cycleStart_only | apply toothMove_only | apply jumpCheck_only | apply revStart_only
      | (apply Only.foldl; intro u a hu; try dsimp only) | apply Only.ite | split | intro _
      | refine Only.written rfl ?_ ?_ ?_ ?_ ?_ ?_ ?_ ?_ ?_ ?_ ?_ ?_ ?_ ?_ ?_ ?_ ?_ ?_ ?_ ?_ ?_ ?_ ?_ ?_ ?_ ?_ ?_ ?_ ?_ ?_ ?_ ?_ ?_ ?_ ?_ ?_ ?_ ?_

theorem enterTracking_only {m : Nat} {s₀ : State} (hm : 104267579388 ||| m = m) (s : State) (d : Nat) (i : Nat) (r : Nat)
    (ts : Nat) (p : Nat) (cyc : Bool) (jtraj : optParam (Option Traj) Option.none)
    (h_s : Only m s₀ s) : Only m s₀ (enterTracking s d i r ts p cyc jtraj) := by
  unfold enterTracking
  try dsimp only
  with_reducible
    repeat'
      first
      | assumption | exact mask_trans (by decide) hm | apply State.setDom_only | apply acceptTooth_only
      | apply setSync_only | (apply Only.foldl; intro u a hu; try dsimp only) | apply Only.ite | split | intro _

theorem provFail_only {m : Nat} {s₀ : State} (hm : 12615684 ||| m = m) (s : State) (d : Nat)
    (h_s : Only m s₀ s) : Only m s₀ (provFail s d) := by
  unfold provFail
  try dsimp only
  with_reducible
    repeat'
      first
      | assumption | exact mask_trans (by decide) hm | apply State.cntSat_only | apply State.setDom_only
      | apply noiseCount_only | apply setAngle_only | (apply Only.foldl; intro u a hu; try dsimp only) | apply Only.ite
      | split | intro _

theorem provJudge_only {m : Nat} {s₀ : State} (hm : 104267579388 ||| m = m) (s : State) (d : Nat) (i : Nat) (r : Nat)
    (ts : Nat) (p : Nat) (x7 : Accept) (found : Nat)
    (h_s : Only m s₀ s) : Only m s₀ (provJudge s d i r ts p x7 found) := by
  unfold provJudge
  try dsimp only
  with_reducible
    repeat'
      first
      | assumption | exact mask_trans (by decide) hm | apply enterTracking_only | apply provFail_only
      | (apply Only.foldl; intro u a hu; try dsimp only) | apply Only.ite | split | intro _

theorem acceptProv_only {m : Nat} {s₀ : State} (hm : 104267579388 ||| m = m) (s : State) (d : Nat) (x3 : Accept)
    (h_s : Only m s₀ s) : Only m s₀ (acceptProv s d x3) := by
  unfold acceptProv
  try dsimp only
  with_reducible
    repeat'
      first
      | assumption | exact mask_trans (by decide) hm | apply State.setDom_only | apply acceptTooth_only
      | apply gapReject_only | apply provJudge_only | (apply Only.foldl; intro u a hu; try dsimp only) | apply Only.ite
      | split | intro _

theorem acceptAny_only {m : Nat} {s₀ : State} (hm : 104267579388 ||| m = m) (s : State) (d : Nat) (x3 : Accept)
    (h_s : Only m s₀ s) : Only m s₀ (acceptAny s d x3) := by
  unfold acceptAny
  try dsimp only
  with_reducible
    repeat'
      first
      | assumption | exact mask_trans (by decide) hm | apply acceptTooth_only | apply acceptProv_only
      | (apply Only.foldl; intro u a hu; try dsimp only) | apply Only.ite | split | intro _

theorem acceptSuspect_only {m : Nat} {s₀ : State} (hm : 104267579388 ||| m = m) (s : State) (d : Nat) (ts1 : Nat)
    (p1 : Nat) (how : Nat) (quiet : Bool) (h_s : Only m s₀ s) : Only m s₀ (acceptSuspect s d ts1 p1 how quiet) := by
  unfold acceptSuspect
  try dsimp only
  with_reducible
    repeat'
      first
      | assumption | exact mask_trans (by decide) hm | apply State.setDom_only | apply acceptAny_only
      | (apply Only.foldl; intro u a hu; try dsimp only) | apply Only.ite | split | intro _

theorem mechAdvance_only {m : Nat} {s₀ : State} (hm : 104234024956 ||| m = m) (s : State) (d : Nat)
    (h_s : Only m s₀ s) : Only m s₀ (mechAdvance s d) := by
  unfold mechAdvance
  try dsimp only
  with_reducible
    repeat'
      first
      | assumption | exact mask_trans (by decide) hm | apply moveAngle_only
      | (apply Only.foldl; intro u a hu; try dsimp only) | apply Only.ite | split | intro _

theorem camInRev_only {m : Nat} {s₀ : State} (hm : 68766989300 ||| m = m) (s : State) (d : Nat) (l : List Nat)
    (h_s : Only m s₀ s) : Only m s₀ (camInRev s d l) := by
  unfold camInRev
  try dsimp only
  with_reducible
    repeat'
      first
      | assumption | exact mask_trans (by decide) hm | apply State.setDom_only | apply State.cntSat_only
      | apply setAngle_only | apply setSync_only | (apply Only.foldl; intro u a hu; try dsimp only) | apply Only.ite
      | split | intro _

theorem camInCycle_only {m : Nat} {s₀ : State} (hm : 68766989300 ||| m = m) (s : State) (d : Nat) (ang : Nat) (pol : Bool)
    (h_s : Only m s₀ s) : Only m s₀ (camInCycle s d ang pol) := by
  unfold camInCycle
  try dsimp only
  with_reducible
    repeat'
      first
      | assumption | exact mask_trans (by decide) hm | apply State.setDom_only | apply State.cntSat_only
      | apply setSync_only | (apply Only.foldl; intro u a hu; try dsimp only) | apply Only.ite | split | intro _

theorem camJudge_only {m : Nat} {s₀ : State} (hm : 104267579388 ||| m = m) (s : State) (d : Nat) (ts : Nat) (pol : Bool)
    (h_s : Only m s₀ s) : Only m s₀ (camJudge s d ts pol) := by
  unfold camJudge
  try dsimp only
  with_reducible
    repeat'
      first
      | assumption | exact mask_trans (by decide) hm | apply mechAdvance_only | apply camInCycle_only
      | apply camInRev_only | apply setSync_only | (apply Only.foldl; intro u a hu; try dsimp only) | apply Only.ite
      | split | intro _

theorem camTake_only {m : Nat} {s₀ : State} (hm : 104267579388 ||| m = m) (s : State) (d : Nat) (ts : Nat) (pol : Bool)
    (h_s : Only m s₀ s) : Only m s₀ (camTake s d ts pol) := by
  unfold camTake
  try dsimp only
  with_reducible
    repeat'
      first
      | assumption | exact mask_trans (by decide) hm | apply camJudge_only
      | (apply Only.foldl; intro u a hu; try dsimp only) | apply Only.ite | split | intro _

theorem camRelease_only {m : Nat} {s₀ : State} (hm : 104267579388 ||| m = m) (s : State) (d : Nat) (p : Nat × Bool → Bool)
    (h_s : Only m s₀ s) : Only m s₀ (camRelease s d p) := by
  unfold camRelease
  try dsimp only
  with_reducible
    repeat'
      first
      | assumption | exact mask_trans (by decide) hm | apply hp | apply State.setDom_only | apply camTake_only
      | (apply Only.foldl; intro u a hu; try dsimp only) | apply Only.ite | split | intro _

theorem camDue_only {m : Nat} {s₀ : State} (hm : 104267579388 ||| m = m) (s : State) (d : Nat)
    (h_s : Only m s₀ s) : Only m s₀ (camDue s d) := by
  unfold camDue
  try dsimp only
  with_reducible
    repeat'
      first
      | assumption | exact mask_trans (by decide) hm | apply camRelease_only
      | (apply Only.foldl; intro u a hu; try dsimp only) | apply Only.ite | split | intro _

theorem profileTouched_only {m : Nat} {s₀ : State} (hm : 33312 ||| m = m) (s : State) (d : Nat)
    (h_s : Only m s₀ s) : Only m s₀ (profileTouched s d) := by
  unfold profileTouched
  try dsimp only
  with_reducible
    repeat'
      first
      | assumption | exact mask_trans (by decide) hm | apply learnAbort_only
      | (apply Only.foldl; intro u a hu; try dsimp only) | apply Only.ite | split | intro _

theorem mechEnable_only {m : Nat} {s₀ : State} (hm : 32772 ||| m = m) (s : State) (d : Nat)
    (h_s : Only m s₀ s) : Only m s₀ (mechEnable s d) := by
  unfold mechEnable
  try dsimp only
  with_reducible
    repeat'
      first
      | assumption | exact mask_trans (by decide) hm | apply State.setDom_only | apply State.setRf_only
      | (apply Only.foldl; intro u a hu; try dsimp only) | apply Only.ite | split | intro _

theorem learnStart_only {m : Nat} {s₀ : State} (hm : 32768 ||| m = m) (s : State) (d : Nat)
    (h_s : Only m s₀ s) : Only m s₀ (learnStart s d) := by
  unfold learnStart
  try dsimp only
  with_reducible
    repeat'
      first
      | assumption | exact mask_trans (by decide) hm | apply State.setDom_only
      | (apply Only.foldl; intro u a hu; try dsimp only) | apply Only.ite | split | intro _

theorem bareEdge_only {m : Nat} {s₀ : State} (hm : 32772 ||| m = m) (s : State) (d : Nat) (ts : Nat)
    (h_s : Only m s₀ s) : Only m s₀ (bareEdge s d ts) := by
  unfold bareEdge
  try dsimp only
  with_reducible
    repeat'
      first
      | assumption | exact mask_trans (by decide) hm | apply State.setReg_only | apply State.setDom_only
      | (apply Only.foldl; intro u a hu; try dsimp only) | apply Only.ite | split | intro _

theorem camEdge_only {m : Nat} {s₀ : State} (hm : 104267579388 ||| m = m) (s : State) (d : Nat) (ts : Nat) (lv : Int)
    (h_s : Only m s₀ s) : Only m s₀ (camEdge s d ts lv) := by
  unfold camEdge
  try dsimp only
  with_reducible
    repeat'
      first
      | assumption | exact mask_trans (by decide) hm | apply State.setDom_only | apply camTake_only | apply camDue_only
      | (apply Only.foldl; intro u a hu; try dsimp only) | apply Only.ite | split | intro _

theorem edgeNone_only {m : Nat} {s₀ : State} (hm : 68766989300 ||| m = m) (s : State) (d : Nat) (ts : Nat) (fwd : Bool)
    (h_s : Only m s₀ s) : Only m s₀ (edgeNone s d ts fwd) := by
  unfold edgeNone
  try dsimp only
  with_reducible
    repeat'
      first
      | assumption | exact mask_trans (by decide) hm | apply State.setDom_only | apply bareEdge_only | apply setSync_only
      | (apply Only.foldl; intro u a hu; try dsimp only) | apply Only.ite | split | intro _

theorem provFirst_only {m : Nat} {s₀ : State} (hm : 68732093228 ||| m = m) (s : State) (d : Nat) (ts : Nat)
    (h_s : Only m s₀ s) : Only m s₀ (provFirst s d ts) := by
  unfold provFirst
  try dsimp only
  with_reducible
    repeat'
      first
      | assumption | exact .inr (mask_bit hm (by decide)) | exact .inl rfl | exact mask_trans (by decide) hm
      | apply State.setDom_only | apply toothRecord_only | apply jumpCheck_only | apply revStart_only
      | apply setAngle_only | (apply Only.foldl; intro u a hu; try dsimp only) | apply Only.ite | split | intro _
      | refine Only.written rfl ?_ ?_ ?_ ?_ ?_ ?_ ?_ ?_ ?_ ?_ ?_ ?_ ?_ ?_ ?_ ?_ ?_ ?_ ?_ ?_ ?_ ?_ ?_ ?_ ?_ ?_ ?_ ?_ ?_ ?_ ?_ ?_ ?_ ?_ ?_ ?_ ?_ ?_

theorem judgeEdge_only {m : Nat} {s₀ : State} (hm : 104267579388 ||| m = m) (s : State) (d : Nat) (ts : Nat) (how : Nat)
    (jtraj : Option Traj) (h_s : Only m s₀ s) : Only m s₀ (judgeEdge s d ts how jtraj) := by
  unfold judgeEdge
  try dsimp only
  with_reducible
    repeat'
      first
      | assumption | exact mask_trans (by decide) hm | apply State.setDom_only | apply provFirst_only
      | apply acceptAny_only | apply setSync_only | (apply Only.foldl; intro u a hu; try dsimp only) | apply Only.ite
      | split | intro _

theorem resolveSuspect_only {m : Nat} {s₀ : State} (hm : 104267579388 ||| m = m) (s : State) (d : Nat) (ts : Nat)
    (ts1 : Nat) (p1 : Nat) (h_s : Only m s₀ s) : Only m s₀ (resolveSuspect s d ts ts1 p1) := by
  unfold resolveSuspect
  try dsimp only
  with_reducible
    repeat'
      first
      | assumption | exact mask_trans (by decide) hm | apply acceptSuspect_only | apply State.setDom_only
      | apply State.cntSat_only | apply noiseCount_only | apply judgeEdge_only
      | (apply Only.foldl; intro u a hu; try dsimp only) | apply Only.ite | split | intro _

theorem trackForward_only {m : Nat} {s₀ : State} (hm : 104267579388 ||| m = m) (s : State) (d : Nat) (ts : Nat)
    (h_s : Only m s₀ s) : Only m s₀ (trackForward s d ts) := by
  unfold trackForward
  try dsimp only
  with_reducible
    repeat'
      first
      | assumption | exact mask_trans (by decide) hm | apply resolveSuspect_only | apply judgeEdge_only
      | (apply Only.foldl; intro u a hu; try dsimp only) | apply Only.ite | split | intro _

theorem edgeTooth_only {m : Nat} {s₀ : State} (hm : 104267579388 ||| m = m) (s : State) (d : Nat) (ts : Nat) (fwd : Bool)
    (h_s : Only m s₀ s) : Only m s₀ (edgeTooth s d ts fwd) := by
  unfold edgeTooth
  try dsimp only
  with_reducible
    repeat'
      first
      | assumption | exact mask_trans (by decide) hm | apply enterTracking_only | apply State.setDom_only
      | apply gapReject_only | apply bareEdge_only | (apply Only.foldl; intro u a hu; try dsimp only) | apply Only.ite
      | split | intro _

theorem stallReturn_only {m : Nat} {s₀ : State} (hm : 104267579388 ||| m = m) (s : State) (d : Nat) (ts : Nat)
    (h_s : Only m s₀ s) : Only m s₀ (stallReturn s d ts) := by
  unfold stallReturn
  try dsimp only
  with_reducible
    repeat'
      first
      | assumption | exact mask_trans (by decide) hm | apply acceptTooth_only | apply setSync_only
      | (apply Only.foldl; intro u a hu; try dsimp only) | apply Only.ite | split | intro _

theorem edgeStall_only {m : Nat} {s₀ : State} (hm : 104267579388 ||| m = m) (s : State) (d : Nat) (ts : Nat) (fwd : Bool)
    (h_s : Only m s₀ s) : Only m s₀ (edgeStall s d ts fwd) := by
  unfold edgeStall
  try dsimp only
  with_reducible
    repeat'
      first
      | assumption | exact mask_trans (by decide) hm | apply State.setDom_only | apply stallReturn_only
      | apply bareEdge_only | apply setSync_only | (apply Only.foldl; intro u a hu; try dsimp only) | apply Only.ite
      | split | intro _

theorem edgeReverse_only {m : Nat} {s₀ : State} (hm : 68766989300 ||| m = m) (s : State) (d : Nat) (ts : Nat) (fwd : Bool)
    (h_s : Only m s₀ s) : Only m s₀ (edgeReverse s d ts fwd) := by
  unfold edgeReverse
  try dsimp only
  with_reducible
    repeat'
      first
      | assumption | exact mask_trans (by decide) hm | apply State.setDom_only | apply bareEdge_only | apply setSync_only
      | (apply Only.foldl; intro u a hu; try dsimp only) | apply Only.ite | split | intro _

theorem edgeLost_only {m : Nat} {s₀ : State} (hm : 68766989300 ||| m = m) (s : State) (d : Nat) (ts : Nat) (fwd : Bool)
    (h_s : Only m s₀ s) : Only m s₀ (edgeLost s d ts fwd) := by
  unfold edgeLost
  try dsimp only
  with_reducible
    repeat'
      first
      | assumption | exact mask_trans (by decide) hm | apply State.setDom_only | apply edgeNone_only | apply setSync_only
      | (apply Only.foldl; intro u a hu; try dsimp only) | apply Only.ite | split | intro _

theorem processEdge_only {m : Nat} {s₀ : State} (hm : 104267579388 ||| m = m) (s : State) (d : Nat) (ts : Nat)
    (fwd : Bool) (h_s : Only m s₀ s) : Only m s₀ (processEdge s d ts fwd) := by
  unfold processEdge
  try dsimp only
  with_reducible
    repeat'
      first
      | assumption | exact mask_trans (by decide) hm | apply trackForward_only | apply State.setDom_only
      | apply edgeReverse_only | apply edgeTooth_only | apply edgeStall_only | apply edgeNone_only | apply provFail_only
      | apply edgeLost_only | apply setSync_only | (apply Only.foldl; intro u a hu; try dsimp only) | apply Only.ite
      | split | intro _

theorem noteDir_only {m : Nat} {s₀ : State} (hm : 32768 ||| m = m) (s : State) (d : Nat) (fwd : Bool) (known : Bool)
    (h_s : Only m s₀ s) : Only m s₀ (noteDir s d fwd known) := by
  unfold noteDir
  try dsimp only
  with_reducible
    repeat'
      first
      | assumption | exact mask_trans (by decide) hm | apply State.setDom_only
      | (apply Only.foldl; intro u a hu; try dsimp only) | apply Only.ite | split | intro _

theorem crankActive_only {m : Nat} {s₀ : State} (hm : 104267579388 ||| m = m) (s : State) (d : Nat) (ts : Nat)
    (dir : Option Bool) (h_s : Only m s₀ s) : Only m s₀ (crankActive s d ts dir) := by
  unfold crankActive
  try dsimp only
  with_reducible
    repeat'
      first
      | assumption | exact mask_trans (by decide) hm | apply State.setDom_only | apply State.cntSat_only
      | apply processEdge_only | apply mechAdvance_only | apply noteDir_only
      | (apply Only.foldl; intro u a hu; try dsimp only) | apply Only.ite | split | intro _

theorem crankEdge_only {m : Nat} {s₀ : State} (hm : 104267579388 ||| m = m) (s : State) (d : Nat) (ts : Nat) (lv : Int)
    (dir : Option Bool) (h_s : Only m s₀ s) : Only m s₀ (crankEdge s d ts lv dir) := by
  unfold crankEdge
  try dsimp only
  with_reducible
    repeat'
      first
      | assumption | exact mask_trans (by decide) hm | apply State.setDom_only | apply crankActive_only
      | apply camRelease_only | (apply Only.foldl; intro u a hu; try dsimp only) | apply Only.ite | split | intro _

theorem pulseDone_only {m : Nat} {s₀ : State} (hm : 104267579388 ||| m = m) (s : State) (d : Nat) (ts : Nat) (fwd : Bool)
    (h_s : Only m s₀ s) : Only m s₀ (pulseDone s d ts fwd) := by
  unfold pulseDone
  try dsimp only
  with_reducible
    repeat'
      first
      | assumption | exact mask_trans (by decide) hm | apply State.setDom_only | apply processEdge_only
      | apply mechAdvance_only | apply camRelease_only | apply noteDir_only
      | (apply Only.foldl; intro u a hu; try dsimp only) | apply Only.ite | split | intro _

theorem crankTrailing_only {m : Nat} {s₀ : State} (hm : 104267579388 ||| m = m) (s : State) (d : Nat) (ts : Nat)
    (h_s : Only m s₀ s) : Only m s₀ (crankTrailing s d ts) := by
  unfold crankTrailing
  try dsimp only
  with_reducible
    repeat'
      first
      | assumption | exact mask_trans (by decide) hm | apply State.setDom_only | apply pulseDone_only
      | (apply Only.foldl; intro u a hu; try dsimp only) | apply Only.ite | split | intro _

theorem duskArm_only {m : Nat} {s₀ : State} (hm : 32768 ||| m = m) (s : State) (d : Nat) (cam : Bool) (mv : Int)
    (h_s : Only m s₀ s) : Only m s₀ (duskArm s d cam mv) := by
  unfold duskArm
  try dsimp only
  with_reducible
    repeat'
      first
      | assumption | exact mask_trans (by decide) hm | apply State.setDom_only
      | (apply Only.foldl; intro u a hu; try dsimp only) | apply Only.ite | split | intro _

theorem vrIdle_only {m : Nat} {s₀ : State} (hm : 32768 ||| m = m) (s : State) (d : Nat)
    (h_s : Only m s₀ s) : Only m s₀ (vrIdle s d) := by
  unfold vrIdle
  try dsimp only
  with_reducible
    repeat'
      first
      | assumption | exact mask_trans (by decide) hm | apply State.setDom_only
      | (apply Only.foldl; intro u a hu; try dsimp only) | apply Only.ite | split | intro _

theorem edgeTimeout_only {m : Nat} {s₀ : State} (hm : 104267579388 ||| m = m) (s : State) (d : Nat) (raw : Option Nat)
    (h_s : Only m s₀ s) : Only m s₀ (edgeTimeout s d raw) := by
  unfold edgeTimeout
  try dsimp only
  with_reducible
    repeat'
      first
      | assumption | exact mask_trans (by decide) hm | apply State.setDom_only | apply setSync_only | apply vrIdle_only
      | apply camDue_only | (apply Only.foldl; intro u a hu; try dsimp only) | apply Only.ite | split | intro _

theorem stallTimeout_only {m : Nat} {s₀ : State} (hm : 104267579388 ||| m = m) (s : State) (d : Nat) (raw : Option Nat)
    (h_s : Only m s₀ s) : Only m s₀ (stallTimeout s d raw) := by
  unfold stallTimeout
  try dsimp only
  with_reducible
    repeat'
      first
      | assumption | exact mask_trans (by decide) hm | apply mechAdvance_only | apply setSync_only | apply camDue_only
      | (apply Only.foldl; intro u a hu; try dsimp only) | apply Only.ite | split | intro _

theorem vrArm_only {m : Nat} {s₀ : State} (hm : 32768 ||| m = m) (s : State) (d : Nat) (cam : Bool) (mv : Int)
    (h_s : Only m s₀ s) : Only m s₀ (vrArm s d cam mv) := by
  unfold vrArm
  try dsimp only
  with_reducible
    repeat'
      first
      | assumption | exact mask_trans (by decide) hm | apply State.setDom_only | apply vrIdle_only
      | (apply Only.foldl; intro u a hu; try dsimp only) | apply Only.ite | split | intro _

theorem widthExpiry_only {m : Nat} {s₀ : State} (hm : 104267579388 ||| m = m) (s : State) (d : Nat)
    (h_s : Only m s₀ s) : Only m s₀ (widthExpiry s d) := by
  unfold widthExpiry
  try dsimp only
  with_reducible
    repeat'
      first
      | assumption | exact mask_trans (by decide) hm | apply pulseDone_only
      | (apply Only.foldl; intro u a hu; try dsimp only) | apply Only.ite | split | intro _

end Sys2Proof.Machine
end

