-- ==== Sys2Proof/Laws/Electrical.lean ====
section
/-!
SUPPORT. Machine/Electrical.lean: every operation of it keeps what `Keeps` says, and changes only the parts of its mask.
-/
set_option linter.unusedTactic false
set_option linter.unreachableTactic false
set_option linter.unusedVariables false

namespace Sys2Proof.Machine

theorem elecAdvance_keeps {s₀ : State} (s : State) (d : Nat) (h_s : Keeps s₀ s) : Keeps s₀ (elecAdvance s d) := by
  unfold elecAdvance
  try dsimp only
  with_reducible
    repeat'
      first
      | assumption | apply moveAngle_keeps | (apply Keeps.foldl; intro u a hu; try dsimp only) | apply Keeps.ite | split
      | intro _ | refine Keeps.written rfl rfl rfl rfl rfl rfl rfl rfl ?_

theorem angleStep_keeps {s₀ : State} (s : State) (d : Nat) (h_s : Keeps s₀ s) : Keeps s₀ (angleStep s d) := by
  unfold angleStep
  try dsimp only
  with_reducible
    repeat'
      first
      | assumption | apply mechAdvance_keeps | apply elecAdvance_keeps | apply camDue_keeps
      | (apply Keeps.foldl; intro u a hu; try dsimp only) | apply Keeps.ite | split | intro _
      | refine Keeps.written rfl rfl rfl rfl rfl rfl rfl rfl ?_

theorem anglesTo_keeps {s₀ : State} (s : State) (n : Nat) (h_s : Keeps s₀ s) : Keeps s₀ (anglesTo s n) := by
  unfold anglesTo
  try dsimp only
  with_reducible
    repeat'
      first
      | assumption | apply angleStep_keeps | (apply Keeps.foldl; intro u a hu; try dsimp only) | apply Keeps.ite | split
      | intro _ | refine Keeps.written rfl rfl rfl rfl rfl rfl rfl rfl ?_

theorem angleUpdate_keeps {s₀ : State} (s : State) (d : Nat) (h_s : Keeps s₀ s) : Keeps s₀ (angleUpdate s d) := by
  unfold angleUpdate
  try dsimp only
  with_reducible
    repeat'
      first
      | assumption | apply angleStep_keeps | apply anglesTo_keeps | (apply Keeps.foldl; intro u a hu; try dsimp only)
      | apply Keeps.ite | split | intro _ | refine Keeps.written rfl rfl rfl rfl rfl rfl rfl rfl ?_

theorem mechToNone_keeps {s₀ : State} (s : State) (d : Nat) (h_s : Keeps s₀ s) : Keeps s₀ (mechToNone s d) := by
  unfold mechToNone
  try dsimp only
  with_reducible
    repeat'
      first
      | assumption | apply State.setDom_keeps | apply setSync_keeps | (apply Keeps.foldl; intro u a hu; try dsimp only)
      | apply Keeps.ite | split | intro _ | refine Keeps.written rfl rfl rfl rfl rfl rfl rfl rfl ?_

theorem syncUndef_keeps {s₀ : State} (s : State) (d : Nat) (h_s : Keeps s₀ s) : Keeps s₀ (syncUndef s d) := by
  unfold syncUndef
  try dsimp only
  with_reducible
    repeat'
      first
      | assumption | apply tlmUndef_keeps | (apply Keeps.foldl; intro u a hu; try dsimp only) | apply Keeps.ite | split
      | intro _ | refine Keeps.written rfl rfl rfl rfl rfl rfl rfl rfl ?_

theorem setElecSync_keeps {s₀ : State} (s : State) (d : Nat) (new : SyncSt) (h_s : Keeps s₀ s)
    : Keeps s₀ (setElecSync s d new) := by
  unfold setElecSync
  try dsimp only
  with_reducible
    repeat'
      first
      | assumption | apply State.arrive_keeps | apply State.setEl_keeps | apply countEntry_keeps | apply syncUndef_keeps
      | apply schedSync_keeps | apply setAngle_keeps | (apply Keeps.foldl; intro u a hu; try dsimp only) | apply Keeps.ite
      | split | intro _ | refine Keeps.written rfl rfl rfl rfl rfl rfl rfl rfl ?_

theorem toNone_keeps {s₀ : State} (s : State) (d : Nat) (h_s : Keeps s₀ s) : Keeps s₀ (toNone s d) := by
  unfold toNone
  try dsimp only
  with_reducible
    repeat'
      first
      | assumption | apply setElecSync_keeps | apply State.setEl_keeps | apply mechToNone_keeps
      | (apply Keeps.foldl; intro u a hu; try dsimp only) | apply Keeps.ite | split | intro _
      | refine Keeps.written rfl rfl rfl rfl rfl rfl rfl rfl ?_

theorem domainEnable_keeps {s₀ : State} (s : State) (d : Nat) (h_s : Keeps s₀ s) : Keeps s₀ (domainEnable s d) := by
  unfold domainEnable
  try dsimp only
  with_reducible
    repeat'
      first
      | assumption | apply State.setRf_keeps | apply mechEnable_keeps | (apply Keeps.foldl; intro u a hu; try dsimp only)
      | apply Keeps.ite | split | intro _ | refine Keeps.written rfl rfl rfl rfl rfl rfl rfl rfl ?_

theorem dropEdges_keeps {s₀ : State} (s : State) (d : Nat) (h_s : Keeps s₀ s) : Keeps s₀ (dropEdges s d) := by
  unfold dropEdges
  try dsimp only
  with_reducible
    repeat'
      first
      | assumption | apply State.setDom_keeps | (apply Keeps.foldl; intro u a hu; try dsimp only) | apply Keeps.ite
      | split | intro _ | refine Keeps.written rfl rfl rfl rfl rfl rfl rfl rfl ?_

theorem domainDisable_keeps {s₀ : State} (s : State) (d : Nat) (h_s : Keeps s₀ s) : Keeps s₀ (domainDisable s d) := by
  unfold domainDisable
  try dsimp only
  with_reducible
    repeat'
      first
      | assumption | apply State.setRf_keeps | apply dropEdges_keeps | apply toNone_keeps
      | (apply Keeps.foldl; intro u a hu; try dsimp only) | apply Keeps.ite | split | intro _
      | refine Keeps.written rfl rfl rfl rfl rfl rfl rfl rfl ?_

theorem linkReview_keeps {s₀ : State} (s : State) (h_s : Keeps s₀ s) : Keeps s₀ (linkReview s) := by
  unfold linkReview
  try dsimp only
  with_reducible
    repeat'
      first
      | assumption | apply setElecSync_keeps | apply State.setEl_keeps | apply moveAngle_keeps | apply setAngle_keeps
      | (apply Keeps.foldl; intro u a hu; try dsimp only) | apply Keeps.ite | split | intro _
      | refine Keeps.written rfl rfl rfl rfl rfl rfl rfl rfl ?_

theorem syncArm_keeps {s₀ : State} (s : State) (h_s : Keeps s₀ s) : Keeps s₀ (syncArm s) := by
  unfold syncArm
  try dsimp only
  with_reducible
    repeat'
      first
      | assumption | (apply Keeps.foldl; intro u a hu; try dsimp only) | apply Keeps.ite | split | intro _
      | refine Keeps.written rfl rfl rfl rfl rfl rfl rfl rfl ?_

theorem syncCancel_keeps {s₀ : State} (s : State) (h_s : Keeps s₀ s) : Keeps s₀ (syncCancel s) := by
  unfold syncCancel
  try dsimp only
  with_reducible
    repeat'
      first
      | assumption | (apply Keeps.foldl; intro u a hu; try dsimp only) | apply Keeps.ite | split | intro _
      | refine Keeps.written rfl rfl rfl rfl rfl rfl rfl rfl ?_

theorem peakTake_keeps {s₀ : State} (s : State) (d : Nat) (h_s : Keeps s₀ s) : Keeps s₀ (peakTake s d) := by
  unfold peakTake
  try dsimp only
  with_reducible
    repeat'
      first
      | assumption | apply State.setRf_keeps | apply State.setEl_keeps | (apply Keeps.foldl; intro u a hu; try dsimp only)
      | apply Keeps.ite | split | intro _ | refine Keeps.written rfl rfl rfl rfl rfl rfl rfl rfl ?_

theorem crossingSync_keeps {s₀ : State} (s : State) (d : Nat) (x3 : Elec) (n : Option Nat) (h_s : Keeps s₀ s)
    : Keeps s₀ (crossingSync s d x3 n) := by
  unfold crossingSync
  try dsimp only
  with_reducible
    repeat'
      first
      | assumption | apply setElecSync_keeps | apply State.setEl_keeps | (apply Keeps.foldl; intro u a hu; try dsimp only)
      | apply Keeps.ite | split | intro _ | refine Keeps.written rfl rfl rfl rfl rfl rfl rfl rfl ?_

theorem crossing_keeps {s₀ : State} (s : State) (d : Nat) (z : Nat) (refined : Bool) (h_s : Keeps s₀ s)
    : Keeps s₀ (crossing s d z refined) := by
  unfold crossing
  try dsimp only
  with_reducible
    repeat'
      first
      | assumption | apply crossingSync_keeps | apply State.setEl_keeps | apply moveAngle_keeps | apply peakTake_keeps
      | apply setAngle_keeps | (apply Keeps.foldl; intro u a hu; try dsimp only) | apply Keeps.ite | split | intro _
      | refine Keeps.written rfl rfl rfl rfl rfl rfl rfl rfl ?_

theorem elecNone_keeps {s₀ : State} (s : State) (d : Nat) (h_s : Keeps s₀ s) : Keeps s₀ (elecNone s d) := by
  unfold elecNone
  try dsimp only
  with_reducible
    repeat'
      first
      | assumption | apply setElecSync_keeps | (apply Keeps.foldl; intro u a hu; try dsimp only) | apply Keeps.ite | split
      | intro _ | refine Keeps.written rfl rfl rfl rfl rfl rfl rfl rfl ?_

theorem elecStall_keeps {s₀ : State} (s : State) (d : Nat) (h_s : Keeps s₀ s) : Keeps s₀ (elecStall s d) := by
  unfold elecStall
  try dsimp only
  with_reducible
    repeat'
      first
      | assumption | apply setElecSync_keeps | apply elecAdvance_keeps | (apply Keeps.foldl; intro u a hu; try dsimp only)
      | apply Keeps.ite | split | intro _ | refine Keeps.written rfl rfl rfl rfl rfl rfl rfl rfl ?_

theorem syncFire_keeps {s₀ : State} (s : State) (h_s : Keeps s₀ s) : Keeps s₀ (syncFire s) := by
  unfold syncFire
  try dsimp only
  with_reducible
    repeat'
      first
      | assumption | apply State.setReg_keeps | apply State.arrive_keeps | apply State.setRf_keeps | apply reelEvent_keeps
      | (apply Keeps.foldl; intro u a hu; try dsimp only) | apply Keeps.ite | split | intro _
      | refine Keeps.written rfl rfl rfl rfl rfl rfl rfl rfl ?_

theorem syncEval_keeps {s₀ : State} (s : State) (h_s : Keeps s₀ s) : Keeps s₀ (syncEval s) := by
  unfold syncEval
  try dsimp only
  with_reducible
    repeat'
      first
      | assumption | apply State.setReg_keeps | apply State.setRf_keeps | apply syncFire_keeps
      | (apply Keeps.foldl; intro u a hu; try dsimp only) | apply Keeps.ite | split | intro _
      | refine Keeps.written rfl rfl rfl rfl rfl rfl rfl rfl ?_

theorem syncCheckEval_keeps {s₀ : State} (s : State) (h_s : Keeps s₀ s) : Keeps s₀ (syncCheckEval s) := by
  unfold syncCheckEval
  try dsimp only
  with_reducible
    repeat'
      first
      | assumption | apply syncEval_keeps | (apply Keeps.foldl; intro u a hu; try dsimp only) | apply Keeps.ite | split
      | intro _ | refine Keeps.written rfl rfl rfl rfl rfl rfl rfl rfl ?_

theorem syncTimeout_keeps {s₀ : State} (s : State) (h_s : Keeps s₀ s) : Keeps s₀ (syncTimeout s) := by
  unfold syncTimeout
  try dsimp only
  with_reducible
    repeat'
      first
      | assumption | apply State.setRf_keeps | (apply Keeps.foldl; intro u a hu; try dsimp only) | apply Keeps.ite | split
      | intro _ | refine Keeps.written rfl rfl rfl rfl rfl rfl rfl rfl ?_

theorem zeroCrossing_keeps {s₀ : State} (s : State) (d : Nat) (h_s : Keeps s₀ s) : Keeps s₀ (zeroCrossing s d) := by
  unfold zeroCrossing
  try dsimp only
  with_reducible
    repeat'
      first
      | assumption | apply State.setWin_keeps | apply elecAdvance_keeps | apply crossing_keeps
      | (apply Keeps.foldl; intro u a hu; try dsimp only) | apply Keeps.ite | split | intro _
      | refine Keeps.written rfl rfl rfl rfl rfl rfl rfl rfl ?_

theorem elecAdvance_only {m : Nat} {s₀ : State} (hm : 104234024956 ||| m = m) (s : State) (d : Nat)
    (h_s : Only m s₀ s) : Only m s₀ (elecAdvance s d) := by
  unfold elecAdvance
  try dsimp only
  with_reducible
    repeat'
      first
      | assumption | exact mask_trans (by decide) hm | apply moveAngle_only
      | (apply Only.foldl; intro u a hu; try dsimp only) | apply Only.ite | split | intro _

theorem angleStep_only {m : Nat} {s₀ : State} (hm : 104267579388 ||| m = m) (s : State) (d : Nat)
    (h_s : Only m s₀ s) : Only m s₀ (angleStep s d) := by
  unfold angleStep
  try dsimp only
  with_reducible
    repeat'
      first
      | assumption | exact mask_trans (by decide) hm | apply mechAdvance_only | apply elecAdvance_only | apply camDue_only
      | (apply Only.foldl; intro u a hu; try dsimp only) | apply Only.ite | split | intro _

theorem anglesTo_only {m : Nat} {s₀ : State} (hm : 104267579388 ||| m = m) (s : State) (n : Nat)
    (h_s : Only m s₀ s) : Only m s₀ (anglesTo s n) := by
  unfold anglesTo
  try dsimp only
  with_reducible
    repeat'
      first
      | assumption | exact mask_trans (by decide) hm | apply angleStep_only
      | (apply Only.foldl; intro u a hu; try dsimp only) | apply Only.ite | split | intro _

theorem angleUpdate_only {m : Nat} {s₀ : State} (hm : 104267579388 ||| m = m) (s : State) (d : Nat)
    (h_s : Only m s₀ s) : Only m s₀ (angleUpdate s d) := by
  unfold angleUpdate
  try dsimp only
  with_reducible
    repeat'
      first
      | assumption | exact mask_trans (by decide) hm | apply angleStep_only | apply anglesTo_only
      | (apply Only.foldl; intro u a hu; try dsimp only) | apply Only.ite | split | intro _

theorem mechToNone_only {m : Nat} {s₀ : State} (hm : 68766989300 ||| m = m) (s : State) (d : Nat)
    (h_s : Only m s₀ s) : Only m s₀ (mechToNone s d) := by
  unfold mechToNone
  try dsimp only
  with_reducible
    repeat'
      first
      | assumption | exact mask_trans (by decide) hm | apply State.setDom_only | apply setSync_only
      | (apply Only.foldl; intro u a hu; try dsimp only) | apply Only.ite | split | intro _

theorem syncUndef_only {m : Nat} {s₀ : State} (hm : 68719477300 ||| m = m) (s : State) (d : Nat)
    (h_s : Only m s₀ s) : Only m s₀ (syncUndef s d) := by
  unfold syncUndef
  try dsimp only
  with_reducible
    repeat'
      first
      | assumption | exact mask_trans (by decide) hm | apply tlmUndef_only
      | (apply Only.foldl; intro u a hu; try dsimp only) | apply Only.ite | split | intro _

theorem setElecSync_only {m : Nat} {s₀ : State} (hm : 68767022068 ||| m = m) (s : State) (d : Nat) (new : SyncSt)
    (h_s : Only m s₀ s) : Only m s₀ (setElecSync s d new) := by
  unfold setElecSync
  try dsimp only
  with_reducible
    repeat'
      first
      | assumption | exact mask_trans (by decide) hm | apply State.arrive_only | apply State.setEl_only
      | apply countEntry_only | apply syncUndef_only | apply schedSync_only | apply setAngle_only
      | (apply Only.foldl; intro u a hu; try dsimp only) | apply Only.ite | split | intro _

theorem toNone_only {m : Nat} {s₀ : State} (hm : 68767054836 ||| m = m) (s : State) (d : Nat)
    (h_s : Only m s₀ s) : Only m s₀ (toNone s d) := by
  unfold toNone
  try dsimp only
  with_reducible
    repeat'
      first
      | assumption | exact mask_trans (by decide) hm | apply setElecSync_only | apply State.setEl_only
      | apply mechToNone_only | (apply Only.foldl; intro u a hu; try dsimp only) | apply Only.ite | split | intro _

theorem domainEnable_only {m : Nat} {s₀ : State} (hm : 32772 ||| m = m) (s : State) (d : Nat)
    (h_s : Only m s₀ s) : Only m s₀ (domainEnable s d) := by
  unfold domainEnable
  try dsimp only
  with_reducible
    repeat'
      first
      | assumption | exact mask_trans (by decide) hm | apply State.setRf_only | apply mechEnable_only
      | (apply Only.foldl; intro u a hu; try dsimp only) | apply Only.ite | split | intro _

theorem dropEdges_only {m : Nat} {s₀ : State} (hm : 32768 ||| m = m) (s : State) (d : Nat)
    (h_s : Only m s₀ s) : Only m s₀ (dropEdges s d) := by
  unfold dropEdges
  try dsimp only
  with_reducible
    repeat'
      first
      | assumption | exact mask_trans (by decide) hm | apply State.setDom_only
      | (apply Only.foldl; intro u a hu; try dsimp only) | apply Only.ite | split | intro _

theorem domainDisable_only {m : Nat} {s₀ : State} (hm : 68767054836 ||| m = m) (s : State) (d : Nat)
    (h_s : Only m s₀ s) : Only m s₀ (domainDisable s d) := by
  unfold domainDisable
  try dsimp only
  with_reducible
    repeat'
      first
      | assumption | exact mask_trans (by decide) hm | apply State.setRf_only | apply dropEdges_only | apply toNone_only
      | (apply Only.foldl; intro u a hu; try dsimp only) | apply Only.ite | split | intro _

theorem linkReview_only {m : Nat} {s₀ : State} (hm : 104267644924 ||| m = m) (s : State)
    (h_s : Only m s₀ s) : Only m s₀ (linkReview s) := by
  unfold linkReview
  try dsimp only
  with_reducible
    repeat'
      first
      | assumption | exact mask_trans (by decide) hm | apply setElecSync_only | apply State.setEl_only
      | apply moveAngle_only | apply setAngle_only | (apply Only.foldl; intro u a hu; try dsimp only) | apply Only.ite
      | split | intro _

theorem syncArm_only {m : Nat} {s₀ : State} (hm : 131072 ||| m = m) (s : State)
    (h_s : Only m s₀ s) : Only m s₀ (syncArm s) := by
  unfold syncArm
  try dsimp only
  with_reducible
    repeat'
      first
      | assumption | exact .inr (mask_bit hm (by decide)) | exact .inl rfl | exact mask_trans (by decide) hm
      | (apply Only.foldl; intro u a hu; try dsimp only) | apply Only.ite | split | intro _
      | refine Only.written rfl ?_ ?_ ?_ ?_ ?_ ?_ ?_ ?_ ?_ ?_ ?_ ?_ ?_ ?_ ?_ ?_ ?_ ?_ ?_ ?_ ?_ ?_ ?_ ?_ ?_ ?_ ?_ ?_ ?_ ?_ ?_ ?_ ?_ ?_ ?_ ?_ ?_ ?_

theorem syncCancel_only {m : Nat} {s₀ : State} (hm : 131072 ||| m = m) (s : State)
    (h_s : Only m s₀ s) : Only m s₀ (syncCancel s) := by
  unfold syncCancel
  try dsimp only
  with_reducible
    repeat'
      first
      | assumption | exact .inr (mask_bit hm (by decide)) | exact .inl rfl | exact mask_trans (by decide) hm
      | (apply Only.foldl; intro u a hu; try dsimp only) | apply Only.ite | split | intro _
      | refine Only.written rfl ?_ ?_ ?_ ?_ ?_ ?_ ?_ ?_ ?_ ?_ ?_ ?_ ?_ ?_ ?_ ?_ ?_ ?_ ?_ ?_ ?_ ?_ ?_ ?_ ?_ ?_ ?_ ?_ ?_ ?_ ?_ ?_ ?_ ?_ ?_ ?_ ?_ ?_

theorem peakTake_only {m : Nat} {s₀ : State} (hm : 65540 ||| m = m) (s : State) (d : Nat)
    (h_s : Only m s₀ s) : Only m s₀ (peakTake s d) := by
  unfold peakTake
  try dsimp only
  with_reducible
    repeat'
      first
      | assumption | exact mask_trans (by decide) hm | apply State.setRf_only | apply State.setEl_only
      | (apply Only.foldl; intro u a hu; try dsimp only) | apply Only.ite | split | intro _

theorem crossingSync_only {m : Nat} {s₀ : State} (hm : 68767022068 ||| m = m) (s : State) (d : Nat) (x3 : Elec)
    (n : Option Nat) (h_s : Only m s₀ s) : Only m s₀ (crossingSync s d x3 n) := by
  unfold crossingSync
  try dsimp only
  with_reducible
    repeat'
      first
      | assumption | exact mask_trans (by decide) hm | apply setElecSync_only | apply State.setEl_only
      | (apply Only.foldl; intro u a hu; try dsimp only) | apply Only.ite | split | intro _

theorem crossing_only {m : Nat} {s₀ : State} (hm : 104267644924 ||| m = m) (s : State) (d : Nat) (z : Nat)
    (refined : Bool) (h_s : Only m s₀ s) : Only m s₀ (crossing s d z refined) := by
  unfold crossing
  try dsimp only
  with_reducible
    repeat'
      first
      | assumption | exact .inr (mask_bit hm (by decide)) | exact .inl rfl | exact mask_trans (by decide) hm
      | apply crossingSync_only | apply State.setEl_only | apply moveAngle_only | apply peakTake_only
      | apply setAngle_only | (apply Only.foldl; intro u a hu; try dsimp only) | apply Only.ite | split | intro _
      | refine Only.written rfl ?_ ?_ ?_ ?_ ?_ ?_ ?_ ?_ ?_ ?_ ?_ ?_ ?_ ?_ ?_ ?_ ?_ ?_ ?_ ?_ ?_ ?_ ?_ ?_ ?_ ?_ ?_ ?_ ?_ ?_ ?_ ?_ ?_ ?_ ?_ ?_ ?_ ?_

theorem elecNone_only {m : Nat} {s₀ : State} (hm : 68767022068 ||| m = m) (s : State) (d : Nat)
    (h_s : Only m s₀ s) : Only m s₀ (elecNone s d) := by
  unfold elecNone
  try dsimp only
  with_reducible
    repeat'
      first
      | assumption | exact mask_trans (by decide) hm | apply setElecSync_only
      | (apply Only.foldl; intro u a hu; try dsimp only) | apply Only.ite | split | intro _

theorem elecStall_only {m : Nat} {s₀ : State} (hm : 104267644924 ||| m = m) (s : State) (d : Nat)
    (h_s : Only m s₀ s) : Only m s₀ (elecStall s d) := by
  unfold elecStall
  try dsimp only
  with_reducible
    repeat'
      first
      | assumption | exact mask_trans (by decide) hm | apply setElecSync_only | apply elecAdvance_only
      | (apply Only.foldl; intro u a hu; try dsimp only) | apply Only.ite | split | intro _

theorem syncFire_only {m : Nat} {s₀ : State} (hm : 132644 ||| m = m) (s : State)
    (h_s : Only m s₀ s) : Only m s₀ (syncFire s) := by
  unfold syncFire
  try dsimp only
  with_reducible
    repeat'
      first
      | assumption | exact .inr (mask_bit hm (by decide)) | exact .inl rfl | exact mask_trans (by decide) hm
      | apply State.setReg_only | apply State.arrive_only | apply State.setRf_only | apply reelEvent_only
      | (apply Only.foldl; intro u a hu; try dsimp only) | apply Only.ite | split | intro _
      | refine Only.written rfl ?_ ?_ ?_ ?_ ?_ ?_ ?_ ?_ ?_ ?_ ?_ ?_ ?_ ?_ ?_ ?_ ?_ ?_ ?_ ?_ ?_ ?_ ?_ ?_ ?_ ?_ ?_ ?_ ?_ ?_ ?_ ?_ ?_ ?_ ?_ ?_ ?_ ?_

theorem syncEval_only {m : Nat} {s₀ : State} (hm : 68719609380 ||| m = m) (s : State)
    (h_s : Only m s₀ s) : Only m s₀ (syncEval s) := by
  unfold syncEval
  try dsimp only
  with_reducible
    repeat'
      first
      | assumption | exact .inr (mask_bit hm (by decide)) | exact .inl rfl | exact mask_trans (by decide) hm
      | apply State.setReg_only | apply State.setRf_only | apply syncFire_only
      | (apply Only.foldl; intro u a hu; try dsimp only) | apply Only.ite | split | intro _
      | refine Only.written rfl ?_ ?_ ?_ ?_ ?_ ?_ ?_ ?_ ?_ ?_ ?_ ?_ ?_ ?_ ?_ ?_ ?_ ?_ ?_ ?_ ?_ ?_ ?_ ?_ ?_ ?_ ?_ ?_ ?_ ?_ ?_ ?_ ?_ ?_ ?_ ?_ ?_ ?_

theorem syncCheckEval_only {m : Nat} {s₀ : State} (hm : 68719609380 ||| m = m) (s : State)
    (h_s : Only m s₀ s) : Only m s₀ (syncCheckEval s) := by
  unfold syncCheckEval
  try dsimp only
  with_reducible
    repeat'
      first
      | assumption | exact mask_trans (by decide) hm | apply syncEval_only
      | (apply Only.foldl; intro u a hu; try dsimp only) | apply Only.ite | split | intro _

theorem syncTimeout_only {m : Nat} {s₀ : State} (hm : 131076 ||| m = m) (s : State)
    (h_s : Only m s₀ s) : Only m s₀ (syncTimeout s) := by
  unfold syncTimeout
  try dsimp only
  with_reducible
    repeat'
      first
      | assumption | exact .inr (mask_bit hm (by decide)) | exact .inl rfl | exact mask_trans (by decide) hm
      | apply State.setRf_only | (apply Only.foldl; intro u a hu; try dsimp only) | apply Only.ite | split | intro _
      | refine Only.written rfl ?_ ?_ ?_ ?_ ?_ ?_ ?_ ?_ ?_ ?_ ?_ ?_ ?_ ?_ ?_ ?_ ?_ ?_ ?_ ?_ ?_ ?_ ?_ ?_ ?_ ?_ ?_ ?_ ?_ ?_ ?_ ?_ ?_ ?_ ?_ ?_ ?_ ?_

theorem zeroCrossing_only {m : Nat} {s₀ : State} (hm : 104267644924 ||| m = m) (s : State) (d : Nat)
    (h_s : Only m s₀ s) : Only m s₀ (zeroCrossing s d) := by
  unfold zeroCrossing
  try dsimp only
  with_reducible
    repeat'
      first
      | assumption | exact mask_trans (by decide) hm | apply State.setWin_only | apply elecAdvance_only
      | apply crossing_only | (apply Only.foldl; intro u a hu; try dsimp only) | apply Only.ite | split | intro _

end Sys2Proof.Machine
end

