-- ==== Sys2Proof/Laws/Contribution.lean ====
section
/-!
SUPPORT. Machine/Contribution.lean: every operation of it keeps what `Keeps` says, and changes only the parts of its mask.
-/
set_option linter.unusedTactic false
set_option linter.unreachableTactic false
set_option linter.unusedVariables false

namespace Sys2Proof.Machine

theorem balClear_keeps {s₀ : State} (s : State) (h_s : Keeps s₀ s) : Keeps s₀ (balClear s) := by
  unfold balClear
  try dsimp only
  with_reducible
    repeat'
      first
      | assumption | apply State.setReg_keeps | (apply Keeps.foldl; intro u a hu; try dsimp only) | apply Keeps.ite
      | split | intro _ | refine Keeps.written rfl rfl rfl rfl rfl rfl rfl rfl ?_

theorem contribUndef_keeps {s₀ : State} (s : State) (d : Nat) (l : List Nat) (h_s : Keeps s₀ s)
    : Keeps s₀ (contribUndef s d l) := by
  unfold contribUndef
  try dsimp only
  with_reducible
    repeat'
      first
      | assumption | apply tlmUndef_keeps | (apply Keeps.foldl; intro u a hu; try dsimp only) | apply Keeps.ite | split
      | intro _ | refine Keeps.written rfl rfl rfl rfl rfl rfl rfl rfl ?_

theorem resultsClear_keeps {s₀ : State} (s : State) (d : Nat) (h_s : Keeps s₀ s) : Keeps s₀ (resultsClear s d) := by
  unfold resultsClear
  try dsimp only
  with_reducible
    repeat'
      first
      | assumption | apply State.putWords_keeps | (apply Keeps.foldl; intro u a hu; try dsimp only) | apply Keeps.ite
      | split | intro _ | refine Keeps.written rfl rfl rfl rfl rfl rfl rfl rfl ?_

theorem ncylWritten_keeps {s₀ : State} (s : State) (d : Nat) (old : Nat) (h_s : Keeps s₀ s)
    : Keeps s₀ (ncylWritten s d old) := by
  unfold ncylWritten
  try dsimp only
  with_reducible
    repeat'
      first
      | assumption | apply contribUndef_keeps | apply resultsClear_keeps | apply State.setDom_keeps | apply balClear_keeps
      | (apply Keeps.foldl; intro u a hu; try dsimp only) | apply Keeps.ite | split | intro _
      | refine Keeps.written rfl rfl rfl rfl rfl rfl rfl rfl ?_

theorem balPublish_keeps {s₀ : State} (s : State) (c : Nat) (b : Int) (h_s : Keeps s₀ s) : Keeps s₀ (balPublish s c b) := by
  unfold balPublish
  try dsimp only
  with_reducible
    repeat'
      first
      | assumption | apply State.keepPast_keeps | apply State.setReg_keeps | apply tlmCapture_keeps
      | (apply Keeps.foldl; intro u a hu; try dsimp only) | apply Keeps.ite | split | intro _
      | refine Keeps.written rfl rfl rfl rfl rfl rfl rfl rfl ?_

theorem balUpdate_keeps {s₀ : State} (s : State) (d : Nat) (h_s : Keeps s₀ s) : Keeps s₀ (balUpdate s d) := by
  unfold balUpdate
  try dsimp only
  with_reducible
    repeat'
      first
      | assumption | apply balPublish_keeps | (apply Keeps.foldl; intro u a hu; try dsimp only) | apply Keeps.ite | split
      | intro _ | refine Keeps.written rfl rfl rfl rfl rfl rfl rfl rfl ?_

theorem putResult_keeps {s₀ : State} (s : State) (d : Nat) (c : Nat) (first : Bool) (delta : Int) (dev : Int) (h_s
    : Keeps s₀ s) : Keeps s₀ (putResult s d c first delta dev) := by
  unfold putResult
  try dsimp only
  with_reducible
    repeat'
      first
      | assumption | apply State.putWords_keeps | apply tlmCapture_keeps
      | (apply Keeps.foldl; intro u a hu; try dsimp only) | apply Keeps.ite | split | intro _
      | refine Keeps.written rfl rfl rfl rfl rfl rfl rfl rfl ?_

theorem contributionUpdate_keeps {s₀ : State} (s : State) (d : Nat) (h_s : Keeps s₀ s)
    : Keeps s₀ (contributionUpdate s d) := by
  unfold contributionUpdate
  try dsimp only
  with_reducible
    repeat'
      first
      | assumption | apply State.setDom_keeps | apply State.cntSat_keeps | apply putResult_keeps | apply balUpdate_keeps
      | (apply Keeps.foldl; intro u a hu; try dsimp only) | apply Keeps.ite | split | intro _
      | refine Keeps.written rfl rfl rfl rfl rfl rfl rfl rfl ?_

theorem balClear_only {m : Nat} {s₀ : State} (hm : 16777220 ||| m = m) (s : State)
    (h_s : Only m s₀ s) : Only m s₀ (balClear s) := by
  unfold balClear
  try dsimp only
  with_reducible
    repeat'
      first
      | assumption | exact .inr (mask_bit hm (by decide)) | exact .inl rfl | exact mask_trans (by decide) hm
      | apply State.setReg_only | (apply Only.foldl; intro u a hu; try dsimp only) | apply Only.ite | split | intro _
      | refine Only.written rfl ?_ ?_ ?_ ?_ ?_ ?_ ?_ ?_ ?_ ?_ ?_ ?_ ?_ ?_ ?_ ?_ ?_ ?_ ?_ ?_ ?_ ?_ ?_ ?_ ?_ ?_ ?_ ?_ ?_ ?_ ?_ ?_ ?_ ?_ ?_ ?_ ?_ ?_

theorem contribUndef_only {m : Nat} {s₀ : State} (hm : 68719477300 ||| m = m) (s : State) (d : Nat) (l : List Nat)
    (h_s : Only m s₀ s) : Only m s₀ (contribUndef s d l) := by
  unfold contribUndef
  try dsimp only
  with_reducible
    repeat'
      first
      | assumption | exact mask_trans (by decide) hm | apply tlmUndef_only
      | (apply Only.foldl; intro u a hu; try dsimp only) | apply Only.ite | split | intro _

theorem resultsClear_only {m : Nat} {s₀ : State} (hm : 8 ||| m = m) (s : State) (d : Nat)
    (h_s : Only m s₀ s) : Only m s₀ (resultsClear s d) := by
  unfold resultsClear
  try dsimp only
  with_reducible
    repeat'
      first
      | assumption | exact mask_trans (by decide) hm | apply State.putWords_only
      | (apply Only.foldl; intro u a hu; try dsimp only) | apply Only.ite | split | intro _

theorem ncylWritten_only {m : Nat} {s₀ : State} (hm : 68736287292 ||| m = m) (s : State) (d : Nat) (old : Nat)
    (h_s : Only m s₀ s) : Only m s₀ (ncylWritten s d old) := by
  unfold ncylWritten
  try dsimp only
  with_reducible
    repeat'
      first
      | assumption | exact mask_trans (by decide) hm | apply contribUndef_only | apply resultsClear_only
      | apply State.setDom_only | apply balClear_only | (apply Only.foldl; intro u a hu; try dsimp only) | apply Only.ite
      | split | intro _

theorem balPublish_only {m : Nat} {s₀ : State} (hm : 34376516148 ||| m = m) (s : State) (c : Nat) (b : Int)
    (h_s : Only m s₀ s) : Only m s₀ (balPublish s c b) := by
  unfold balPublish
  try dsimp only
  with_reducible
    repeat'
      first
      | assumption | exact .inr (mask_bit hm (by decide)) | exact .inl rfl | exact mask_trans (by decide) hm
      | apply State.keepPast_only | apply State.setReg_only | apply tlmCapture_only
      | (apply Only.foldl; intro u a hu; try dsimp only) | apply Only.ite | split | intro _
      | refine Only.written rfl ?_ ?_ ?_ ?_ ?_ ?_ ?_ ?_ ?_ ?_ ?_ ?_ ?_ ?_ ?_ ?_ ?_ ?_ ?_ ?_ ?_ ?_ ?_ ?_ ?_ ?_ ?_ ?_ ?_ ?_ ?_ ?_ ?_ ?_ ?_ ?_ ?_ ?_

theorem balUpdate_only {m : Nat} {s₀ : State} (hm : 34376516148 ||| m = m) (s : State) (d : Nat)
    (h_s : Only m s₀ s) : Only m s₀ (balUpdate s d) := by
  unfold balUpdate
  try dsimp only
  with_reducible
    repeat'
      first
      | assumption | exact mask_trans (by decide) hm | apply balPublish_only
      | (apply Only.foldl; intro u a hu; try dsimp only) | apply Only.ite | split | intro _

theorem putResult_only {m : Nat} {s₀ : State} (hm : 572 ||| m = m) (s : State) (d : Nat) (c : Nat) (first : Bool)
    (delta : Int) (dev : Int) (h_s : Only m s₀ s) : Only m s₀ (putResult s d c first delta dev) := by
  unfold putResult
  try dsimp only
  with_reducible
    repeat'
      first
      | assumption | exact mask_trans (by decide) hm | apply State.putWords_only | apply tlmCapture_only
      | (apply Only.foldl; intro u a hu; try dsimp only) | apply Only.ite | split | intro _

theorem contributionUpdate_only {m : Nat} {s₀ : State} (hm : 103096025660 ||| m = m) (s : State) (d : Nat)
    (h_s : Only m s₀ s) : Only m s₀ (contributionUpdate s d) := by
  unfold contributionUpdate
  try dsimp only
  with_reducible
    repeat'
      first
      | assumption | exact .inr (mask_bit hm (by decide)) | exact .inl rfl | exact mask_trans (by decide) hm
      | apply State.setDom_only | apply State.cntSat_only | apply putResult_only | apply balUpdate_only
      | (apply Only.foldl; intro u a hu; try dsimp only) | apply Only.ite | split | intro _
      | refine Only.written rfl ?_ ?_ ?_ ?_ ?_ ?_ ?_ ?_ ?_ ?_ ?_ ?_ ?_ ?_ ?_ ?_ ?_ ?_ ?_ ?_ ?_ ?_ ?_ ?_ ?_ ?_ ?_ ?_ ?_ ?_ ?_ ?_ ?_ ?_ ?_ ?_ ?_ ?_

end Sys2Proof.Machine
end

