-- ==== Sys2Proof/Laws/Journal.lean ====
section
/-!
SUPPORT. Machine/Journal.lean: every operation of it keeps what `Keeps` says, and changes only the parts of its mask.
-/
set_option linter.unusedTactic false
set_option linter.unreachableTactic false
set_option linter.unusedVariables false

namespace Sys2Proof.Machine

theorem State.configChanged_keeps {s₀ : State} (s : State) (h_s : Keeps s₀ s) : Keeps s₀ (State.configChanged s) := by
  unfold State.configChanged
  try dsimp only
  with_reducible
    repeat'
      first
      | assumption | (apply Keeps.foldl; intro u a hu; try dsimp only) | apply Keeps.ite | split | intro _
      | refine Keeps.written rfl rfl rfl rfl rfl rfl rfl rfl ?_

theorem journalRequest_keeps {s₀ : State} (s : State) (reason : Nat) (h_s : Keeps s₀ s)
    : Keeps s₀ (journalRequest s reason) := by
  unfold journalRequest
  try dsimp only
  with_reducible
    repeat'
      first
      | assumption | (apply Keeps.foldl; intro u a hu; try dsimp only) | apply Keeps.ite | split | intro _
      | refine Keeps.written rfl rfl rfl rfl rfl rfl rfl rfl ?_

theorem setUnitState_keeps {s₀ : State} (s : State) (u : Nat) (st : Nat) (h_s : Keeps s₀ s)
    : Keeps s₀ (setUnitState s u st) := by
  unfold setUnitState
  try dsimp only
  with_reducible
    repeat'
      first
      | assumption | apply State.setRf_keeps | (apply Keeps.foldl; intro u a hu; try dsimp only) | apply Keeps.ite | split
      | intro _ | refine Keeps.written rfl rfl rfl rfl rfl rfl rfl rfl ?_

theorem applyProgress_keeps {s₀ : State} (s : State) (p : Progress) (h_s : Keeps s₀ s) : Keeps s₀ (applyProgress s p) := by
  unfold applyProgress
  try dsimp only
  with_reducible
    repeat'
      first
      | assumption | apply State.setReg_keeps | apply State.setRf_keeps
      | (apply Keeps.foldl; intro u a hu; try dsimp only) | apply Keeps.ite | split | intro _
      | refine Keeps.written rfl rfl rfl rfl rfl rfl rfl rfl ?_

theorem journalCommit_keeps {s₀ : State} (s : State) (reason : Nat) (h_s : Keeps s₀ s)
    : Keeps s₀ (journalCommit s reason) := by
  unfold journalCommit
  try dsimp only
  with_reducible
    repeat'
      first
      | assumption | apply journalRequest_keeps | (apply Keeps.foldl; intro u a hu; try dsimp only) | apply Keeps.ite
      | split | intro _ | refine Keeps.written rfl rfl rfl rfl rfl rfl rfl rfl ?_

theorem beginUnverified_keeps {s₀ : State} (s : State) (u : Nat) (h_s : Keeps s₀ s) : Keeps s₀ (beginUnverified s u) := by
  unfold beginUnverified
  try dsimp only
  with_reducible
    repeat'
      first
      | assumption | (apply Keeps.foldl; intro u a hu; try dsimp only) | apply Keeps.ite | split | intro _
      | refine Keeps.written rfl rfl rfl rfl rfl rfl rfl rfl ?_

theorem coverRestart_keeps {s₀ : State} (s : State) (h_s : Keeps s₀ s) : Keeps s₀ (coverRestart s) := by
  unfold coverRestart
  try dsimp only
  with_reducible
    repeat'
      first
      | assumption | (apply Keeps.foldl; intro u a hu; try dsimp only) | apply Keeps.ite | split | intro _
      | refine Keeps.written rfl rfl rfl rfl rfl rfl rfl rfl ?_

theorem digestDone_keeps {s₀ : State} (s : State) (h_s : Keeps s₀ s) : Keeps s₀ (digestDone s) := by
  unfold digestDone
  try dsimp only
  with_reducible
    repeat'
      first
      | assumption | (apply Keeps.foldl; intro u a hu; try dsimp only) | apply Keeps.ite | split | intro _
      | refine Keeps.written rfl rfl rfl rfl rfl rfl rfl rfl ?_

theorem restoreChan_keeps {s₀ : State} (s : State) (c : Nat) (h_s : Keeps s₀ s) : Keeps s₀ (restoreChan s c) := by
  unfold restoreChan
  try dsimp only
  with_reducible
    repeat'
      first
      | assumption | apply State.setCell_keeps | (apply Keeps.foldl; intro u a hu; try dsimp only) | apply Keeps.ite
      | split | intro _ | refine Keeps.written rfl rfl rfl rfl rfl rfl rfl rfl ?_

theorem enableConfigured_keeps {s₀ : State} (s : State) (h_s : Keeps s₀ s) : Keeps s₀ (enableConfigured s) := by
  unfold enableConfigured
  try dsimp only
  with_reducible
    repeat'
      first
      | assumption | apply restoreChan_keeps | apply mechEnable_keeps | (apply Keeps.foldl; intro u a hu; try dsimp only)
      | apply Keeps.ite | split | intro _ | refine Keeps.written rfl rfl rfl rfl rfl rfl rfl rfl ?_

theorem journalNext_keeps {s₀ : State} (s : State) (h_s : Keeps s₀ s) : Keeps s₀ (journalNext s) := by
  unfold journalNext
  try dsimp only
  with_reducible
    repeat'
      first
      | assumption | (apply Keeps.foldl; intro u a hu; try dsimp only) | apply Keeps.ite | split | intro _
      | refine Keeps.written rfl rfl rfl rfl rfl rfl rfl rfl ?_

theorem journalWriteDone_keeps {s₀ : State} (s : State) (h_s : Keeps s₀ s) : Keeps s₀ (journalWriteDone s) := by
  unfold journalWriteDone
  try dsimp only
  with_reducible
    repeat'
      first
      | assumption | apply progressWrite_keeps | apply State.cntSat_keeps | apply journalNext_keeps
      | (apply Keeps.foldl; intro u a hu; try dsimp only) | apply Keeps.ite | split | intro _
      | refine Keeps.written rfl rfl rfl rfl rfl rfl rfl rfl ?_

theorem restoreEnable_keeps {s₀ : State} (s : State) (h_s : Keeps s₀ s) : Keeps s₀ (restoreEnable s) := by
  unfold restoreEnable
  try dsimp only
  with_reducible
    repeat'
      first
      | assumption | apply State.configChanged_keeps | apply enableConfigured_keeps
      | (apply Keeps.foldl; intro u a hu; try dsimp only) | apply Keeps.ite | split | intro _
      | refine Keeps.written rfl rfl rfl rfl rfl rfl rfl rfl ?_

theorem restoreDigest_keeps {s₀ : State} (s : State) (h_s : Keeps s₀ s) : Keeps s₀ (restoreDigest s) := by
  unfold restoreDigest
  try dsimp only
  with_reducible
    repeat'
      first
      | assumption | (apply Keeps.foldl; intro u a hu; try dsimp only) | apply Keeps.ite | split | intro _
      | refine Keeps.written rfl rfl rfl rfl rfl rfl rfl rfl ?_

theorem roundRule_keeps {s₀ : State} (s : State) (p : Progress) (h_s : Keeps s₀ s) : Keeps s₀ (roundRule s p) := by
  unfold roundRule
  try dsimp only
  with_reducible
    repeat'
      first
      | assumption | apply setUnitState_keeps | apply State.setRf_keeps
      | (apply Keeps.foldl; intro u a hu; try dsimp only) | apply Keeps.ite | split | intro _
      | refine Keeps.written rfl rfl rfl rfl rfl rfl rfl rfl ?_

theorem unitRule_keeps {s₀ : State} (s : State) (u : Nat) (h_s : Keeps s₀ s) : Keeps s₀ (unitRule s u) := by
  unfold unitRule
  try dsimp only
  with_reducible
    repeat'
      first
      | assumption | apply setUnitState_keeps | (apply Keeps.foldl; intro u a hu; try dsimp only) | apply Keeps.ite
      | split | intro _ | refine Keeps.written rfl rfl rfl rfl rfl rfl rfl rfl ?_

theorem unitRules_keeps {s₀ : State} (s : State) (p : Progress) (h_s : Keeps s₀ s) : Keeps s₀ (unitRules s p) := by
  unfold unitRules
  refine Keeps.foldl ?_ (h_s.updRegs fun h => cwf_rset _ _ (cwf_rset _ _ h))
  intro u a hu
  split
  · exact unitRule_keeps _ _ hu
  · exact setUnitState_keeps _ _ _ hu

theorem servingRules_keeps {s₀ : State} (s : State) (h_s : Keeps s₀ s) : Keeps s₀ (servingRules s) := by
  unfold servingRules
  try dsimp only
  with_reducible
    repeat'
      first
      | assumption | apply State.setBank_keeps | apply bankToSafe_keeps
      | (apply Keeps.foldl; intro u a hu; try dsimp only) | apply Keeps.ite | split | intro _
      | refine Keeps.written rfl rfl rfl rfl rfl rfl rfl rfl ?_

theorem loadTables_keeps {s₀ : State} (s : State) (img : List Word) (h_s : Keeps s₀ s) : Keeps s₀ (loadTables s img) := by
  unfold loadTables
  try dsimp only
  with_reducible
    repeat'
      first
      | assumption | apply State.setUnit_keeps | (apply Keeps.foldl; intro u a hu; try dsimp only) | apply Keeps.ite
      | split | intro _ | refine Keeps.written rfl rfl rfl rfl rfl rfl rfl rfl ?_

theorem restoreUnits_keeps {s₀ : State} (s : State) (h_s : Keeps s₀ s) : Keeps s₀ (restoreUnits s) := by
  unfold restoreUnits
  try dsimp only
  with_reducible
    repeat'
      first
      | assumption | apply applyProgress_keeps | apply servingRules_keeps | apply loadTables_keeps | apply unitRules_keeps
      | (apply Keeps.foldl; intro u a hu; try dsimp only) | apply Keeps.ite | split | intro _
      | refine Keeps.written rfl rfl rfl rfl rfl rfl rfl rfl ?_

theorem loadImageMem_keeps {s₀ : State} (s : State) (img : List Word) (h_s : Keeps s₀ s)
    : Keeps s₀ (loadImageMem s img) := by
  unfold loadImageMem
  try dsimp only
  with_reducible
    repeat'
      first
      | assumption | apply State.putWords_keeps | (apply Keeps.foldl; intro u a hu; try dsimp only) | apply Keeps.ite
      | split | intro _ | refine Keeps.written rfl rfl rfl rfl rfl rfl rfl rfl ?_

theorem loadPairs_keeps {s₀ : State} (sel : Fld → Bool) (n : Nat) (l : List Word) (s : State) (h_s : Keeps s₀ s) :
    Keeps s₀ (loadPairs sel n l s) := by
  induction n generalizing s l with
  | zero => unfold loadPairs; exact h_s
  | succ n ih =>
    match l with
    | [] => exact h_s
    | [_] => exact h_s
    | a :: v :: t => exact ih t _ (State.setReg_keeps _ _ _ h_s)

theorem loadModels_keeps {s₀ : State} (s : State) (l : List Word) (h_s : Keeps s₀ s) : Keeps s₀ (loadModels s l) := by
  unfold loadModels
  try dsimp only
  with_reducible
    repeat'
      first
      | assumption | apply State.putWords_keeps | (apply Keeps.foldl; intro u a hu; try dsimp only) | apply Keeps.ite
      | split | intro _ | refine Keeps.written rfl rfl rfl rfl rfl rfl rfl rfl ?_

theorem loadBody_keeps {s₀ : State} (s : State) (b : List Word) (h_s : Keeps s₀ s) : Keeps s₀ (loadBody s b) := by
  unfold loadBody
  try dsimp only
  with_reducible
    repeat'
      first
      | assumption | apply State.putWords_keeps | apply loadImageMem_keeps | apply loadModels_keeps
      | apply loadPairs_keeps | (apply Keeps.foldl; intro u a hu; try dsimp only) | apply Keeps.ite | split | intro _
      | refine Keeps.written rfl rfl rfl rfl rfl rfl rfl rfl ?_

theorem restoreLoad_keeps {s₀ : State} (s : State) (h_s : Keeps s₀ s) : Keeps s₀ (restoreLoad s) := by
  unfold restoreLoad
  try dsimp only
  with_reducible
    repeat'
      first
      | assumption | apply State.setRf_keeps | apply loadBody_keeps | (apply Keeps.foldl; intro u a hu; try dsimp only)
      | apply Keeps.ite | split | intro _ | refine Keeps.written rfl rfl rfl rfl rfl rfl rfl rfl ?_

theorem restoreSelect_keeps {s₀ : State} (s : State) (h_s : Keeps s₀ s) : Keeps s₀ (restoreSelect s) := by
  unfold restoreSelect
  try dsimp only
  with_reducible
    repeat'
      first
      | assumption | (apply Keeps.foldl; intro u a hu; try dsimp only) | apply Keeps.ite | split | intro _
      | refine Keeps.written rfl rfl rfl rfl rfl rfl rfl rfl ?_

theorem restore_keeps {s₀ : State} (s : State) (h_s : Keeps s₀ s) : Keeps s₀ (restore s) := by
  unfold restore
  try dsimp only
  with_reducible
    repeat'
      first
      | assumption | apply beginUnverified_keeps | apply restoreEnable_keeps | apply restoreDigest_keeps
      | apply restoreSelect_keeps | apply restoreUnits_keeps | apply coverRestart_keeps | apply restoreLoad_keeps
      | apply State.setRf_keeps | (apply Keeps.foldl; intro u a hu; try dsimp only) | apply Keeps.ite | split | intro _
      | refine Keeps.written rfl rfl rfl rfl rfl rfl rfl rfl ?_

theorem State.configChanged_only {m : Nat} {s₀ : State} (hm : 2 ||| m = m) (s : State)
    (h_s : Only m s₀ s) : Only m s₀ (State.configChanged s) := by
  unfold State.configChanged
  try dsimp only
  with_reducible
    repeat'
      first
      | assumption | exact .inr (mask_bit hm (by decide)) | exact .inl rfl | exact mask_trans (by decide) hm
      | (apply Only.foldl; intro u a hu; try dsimp only) | apply Only.ite | split | intro _
      | refine Only.written rfl ?_ ?_ ?_ ?_ ?_ ?_ ?_ ?_ ?_ ?_ ?_ ?_ ?_ ?_ ?_ ?_ ?_ ?_ ?_ ?_ ?_ ?_ ?_ ?_ ?_ ?_ ?_ ?_ ?_ ?_ ?_ ?_ ?_ ?_ ?_ ?_ ?_ ?_

theorem journalRequest_only {m : Nat} {s₀ : State} (hm : 1073741824 ||| m = m) (s : State) (reason : Nat)
    (h_s : Only m s₀ s) : Only m s₀ (journalRequest s reason) := by
  unfold journalRequest
  try dsimp only
  with_reducible
    repeat'
      first
      | assumption | exact .inr (mask_bit hm (by decide)) | exact .inl rfl | exact mask_trans (by decide) hm
      | (apply Only.foldl; intro u a hu; try dsimp only) | apply Only.ite | split | intro _
      | refine Only.written rfl ?_ ?_ ?_ ?_ ?_ ?_ ?_ ?_ ?_ ?_ ?_ ?_ ?_ ?_ ?_ ?_ ?_ ?_ ?_ ?_ ?_ ?_ ?_ ?_ ?_ ?_ ?_ ?_ ?_ ?_ ?_ ?_ ?_ ?_ ?_ ?_ ?_ ?_

theorem setUnitState_only {m : Nat} {s₀ : State} (hm : 4 ||| m = m) (s : State) (u : Nat) (st : Nat)
    (h_s : Only m s₀ s) : Only m s₀ (setUnitState s u st) := by
  unfold setUnitState
  try dsimp only
  with_reducible
    repeat'
      first
      | assumption | exact mask_trans (by decide) hm | apply State.setRf_only
      | (apply Only.foldl; intro u a hu; try dsimp only) | apply Only.ite | split | intro _

theorem applyProgress_only {m : Nat} {s₀ : State} (hm : 4 ||| m = m) (s : State) (p : Progress)
    (h_s : Only m s₀ s) : Only m s₀ (applyProgress s p) := by
  unfold applyProgress
  try dsimp only
  with_reducible
    repeat'
      first
      | assumption | exact mask_trans (by decide) hm | apply State.setReg_only | apply State.setRf_only
      | (apply Only.foldl; intro u a hu; try dsimp only) | apply Only.ite | split | intro _

theorem journalCommit_only {m : Nat} {s₀ : State} (hm : 1073741824 ||| m = m) (s : State) (reason : Nat)
    (h_s : Only m s₀ s) : Only m s₀ (journalCommit s reason) := by
  unfold journalCommit
  try dsimp only
  with_reducible
    repeat'
      first
      | assumption | exact .inr (mask_bit hm (by decide)) | exact .inl rfl | exact mask_trans (by decide) hm
      | apply journalRequest_only | (apply Only.foldl; intro u a hu; try dsimp only) | apply Only.ite | split | intro _
      | refine Only.written rfl ?_ ?_ ?_ ?_ ?_ ?_ ?_ ?_ ?_ ?_ ?_ ?_ ?_ ?_ ?_ ?_ ?_ ?_ ?_ ?_ ?_ ?_ ?_ ?_ ?_ ?_ ?_ ?_ ?_ ?_ ?_ ?_ ?_ ?_ ?_ ?_ ?_ ?_

theorem beginUnverified_only {m : Nat} {s₀ : State} (hm : 33554432 ||| m = m) (s : State) (u : Nat)
    (h_s : Only m s₀ s) : Only m s₀ (beginUnverified s u) := by
  unfold beginUnverified
  try dsimp only
  with_reducible
    repeat'
      first
      | assumption | exact .inr (mask_bit hm (by decide)) | exact .inl rfl | exact mask_trans (by decide) hm
      | (apply Only.foldl; intro u a hu; try dsimp only) | apply Only.ite | split | intro _
      | refine Only.written rfl ?_ ?_ ?_ ?_ ?_ ?_ ?_ ?_ ?_ ?_ ?_ ?_ ?_ ?_ ?_ ?_ ?_ ?_ ?_ ?_ ?_ ?_ ?_ ?_ ?_ ?_ ?_ ?_ ?_ ?_ ?_ ?_ ?_ ?_ ?_ ?_ ?_ ?_

theorem coverRestart_only {m : Nat} {s₀ : State} (hm : 33554432 ||| m = m) (s : State)
    (h_s : Only m s₀ s) : Only m s₀ (coverRestart s) := by
  unfold coverRestart
  try dsimp only
  with_reducible
    repeat'
      first
      | assumption | exact .inr (mask_bit hm (by decide)) | exact .inl rfl | exact mask_trans (by decide) hm
      | (apply Only.foldl; intro u a hu; try dsimp only) | apply Only.ite | split | intro _
      | refine Only.written rfl ?_ ?_ ?_ ?_ ?_ ?_ ?_ ?_ ?_ ?_ ?_ ?_ ?_ ?_ ?_ ?_ ?_ ?_ ?_ ?_ ?_ ?_ ?_ ?_ ?_ ?_ ?_ ?_ ?_ ?_ ?_ ?_ ?_ ?_ ?_ ?_ ?_ ?_

theorem digestDone_only {m : Nat} {s₀ : State} (hm : 2 ||| m = m) (s : State)
    (h_s : Only m s₀ s) : Only m s₀ (digestDone s) := by
  unfold digestDone
  try dsimp only
  with_reducible
    repeat'
      first
      | assumption | exact .inr (mask_bit hm (by decide)) | exact .inl rfl | exact mask_trans (by decide) hm
      | (apply Only.foldl; intro u a hu; try dsimp only) | apply Only.ite | split | intro _
      | refine Only.written rfl ?_ ?_ ?_ ?_ ?_ ?_ ?_ ?_ ?_ ?_ ?_ ?_ ?_ ?_ ?_ ?_ ?_ ?_ ?_ ?_ ?_ ?_ ?_ ?_ ?_ ?_ ?_ ?_ ?_ ?_ ?_ ?_ ?_ ?_ ?_ ?_ ?_ ?_

theorem restoreChan_only {m : Nat} {s₀ : State} (hm : 2048 ||| m = m) (s : State) (c : Nat)
    (h_s : Only m s₀ s) : Only m s₀ (restoreChan s c) := by
  unfold restoreChan
  try dsimp only
  with_reducible
    repeat'
      first
      | assumption | exact mask_trans (by decide) hm | apply State.setCell_only
      | (apply Only.foldl; intro u a hu; try dsimp only) | apply Only.ite | split | intro _

theorem enableConfigured_only {m : Nat} {s₀ : State} (hm : 34820 ||| m = m) (s : State)
    (h_s : Only m s₀ s) : Only m s₀ (enableConfigured s) := by
  unfold enableConfigured
  try dsimp only
  with_reducible
    repeat'
      first
      | assumption | exact mask_trans (by decide) hm | apply restoreChan_only | apply mechEnable_only
      | (apply Only.foldl; intro u a hu; try dsimp only) | apply Only.ite | split | intro _

theorem journalNext_only {m : Nat} {s₀ : State} (hm : 1073741824 ||| m = m) (s : State)
    (h_s : Only m s₀ s) : Only m s₀ (journalNext s) := by
  unfold journalNext
  try dsimp only
  with_reducible
    repeat'
      first
      | assumption | exact .inr (mask_bit hm (by decide)) | exact .inl rfl | exact mask_trans (by decide) hm
      | (apply Only.foldl; intro u a hu; try dsimp only) | apply Only.ite | split | intro _
      | refine Only.written rfl ?_ ?_ ?_ ?_ ?_ ?_ ?_ ?_ ?_ ?_ ?_ ?_ ?_ ?_ ?_ ?_ ?_ ?_ ?_ ?_ ?_ ?_ ?_ ?_ ?_ ?_ ?_ ?_ ?_ ?_ ?_ ?_ ?_ ?_ ?_ ?_ ?_ ?_

theorem journalWriteDone_only {m : Nat} {s₀ : State} (hm : 1073741828 ||| m = m) (s : State)
    (h_s : Only m s₀ s) : Only m s₀ (journalWriteDone s) := by
  unfold journalWriteDone
  try dsimp only
  with_reducible
    repeat'
      first
      | assumption | exact .inr (mask_bit hm (by decide)) | exact .inl rfl | exact mask_trans (by decide) hm
      | apply progressWrite_only | apply State.cntSat_only | apply journalNext_only
      | (apply Only.foldl; intro u a hu; try dsimp only) | apply Only.ite | split | intro _
      | refine Only.written rfl ?_ ?_ ?_ ?_ ?_ ?_ ?_ ?_ ?_ ?_ ?_ ?_ ?_ ?_ ?_ ?_ ?_ ?_ ?_ ?_ ?_ ?_ ?_ ?_ ?_ ?_ ?_ ?_ ?_ ?_ ?_ ?_ ?_ ?_ ?_ ?_ ?_ ?_

theorem restoreEnable_only {m : Nat} {s₀ : State} (hm : 34822 ||| m = m) (s : State)
    (h_s : Only m s₀ s) : Only m s₀ (restoreEnable s) := by
  unfold restoreEnable
  try dsimp only
  with_reducible
    repeat'
      first
      | assumption | exact mask_trans (by decide) hm | apply State.configChanged_only | apply enableConfigured_only
      | (apply Only.foldl; intro u a hu; try dsimp only) | apply Only.ite | split | intro _

theorem restoreDigest_only {m : Nat} {s₀ : State} (hm : 2 ||| m = m) (s : State)
    (h_s : Only m s₀ s) : Only m s₀ (restoreDigest s) := by
  unfold restoreDigest
  try dsimp only
  with_reducible
    repeat'
      first
      | assumption | exact .inr (mask_bit hm (by decide)) | exact .inl rfl | exact mask_trans (by decide) hm
      | (apply Only.foldl; intro u a hu; try dsimp only) | apply Only.ite | split | intro _
      | refine Only.written rfl ?_ ?_ ?_ ?_ ?_ ?_ ?_ ?_ ?_ ?_ ?_ ?_ ?_ ?_ ?_ ?_ ?_ ?_ ?_ ?_ ?_ ?_ ?_ ?_ ?_ ?_ ?_ ?_ ?_ ?_ ?_ ?_ ?_ ?_ ?_ ?_ ?_ ?_

theorem roundRule_only {m : Nat} {s₀ : State} (hm : 4 ||| m = m) (s : State) (p : Progress)
    (h_s : Only m s₀ s) : Only m s₀ (roundRule s p) := by
  unfold roundRule
  try dsimp only
  with_reducible
    repeat'
      first
      | assumption | exact mask_trans (by decide) hm | apply setUnitState_only | apply State.setRf_only
      | (apply Only.foldl; intro u a hu; try dsimp only) | apply Only.ite | split | intro _

theorem unitRule_only {m : Nat} {s₀ : State} (hm : 4 ||| m = m) (s : State) (u : Nat)
    (h_s : Only m s₀ s) : Only m s₀ (unitRule s u) := by
  unfold unitRule
  try dsimp only
  with_reducible
    repeat'
      first
      | assumption | exact mask_trans (by decide) hm | apply setUnitState_only
      | (apply Only.foldl; intro u a hu; try dsimp only) | apply Only.ite | split | intro _

theorem unitRules_only {m : Nat} {s₀ : State} (hm : 4 ||| m = m) (s : State) (p : Progress)
    (h_s : Only m s₀ s) : Only m s₀ (unitRules s p) := by
  unfold unitRules
  try dsimp only
  with_reducible
    repeat'
      first
      | assumption | exact .inr (mask_bit hm (by decide)) | exact .inl rfl | exact mask_trans (by decide) hm
      | apply setUnitState_only | apply roundRule_only | apply unitRule_only
      | (apply Only.foldl; intro u a hu; try dsimp only) | apply Only.ite | split | intro _
      | refine Only.written rfl ?_ ?_ ?_ ?_ ?_ ?_ ?_ ?_ ?_ ?_ ?_ ?_ ?_ ?_ ?_ ?_ ?_ ?_ ?_ ?_ ?_ ?_ ?_ ?_ ?_ ?_ ?_ ?_ ?_ ?_ ?_ ?_ ?_ ?_ ?_ ?_ ?_ ?_

theorem servingRules_only {m : Nat} {s₀ : State} (hm : 68720802804 ||| m = m) (s : State)
    (h_s : Only m s₀ s) : Only m s₀ (servingRules s) := by
  unfold servingRules
  try dsimp only
  with_reducible
    repeat'
      first
      | assumption | exact mask_trans (by decide) hm | apply State.setBank_only | apply bankToSafe_only
      | (apply Only.foldl; intro u a hu; try dsimp only) | apply Only.ite | split | intro _

theorem loadTables_only {m : Nat} {s₀ : State} (hm : 8192 ||| m = m) (s : State) (img : List Word)
    (h_s : Only m s₀ s) : Only m s₀ (loadTables s img) := by
  unfold loadTables
  try dsimp only
  with_reducible
    repeat'
      first
      | assumption | exact mask_trans (by decide) hm | apply State.setUnit_only
      | (apply Only.foldl; intro u a hu; try dsimp only) | apply Only.ite | split | intro _

theorem restoreUnits_only {m : Nat} {s₀ : State} (hm : 68720802804 ||| m = m) (s : State)
    (h_s : Only m s₀ s) : Only m s₀ (restoreUnits s) := by
  unfold restoreUnits
  try dsimp only
  with_reducible
    repeat'
      first
      | assumption | exact mask_trans (by decide) hm | apply applyProgress_only | apply servingRules_only
      | apply loadTables_only | apply unitRules_only | (apply Only.foldl; intro u a hu; try dsimp only) | apply Only.ite
      | split | intro _

theorem loadImageMem_only {m : Nat} {s₀ : State} (hm : 8 ||| m = m) (s : State) (img : List Word)
    (h_s : Only m s₀ s) : Only m s₀ (loadImageMem s img) := by
  unfold loadImageMem
  try dsimp only
  with_reducible
    repeat'
      first
      | assumption | exact mask_trans (by decide) hm | apply State.putWords_only
      | (apply Only.foldl; intro u a hu; try dsimp only) | apply Only.ite | split | intro _

theorem loadPairs_only {m : Nat} {s₀ : State} (hm : 4 ||| m = m) (sel : Fld → Bool) (n : Nat) (l : List Word) (s : State)
    (h_s : Only m s₀ s) :
    Only m s₀ (loadPairs sel n l s) := by
  induction n generalizing s l with
  | zero => unfold loadPairs; exact h_s
  | succ n ih =>
    match l with
    | [] => exact h_s
    | [_] => exact h_s
    | a :: v :: t => exact ih t _ (State.setReg_only (mask_trans (by decide) hm) _ _ _ h_s)

theorem loadModels_only {m : Nat} {s₀ : State} (hm : 8 ||| m = m) (s : State) (l : List Word)
    (h_s : Only m s₀ s) : Only m s₀ (loadModels s l) := by
  unfold loadModels
  try dsimp only
  with_reducible
    repeat'
      first
      | assumption | exact mask_trans (by decide) hm | apply State.putWords_only
      | (apply Only.foldl; intro u a hu; try dsimp only) | apply Only.ite | split | intro _

theorem loadBody_only {m : Nat} {s₀ : State} (hm : 12 ||| m = m) (s : State) (b : List Word)
    (h_s : Only m s₀ s) : Only m s₀ (loadBody s b) := by
  unfold loadBody
  try dsimp only
  with_reducible
    repeat'
      first
      | assumption | exact mask_trans (by decide) hm | apply State.putWords_only | apply loadImageMem_only
      | apply loadModels_only | apply loadPairs_only | (apply Only.foldl; intro u a hu; try dsimp only) | apply Only.ite
      | split | intro _

theorem restoreLoad_only {m : Nat} {s₀ : State} (hm : 1073741838 ||| m = m) (s : State)
    (h_s : Only m s₀ s) : Only m s₀ (restoreLoad s) := by
  unfold restoreLoad
  try dsimp only
  with_reducible
    repeat'
      first
      | assumption | exact .inr (mask_bit hm (by decide)) | exact .inl rfl | exact mask_trans (by decide) hm
      | apply State.setRf_only | apply loadBody_only | (apply Only.foldl; intro u a hu; try dsimp only) | apply Only.ite
      | split | intro _
      | refine Only.written rfl ?_ ?_ ?_ ?_ ?_ ?_ ?_ ?_ ?_ ?_ ?_ ?_ ?_ ?_ ?_ ?_ ?_ ?_ ?_ ?_ ?_ ?_ ?_ ?_ ?_ ?_ ?_ ?_ ?_ ?_ ?_ ?_ ?_ ?_ ?_ ?_ ?_ ?_

theorem restoreSelect_only {m : Nat} {s₀ : State} (hm : 1073741824 ||| m = m) (s : State)
    (h_s : Only m s₀ s) : Only m s₀ (restoreSelect s) := by
  unfold restoreSelect
  try dsimp only
  with_reducible
    repeat'
      first
      | assumption | exact .inr (mask_bit hm (by decide)) | exact .inl rfl | exact mask_trans (by decide) hm
      | (apply Only.foldl; intro u a hu; try dsimp only) | apply Only.ite | split | intro _
      | refine Only.written rfl ?_ ?_ ?_ ?_ ?_ ?_ ?_ ?_ ?_ ?_ ?_ ?_ ?_ ?_ ?_ ?_ ?_ ?_ ?_ ?_ ?_ ?_ ?_ ?_ ?_ ?_ ?_ ?_ ?_ ?_ ?_ ?_ ?_ ?_ ?_ ?_ ?_ ?_

theorem restore_only {m : Nat} {s₀ : State} (hm : 69828131838 ||| m = m) (s : State)
    (h_s : Only m s₀ s) : Only m s₀ (restore s) := by
  unfold restore
  try dsimp only
  with_reducible
    repeat'
      first
      | assumption | exact mask_trans (by decide) hm | apply beginUnverified_only | apply restoreEnable_only
      | apply restoreDigest_only | apply restoreSelect_only | apply restoreUnits_only | apply coverRestart_only
      | apply restoreLoad_only | apply State.setRf_only | (apply Only.foldl; intro u a hu; try dsimp only)
      | apply Only.ite | split | intro _

end Sys2Proof.Machine
end

