-- ==== Sys2Proof/Laws/Plan.lean ====
section
/-!
SUPPORT. Machine/Plan.lean: every operation of it keeps what `Keeps` says, and changes only the parts of its mask.
-/
set_option linter.unusedTactic false
set_option linter.unreachableTactic false
set_option linter.unusedVariables false

namespace Sys2Proof.Machine

theorem State.setAgeUnit_keeps {s₀ : State} (s : State) (u : Nat) (x3 : AgeUnit) (h_s : Keeps s₀ s)
    : Keeps s₀ (State.setAgeUnit s u x3) := by
  unfold State.setAgeUnit
  try dsimp only
  with_reducible
    repeat'
      first
      | assumption | (apply Keeps.foldl; intro u a hu; try dsimp only) | apply Keeps.ite | split | intro _
      | refine Keeps.written rfl rfl rfl rfl rfl rfl rfl rfl ?_

theorem autoRelease_keeps {s₀ : State} (s : State) (h_s : Keeps s₀ s) : Keeps s₀ (autoRelease s) := by
  unfold autoRelease
  try dsimp only
  with_reducible
    repeat'
      first
      | assumption | (apply Keeps.foldl; intro u a hu; try dsimp only) | apply Keeps.ite | split | intro _
      | refine Keeps.written rfl rfl rfl rfl rfl rfl rfl rfl ?_

theorem ageingTlm_keeps {s₀ : State} (s : State) (h_s : Keeps s₀ s) : Keeps s₀ (ageingTlm s) := by
  unfold ageingTlm
  try dsimp only
  with_reducible
    repeat'
      first
      | assumption | apply tlmCapture_keeps | (apply Keeps.foldl; intro u a hu; try dsimp only) | apply Keeps.ite | split
      | intro _ | refine Keeps.written rfl rfl rfl rfl rfl rfl rfl rfl ?_

theorem reflectRequest_keeps {s₀ : State} (s : State) (old : Nat) (h_s : Keeps s₀ s) : Keeps s₀ (reflectRequest s old) := by
  unfold reflectRequest
  try dsimp only
  with_reducible
    repeat'
      first
      | assumption | (apply Keeps.foldl; intro u a hu; try dsimp only) | apply Keeps.ite | split | intro _
      | refine Keeps.written rfl rfl rfl rfl rfl rfl rfl rfl ?_

theorem modeRequest_keeps {s₀ : State} (s : State) (v : Word) (h_s : Keeps s₀ s) : Keeps s₀ (modeRequest s v) := by
  unfold modeRequest
  try dsimp only
  with_reducible
    repeat'
      first
      | assumption | apply reflectRequest_keeps | apply State.setReg_keeps | apply reflNotice_keeps
      | (apply Keeps.foldl; intro u a hu; try dsimp only) | apply Keeps.ite | split | intro _
      | refine Keeps.written rfl rfl rfl rfl rfl rfl rfl rfl ?_

theorem planPublish_keeps {s₀ : State} (s : State) (h_s : Keeps s₀ s) : Keeps s₀ (planPublish s) := by
  unfold planPublish
  try dsimp only
  with_reducible
    repeat'
      first
      | assumption | apply State.putWords_keeps | apply State.setReg_keeps | apply State.arrive_keeps
      | apply tlmCapture_keeps | apply ageingTlm_keeps | (apply Keeps.foldl; intro u a hu; try dsimp only)
      | apply Keeps.ite | split | intro _ | refine Keeps.written rfl rfl rfl rfl rfl rfl rfl rfl ?_

theorem stepMove_keeps {s₀ : State} (s : State) (h_s : Keeps s₀ s) : Keeps s₀ (stepMove s) := by
  unfold stepMove
  try dsimp only
  with_reducible
    repeat'
      first
      | assumption | (apply Keeps.foldl; intro u a hu; try dsimp only) | apply Keeps.ite | split | intro _
      | refine Keeps.written rfl rfl rfl rfl rfl rfl rfl rfl ?_

theorem planModes_keeps {s₀ : State} (s : State) (h_s : Keeps s₀ s) : Keeps s₀ (planModes s) := by
  unfold planModes
  try dsimp only
  with_reducible
    repeat'
      first
      | assumption | (apply Keeps.foldl; intro u a hu; try dsimp only) | apply Keeps.ite | split | intro _
      | refine Keeps.written rfl rfl rfl rfl rfl rfl rfl rfl ?_

theorem planAuto_keeps {s₀ : State} (s : State) (h_s : Keeps s₀ s) : Keeps s₀ (planAuto s) := by
  unfold planAuto
  try dsimp only
  with_reducible
    repeat'
      first
      | assumption | (apply Keeps.foldl; intro u a hu; try dsimp only) | apply Keeps.ite | split | intro _
      | refine Keeps.written rfl rfl rfl rfl rfl rfl rfl rfl ?_

theorem planChannels_keeps {s₀ : State} (s : State) (h_s : Keeps s₀ s) : Keeps s₀ (planChannels s) := by
  unfold planChannels
  try dsimp only
  with_reducible
    repeat'
      first
      | assumption | apply State.setReg_keeps | (apply Keeps.foldl; intro u a hu; try dsimp only) | apply Keeps.ite
      | split | intro _ | refine Keeps.written rfl rfl rfl rfl rfl rfl rfl rfl ?_

theorem planLean_keeps {s₀ : State} (s : State) (h_s : Keeps s₀ s) : Keeps s₀ (planLean s) := by
  unfold planLean
  try dsimp only
  with_reducible
    repeat'
      first
      | assumption | (apply Keeps.foldl; intro u a hu; try dsimp only) | apply Keeps.ite | split | intro _
      | refine Keeps.written rfl rfl rfl rfl rfl rfl rfl rfl ?_

theorem takeDelays_keeps {s₀ : State} (s : State) (h_s : Keeps s₀ s) : Keeps s₀ (takeDelays s) := by
  unfold takeDelays
  try dsimp only
  with_reducible
    repeat'
      first
      | assumption | apply State.setAgeUnit_keeps | (apply Keeps.foldl; intro u a hu; try dsimp only) | apply Keeps.ite
      | split | intro _ | refine Keeps.written rfl rfl rfl rfl rfl rfl rfl rfl ?_

theorem planEvaluate_keeps {s₀ : State} (s : State) (h_s : Keeps s₀ s) : Keeps s₀ (planEvaluate s) := by
  unfold planEvaluate
  try dsimp only
  with_reducible
    repeat'
      first
      | assumption | apply planChannels_keeps | apply planPublish_keeps | apply takeDelays_keeps | apply planModes_keeps
      | apply stepMove_keeps | apply planAuto_keeps | apply planLean_keeps
      | (apply Keeps.foldl; intro u a hu; try dsimp only) | apply Keeps.ite | split | intro _
      | refine Keeps.written rfl rfl rfl rfl rfl rfl rfl rfl ?_

theorem fclkSlewDone_keeps {s₀ : State} (s : State) (h_s : Keeps s₀ s) : Keeps s₀ (fclkSlewDone s) := by
  unfold fclkSlewDone
  try dsimp only
  with_reducible
    repeat'
      first
      | assumption | (apply Keeps.foldl; intro u a hu; try dsimp only) | apply Keeps.ite | split | intro _
      | refine Keeps.written rfl rfl rfl rfl rfl rfl rfl rfl ?_

theorem monitorSample_keeps {s₀ : State} (s : State) (u : Nat) (r : List Nat) (h_s : Keeps s₀ s)
    : Keeps s₀ (monitorSample s u r) := by
  unfold monitorSample
  try dsimp only
  with_reducible
    repeat'
      first
      | assumption | apply State.setAgeUnit_keeps | (apply Keeps.foldl; intro u a hu; try dsimp only) | apply Keeps.ite
      | split | intro _ | refine Keeps.written rfl rfl rfl rfl rfl rfl rfl rfl ?_

theorem planEvaluation_keeps {s₀ : State} (s : State) (h_s : Keeps s₀ s) : Keeps s₀ (planEvaluation s) := by
  unfold planEvaluation
  try dsimp only
  with_reducible
    repeat'
      first
      | assumption | apply planEvaluate_keeps | (apply Keeps.foldl; intro u a hu; try dsimp only) | apply Keeps.ite
      | split | intro _ | refine Keeps.written rfl rfl rfl rfl rfl rfl rfl rfl ?_

theorem modesAtReset_keeps {s₀ : State} (s : State) (h_s : Keeps s₀ s) : Keeps s₀ (modesAtReset s) := by
  unfold modesAtReset
  try dsimp only
  with_reducible
    repeat'
      first
      | assumption | (apply Keeps.foldl; intro u a hu; try dsimp only) | apply Keeps.ite | split | intro _
      | refine Keeps.written rfl rfl rfl rfl rfl rfl rfl rfl ?_

theorem State.setAgeUnit_only {m : Nat} {s₀ : State} (hm : 67108864 ||| m = m) (s : State) (u : Nat) (x3 : AgeUnit)
    (h_s : Only m s₀ s) : Only m s₀ (State.setAgeUnit s u x3) := by
  unfold State.setAgeUnit
  try dsimp only
  with_reducible
    repeat'
      first
      | assumption | exact .inr (mask_bit hm (by decide)) | exact .inl rfl | exact mask_trans (by decide) hm
      | (apply Only.foldl; intro u a hu; try dsimp only) | apply Only.ite | split | intro _
      | refine Only.written rfl ?_ ?_ ?_ ?_ ?_ ?_ ?_ ?_ ?_ ?_ ?_ ?_ ?_ ?_ ?_ ?_ ?_ ?_ ?_ ?_ ?_ ?_ ?_ ?_ ?_ ?_ ?_ ?_ ?_ ?_ ?_ ?_ ?_ ?_ ?_ ?_ ?_ ?_

theorem autoRelease_only {m : Nat} {s₀ : State} (hm : 67108864 ||| m = m) (s : State)
    (h_s : Only m s₀ s) : Only m s₀ (autoRelease s) := by
  unfold autoRelease
  try dsimp only
  with_reducible
    repeat'
      first
      | assumption | exact .inr (mask_bit hm (by decide)) | exact .inl rfl | exact mask_trans (by decide) hm
      | (apply Only.foldl; intro u a hu; try dsimp only) | apply Only.ite | split | intro _
      | refine Only.written rfl ?_ ?_ ?_ ?_ ?_ ?_ ?_ ?_ ?_ ?_ ?_ ?_ ?_ ?_ ?_ ?_ ?_ ?_ ?_ ?_ ?_ ?_ ?_ ?_ ?_ ?_ ?_ ?_ ?_ ?_ ?_ ?_ ?_ ?_ ?_ ?_ ?_ ?_

theorem ageingTlm_only {m : Nat} {s₀ : State} (hm : 564 ||| m = m) (s : State)
    (h_s : Only m s₀ s) : Only m s₀ (ageingTlm s) := by
  unfold ageingTlm
  try dsimp only
  with_reducible
    repeat'
      first
      | assumption | exact mask_trans (by decide) hm | apply tlmCapture_only
      | (apply Only.foldl; intro u a hu; try dsimp only) | apply Only.ite | split | intro _

theorem reflectRequest_only {m : Nat} {s₀ : State} (hm : 33554434 ||| m = m) (s : State) (old : Nat)
    (h_s : Only m s₀ s) : Only m s₀ (reflectRequest s old) := by
  unfold reflectRequest
  try dsimp only
  with_reducible
    repeat'
      first
      | assumption | exact .inr (mask_bit hm (by decide)) | exact .inl rfl | exact mask_trans (by decide) hm
      | (apply Only.foldl; intro u a hu; try dsimp only) | apply Only.ite | split | intro _
      | refine Only.written rfl ?_ ?_ ?_ ?_ ?_ ?_ ?_ ?_ ?_ ?_ ?_ ?_ ?_ ?_ ?_ ?_ ?_ ?_ ?_ ?_ ?_ ?_ ?_ ?_ ?_ ?_ ?_ ?_ ?_ ?_ ?_ ?_ ?_ ?_ ?_ ?_ ?_ ?_

theorem modeRequest_only {m : Nat} {s₀ : State} (hm : 33554998 ||| m = m) (s : State) (v : Word)
    (h_s : Only m s₀ s) : Only m s₀ (modeRequest s v) := by
  unfold modeRequest
  try dsimp only
  with_reducible
    repeat'
      first
      | assumption | exact .inr (mask_bit hm (by decide)) | exact .inl rfl | exact mask_trans (by decide) hm
      | apply reflectRequest_only | apply State.setReg_only | apply reflNotice_only
      | (apply Only.foldl; intro u a hu; try dsimp only) | apply Only.ite | split | intro _
      | refine Only.written rfl ?_ ?_ ?_ ?_ ?_ ?_ ?_ ?_ ?_ ?_ ?_ ?_ ?_ ?_ ?_ ?_ ?_ ?_ ?_ ?_ ?_ ?_ ?_ ?_ ?_ ?_ ?_ ?_ ?_ ?_ ?_ ?_ ?_ ?_ ?_ ?_ ?_ ?_

theorem planPublish_only {m : Nat} {s₀ : State} (hm : 67109436 ||| m = m) (s : State)
    (h_s : Only m s₀ s) : Only m s₀ (planPublish s) := by
  unfold planPublish
  try dsimp only
  with_reducible
    repeat'
      first
      | assumption | exact .inr (mask_bit hm (by decide)) | exact .inl rfl | exact mask_trans (by decide) hm
      | apply State.putWords_only | apply State.setReg_only | apply State.arrive_only | apply tlmCapture_only
      | apply ageingTlm_only | (apply Only.foldl; intro u a hu; try dsimp only) | apply Only.ite | split | intro _
      | refine Only.written rfl ?_ ?_ ?_ ?_ ?_ ?_ ?_ ?_ ?_ ?_ ?_ ?_ ?_ ?_ ?_ ?_ ?_ ?_ ?_ ?_ ?_ ?_ ?_ ?_ ?_ ?_ ?_ ?_ ?_ ?_ ?_ ?_ ?_ ?_ ?_ ?_ ?_ ?_

theorem stepMove_only {m : Nat} {s₀ : State} (hm : 67108865 ||| m = m) (s : State)
    (h_s : Only m s₀ s) : Only m s₀ (stepMove s) := by
  unfold stepMove
  try dsimp only
  with_reducible
    repeat'
      first
      | assumption | exact .inr (mask_bit hm (by decide)) | exact .inl rfl | exact mask_trans (by decide) hm
      | (apply Only.foldl; intro u a hu; try dsimp only) | apply Only.ite | split | intro _
      | refine Only.written rfl ?_ ?_ ?_ ?_ ?_ ?_ ?_ ?_ ?_ ?_ ?_ ?_ ?_ ?_ ?_ ?_ ?_ ?_ ?_ ?_ ?_ ?_ ?_ ?_ ?_ ?_ ?_ ?_ ?_ ?_ ?_ ?_ ?_ ?_ ?_ ?_ ?_ ?_

theorem planModes_only {m : Nat} {s₀ : State} (hm : 2 ||| m = m) (s : State)
    (h_s : Only m s₀ s) : Only m s₀ (planModes s) := by
  unfold planModes
  try dsimp only
  with_reducible
    repeat'
      first
      | assumption | exact .inr (mask_bit hm (by decide)) | exact .inl rfl | exact mask_trans (by decide) hm
      | (apply Only.foldl; intro u a hu; try dsimp only) | apply Only.ite | split | intro _
      | refine Only.written rfl ?_ ?_ ?_ ?_ ?_ ?_ ?_ ?_ ?_ ?_ ?_ ?_ ?_ ?_ ?_ ?_ ?_ ?_ ?_ ?_ ?_ ?_ ?_ ?_ ?_ ?_ ?_ ?_ ?_ ?_ ?_ ?_ ?_ ?_ ?_ ?_ ?_ ?_

theorem planAuto_only {m : Nat} {s₀ : State} (hm : 67108864 ||| m = m) (s : State)
    (h_s : Only m s₀ s) : Only m s₀ (planAuto s) := by
  unfold planAuto
  try dsimp only
  with_reducible
    repeat'
      first
      | assumption | exact .inr (mask_bit hm (by decide)) | exact .inl rfl | exact mask_trans (by decide) hm
      | (apply Only.foldl; intro u a hu; try dsimp only) | apply Only.ite | split | intro _
      | refine Only.written rfl ?_ ?_ ?_ ?_ ?_ ?_ ?_ ?_ ?_ ?_ ?_ ?_ ?_ ?_ ?_ ?_ ?_ ?_ ?_ ?_ ?_ ?_ ?_ ?_ ?_ ?_ ?_ ?_ ?_ ?_ ?_ ?_ ?_ ?_ ?_ ?_ ?_ ?_

theorem planChannels_only {m : Nat} {s₀ : State} (hm : 4 ||| m = m) (s : State)
    (h_s : Only m s₀ s) : Only m s₀ (planChannels s) := by
  unfold planChannels
  try dsimp only
  with_reducible
    repeat'
      first
      | assumption | exact mask_trans (by decide) hm | apply State.setReg_only
      | (apply Only.foldl; intro u a hu; try dsimp only) | apply Only.ite | split | intro _

theorem planLean_only {m : Nat} {s₀ : State} (hm : 67108864 ||| m = m) (s : State)
    (h_s : Only m s₀ s) : Only m s₀ (planLean s) := by
  unfold planLean
  try dsimp only
  with_reducible
    repeat'
      first
      | assumption | exact .inr (mask_bit hm (by decide)) | exact .inl rfl | exact mask_trans (by decide) hm
      | (apply Only.foldl; intro u a hu; try dsimp only) | apply Only.ite | split | intro _
      | refine Only.written rfl ?_ ?_ ?_ ?_ ?_ ?_ ?_ ?_ ?_ ?_ ?_ ?_ ?_ ?_ ?_ ?_ ?_ ?_ ?_ ?_ ?_ ?_ ?_ ?_ ?_ ?_ ?_ ?_ ?_ ?_ ?_ ?_ ?_ ?_ ?_ ?_ ?_ ?_

theorem takeDelays_only {m : Nat} {s₀ : State} (hm : 67108864 ||| m = m) (s : State)
    (h_s : Only m s₀ s) : Only m s₀ (takeDelays s) := by
  unfold takeDelays
  try dsimp only
  with_reducible
    repeat'
      first
      | assumption | exact mask_trans (by decide) hm | apply State.setAgeUnit_only
      | (apply Only.foldl; intro u a hu; try dsimp only) | apply Only.ite | split | intro _

theorem planEvaluate_only {m : Nat} {s₀ : State} (hm : 67109439 ||| m = m) (s : State)
    (h_s : Only m s₀ s) : Only m s₀ (planEvaluate s) := by
  unfold planEvaluate
  try dsimp only
  with_reducible
    repeat'
      first
      | assumption | exact mask_trans (by decide) hm | apply planChannels_only | apply planPublish_only
      | apply takeDelays_only | apply planModes_only | apply stepMove_only | apply planAuto_only | apply planLean_only
      | (apply Only.foldl; intro u a hu; try dsimp only) | apply Only.ite | split | intro _

theorem fclkSlewDone_only {m : Nat} {s₀ : State} (hm : 67108865 ||| m = m) (s : State)
    (h_s : Only m s₀ s) : Only m s₀ (fclkSlewDone s) := by
  unfold fclkSlewDone
  try dsimp only
  with_reducible
    repeat'
      first
      | assumption | exact .inr (mask_bit hm (by decide)) | exact .inl rfl | exact mask_trans (by decide) hm
      | (apply Only.foldl; intro u a hu; try dsimp only) | apply Only.ite | split | intro _
      | refine Only.written rfl ?_ ?_ ?_ ?_ ?_ ?_ ?_ ?_ ?_ ?_ ?_ ?_ ?_ ?_ ?_ ?_ ?_ ?_ ?_ ?_ ?_ ?_ ?_ ?_ ?_ ?_ ?_ ?_ ?_ ?_ ?_ ?_ ?_ ?_ ?_ ?_ ?_ ?_

theorem monitorSample_only {m : Nat} {s₀ : State} (hm : 67108864 ||| m = m) (s : State) (u : Nat) (r : List Nat)
    (h_s : Only m s₀ s) : Only m s₀ (monitorSample s u r) := by
  unfold monitorSample
  try dsimp only
  with_reducible
    repeat'
      first
      | assumption | exact .inr (mask_bit hm (by decide)) | exact .inl rfl | exact mask_trans (by decide) hm
      | apply State.setAgeUnit_only | (apply Only.foldl; intro u a hu; try dsimp only) | apply Only.ite | split | intro _
      | refine Only.written rfl ?_ ?_ ?_ ?_ ?_ ?_ ?_ ?_ ?_ ?_ ?_ ?_ ?_ ?_ ?_ ?_ ?_ ?_ ?_ ?_ ?_ ?_ ?_ ?_ ?_ ?_ ?_ ?_ ?_ ?_ ?_ ?_ ?_ ?_ ?_ ?_ ?_ ?_

theorem planEvaluation_only {m : Nat} {s₀ : State} (hm : 67109439 ||| m = m) (s : State)
    (h_s : Only m s₀ s) : Only m s₀ (planEvaluation s) := by
  unfold planEvaluation
  try dsimp only
  with_reducible
    repeat'
      first
      | assumption | exact .inr (mask_bit hm (by decide)) | exact .inl rfl | exact mask_trans (by decide) hm
      | apply planEvaluate_only | (apply Only.foldl; intro u a hu; try dsimp only) | apply Only.ite | split | intro _
      | refine Only.written rfl ?_ ?_ ?_ ?_ ?_ ?_ ?_ ?_ ?_ ?_ ?_ ?_ ?_ ?_ ?_ ?_ ?_ ?_ ?_ ?_ ?_ ?_ ?_ ?_ ?_ ?_ ?_ ?_ ?_ ?_ ?_ ?_ ?_ ?_ ?_ ?_ ?_ ?_

theorem modesAtReset_only {m : Nat} {s₀ : State} (hm : 3 ||| m = m) (s : State)
    (h_s : Only m s₀ s) : Only m s₀ (modesAtReset s) := by
  unfold modesAtReset
  try dsimp only
  with_reducible
    repeat'
      first
      | assumption | exact .inr (mask_bit hm (by decide)) | exact .inl rfl | exact mask_trans (by decide) hm
      | (apply Only.foldl; intro u a hu; try dsimp only) | apply Only.ite | split | intro _
      | refine Only.written rfl ?_ ?_ ?_ ?_ ?_ ?_ ?_ ?_ ?_ ?_ ?_ ?_ ?_ ?_ ?_ ?_ ?_ ?_ ?_ ?_ ?_ ?_ ?_ ?_ ?_ ?_ ?_ ?_ ?_ ?_ ?_ ?_ ?_ ?_ ?_ ?_ ?_ ?_

end Sys2Proof.Machine
end

