-- ==== Sys2Proof/Laws/Warden.lean ====
section
/-!
SUPPORT. Machine/Warden.lean: every operation of it keeps what `Keeps` says, and changes only the parts of its mask.
-/
set_option linter.unusedTactic false
set_option linter.unreachableTactic false
set_option linter.unusedVariables false

namespace Sys2Proof.Machine

theorem State.setRound_keeps {s₀ : State} (s : State) (r : Round) (h_s : Keeps s₀ s) : Keeps s₀ (State.setRound s r) := by
  unfold State.setRound
  try dsimp only
  with_reducible
    repeat'
      first
      | assumption | (apply Keeps.foldl; intro u a hu; try dsimp only) | apply Keeps.ite | split | intro _
      | refine Keeps.written rfl rfl rfl rfl rfl rfl rfl rfl ?_

theorem State.setTakeover_keeps {s₀ : State} (s : State) (t : Option Takeover) (h_s : Keeps s₀ s)
    : Keeps s₀ (State.setTakeover s t) := by
  unfold State.setTakeover
  try dsimp only
  with_reducible
    repeat'
      first
      | assumption | (apply Keeps.foldl; intro u a hu; try dsimp only) | apply Keeps.ite | split | intro _
      | refine Keeps.written rfl rfl rfl rfl rfl rfl rfl rfl ?_

theorem setTest_keeps {s₀ : State} (s : State) (u : Nat) (x3 : Option UTest) (h_s : Keeps s₀ s)
    : Keeps s₀ (setTest s u x3) := by
  unfold setTest
  try dsimp only
  with_reducible
    repeat'
      first
      | assumption | (apply Keeps.foldl; intro u a hu; try dsimp only) | apply Keeps.ite | split | intro _
      | refine Keeps.written rfl rfl rfl rfl rfl rfl rfl rfl ?_

theorem roundRecord_keeps {s₀ : State} (s : State) (event : Nat) (step : Nat) (unit : Nat) (role : Nat) (fin : Nat)
    (dur : Nat) (detail : Word) (h_s : Keeps s₀ s) : Keeps s₀ (roundRecord s event step unit role fin dur detail) := by
  unfold roundRecord
  try dsimp only
  with_reducible
    repeat'
      first
      | assumption | apply State.arrive_keeps | apply tlmRecord_keeps | (apply Keeps.foldl; intro u a hu; try dsimp only)
      | apply Keeps.ite | split | intro _ | refine Keeps.written rfl rfl rfl rfl rfl rfl rfl rfl ?_

theorem ageingAppend_keeps {s₀ : State} (s : State) (fin : Nat) (h_s : Keeps s₀ s) : Keeps s₀ (ageingAppend s fin) := by
  unfold ageingAppend
  try dsimp only
  with_reducible
    repeat'
      first
      | assumption | apply State.putWords_keeps | (apply Keeps.foldl; intro u a hu; try dsimp only) | apply Keeps.ite
      | split | intro _ | refine Keeps.written rfl rfl rfl rfl rfl rfl rfl rfl ?_

theorem roundEnd_keeps {s₀ : State} (s : State) (fin : Nat) (h_s : Keeps s₀ s) : Keeps s₀ (roundEnd s fin) := by
  unfold roundEnd
  try dsimp only
  with_reducible
    repeat'
      first
      | assumption | apply journalRequest_keeps | apply State.setRound_keeps | apply ageingAppend_keeps
      | apply State.setRf_keeps | apply roundRecord_keeps | apply autoRelease_keeps
      | (apply Keeps.foldl; intro u a hu; try dsimp only) | apply Keeps.ite | split | intro _
      | refine Keeps.written rfl rfl rfl rfl rfl rfl rfl rfl ?_

theorem uncoverAll_keeps {s₀ : State} (s : State) (h_s : Keeps s₀ s) : Keeps s₀ (uncoverAll s) := by
  unfold uncoverAll
  try dsimp only
  with_reducible
    repeat'
      first
      | assumption | (apply Keeps.foldl; intro u a hu; try dsimp only) | apply Keeps.ite | split | intro _
      | refine Keeps.written rfl rfl rfl rfl rfl rfl rfl rfl ?_

theorem becomeSpare_keeps {s₀ : State} (s : State) (u : Nat) (h_s : Keeps s₀ s) : Keeps s₀ (becomeSpare s u) := by
  unfold becomeSpare
  try dsimp only
  with_reducible
    repeat'
      first
      | assumption | apply State.setUnit_keeps | apply setUnitState_keeps | apply uncoverAll_keeps
      | (apply Keeps.foldl; intro u a hu; try dsimp only) | apply Keeps.ite | split | intro _
      | refine Keeps.written rfl rfl rfl rfl rfl rfl rfl rfl ?_

theorem setRoleUnit_keeps {s₀ : State} (s : State) (n : Nat) (u : Nat) (h_s : Keeps s₀ s)
    : Keeps s₀ (setRoleUnit s n u) := by
  unfold setRoleUnit
  try dsimp only
  with_reducible
    repeat'
      first
      | assumption | apply State.setRf_keeps | (apply Keeps.foldl; intro u a hu; try dsimp only) | apply Keeps.ite | split
      | intro _ | refine Keeps.written rfl rfl rfl rfl rfl rfl rfl rfl ?_

theorem setOwner_keeps {s₀ : State} (s : State) (n : Nat) (mirror : Bool) (h_s : Keeps s₀ s)
    : Keeps s₀ (setOwner s n mirror) := by
  unfold setOwner
  try dsimp only
  with_reducible
    repeat'
      first
      | assumption | apply State.setBank_keeps | (apply Keeps.foldl; intro u a hu; try dsimp only) | apply Keeps.ite
      | split | intro _ | refine Keeps.written rfl rfl rfl rfl rfl rfl rfl rfl ?_

theorem epochsUp_keeps {s₀ : State} (s : State) (n : Nat) (h_s : Keeps s₀ s) : Keeps s₀ (epochsUp s n) := by
  unfold epochsUp
  try dsimp only
  with_reducible
    repeat'
      first
      | assumption | apply State.setBank_keeps | (apply Keeps.foldl; intro u a hu; try dsimp only) | apply Keeps.ite
      | split | intro _ | refine Keeps.written rfl rfl rfl rfl rfl rfl rfl rfl ?_

theorem takeEmptyRole_keeps {s₀ : State} (s : State) (u : Nat) (n : Nat) (h_s : Keeps s₀ s)
    : Keeps s₀ (takeEmptyRole s u n) := by
  unfold takeEmptyRole
  try dsimp only
  with_reducible
    repeat'
      first
      | assumption | apply regionFaultRecord_keeps | apply State.setUnit_keeps | apply setUnitState_keeps
      | apply setRoleUnit_keeps | apply setOwner_keeps | apply epochsUp_keeps
      | (apply Keeps.foldl; intro u a hu; try dsimp only) | apply Keeps.ite | split | intro _
      | refine Keeps.written rfl rfl rfl rfl rfl rfl rfl rfl ?_

theorem swapRoles_keeps {s₀ : State} (s : State) (u : Nat) (h_s : Keeps s₀ s) : Keeps s₀ (swapRoles s u) := by
  unfold swapRoles
  try dsimp only
  with_reducible
    repeat'
      first
      | assumption | apply regionFaultRecord_keeps | apply State.setUnit_keeps | apply setUnitState_keeps
      | apply setRoleUnit_keeps | apply uncoverAll_keeps | apply setOwner_keeps
      | (apply Keeps.foldl; intro u a hu; try dsimp only) | apply Keeps.ite | split | intro _
      | refine Keeps.written rfl rfl rfl rfl rfl rfl rfl rfl ?_

theorem testPassed_keeps {s₀ : State} (s : State) (u : Nat) (h_s : Keeps s₀ s) : Keeps s₀ (testPassed s u) := by
  unfold testPassed
  try dsimp only
  with_reducible
    repeat'
      first
      | assumption | apply regionFaultRecord_keeps | apply takeEmptyRole_keeps | apply becomeSpare_keeps
      | apply swapRoles_keeps | apply setTest_keeps | (apply Keeps.foldl; intro u a hu; try dsimp only) | apply Keeps.ite
      | split | intro _ | refine Keeps.written rfl rfl rfl rfl rfl rfl rfl rfl ?_

theorem testComplete_keeps {s₀ : State} (s : State) (u : Nat) (h_s : Keeps s₀ s) : Keeps s₀ (testComplete s u) := by
  unfold testComplete
  try dsimp only
  with_reducible
    repeat'
      first
      | assumption | apply becomeSpare_keeps | apply testPassed_keeps | apply roundEnd_keeps | apply setTest_keeps
      | (apply Keeps.foldl; intro u a hu; try dsimp only) | apply Keeps.ite | split | intro _
      | refine Keeps.written rfl rfl rfl rfl rfl rfl rfl rfl ?_

theorem abortStep_keeps {s₀ : State} (s : State) (u : Nat) (x3 : UTest) (h_s : Keeps s₀ s)
    : Keeps s₀ (abortStep s u x3) := by
  unfold abortStep
  try dsimp only
  with_reducible
    repeat'
      first
      | assumption | apply State.setRound_keeps | apply testComplete_keeps | apply setTest_keeps
      | (apply Keeps.foldl; intro u a hu; try dsimp only) | apply Keeps.ite | split | intro _
      | refine Keeps.written rfl rfl rfl rfl rfl rfl rfl rfl ?_

theorem adoptRole_keeps {s₀ : State} (s : State) (t : Takeover) (h_s : Keeps s₀ s) : Keeps s₀ (adoptRole s t) := by
  unfold adoptRole
  try dsimp only
  with_reducible
    repeat'
      first
      | assumption | apply State.setTakeover_keeps | apply State.setUnit_keeps | apply setUnitState_keeps
      | apply State.setRf_keeps | apply setOwner_keeps | (apply Keeps.foldl; intro u a hu; try dsimp only)
      | apply Keeps.ite | split | intro _ | refine Keeps.written rfl rfl rfl rfl rfl rfl rfl rfl ?_

theorem roundTurn_keeps {s₀ : State} (s : State) (n : Nat) (h_s : Keeps s₀ s) : Keeps s₀ (roundTurn s n) := by
  unfold roundTurn
  try dsimp only
  with_reducible
    repeat'
      first
      | assumption | apply State.setRound_keeps | (apply Keeps.foldl; intro u a hu; try dsimp only) | apply Keeps.ite
      | split | intro _ | refine Keeps.written rfl rfl rfl rfl rfl rfl rfl rfl ?_

theorem startTest_keeps {s₀ : State} (s : State) (u : Nat) (role : Option Nat) (h_s : Keeps s₀ s)
    : Keeps s₀ (startTest s u role) := by
  unfold startTest
  try dsimp only
  with_reducible
    repeat'
      first
      | assumption | apply setUnitState_keeps | apply setTest_keeps | (apply Keeps.foldl; intro u a hu; try dsimp only)
      | apply Keeps.ite | split | intro _ | refine Keeps.written rfl rfl rfl rfl rfl rfl rfl rfl ?_

theorem afterHandBack_keeps {s₀ : State} (s : State) (h_s : Keeps s₀ s) : Keeps s₀ (afterHandBack s) := by
  unfold afterHandBack
  try dsimp only
  with_reducible
    repeat'
      first
      | assumption | apply State.setRound_keeps | apply uncoverAll_keeps | apply roundTurn_keeps | apply startTest_keeps
      | apply roundEnd_keeps | (apply Keeps.foldl; intro u a hu; try dsimp only) | apply Keeps.ite | split | intro _
      | refine Keeps.written rfl rfl rfl rfl rfl rfl rfl rfl ?_

theorem roundArmed_keeps {s₀ : State} (s : State) (h_s : Keeps s₀ s) : Keeps s₀ (roundArmed s) := by
  unfold roundArmed
  try dsimp only
  with_reducible
    repeat'
      first
      | assumption | apply State.setRound_keeps | (apply Keeps.foldl; intro u a hu; try dsimp only) | apply Keeps.ite
      | split | intro _ | refine Keeps.written rfl rfl rfl rfl rfl rfl rfl rfl ?_

theorem resumeDomain_keeps {s₀ : State} (v : Nat) (ck : Refl) (s : State) (d : Nat) (h_s : Keeps s₀ s)
    : Keeps s₀ (resumeDomain v ck s d) := by
  unfold resumeDomain
  try dsimp only
  with_reducible
    repeat'
      first
      | assumption | apply unitUpdate_keeps | (apply Keeps.foldl; intro u a hu; try dsimp only) | apply Keeps.ite | split
      | intro _ | refine Keeps.written rfl rfl rfl rfl rfl rfl rfl rfl ?_

theorem catchUp_keeps {s₀ : State} (s : State) (t : Takeover) (h_s : Keeps s₀ s) : Keeps s₀ (catchUp s t) := by
  unfold catchUp
  try dsimp only
  with_reducible
    repeat'
      first
      | assumption | apply resumeDomain_keeps | apply unitSync_keeps | (apply Keeps.foldl; intro u a hu; try dsimp only)
      | apply Keeps.ite | split | intro _ | refine Keeps.written rfl rfl rfl rfl rfl rfl rfl rfl ?_

theorem cellReset_keeps {s₀ : State} (s : State) (c : Nat) (k : Nat) (h_s : Keeps s₀ s) : Keeps s₀ (cellReset s c k) := by
  unfold cellReset
  try dsimp only
  with_reducible
    repeat'
      first
      | assumption | apply State.putWords_keeps | apply State.keepPast_keeps
      | (apply Keeps.foldl; intro u a hu; try dsimp only) | apply Keeps.ite | split | intro _
      | refine Keeps.written rfl rfl rfl rfl rfl rfl rfl rfl ?_

theorem faultLogClear_keeps {s₀ : State} (s : State) (h_s : Keeps s₀ s) : Keeps s₀ (faultLogClear s) := by
  unfold faultLogClear
  try dsimp only
  with_reducible
    repeat'
      first
      | assumption | apply State.putBytes_keeps | apply progressNote_keeps | apply State.setRf_keeps
      | (apply Keeps.foldl; intro u a hu; try dsimp only) | apply Keeps.ite | split | intro _
      | refine Keeps.written rfl rfl rfl rfl rfl rfl rfl rfl ?_

theorem roundPoll_keeps {s₀ : State} (s : State) (h_s : Keeps s₀ s) : Keeps s₀ (roundPoll s) := by
  unfold roundPoll
  try dsimp only
  with_reducible
    repeat'
      first
      | assumption | apply State.setRound_keeps | (apply Keeps.foldl; intro u a hu; try dsimp only) | apply Keeps.ite
      | split | intro _ | refine Keeps.written rfl rfl rfl rfl rfl rfl rfl rfl ?_

theorem wardenAct_keeps {s₀ : State} (byRound : Bool) (f : State → State) (s : State)
    (hf : ∀ a0, Keeps s₀ a0 → Keeps s₀ (f a0)) (h_s : Keeps s₀ s) : Keeps s₀ (wardenAct byRound f s) := by
  unfold wardenAct
  try dsimp only
  with_reducible
    repeat'
      first
      | assumption | apply hf | apply journalRequest_keeps | apply progressNote_keeps | apply reflNotice_keeps
      | apply roundPoll_keeps | (apply Keeps.foldl; intro u a hu; try dsimp only) | apply Keeps.ite | split | intro _
      | refine Keeps.written rfl rfl rfl rfl rfl rfl rfl rfl ?_

theorem uncover_keeps {s₀ : State} (s : State) (n : Nat) (u : Nat) (h_s : Keeps s₀ s) : Keeps s₀ (uncover s n u) := by
  unfold uncover
  try dsimp only
  with_reducible
    repeat'
      first
      | assumption | apply regionFaultRecord_keeps | apply bankSafe_keeps
      | (apply Keeps.foldl; intro u a hu; try dsimp only) | apply Keeps.ite | split | intro _
      | refine Keeps.written rfl rfl rfl rfl rfl rfl rfl rfl ?_

theorem fenceOff_keeps {s₀ : State} (s : State) (n : Nat) (role : Nat) (u : Nat) (code : Nat) (d0 : Word) (d1 : Word) (h_s
    : Keeps s₀ s) : Keeps s₀ (fenceOff s n role u code d0 d1) := by
  unfold fenceOff
  try dsimp only
  with_reducible
    repeat'
      first
      | assumption | apply regionFaultRecord_keeps | apply setUnitState_keeps | apply epochsUp_keeps
      | (apply Keeps.foldl; intro u a hu; try dsimp only) | apply Keeps.ite | split | intro _
      | refine Keeps.written rfl rfl rfl rfl rfl rfl rfl rfl ?_

theorem giveBack_keeps {s₀ : State} (s : State) (n : Nat) (h_s : Keeps s₀ s) : Keeps s₀ (giveBack s n) := by
  unfold giveBack
  try dsimp only
  with_reducible
    repeat'
      first
      | assumption | apply State.setTakeover_keeps | apply State.setUnit_keeps | apply State.setRefl_keeps
      | apply setUnitState_keeps | apply setOwner_keeps | apply epochsUp_keeps | apply setTest_keeps
      | (apply Keeps.foldl; intro u a hu; try dsimp only) | apply Keeps.ite | split | intro _
      | refine Keeps.written rfl rfl rfl rfl rfl rfl rfl rfl ?_

theorem handBackRecord_keeps {s₀ : State} (s : State) (n : Nat) (h_s : Keeps s₀ s) : Keeps s₀ (handBackRecord s n) := by
  unfold handBackRecord
  try dsimp only
  with_reducible
    repeat'
      first
      | assumption | apply roundRecord_keeps | apply giveBack_keeps | (apply Keeps.foldl; intro u a hu; try dsimp only)
      | apply Keeps.ite | split | intro _ | refine Keeps.written rfl rfl rfl rfl rfl rfl rfl rfl ?_

theorem fenceSpare_keeps {s₀ : State} (s : State) (u : Nat) (code : Nat) (d0 : Word) (d1 : Word) (h_s : Keeps s₀ s)
    : Keeps s₀ (fenceSpare s u code d0 d1) := by
  unfold fenceSpare
  try dsimp only
  with_reducible
    repeat'
      first
      | assumption | apply regionFaultRecord_keeps | apply State.setTakeover_keeps | apply handBackRecord_keeps
      | apply setUnitState_keeps | apply uncoverAll_keeps | apply startTest_keeps | apply chipFatal_keeps
      | apply fenceOff_keeps | apply roundEnd_keeps | apply setOwner_keeps | apply uncover_keeps
      | (apply Keeps.foldl; intro u a hu; try dsimp only) | apply Keeps.ite | split | intro _
      | refine Keeps.written rfl rfl rfl rfl rfl rfl rfl rfl ?_

theorem takeoverFrom_keeps {s₀ : State} (s : State) (n : Nat) (u : Nat) (warm : Bool) (h_s : Keeps s₀ s)
    : Keeps s₀ (takeoverFrom s n u warm) := by
  unfold takeoverFrom
  try dsimp only
  with_reducible
    repeat'
      first
      | assumption | apply State.setTakeover_keeps | apply State.setRefl_keeps
      | (apply Keeps.foldl; intro u a hu; try dsimp only) | apply Keeps.ite | split | intro _
      | refine Keeps.written rfl rfl rfl rfl rfl rfl rfl rfl ?_

theorem fenceResult_keeps {s₀ : State} (s : State) (n : Nat) (u : Nat) (warm : Bool) (h_s : Keeps s₀ s)
    : Keeps s₀ (fenceResult s n u warm) := by
  unfold fenceResult
  try dsimp only
  with_reducible
    repeat'
      first
      | assumption | apply takeoverFrom_keeps | apply chipFatal_keeps | apply uncover_keeps
      | (apply Keeps.foldl; intro u a hu; try dsimp only) | apply Keeps.ite | split | intro _
      | refine Keeps.written rfl rfl rfl rfl rfl rfl rfl rfl ?_

theorem fenceDuringLend_keeps {s₀ : State} (s : State) (m : Nat) (u : Nat) (h_s : Keeps s₀ s)
    : Keeps s₀ (fenceDuringLend s m u) := by
  unfold fenceDuringLend
  try dsimp only
  with_reducible
    repeat'
      first
      | assumption | apply handBackRecord_keeps | apply fenceResult_keeps | apply roundEnd_keeps
      | (apply Keeps.foldl; intro u a hu; try dsimp only) | apply Keeps.ite | split | intro _
      | refine Keeps.written rfl rfl rfl rfl rfl rfl rfl rfl ?_

theorem fenceServing_keeps {s₀ : State} (s : State) (n : Nat) (u : Nat) (code : Nat) (d0 : Word) (d1 : Word) (h_s
    : Keeps s₀ s) : Keeps s₀ (fenceServing s n u code d0 d1) := by
  unfold fenceServing
  try dsimp only
  with_reducible
    repeat'
      first
      | assumption | apply fenceDuringLend_keeps | apply fenceResult_keeps | apply fenceOff_keeps | apply roundEnd_keeps
      | (apply Keeps.foldl; intro u a hu; try dsimp only) | apply Keeps.ite | split | intro _
      | refine Keeps.written rfl rfl rfl rfl rfl rfl rfl rfl ?_

theorem fence_keeps {s₀ : State} (s : State) (u : Nat) (code : Nat) (d0 : Word) (d1 : Word) (h_s : Keeps s₀ s)
    : Keeps s₀ (fence s u code d0 d1) := by
  unfold fence
  try dsimp only
  with_reducible
    repeat'
      first
      | assumption | apply fenceServing_keeps | apply fenceSpare_keeps | (apply Keeps.foldl; intro u a hu; try dsimp only)
      | apply Keeps.ite | split | intro _ | refine Keeps.written rfl rfl rfl rfl rfl rfl rfl rfl ?_

theorem regionTakeover_keeps {s₀ : State} (s : State) (n : Nat) (h_s : Keeps s₀ s) : Keeps s₀ (regionTakeover s n).2 := by
  unfold regionTakeover
  try dsimp only
  with_reducible
    repeat'
      first
      | assumption | apply wardenAct_keeps | apply fence_keeps | (apply Keeps.foldl; intro u a hu; try dsimp only)
      | apply Keeps.ite | split | intro _ | refine Keeps.written rfl rfl rfl rfl rfl rfl rfl rfl ?_

theorem regionTest_keeps {s₀ : State} (s : State) (u : Nat) (h_s : Keeps s₀ s) : Keeps s₀ (regionTest s u).2 := by
  unfold regionTest
  try dsimp only
  with_reducible
    repeat'
      first
      | assumption | apply wardenAct_keeps | apply startTest_keeps | (apply Keeps.foldl; intro u a hu; try dsimp only)
      | apply Keeps.ite | split | intro _ | refine Keeps.written rfl rfl rfl rfl rfl rfl rfl rfl ?_

theorem roundAbort_keeps {s₀ : State} (s : State) (h_s : Keeps s₀ s) : Keeps s₀ (roundAbort s).2 := by
  unfold roundAbort
  try dsimp only
  with_reducible
    repeat'
      first
      | assumption | apply State.setRound_keeps | apply wardenAct_keeps | apply roundEnd_keeps
      | (apply Keeps.foldl; intro u a hu; try dsimp only) | apply Keeps.ite | split | intro _
      | refine Keeps.written rfl rfl rfl rfl rfl rfl rfl rfl ?_

theorem roundBegin_keeps {s₀ : State} (s : State) (h_s : Keeps s₀ s) : Keeps s₀ (roundBegin s) := by
  unfold roundBegin
  try dsimp only
  with_reducible
    repeat'
      first
      | assumption | apply State.setRf_keeps | apply roundTurn_keeps | (apply Keeps.foldl; intro u a hu; try dsimp only)
      | apply Keeps.ite | split | intro _ | refine Keeps.written rfl rfl rfl rfl rfl rfl rfl rfl ?_

theorem roundStart_keeps {s₀ : State} (s : State) (h_s : Keeps s₀ s) : Keeps s₀ (roundStart s).2 := by
  unfold roundStart
  try dsimp only
  with_reducible
    repeat'
      first
      | assumption | apply State.setRound_keeps | apply roundBegin_keeps | apply wardenAct_keeps
      | (apply Keeps.foldl; intro u a hu; try dsimp only) | apply Keeps.ite | split | intro _
      | refine Keeps.written rfl rfl rfl rfl rfl rfl rfl rfl ?_

theorem eccCount_keeps {s₀ : State} (s : State) (store : Nat) (inst : Nat) (uncorr : Bool) (h_s : Keeps s₀ s)
    : Keeps s₀ (eccCount s store inst uncorr) := by
  unfold eccCount
  try dsimp only
  with_reducible
    repeat'
      first
      | assumption | apply State.setUnit_keeps | apply State.cntSat_keeps
      | (apply Keeps.foldl; intro u a hu; try dsimp only) | apply Keeps.ite | split | intro _
      | refine Keeps.written rfl rfl rfl rfl rfl rfl rfl rfl ?_

theorem reflectionLost_keeps {s₀ : State} (s : State) (n : Nat) (a : Word) (syn : Word) (h_s : Keeps s₀ s)
    : Keeps s₀ (reflectionLost s n a syn) := by
  unfold reflectionLost
  try dsimp only
  with_reducible
    repeat'
      first
      | assumption | apply regionFaultRecord_keeps | apply State.setRefl_keeps
      | (apply Keeps.foldl; intro u a hu; try dsimp only) | apply Keeps.ite | split | intro _
      | refine Keeps.written rfl rfl rfl rfl rfl rfl rfl rfl ?_

theorem eccProfile_keeps {s₀ : State} (s : State) (off : Nat) (h_s : Keeps s₀ s) : Keeps s₀ (eccProfile s off) := by
  unfold eccProfile
  try dsimp only
  with_reducible
    repeat'
      first
      | assumption | apply State.setCell_keeps | (apply Keeps.foldl; intro u a hu; try dsimp only) | apply Keeps.ite
      | split | intro _ | refine Keeps.written rfl rfl rfl rfl rfl rfl rfl rfl ?_

theorem eccModel_keeps {s₀ : State} (s : State) (off : Nat) (h_s : Keeps s₀ s) : Keeps s₀ (eccModel s off) := by
  unfold eccModel
  try dsimp only
  with_reducible
    repeat'
      first
      | assumption | apply State.setCell_keeps | apply cellReset_keeps | (apply Keeps.foldl; intro u a hu; try dsimp only)
      | apply Keeps.ite | split | intro _ | refine Keeps.written rfl rfl rfl rfl rfl rfl rfl rfl ?_

theorem eccTable_keeps {s₀ : State} (s : State) (off : Nat) (h_s : Keeps s₀ s) : Keeps s₀ (eccTable s off) := by
  unfold eccTable
  try dsimp only
  with_reducible
    repeat'
      first
      | assumption | apply domainDisable_keeps | apply State.setDom_keeps
      | (apply Keeps.foldl; intro u a hu; try dsimp only) | apply Keeps.ite | split | intro _
      | refine Keeps.written rfl rfl rfl rfl rfl rfl rfl rfl ?_

theorem eccWheel_keeps {s₀ : State} (s : State) (off : Nat) (h_s : Keeps s₀ s) : Keeps s₀ (eccWheel s off) := by
  unfold eccWheel
  try dsimp only
  with_reducible
    repeat'
      first
      | assumption | apply State.putWords_keeps | apply State.setDom_keeps
      | (apply Keeps.foldl; intro u a hu; try dsimp only) | apply Keeps.ite | split | intro _
      | refine Keeps.written rfl rfl rfl rfl rfl rfl rfl rfl ?_

theorem eccRetention_keeps {s₀ : State} (s : State) (inst : Nat) (h_s : Keeps s₀ s) : Keeps s₀ (eccRetention s inst) := by
  unfold eccRetention
  try dsimp only
  with_reducible
    repeat'
      first
      | assumption | (apply Keeps.foldl; intro u a hu; try dsimp only) | apply Keeps.ite | split | intro _
      | refine Keeps.written rfl rfl rfl rfl rfl rfl rfl rfl ?_

theorem eccEffect_keeps {s₀ : State} (s : State) (store : Nat) (inst : Nat) (a : Word) (syn : Word) (h_s : Keeps s₀ s)
    : Keeps s₀ (eccEffect s store inst a syn) := by
  unfold eccEffect
  try dsimp only
  with_reducible
    repeat'
      first
      | assumption | apply reflectionLost_keeps | apply eccRetention_keeps | apply faultRecord_keeps
      | apply eccProfile_keeps | apply chipFatal_keeps | apply eccModel_keeps | apply eccTable_keeps
      | apply eccWheel_keeps | apply fence_keeps | (apply Keeps.foldl; intro u a hu; try dsimp only) | apply Keeps.ite
      | split | intro _ | refine Keeps.written rfl rfl rfl rfl rfl rfl rfl rfl ?_

theorem eccLast_keeps {s₀ : State} (s : State) (store : Nat) (a : Word) (syn : Word) (h_s : Keeps s₀ s)
    : Keeps s₀ (eccLast s store a syn) := by
  unfold eccLast
  try dsimp only
  with_reducible
    repeat'
      first
      | assumption | apply State.setReg_keeps | (apply Keeps.foldl; intro u a hu; try dsimp only) | apply Keeps.ite
      | split | intro _ | refine Keeps.written rfl rfl rfl rfl rfl rfl rfl rfl ?_

theorem eccRead_keeps {s₀ : State} (s : State) (store : Nat) (inst : Nat) (addr : Nat) (err : BitVec 144) (h_s
    : Keeps s₀ s) : Keeps s₀ (eccRead s store inst addr err) := by
  unfold eccRead
  try dsimp only
  with_reducible
    repeat'
      first
      | assumption | apply eccEffect_keeps | apply eccCount_keeps | apply eccLast_keeps
      | (apply Keeps.foldl; intro u a hu; try dsimp only) | apply Keeps.ite | split | intro _
      | refine Keeps.written rfl rfl rfl rfl rfl rfl rfl rfl ?_

theorem takeoverRecord_keeps {s₀ : State} (s : State) (t : Takeover) (held : Nat) (h_s : Keeps s₀ s)
    : Keeps s₀ (takeoverRecord s t held) := by
  unfold takeoverRecord
  try dsimp only
  with_reducible
    repeat'
      first
      | assumption | apply regionFaultRecord_keeps | apply State.arrive_keeps | apply State.setReg_keeps
      | apply uncoverAll_keeps | (apply Keeps.foldl; intro u a hu; try dsimp only) | apply Keeps.ite | split | intro _
      | refine Keeps.written rfl rfl rfl rfl rfl rfl rfl rfl ?_

theorem firstEvaluation_keeps {s₀ : State} (s : State) (h_s : Keeps s₀ s) : Keeps s₀ (firstEvaluation s) := by
  unfold firstEvaluation
  try dsimp only
  with_reducible
    repeat'
      first
      | assumption | apply takeoverRecord_keeps | apply roundRecord_keeps | apply adoptRole_keeps | apply catchUp_keeps
      | (apply Keeps.foldl; intro u a hu; try dsimp only) | apply Keeps.ite | split | intro _
      | refine Keeps.written rfl rfl rfl rfl rfl rfl rfl rfl ?_

theorem unitSpeaks_keeps {s₀ : State} (s : State) (u : Nat) (h_s : Keeps s₀ s) : Keeps s₀ (unitSpeaks s u) := by
  unfold unitSpeaks
  try dsimp only
  with_reducible
    repeat'
      first
      | assumption | apply regionFaultRecord_keeps | apply setUnitState_keeps | apply startTest_keeps
      | (apply Keeps.foldl; intro u a hu; try dsimp only) | apply Keeps.ite | split | intro _
      | refine Keeps.written rfl rfl rfl rfl rfl rfl rfl rfl ?_

theorem heartbeat_keeps {s₀ : State} (s : State) (u : Nat) (h_s : Keeps s₀ s) : Keeps s₀ (heartbeat s u) := by
  unfold heartbeat
  try dsimp only
  with_reducible
    repeat'
      first
      | assumption | apply State.setUnit_keeps | apply unitSpeaks_keeps
      | (apply Keeps.foldl; intro u a hu; try dsimp only) | apply Keeps.ite | split | intro _
      | refine Keeps.written rfl rfl rfl rfl rfl rfl rfl rfl ?_

theorem heartbeatTimeout_keeps {s₀ : State} (s : State) (u : Nat) (h_s : Keeps s₀ s) : Keeps s₀ (heartbeatTimeout s u) := by
  unfold heartbeatTimeout
  try dsimp only
  with_reducible
    repeat'
      first
      | assumption | apply State.setUnit_keeps | apply fence_keeps | (apply Keeps.foldl; intro u a hu; try dsimp only)
      | apply Keeps.ite | split | intro _ | refine Keeps.written rfl rfl rfl rfl rfl rfl rfl rfl ?_

theorem handBackNow_keeps {s₀ : State} (s : State) (n : Nat) (h_s : Keeps s₀ s) : Keeps s₀ (handBackNow s n) := by
  unfold handBackNow
  try dsimp only
  with_reducible
    repeat'
      first
      | assumption | apply handBackRecord_keeps | apply State.setRound_keeps | apply afterHandBack_keeps
      | apply uncoverAll_keeps | (apply Keeps.foldl; intro u a hu; try dsimp only) | apply Keeps.ite | split | intro _
      | refine Keeps.written rfl rfl rfl rfl rfl rfl rfl rfl ?_

theorem loadSpare_keeps {s₀ : State} (s : State) (slots : Cells Slot) (busy : List Nat) (h_s : Keeps s₀ s)
    : Keeps s₀ (loadSpare s slots busy) := by
  unfold loadSpare
  try dsimp only
  with_reducible
    repeat'
      first
      | assumption | apply State.setUnit_keeps | (apply Keeps.foldl; intro u a hu; try dsimp only) | apply Keeps.ite
      | split | intro _ | refine Keeps.written rfl rfl rfl rfl rfl rfl rfl rfl ?_

theorem lend_keeps {s₀ : State} (s : State) (h_s : Keeps s₀ s) : Keeps s₀ (lend s) := by
  unfold lend
  try dsimp only
  with_reducible
    repeat'
      first
      | assumption | apply State.setTakeover_keeps | apply State.setRefl_keeps | apply setUnitState_keeps
      | apply State.setRf_keeps | apply loadSpare_keeps | apply startTest_keeps | apply setOwner_keeps
      | apply epochsUp_keeps | (apply Keeps.foldl; intro u a hu; try dsimp only) | apply Keeps.ite | split | intro _
      | refine Keeps.written rfl rfl rfl rfl rfl rfl rfl rfl ?_

theorem quietWaitExpiry_keeps {s₀ : State} (s : State) (h_s : Keeps s₀ s) : Keeps s₀ (quietWaitExpiry s) := by
  unfold quietWaitExpiry
  try dsimp only
  with_reducible
    repeat'
      first
      | assumption | apply handBackNow_keeps | apply lend_keeps | (apply Keeps.foldl; intro u a hu; try dsimp only)
      | apply Keeps.ite | split | intro _ | refine Keeps.written rfl rfl rfl rfl rfl rfl rfl rfl ?_

theorem takeoverStep_keeps {s₀ : State} (s : State) (t : Takeover) (n : Nat) (h_s : Keeps s₀ s)
    : Keeps s₀ (takeoverStep s t n) := by
  unfold takeoverStep
  try dsimp only
  with_reducible
    repeat'
      first
      | assumption | apply State.setTakeover_keeps | (apply Keeps.foldl; intro u a hu; try dsimp only) | apply Keeps.ite
      | split | intro _ | refine Keeps.written rfl rfl rfl rfl rfl rfl rfl rfl ?_

theorem reconcile_keeps {s₀ : State} (s : State) (h_s : Keeps s₀ s) : Keeps s₀ (reconcile s) := by
  unfold reconcile
  try dsimp only
  with_reducible
    repeat'
      first
      | assumption | apply State.setUnit_keeps | apply takeoverStep_keeps
      | (apply Keeps.foldl; intro u a hu; try dsimp only) | apply Keeps.ite | split | intro _
      | refine Keeps.written rfl rfl rfl rfl rfl rfl rfl rfl ?_

theorem reflectionCheckpoint_keeps {s₀ : State} (s : State) (u : Nat) (h_s : Keeps s₀ s)
    : Keeps s₀ (reflectionCheckpoint s u) := by
  unfold reflectionCheckpoint
  try dsimp only
  with_reducible
    repeat'
      first
      | assumption | apply State.setRefl_keeps | (apply Keeps.foldl; intro u a hu; try dsimp only) | apply Keeps.ite
      | split | intro _ | refine Keeps.written rfl rfl rfl rfl rfl rfl rfl rfl ?_

theorem reflectionCopyDone_keeps {s₀ : State} (s : State) (n : Nat) (h_s : Keeps s₀ s)
    : Keeps s₀ (reflectionCopyDone s n) := by
  unfold reflectionCopyDone
  try dsimp only
  with_reducible
    repeat'
      first
      | assumption | apply State.setRefl_keeps | (apply Keeps.foldl; intro u a hu; try dsimp only) | apply Keeps.ite
      | split | intro _ | refine Keeps.written rfl rfl rfl rfl rfl rfl rfl rfl ?_

theorem reflectionVerified_keeps {s₀ : State} (s : State) (h_s : Keeps s₀ s) : Keeps s₀ (reflectionVerified s) := by
  unfold reflectionVerified
  try dsimp only
  with_reducible
    repeat'
      first
      | assumption | apply takeoverStep_keeps | (apply Keeps.foldl; intro u a hu; try dsimp only) | apply Keeps.ite
      | split | intro _ | refine Keeps.written rfl rfl rfl rfl rfl rfl rfl rfl ?_

theorem roundDue_keeps {s₀ : State} (s : State) (h_s : Keeps s₀ s) : Keeps s₀ (roundDue s) := by
  unfold roundDue
  try dsimp only
  with_reducible
    repeat'
      first
      | assumption | apply roundBegin_keeps | (apply Keeps.foldl; intro u a hu; try dsimp only) | apply Keeps.ite | split
      | intro _ | refine Keeps.written rfl rfl rfl rfl rfl rfl rfl rfl ?_

theorem roundHandBack_keeps {s₀ : State} (s : State) (h_s : Keeps s₀ s) : Keeps s₀ (roundHandBack s) := by
  unfold roundHandBack
  try dsimp only
  with_reducible
    repeat'
      first
      | assumption | apply handBackNow_keeps | (apply Keeps.foldl; intro u a hu; try dsimp only) | apply Keeps.ite | split
      | intro _ | refine Keeps.written rfl rfl rfl rfl rfl rfl rfl rfl ?_

theorem roundLend_keeps {s₀ : State} (s : State) (h_s : Keeps s₀ s) : Keeps s₀ (roundLend s) := by
  unfold roundLend
  try dsimp only
  with_reducible
    repeat'
      first
      | assumption | apply lend_keeps | (apply Keeps.foldl; intro u a hu; try dsimp only) | apply Keeps.ite | split
      | intro _ | refine Keeps.written rfl rfl rfl rfl rfl rfl rfl rfl ?_

theorem roundPostponed_keeps {s₀ : State} (s : State) (h_s : Keeps s₀ s) : Keeps s₀ (roundPostponed s) := by
  unfold roundPostponed
  try dsimp only
  with_reducible
    repeat'
      first
      | assumption | apply roundEnd_keeps | (apply Keeps.foldl; intro u a hu; try dsimp only) | apply Keeps.ite | split
      | intro _ | refine Keeps.written rfl rfl rfl rfl rfl rfl rfl rfl ?_

theorem scrubMove_keeps {s₀ : State} (s : State) (h_s : Keeps s₀ s) : Keeps s₀ (scrubMove s) := by
  unfold scrubMove
  try dsimp only
  with_reducible
    repeat'
      first
      | assumption | apply State.cntWrap_keeps | (apply Keeps.foldl; intro u a hu; try dsimp only) | apply Keeps.ite
      | split | intro _ | refine Keeps.written rfl rfl rfl rfl rfl rfl rfl rfl ?_

theorem scrubTick_keeps {s₀ : State} (s : State) (store : Nat) (inst : Nat) (addr : Nat) (err : BitVec 144) (h_s
    : Keeps s₀ s) : Keeps s₀ (scrubTick s store inst addr err) := by
  unfold scrubTick
  try dsimp only
  with_reducible
    repeat'
      first
      | assumption | apply scrubMove_keeps | apply eccRead_keeps | (apply Keeps.foldl; intro u a hu; try dsimp only)
      | apply Keeps.ite | split | intro _ | refine Keeps.written rfl rfl rfl rfl rfl rfl rfl rfl ?_

theorem slotsLoaded_keeps {s₀ : State} (s : State) (h_s : Keeps s₀ s) : Keeps s₀ (slotsLoaded s) := by
  unfold slotsLoaded
  try dsimp only
  with_reducible
    repeat'
      first
      | assumption | apply takeoverStep_keeps | apply loadSpare_keeps | (apply Keeps.foldl; intro u a hu; try dsimp only)
      | apply Keeps.ite | split | intro _ | refine Keeps.written rfl rfl rfl rfl rfl rfl rfl rfl ?_

theorem spareLoadDone_keeps {s₀ : State} (s : State) (h_s : Keeps s₀ s) : Keeps s₀ (spareLoadDone s) := by
  unfold spareLoadDone
  try dsimp only
  with_reducible
    repeat'
      first
      | assumption | apply State.setRound_keeps | (apply Keeps.foldl; intro u a hu; try dsimp only) | apply Keeps.ite
      | split | intro _ | refine Keeps.written rfl rfl rfl rfl rfl rfl rfl rfl ?_

theorem sparePowered_keeps {s₀ : State} (s : State) (h_s : Keeps s₀ s) : Keeps s₀ (sparePowered s) := by
  unfold sparePowered
  try dsimp only
  with_reducible
    repeat'
      first
      | assumption | apply takeoverStep_keeps | (apply Keeps.foldl; intro u a hu; try dsimp only) | apply Keeps.ite
      | split | intro _ | refine Keeps.written rfl rfl rfl rfl rfl rfl rfl rfl ?_

theorem takeoverBegin_keeps {s₀ : State} (s : State) (h_s : Keeps s₀ s) : Keeps s₀ (takeoverBegin s) := by
  unfold takeoverBegin
  try dsimp only
  with_reducible
    repeat'
      first
      | assumption | apply takeoverStep_keeps | (apply Keeps.foldl; intro u a hu; try dsimp only) | apply Keeps.ite
      | split | intro _ | refine Keeps.written rfl rfl rfl rfl rfl rfl rfl rfl ?_

theorem retire_keeps {s₀ : State} (s : State) (u : Nat) (h_s : Keeps s₀ s) : Keeps s₀ (retire s u) := by
  unfold retire
  try dsimp only
  with_reducible
    repeat'
      first
      | assumption | apply setUnitState_keeps | apply tlmUndef_keeps | (apply Keeps.foldl; intro u a hu; try dsimp only)
      | apply Keeps.ite | split | intro _ | refine Keeps.written rfl rfl rfl rfl rfl rfl rfl rfl ?_

theorem testFails_keeps {s₀ : State} (s : State) (u : Nat) (x3 : UTest) (h_s : Keeps s₀ s)
    : Keeps s₀ (testFails s u x3) := by
  unfold testFails
  try dsimp only
  with_reducible
    repeat'
      first
      | assumption | apply regionFaultRecord_keeps | apply setUnitState_keeps | apply roundRecord_keeps
      | apply uncoverAll_keeps | apply roundEnd_keeps | apply setTest_keeps | apply retire_keeps
      | (apply Keeps.foldl; intro u a hu; try dsimp only) | apply Keeps.ite | split | intro _
      | refine Keeps.written rfl rfl rfl rfl rfl rfl rfl rfl ?_

theorem nextStep_keeps {s₀ : State} (s : State) (u : Nat) (x3 : UTest) (h_s : Keeps s₀ s) : Keeps s₀ (nextStep s u x3) := by
  unfold nextStep
  try dsimp only
  with_reducible
    repeat'
      first
      | assumption | apply State.setRound_keeps | apply State.setUnit_keeps | apply setTest_keeps
      | (apply Keeps.foldl; intro u a hu; try dsimp only) | apply Keeps.ite | split | intro _
      | refine Keeps.written rfl rfl rfl rfl rfl rfl rfl rfl ?_

theorem testStepDone_keeps {s₀ : State} (s : State) (u : Nat) (pass : Bool) (h_s : Keeps s₀ s)
    : Keeps s₀ (testStepDone s u pass) := by
  unfold testStepDone
  try dsimp only
  with_reducible
    repeat'
      first
      | assumption | apply testComplete_keeps | apply roundRecord_keeps | apply testFails_keeps | apply abortStep_keeps
      | apply nextStep_keeps | (apply Keeps.foldl; intro u a hu; try dsimp only) | apply Keeps.ite | split | intro _
      | refine Keeps.written rfl rfl rfl rfl rfl rfl rfl rfl ?_

theorem State.setRound_only {m : Nat} {s₀ : State} (hm : 134217728 ||| m = m) (s : State) (r : Round)
    (h_s : Only m s₀ s) : Only m s₀ (State.setRound s r) := by
  unfold State.setRound
  try dsimp only
  with_reducible
    repeat'
      first
      | assumption | exact .inr (mask_bit hm (by decide)) | exact .inl rfl | exact mask_trans (by decide) hm
      | (apply Only.foldl; intro u a hu; try dsimp only) | apply Only.ite | split | intro _
      | refine Only.written rfl ?_ ?_ ?_ ?_ ?_ ?_ ?_ ?_ ?_ ?_ ?_ ?_ ?_ ?_ ?_ ?_ ?_ ?_ ?_ ?_ ?_ ?_ ?_ ?_ ?_ ?_ ?_ ?_ ?_ ?_ ?_ ?_ ?_ ?_ ?_ ?_ ?_ ?_

theorem State.setTakeover_only {m : Nat} {s₀ : State} (hm : 33554432 ||| m = m) (s : State) (t : Option Takeover)
    (h_s : Only m s₀ s) : Only m s₀ (State.setTakeover s t) := by
  unfold State.setTakeover
  try dsimp only
  with_reducible
    repeat'
      first
      | assumption | exact .inr (mask_bit hm (by decide)) | exact .inl rfl | exact mask_trans (by decide) hm
      | (apply Only.foldl; intro u a hu; try dsimp only) | apply Only.ite | split | intro _
      | refine Only.written rfl ?_ ?_ ?_ ?_ ?_ ?_ ?_ ?_ ?_ ?_ ?_ ?_ ?_ ?_ ?_ ?_ ?_ ?_ ?_ ?_ ?_ ?_ ?_ ?_ ?_ ?_ ?_ ?_ ?_ ?_ ?_ ?_ ?_ ?_ ?_ ?_ ?_ ?_

theorem setTest_only {m : Nat} {s₀ : State} (hm : 33554432 ||| m = m) (s : State) (u : Nat) (x3 : Option UTest)
    (h_s : Only m s₀ s) : Only m s₀ (setTest s u x3) := by
  unfold setTest
  try dsimp only
  with_reducible
    repeat'
      first
      | assumption | exact .inr (mask_bit hm (by decide)) | exact .inl rfl | exact mask_trans (by decide) hm
      | (apply Only.foldl; intro u a hu; try dsimp only) | apply Only.ite | split | intro _
      | refine Only.written rfl ?_ ?_ ?_ ?_ ?_ ?_ ?_ ?_ ?_ ?_ ?_ ?_ ?_ ?_ ?_ ?_ ?_ ?_ ?_ ?_ ?_ ?_ ?_ ?_ ?_ ?_ ?_ ?_ ?_ ?_ ?_ ?_ ?_ ?_ ?_ ?_ ?_ ?_

theorem roundRecord_only {m : Nat} {s₀ : State} (hm : 564 ||| m = m) (s : State) (event : Nat) (step : Nat) (unit : Nat)
    (role : Nat) (fin : Nat) (dur : Nat) (detail : Word)
    (h_s : Only m s₀ s) : Only m s₀ (roundRecord s event step unit role fin dur detail) := by
  unfold roundRecord
  try dsimp only
  with_reducible
    repeat'
      first
      | assumption | exact mask_trans (by decide) hm | apply State.arrive_only | apply tlmRecord_only
      | (apply Only.foldl; intro u a hu; try dsimp only) | apply Only.ite | split | intro _

theorem ageingAppend_only {m : Nat} {s₀ : State} (hm : 67108872 ||| m = m) (s : State) (fin : Nat)
    (h_s : Only m s₀ s) : Only m s₀ (ageingAppend s fin) := by
  unfold ageingAppend
  try dsimp only
  with_reducible
    repeat'
      first
      | assumption | exact .inr (mask_bit hm (by decide)) | exact .inl rfl | exact mask_trans (by decide) hm
      | apply State.putWords_only | (apply Only.foldl; intro u a hu; try dsimp only) | apply Only.ite | split | intro _
      | refine Only.written rfl ?_ ?_ ?_ ?_ ?_ ?_ ?_ ?_ ?_ ?_ ?_ ?_ ?_ ?_ ?_ ?_ ?_ ?_ ?_ ?_ ?_ ?_ ?_ ?_ ?_ ?_ ?_ ?_ ?_ ?_ ?_ ?_ ?_ ?_ ?_ ?_ ?_ ?_

theorem roundEnd_only {m : Nat} {s₀ : State} (hm : 1275068990 ||| m = m) (s : State) (fin : Nat)
    (h_s : Only m s₀ s) : Only m s₀ (roundEnd s fin) := by
  unfold roundEnd
  try dsimp only
  with_reducible
    repeat'
      first
      | assumption | exact .inr (mask_bit hm (by decide)) | exact .inl rfl | exact mask_trans (by decide) hm
      | apply journalRequest_only | apply State.setRound_only | apply ageingAppend_only | apply State.setRf_only
      | apply roundRecord_only | apply autoRelease_only | (apply Only.foldl; intro u a hu; try dsimp only)
      | apply Only.ite | split | intro _
      | refine Only.written rfl ?_ ?_ ?_ ?_ ?_ ?_ ?_ ?_ ?_ ?_ ?_ ?_ ?_ ?_ ?_ ?_ ?_ ?_ ?_ ?_ ?_ ?_ ?_ ?_ ?_ ?_ ?_ ?_ ?_ ?_ ?_ ?_ ?_ ?_ ?_ ?_ ?_ ?_

theorem uncoverAll_only {m : Nat} {s₀ : State} (hm : 33554432 ||| m = m) (s : State)
    (h_s : Only m s₀ s) : Only m s₀ (uncoverAll s) := by
  unfold uncoverAll
  try dsimp only
  with_reducible
    repeat'
      first
      | assumption | exact .inr (mask_bit hm (by decide)) | exact .inl rfl | exact mask_trans (by decide) hm
      | (apply Only.foldl; intro u a hu; try dsimp only) | apply Only.ite | split | intro _
      | refine Only.written rfl ?_ ?_ ?_ ?_ ?_ ?_ ?_ ?_ ?_ ?_ ?_ ?_ ?_ ?_ ?_ ?_ ?_ ?_ ?_ ?_ ?_ ?_ ?_ ?_ ?_ ?_ ?_ ?_ ?_ ?_ ?_ ?_ ?_ ?_ ?_ ?_ ?_ ?_

theorem becomeSpare_only {m : Nat} {s₀ : State} (hm : 33562628 ||| m = m) (s : State) (u : Nat)
    (h_s : Only m s₀ s) : Only m s₀ (becomeSpare s u) := by
  unfold becomeSpare
  try dsimp only
  with_reducible
    repeat'
      first
      | assumption | exact mask_trans (by decide) hm | apply State.setUnit_only | apply setUnitState_only
      | apply uncoverAll_only | (apply Only.foldl; intro u a hu; try dsimp only) | apply Only.ite | split | intro _

theorem setRoleUnit_only {m : Nat} {s₀ : State} (hm : 4 ||| m = m) (s : State) (n : Nat) (u : Nat)
    (h_s : Only m s₀ s) : Only m s₀ (setRoleUnit s n u) := by
  unfold setRoleUnit
  try dsimp only
  with_reducible
    repeat'
      first
      | assumption | exact mask_trans (by decide) hm | apply State.setRf_only
      | (apply Only.foldl; intro u a hu; try dsimp only) | apply Only.ite | split | intro _

theorem setOwner_only {m : Nat} {s₀ : State} (hm : 4096 ||| m = m) (s : State) (n : Nat) (mirror : Bool)
    (h_s : Only m s₀ s) : Only m s₀ (setOwner s n mirror) := by
  unfold setOwner
  try dsimp only
  with_reducible
    repeat'
      first
      | assumption | exact mask_trans (by decide) hm | apply State.setBank_only
      | (apply Only.foldl; intro u a hu; try dsimp only) | apply Only.ite | split | intro _

theorem epochsUp_only {m : Nat} {s₀ : State} (hm : 4096 ||| m = m) (s : State) (n : Nat)
    (h_s : Only m s₀ s) : Only m s₀ (epochsUp s n) := by
  unfold epochsUp
  try dsimp only
  with_reducible
    repeat'
      first
      | assumption | exact mask_trans (by decide) hm | apply State.setBank_only
      | (apply Only.foldl; intro u a hu; try dsimp only) | apply Only.ite | split | intro _

theorem takeEmptyRole_only {m : Nat} {s₀ : State} (hm : 1140863548 ||| m = m) (s : State) (u : Nat) (n : Nat)
    (h_s : Only m s₀ s) : Only m s₀ (takeEmptyRole s u n) := by
  unfold takeEmptyRole
  try dsimp only
  with_reducible
    repeat'
      first
      | assumption | exact mask_trans (by decide) hm | apply regionFaultRecord_only | apply State.setUnit_only
      | apply setUnitState_only | apply setRoleUnit_only | apply setOwner_only | apply epochsUp_only
      | (apply Only.foldl; intro u a hu; try dsimp only) | apply Only.ite | split | intro _

theorem swapRoles_only {m : Nat} {s₀ : State} (hm : 1174417980 ||| m = m) (s : State) (u : Nat)
    (h_s : Only m s₀ s) : Only m s₀ (swapRoles s u) := by
  unfold swapRoles
  try dsimp only
  with_reducible
    repeat'
      first
      | assumption | exact mask_trans (by decide) hm | apply regionFaultRecord_only | apply State.setUnit_only
      | apply setUnitState_only | apply setRoleUnit_only | apply uncoverAll_only | apply setOwner_only
      | (apply Only.foldl; intro u a hu; try dsimp only) | apply Only.ite | split | intro _

theorem testPassed_only {m : Nat} {s₀ : State} (hm : 1174417980 ||| m = m) (s : State) (u : Nat)
    (h_s : Only m s₀ s) : Only m s₀ (testPassed s u) := by
  unfold testPassed
  try dsimp only
  with_reducible
    repeat'
      first
      | assumption | exact mask_trans (by decide) hm | apply regionFaultRecord_only | apply takeEmptyRole_only
      | apply becomeSpare_only | apply swapRoles_only | apply setTest_only
      | (apply Only.foldl; intro u a hu; try dsimp only) | apply Only.ite | split | intro _

theorem testComplete_only {m : Nat} {s₀ : State} (hm : 1308635710 ||| m = m) (s : State) (u : Nat)
    (h_s : Only m s₀ s) : Only m s₀ (testComplete s u) := by
  unfold testComplete
  try dsimp only
  with_reducible
    repeat'
      first
      | assumption | exact mask_trans (by decide) hm | apply becomeSpare_only | apply testPassed_only
      | apply roundEnd_only | apply setTest_only | (apply Only.foldl; intro u a hu; try dsimp only) | apply Only.ite
      | split | intro _

theorem abortStep_only {m : Nat} {s₀ : State} (hm : 1308635710 ||| m = m) (s : State) (u : Nat) (x3 : UTest)
    (h_s : Only m s₀ s) : Only m s₀ (abortStep s u x3) := by
  unfold abortStep
  try dsimp only
  with_reducible
    repeat'
      first
      | assumption | exact mask_trans (by decide) hm | apply State.setRound_only | apply testComplete_only
      | apply setTest_only | (apply Only.foldl; intro u a hu; try dsimp only) | apply Only.ite | split | intro _

theorem adoptRole_only {m : Nat} {s₀ : State} (hm : 33566724 ||| m = m) (s : State) (t : Takeover)
    (h_s : Only m s₀ s) : Only m s₀ (adoptRole s t) := by
  unfold adoptRole
  try dsimp only
  with_reducible
    repeat'
      first
      | assumption | exact mask_trans (by decide) hm | apply State.setTakeover_only | apply State.setUnit_only
      | apply setUnitState_only | apply State.setRf_only | apply setOwner_only
      | (apply Only.foldl; intro u a hu; try dsimp only) | apply Only.ite | split | intro _

theorem roundTurn_only {m : Nat} {s₀ : State} (hm : 134217728 ||| m = m) (s : State) (n : Nat)
    (h_s : Only m s₀ s) : Only m s₀ (roundTurn s n) := by
  unfold roundTurn
  try dsimp only
  with_reducible
    repeat'
      first
      | assumption | exact mask_trans (by decide) hm | apply State.setRound_only
      | (apply Only.foldl; intro u a hu; try dsimp only) | apply Only.ite | split | intro _

theorem startTest_only {m : Nat} {s₀ : State} (hm : 33554436 ||| m = m) (s : State) (u : Nat) (role : Option Nat)
    (h_s : Only m s₀ s) : Only m s₀ (startTest s u role) := by
  unfold startTest
  try dsimp only
  with_reducible
    repeat'
      first
      | assumption | exact mask_trans (by decide) hm | apply setUnitState_only | apply setTest_only
      | (apply Only.foldl; intro u a hu; try dsimp only) | apply Only.ite | split | intro _

theorem afterHandBack_only {m : Nat} {s₀ : State} (hm : 1308623422 ||| m = m) (s : State)
    (h_s : Only m s₀ s) : Only m s₀ (afterHandBack s) := by
  unfold afterHandBack
  try dsimp only
  with_reducible
    repeat'
      first
      | assumption | exact mask_trans (by decide) hm | apply State.setRound_only | apply uncoverAll_only
      | apply roundTurn_only | apply startTest_only | apply roundEnd_only
      | (apply Only.foldl; intro u a hu; try dsimp only) | apply Only.ite | split | intro _

theorem roundArmed_only {m : Nat} {s₀ : State} (hm : 134217728 ||| m = m) (s : State)
    (h_s : Only m s₀ s) : Only m s₀ (roundArmed s) := by
  unfold roundArmed
  try dsimp only
  with_reducible
    repeat'
      first
      | assumption | exact mask_trans (by decide) hm | apply State.setRound_only
      | (apply Only.foldl; intro u a hu; try dsimp only) | apply Only.ite | split | intro _

theorem resumeDomain_only {m : Nat} {s₀ : State} (hm : 104221391868 ||| m = m) (v : Nat) (ck : Refl) (s : State) (d : Nat)
    (h_s : Only m s₀ s) : Only m s₀ (resumeDomain v ck s d) := by
  unfold resumeDomain
  try dsimp only
  with_reducible
    repeat'
      first
      | assumption | exact mask_trans (by decide) hm | apply unitUpdate_only
      | (apply Only.foldl; intro u a hu; try dsimp only) | apply Only.ite | split | intro _

theorem catchUp_only {m : Nat} {s₀ : State} (hm : 104221391868 ||| m = m) (s : State) (t : Takeover)
    (h_s : Only m s₀ s) : Only m s₀ (catchUp s t) := by
  unfold catchUp
  try dsimp only
  with_reducible
    repeat'
      first
      | assumption | exact mask_trans (by decide) hm | apply resumeDomain_only | apply unitSync_only
      | (apply Only.foldl; intro u a hu; try dsimp only) | apply Only.ite | split | intro _

theorem cellReset_only {m : Nat} {s₀ : State} (hm : 34359738376 ||| m = m) (s : State) (c : Nat) (k : Nat)
    (h_s : Only m s₀ s) : Only m s₀ (cellReset s c k) := by
  unfold cellReset
  try dsimp only
  with_reducible
    repeat'
      first
      | assumption | exact mask_trans (by decide) hm | apply State.putWords_only | apply State.keepPast_only
      | (apply Only.foldl; intro u a hu; try dsimp only) | apply Only.ite | split | intro _

theorem faultLogClear_only {m : Nat} {s₀ : State} (hm : 1073741836 ||| m = m) (s : State)
    (h_s : Only m s₀ s) : Only m s₀ (faultLogClear s) := by
  unfold faultLogClear
  try dsimp only
  with_reducible
    repeat'
      first
      | assumption | exact mask_trans (by decide) hm | apply State.putBytes_only | apply progressNote_only
      | apply State.setRf_only | (apply Only.foldl; intro u a hu; try dsimp only) | apply Only.ite | split | intro _

theorem roundPoll_only {m : Nat} {s₀ : State} (hm : 134217728 ||| m = m) (s : State)
    (h_s : Only m s₀ s) : Only m s₀ (roundPoll s) := by
  unfold roundPoll
  try dsimp only
  with_reducible
    repeat'
      first
      | assumption | exact mask_trans (by decide) hm | apply State.setRound_only
      | (apply Only.foldl; intro u a hu; try dsimp only) | apply Only.ite | split | intro _

theorem wardenAct_only {m : Nat} {s₀ : State} (hm : 1207960116 ||| m = m) (byRound : Bool) (f : State → State) (s : State)
    (hf : ∀ a0, Only m s₀ a0 → Only m s₀ (f a0)) (h_s : Only m s₀ s) : Only m s₀ (wardenAct byRound f s) := by
  unfold wardenAct
  try dsimp only
  with_reducible
    repeat'
      first
      | assumption | exact mask_trans (by decide) hm | apply hf | apply journalRequest_only | apply progressNote_only
      | apply reflNotice_only | apply roundPoll_only | (apply Only.foldl; intro u a hu; try dsimp only) | apply Only.ite
      | split | intro _

theorem uncover_only {m : Nat} {s₀ : State} (hm : 69861653500 ||| m = m) (s : State) (n : Nat) (u : Nat)
    (h_s : Only m s₀ s) : Only m s₀ (uncover s n u) := by
  unfold uncover
  try dsimp only
  with_reducible
    repeat'
      first
      | assumption | exact mask_trans (by decide) hm | apply regionFaultRecord_only | apply bankSafe_only
      | (apply Only.foldl; intro u a hu; try dsimp only) | apply Only.ite | split | intro _

theorem fenceOff_only {m : Nat} {s₀ : State} (hm : 1174417980 ||| m = m) (s : State) (n : Nat) (role : Nat) (u : Nat)
    (code : Nat) (d0 : Word) (d1 : Word) (h_s : Only m s₀ s) : Only m s₀ (fenceOff s n role u code d0 d1) := by
  unfold fenceOff
  try dsimp only
  with_reducible
    repeat'
      first
      | assumption | exact .inr (mask_bit hm (by decide)) | exact .inl rfl | exact mask_trans (by decide) hm
      | apply regionFaultRecord_only | apply setUnitState_only | apply epochsUp_only
      | (apply Only.foldl; intro u a hu; try dsimp only) | apply Only.ite | split | intro _
      | refine Only.written rfl ?_ ?_ ?_ ?_ ?_ ?_ ?_ ?_ ?_ ?_ ?_ ?_ ?_ ?_ ?_ ?_ ?_ ?_ ?_ ?_ ?_ ?_ ?_ ?_ ?_ ?_ ?_ ?_ ?_ ?_ ?_ ?_ ?_ ?_ ?_ ?_ ?_ ?_

theorem giveBack_only {m : Nat} {s₀ : State} (hm : 33566724 ||| m = m) (s : State) (n : Nat)
    (h_s : Only m s₀ s) : Only m s₀ (giveBack s n) := by
  unfold giveBack
  try dsimp only
  with_reducible
    repeat'
      first
      | assumption | exact mask_trans (by decide) hm | apply State.setTakeover_only | apply State.setUnit_only
      | apply State.setRefl_only | apply setUnitState_only | apply setOwner_only | apply epochsUp_only
      | apply setTest_only | (apply Only.foldl; intro u a hu; try dsimp only) | apply Only.ite | split | intro _

theorem handBackRecord_only {m : Nat} {s₀ : State} (hm : 33567284 ||| m = m) (s : State) (n : Nat)
    (h_s : Only m s₀ s) : Only m s₀ (handBackRecord s n) := by
  unfold handBackRecord
  try dsimp only
  with_reducible
    repeat'
      first
      | assumption | exact mask_trans (by decide) hm | apply roundRecord_only | apply giveBack_only
      | (apply Only.foldl; intro u a hu; try dsimp only) | apply Only.ite | split | intro _

theorem fenceSpare_only {m : Nat} {s₀ : State} (hm : 70297862142 ||| m = m) (s : State) (u : Nat) (code : Nat) (d0 : Word)
    (d1 : Word) (h_s : Only m s₀ s) : Only m s₀ (fenceSpare s u code d0 d1) := by
  unfold fenceSpare
  try dsimp only
  with_reducible
    repeat'
      first
      | assumption | exact mask_trans (by decide) hm | apply regionFaultRecord_only | apply State.setTakeover_only
      | apply handBackRecord_only | apply setUnitState_only | apply uncoverAll_only | apply startTest_only
      | apply chipFatal_only | apply fenceOff_only | apply roundEnd_only | apply setOwner_only | apply uncover_only
      | (apply Only.foldl; intro u a hu; try dsimp only) | apply Only.ite | split | intro _

theorem takeoverFrom_only {m : Nat} {s₀ : State} (hm : 33554432 ||| m = m) (s : State) (n : Nat) (u : Nat) (warm : Bool)
    (h_s : Only m s₀ s) : Only m s₀ (takeoverFrom s n u warm) := by
  unfold takeoverFrom
  try dsimp only
  with_reducible
    repeat'
      first
      | assumption | exact mask_trans (by decide) hm | apply State.setTakeover_only | apply State.setRefl_only
      | (apply Only.foldl; intro u a hu; try dsimp only) | apply Only.ite | split | intro _

theorem fenceResult_only {m : Nat} {s₀ : State} (hm : 70163644414 ||| m = m) (s : State) (n : Nat) (u : Nat) (warm : Bool)
    (h_s : Only m s₀ s) : Only m s₀ (fenceResult s n u warm) := by
  unfold fenceResult
  try dsimp only
  with_reducible
    repeat'
      first
      | assumption | exact mask_trans (by decide) hm | apply takeoverFrom_only | apply chipFatal_only | apply uncover_only
      | (apply Only.foldl; intro u a hu; try dsimp only) | apply Only.ite | split | intro _

theorem fenceDuringLend_only {m : Nat} {s₀ : State} (hm : 70297862142 ||| m = m) (s : State) (m2 : Nat) (u : Nat)
    (h_s : Only m s₀ s) : Only m s₀ (fenceDuringLend s m2 u) := by
  unfold fenceDuringLend
  try dsimp only
  with_reducible
    repeat'
      first
      | assumption | exact mask_trans (by decide) hm | apply handBackRecord_only | apply fenceResult_only
      | apply roundEnd_only | (apply Only.foldl; intro u a hu; try dsimp only) | apply Only.ite | split | intro _

theorem fenceServing_only {m : Nat} {s₀ : State} (hm : 70297862142 ||| m = m) (s : State) (n : Nat) (u : Nat) (code : Nat)
    (d0 : Word) (d1 : Word) (h_s : Only m s₀ s) : Only m s₀ (fenceServing s n u code d0 d1) := by
  unfold fenceServing
  try dsimp only
  with_reducible
    repeat'
      first
      | assumption | exact mask_trans (by decide) hm | apply fenceDuringLend_only | apply fenceResult_only
      | apply fenceOff_only | apply roundEnd_only | (apply Only.foldl; intro u a hu; try dsimp only) | apply Only.ite
      | split | intro _

theorem fence_only {m : Nat} {s₀ : State} (hm : 70297862142 ||| m = m) (s : State) (u : Nat) (code : Nat) (d0 : Word)
    (d1 : Word) (h_s : Only m s₀ s) : Only m s₀ (fence s u code d0 d1) := by
  unfold fence
  try dsimp only
  with_reducible
    repeat'
      first
      | assumption | exact mask_trans (by decide) hm | apply fenceServing_only | apply fenceSpare_only
      | (apply Only.foldl; intro u a hu; try dsimp only) | apply Only.ite | split | intro _

theorem regionTakeover_only {m : Nat} {s₀ : State} (hm : 70297862142 ||| m = m) (s : State) (n : Nat)
    (h_s : Only m s₀ s) : Only m s₀ (regionTakeover s n).2 := by
  unfold regionTakeover
  try dsimp only
  with_reducible
    repeat'
      first
      | assumption | exact mask_trans (by decide) hm | apply wardenAct_only | apply fence_only
      | (apply Only.foldl; intro u a hu; try dsimp only) | apply Only.ite | split | intro _

theorem regionTest_only {m : Nat} {s₀ : State} (hm : 1241514548 ||| m = m) (s : State) (u : Nat)
    (h_s : Only m s₀ s) : Only m s₀ (regionTest s u).2 := by
  unfold regionTest
  try dsimp only
  with_reducible
    repeat'
      first
      | assumption | exact mask_trans (by decide) hm | apply wardenAct_only | apply startTest_only
      | (apply Only.foldl; intro u a hu; try dsimp only) | apply Only.ite | split | intro _

theorem roundAbort_only {m : Nat} {s₀ : State} (hm : 1275068990 ||| m = m) (s : State)
    (h_s : Only m s₀ s) : Only m s₀ (roundAbort s).2 := by
  unfold roundAbort
  try dsimp only
  with_reducible
    repeat'
      first
      | assumption | exact mask_trans (by decide) hm | apply State.setRound_only | apply wardenAct_only
      | apply roundEnd_only | (apply Only.foldl; intro u a hu; try dsimp only) | apply Only.ite | split | intro _

theorem roundBegin_only {m : Nat} {s₀ : State} (hm : 134217732 ||| m = m) (s : State)
    (h_s : Only m s₀ s) : Only m s₀ (roundBegin s) := by
  unfold roundBegin
  try dsimp only
  with_reducible
    repeat'
      first
      | assumption | exact mask_trans (by decide) hm | apply State.setRf_only | apply roundTurn_only
      | (apply Only.foldl; intro u a hu; try dsimp only) | apply Only.ite | split | intro _

theorem roundStart_only {m : Nat} {s₀ : State} (hm : 1207960116 ||| m = m) (s : State)
    (h_s : Only m s₀ s) : Only m s₀ (roundStart s).2 := by
  unfold roundStart
  try dsimp only
  with_reducible
    repeat'
      first
      | assumption | exact mask_trans (by decide) hm | apply State.setRound_only | apply roundBegin_only
      | apply wardenAct_only | (apply Only.foldl; intro u a hu; try dsimp only) | apply Only.ite | split | intro _

theorem eccCount_only {m : Nat} {s₀ : State} (hm : 8196 ||| m = m) (s : State) (store : Nat) (inst : Nat) (uncorr : Bool)
    (h_s : Only m s₀ s) : Only m s₀ (eccCount s store inst uncorr) := by
  unfold eccCount
  try dsimp only
  with_reducible
    repeat'
      first
      | assumption | exact mask_trans (by decide) hm | apply State.setUnit_only | apply State.cntSat_only
      | (apply Only.foldl; intro u a hu; try dsimp only) | apply Only.ite | split | intro _

theorem reflectionLost_only {m : Nat} {s₀ : State} (hm : 1174413884 ||| m = m) (s : State) (n : Nat) (a : Word)
    (syn : Word) (h_s : Only m s₀ s) : Only m s₀ (reflectionLost s n a syn) := by
  unfold reflectionLost
  try dsimp only
  with_reducible
    repeat'
      first
      | assumption | exact mask_trans (by decide) hm | apply regionFaultRecord_only | apply State.setRefl_only
      | (apply Only.foldl; intro u a hu; try dsimp only) | apply Only.ite | split | intro _

theorem eccProfile_only {m : Nat} {s₀ : State} (hm : 2048 ||| m = m) (s : State) (off : Nat)
    (h_s : Only m s₀ s) : Only m s₀ (eccProfile s off) := by
  unfold eccProfile
  try dsimp only
  with_reducible
    repeat'
      first
      | assumption | exact mask_trans (by decide) hm | apply State.setCell_only
      | (apply Only.foldl; intro u a hu; try dsimp only) | apply Only.ite | split | intro _

theorem eccModel_only {m : Nat} {s₀ : State} (hm : 34359740424 ||| m = m) (s : State) (off : Nat)
    (h_s : Only m s₀ s) : Only m s₀ (eccModel s off) := by
  unfold eccModel
  try dsimp only
  with_reducible
    repeat'
      first
      | assumption | exact mask_trans (by decide) hm | apply State.setCell_only | apply cellReset_only
      | (apply Only.foldl; intro u a hu; try dsimp only) | apply Only.ite | split | intro _

theorem eccTable_only {m : Nat} {s₀ : State} (hm : 68767054836 ||| m = m) (s : State) (off : Nat)
    (h_s : Only m s₀ s) : Only m s₀ (eccTable s off) := by
  unfold eccTable
  try dsimp only
  with_reducible
    repeat'
      first
      | assumption | exact mask_trans (by decide) hm | apply domainDisable_only | apply State.setDom_only
      | (apply Only.foldl; intro u a hu; try dsimp only) | apply Only.ite | split | intro _

theorem eccWheel_only {m : Nat} {s₀ : State} (hm : 32776 ||| m = m) (s : State) (off : Nat)
    (h_s : Only m s₀ s) : Only m s₀ (eccWheel s off) := by
  unfold eccWheel
  try dsimp only
  with_reducible
    repeat'
      first
      | assumption | exact mask_trans (by decide) hm | apply State.putWords_only | apply State.setDom_only
      | (apply Only.foldl; intro u a hu; try dsimp only) | apply Only.ite | split | intro _

theorem eccRetention_only {m : Nat} {s₀ : State} (hm : 1073741824 ||| m = m) (s : State) (inst : Nat)
    (h_s : Only m s₀ s) : Only m s₀ (eccRetention s inst) := by
  unfold eccRetention
  try dsimp only
  with_reducible
    repeat'
      first
      | assumption | exact .inr (mask_bit hm (by decide)) | exact .inl rfl | exact mask_trans (by decide) hm
      | (apply Only.foldl; intro u a hu; try dsimp only) | apply Only.ite | split | intro _
      | refine Only.written rfl ?_ ?_ ?_ ?_ ?_ ?_ ?_ ?_ ?_ ?_ ?_ ?_ ?_ ?_ ?_ ?_ ?_ ?_ ?_ ?_ ?_ ?_ ?_ ?_ ?_ ?_ ?_ ?_ ?_ ?_ ?_ ?_ ?_ ?_ ?_ ?_ ?_ ?_

theorem eccEffect_only {m : Nat} {s₀ : State} (hm : 104670298110 ||| m = m) (s : State) (store : Nat) (inst : Nat)
    (a : Word) (syn : Word) (h_s : Only m s₀ s) : Only m s₀ (eccEffect s store inst a syn) := by
  unfold eccEffect
  try dsimp only
  with_reducible
    repeat'
      first
      | assumption | exact mask_trans (by decide) hm | apply reflectionLost_only | apply eccRetention_only
      | apply faultRecord_only | apply eccProfile_only | apply chipFatal_only | apply eccModel_only | apply eccTable_only
      | apply eccWheel_only | apply fence_only | (apply Only.foldl; intro u a hu; try dsimp only) | apply Only.ite | split
      | intro _

theorem eccLast_only {m : Nat} {s₀ : State} (hm : 4 ||| m = m) (s : State) (store : Nat) (a : Word) (syn : Word)
    (h_s : Only m s₀ s) : Only m s₀ (eccLast s store a syn) := by
  unfold eccLast
  try dsimp only
  with_reducible
    repeat'
      first
      | assumption | exact mask_trans (by decide) hm | apply State.setReg_only
      | (apply Only.foldl; intro u a hu; try dsimp only) | apply Only.ite | split | intro _

theorem eccRead_only {m : Nat} {s₀ : State} (hm : 104670298110 ||| m = m) (s : State) (store : Nat) (inst : Nat)
    (addr : Nat) (err : BitVec 144) (h_s : Only m s₀ s) : Only m s₀ (eccRead s store inst addr err) := by
  unfold eccRead
  try dsimp only
  with_reducible
    repeat'
      first
      | assumption | exact mask_trans (by decide) hm | apply eccEffect_only | apply eccCount_only | apply eccLast_only
      | (apply Only.foldl; intro u a hu; try dsimp only) | apply Only.ite | split | intro _

theorem takeoverRecord_only {m : Nat} {s₀ : State} (hm : 1174413884 ||| m = m) (s : State) (t : Takeover) (held : Nat)
    (h_s : Only m s₀ s) : Only m s₀ (takeoverRecord s t held) := by
  unfold takeoverRecord
  try dsimp only
  with_reducible
    repeat'
      first
      | assumption | exact mask_trans (by decide) hm | apply regionFaultRecord_only | apply State.arrive_only
      | apply State.setReg_only | apply uncoverAll_only | (apply Only.foldl; intro u a hu; try dsimp only)
      | apply Only.ite | split | intro _

theorem firstEvaluation_only {m : Nat} {s₀ : State} (hm : 104254946300 ||| m = m) (s : State)
    (h_s : Only m s₀ s) : Only m s₀ (firstEvaluation s) := by
  unfold firstEvaluation
  try dsimp only
  with_reducible
    repeat'
      first
      | assumption | exact mask_trans (by decide) hm | apply takeoverRecord_only | apply roundRecord_only
      | apply adoptRole_only | apply catchUp_only | (apply Only.foldl; intro u a hu; try dsimp only) | apply Only.ite
      | split | intro _

theorem unitSpeaks_only {m : Nat} {s₀ : State} (hm : 1174413884 ||| m = m) (s : State) (u : Nat)
    (h_s : Only m s₀ s) : Only m s₀ (unitSpeaks s u) := by
  unfold unitSpeaks
  try dsimp only
  with_reducible
    repeat'
      first
      | assumption | exact mask_trans (by decide) hm | apply regionFaultRecord_only | apply setUnitState_only
      | apply startTest_only | (apply Only.foldl; intro u a hu; try dsimp only) | apply Only.ite | split | intro _

theorem heartbeat_only {m : Nat} {s₀ : State} (hm : 1174413884 ||| m = m) (s : State) (u : Nat)
    (h_s : Only m s₀ s) : Only m s₀ (heartbeat s u) := by
  unfold heartbeat
  try dsimp only
  with_reducible
    repeat'
      first
      | assumption | exact mask_trans (by decide) hm | apply State.setUnit_only | apply unitSpeaks_only
      | (apply Only.foldl; intro u a hu; try dsimp only) | apply Only.ite | split | intro _

theorem heartbeatTimeout_only {m : Nat} {s₀ : State} (hm : 70297862142 ||| m = m) (s : State) (u : Nat)
    (h_s : Only m s₀ s) : Only m s₀ (heartbeatTimeout s u) := by
  unfold heartbeatTimeout
  try dsimp only
  with_reducible
    repeat'
      first
      | assumption | exact mask_trans (by decide) hm | apply State.setUnit_only | apply fence_only
      | (apply Only.foldl; intro u a hu; try dsimp only) | apply Only.ite | split | intro _

theorem handBackNow_only {m : Nat} {s₀ : State} (hm : 1308635710 ||| m = m) (s : State) (n : Nat)
    (h_s : Only m s₀ s) : Only m s₀ (handBackNow s n) := by
  unfold handBackNow
  try dsimp only
  with_reducible
    repeat'
      first
      | assumption | exact mask_trans (by decide) hm | apply handBackRecord_only | apply State.setRound_only
      | apply afterHandBack_only | apply uncoverAll_only | (apply Only.foldl; intro u a hu; try dsimp only)
      | apply Only.ite | split | intro _

theorem loadSpare_only {m : Nat} {s₀ : State} (hm : 8192 ||| m = m) (s : State) (slots : Cells Slot) (busy : List Nat)
    (h_s : Only m s₀ s) : Only m s₀ (loadSpare s slots busy) := by
  unfold loadSpare
  try dsimp only
  with_reducible
    repeat'
      first
      | assumption | exact mask_trans (by decide) hm | apply State.setUnit_only
      | (apply Only.foldl; intro u a hu; try dsimp only) | apply Only.ite | split | intro _

theorem lend_only {m : Nat} {s₀ : State} (hm : 167784454 ||| m = m) (s : State)
    (h_s : Only m s₀ s) : Only m s₀ (lend s) := by
  unfold lend
  try dsimp only
  with_reducible
    repeat'
      first
      | assumption | exact .inr (mask_bit hm (by decide)) | exact .inl rfl | exact mask_trans (by decide) hm
      | apply State.setTakeover_only | apply State.setRefl_only | apply setUnitState_only | apply State.setRf_only
      | apply loadSpare_only | apply startTest_only | apply setOwner_only | apply epochsUp_only
      | (apply Only.foldl; intro u a hu; try dsimp only) | apply Only.ite | split | intro _
      | refine Only.written rfl ?_ ?_ ?_ ?_ ?_ ?_ ?_ ?_ ?_ ?_ ?_ ?_ ?_ ?_ ?_ ?_ ?_ ?_ ?_ ?_ ?_ ?_ ?_ ?_ ?_ ?_ ?_ ?_ ?_ ?_ ?_ ?_ ?_ ?_ ?_ ?_ ?_ ?_

theorem quietWaitExpiry_only {m : Nat} {s₀ : State} (hm : 1308635710 ||| m = m) (s : State)
    (h_s : Only m s₀ s) : Only m s₀ (quietWaitExpiry s) := by
  unfold quietWaitExpiry
  try dsimp only
  with_reducible
    repeat'
      first
      | assumption | exact mask_trans (by decide) hm | apply handBackNow_only | apply lend_only
      | (apply Only.foldl; intro u a hu; try dsimp only) | apply Only.ite | split | intro _

theorem takeoverStep_only {m : Nat} {s₀ : State} (hm : 33554432 ||| m = m) (s : State) (t : Takeover) (n : Nat)
    (h_s : Only m s₀ s) : Only m s₀ (takeoverStep s t n) := by
  unfold takeoverStep
  try dsimp only
  with_reducible
    repeat'
      first
      | assumption | exact mask_trans (by decide) hm | apply State.setTakeover_only
      | (apply Only.foldl; intro u a hu; try dsimp only) | apply Only.ite | split | intro _

theorem reconcile_only {m : Nat} {s₀ : State} (hm : 33562624 ||| m = m) (s : State)
    (h_s : Only m s₀ s) : Only m s₀ (reconcile s) := by
  unfold reconcile
  try dsimp only
  with_reducible
    repeat'
      first
      | assumption | exact mask_trans (by decide) hm | apply State.setUnit_only | apply takeoverStep_only
      | (apply Only.foldl; intro u a hu; try dsimp only) | apply Only.ite | split | intro _

theorem reflectionCheckpoint_only {m : Nat} {s₀ : State} (hm : 33554432 ||| m = m) (s : State) (u : Nat)
    (h_s : Only m s₀ s) : Only m s₀ (reflectionCheckpoint s u) := by
  unfold reflectionCheckpoint
  try dsimp only
  with_reducible
    repeat'
      first
      | assumption | exact mask_trans (by decide) hm | apply State.setRefl_only
      | (apply Only.foldl; intro u a hu; try dsimp only) | apply Only.ite | split | intro _

theorem reflectionCopyDone_only {m : Nat} {s₀ : State} (hm : 33554434 ||| m = m) (s : State) (n : Nat)
    (h_s : Only m s₀ s) : Only m s₀ (reflectionCopyDone s n) := by
  unfold reflectionCopyDone
  try dsimp only
  with_reducible
    repeat'
      first
      | assumption | exact .inr (mask_bit hm (by decide)) | exact .inl rfl | exact mask_trans (by decide) hm
      | apply State.setRefl_only | (apply Only.foldl; intro u a hu; try dsimp only) | apply Only.ite | split | intro _
      | refine Only.written rfl ?_ ?_ ?_ ?_ ?_ ?_ ?_ ?_ ?_ ?_ ?_ ?_ ?_ ?_ ?_ ?_ ?_ ?_ ?_ ?_ ?_ ?_ ?_ ?_ ?_ ?_ ?_ ?_ ?_ ?_ ?_ ?_ ?_ ?_ ?_ ?_ ?_ ?_

theorem reflectionVerified_only {m : Nat} {s₀ : State} (hm : 33554432 ||| m = m) (s : State)
    (h_s : Only m s₀ s) : Only m s₀ (reflectionVerified s) := by
  unfold reflectionVerified
  try dsimp only
  with_reducible
    repeat'
      first
      | assumption | exact mask_trans (by decide) hm | apply takeoverStep_only
      | (apply Only.foldl; intro u a hu; try dsimp only) | apply Only.ite | split | intro _

theorem roundDue_only {m : Nat} {s₀ : State} (hm : 134217732 ||| m = m) (s : State)
    (h_s : Only m s₀ s) : Only m s₀ (roundDue s) := by
  unfold roundDue
  try dsimp only
  with_reducible
    repeat'
      first
      | assumption | exact mask_trans (by decide) hm | apply roundBegin_only
      | (apply Only.foldl; intro u a hu; try dsimp only) | apply Only.ite | split | intro _

theorem roundHandBack_only {m : Nat} {s₀ : State} (hm : 1308635710 ||| m = m) (s : State)
    (h_s : Only m s₀ s) : Only m s₀ (roundHandBack s) := by
  unfold roundHandBack
  try dsimp only
  with_reducible
    repeat'
      first
      | assumption | exact mask_trans (by decide) hm | apply handBackNow_only
      | (apply Only.foldl; intro u a hu; try dsimp only) | apply Only.ite | split | intro _

theorem roundLend_only {m : Nat} {s₀ : State} (hm : 167784454 ||| m = m) (s : State)
    (h_s : Only m s₀ s) : Only m s₀ (roundLend s) := by
  unfold roundLend
  try dsimp only
  with_reducible
    repeat'
      first
      | assumption | exact mask_trans (by decide) hm | apply lend_only | (apply Only.foldl; intro u a hu; try dsimp only)
      | apply Only.ite | split | intro _

theorem roundPostponed_only {m : Nat} {s₀ : State} (hm : 1275068990 ||| m = m) (s : State)
    (h_s : Only m s₀ s) : Only m s₀ (roundPostponed s) := by
  unfold roundPostponed
  try dsimp only
  with_reducible
    repeat'
      first
      | assumption | exact mask_trans (by decide) hm | apply roundEnd_only
      | (apply Only.foldl; intro u a hu; try dsimp only) | apply Only.ite | split | intro _

theorem scrubMove_only {m : Nat} {s₀ : State} (hm : 33554436 ||| m = m) (s : State)
    (h_s : Only m s₀ s) : Only m s₀ (scrubMove s) := by
  unfold scrubMove
  try dsimp only
  with_reducible
    repeat'
      first
      | assumption | exact .inr (mask_bit hm (by decide)) | exact .inl rfl | exact mask_trans (by decide) hm
      | apply State.cntWrap_only | (apply Only.foldl; intro u a hu; try dsimp only) | apply Only.ite | split | intro _
      | refine Only.written rfl ?_ ?_ ?_ ?_ ?_ ?_ ?_ ?_ ?_ ?_ ?_ ?_ ?_ ?_ ?_ ?_ ?_ ?_ ?_ ?_ ?_ ?_ ?_ ?_ ?_ ?_ ?_ ?_ ?_ ?_ ?_ ?_ ?_ ?_ ?_ ?_ ?_ ?_

theorem scrubTick_only {m : Nat} {s₀ : State} (hm : 104670298110 ||| m = m) (s : State) (store : Nat) (inst : Nat)
    (addr : Nat) (err : BitVec 144) (h_s : Only m s₀ s) : Only m s₀ (scrubTick s store inst addr err) := by
  unfold scrubTick
  try dsimp only
  with_reducible
    repeat'
      first
      | assumption | exact mask_trans (by decide) hm | apply scrubMove_only | apply eccRead_only
      | (apply Only.foldl; intro u a hu; try dsimp only) | apply Only.ite | split | intro _

theorem slotsLoaded_only {m : Nat} {s₀ : State} (hm : 33562624 ||| m = m) (s : State)
    (h_s : Only m s₀ s) : Only m s₀ (slotsLoaded s) := by
  unfold slotsLoaded
  try dsimp only
  with_reducible
    repeat'
      first
      | assumption | exact mask_trans (by decide) hm | apply takeoverStep_only | apply loadSpare_only
      | (apply Only.foldl; intro u a hu; try dsimp only) | apply Only.ite | split | intro _

theorem spareLoadDone_only {m : Nat} {s₀ : State} (hm : 134217728 ||| m = m) (s : State)
    (h_s : Only m s₀ s) : Only m s₀ (spareLoadDone s) := by
  unfold spareLoadDone
  try dsimp only
  with_reducible
    repeat'
      first
      | assumption | exact mask_trans (by decide) hm | apply State.setRound_only
      | (apply Only.foldl; intro u a hu; try dsimp only) | apply Only.ite | split | intro _

theorem sparePowered_only {m : Nat} {s₀ : State} (hm : 33554432 ||| m = m) (s : State)
    (h_s : Only m s₀ s) : Only m s₀ (sparePowered s) := by
  unfold sparePowered
  try dsimp only
  with_reducible
    repeat'
      first
      | assumption | exact mask_trans (by decide) hm | apply takeoverStep_only
      | (apply Only.foldl; intro u a hu; try dsimp only) | apply Only.ite | split | intro _

theorem takeoverBegin_only {m : Nat} {s₀ : State} (hm : 33554432 ||| m = m) (s : State)
    (h_s : Only m s₀ s) : Only m s₀ (takeoverBegin s) := by
  unfold takeoverBegin
  try dsimp only
  with_reducible
    repeat'
      first
      | assumption | exact mask_trans (by decide) hm | apply takeoverStep_only
      | (apply Only.foldl; intro u a hu; try dsimp only) | apply Only.ite | split | intro _

theorem retire_only {m : Nat} {s₀ : State} (hm : 68719477300 ||| m = m) (s : State) (u : Nat)
    (h_s : Only m s₀ s) : Only m s₀ (retire s u) := by
  unfold retire
  try dsimp only
  with_reducible
    repeat'
      first
      | assumption | exact mask_trans (by decide) hm | apply setUnitState_only | apply tlmUndef_only
      | (apply Only.foldl; intro u a hu; try dsimp only) | apply Only.ite | split | intro _

theorem testFails_only {m : Nat} {s₀ : State} (hm : 70028108350 ||| m = m) (s : State) (u : Nat) (x3 : UTest)
    (h_s : Only m s₀ s) : Only m s₀ (testFails s u x3) := by
  unfold testFails
  try dsimp only
  with_reducible
    repeat'
      first
      | assumption | exact mask_trans (by decide) hm | apply regionFaultRecord_only | apply setUnitState_only
      | apply roundRecord_only | apply uncoverAll_only | apply roundEnd_only | apply setTest_only | apply retire_only
      | (apply Only.foldl; intro u a hu; try dsimp only) | apply Only.ite | split | intro _

theorem nextStep_only {m : Nat} {s₀ : State} (hm : 167780352 ||| m = m) (s : State) (u : Nat) (x3 : UTest)
    (h_s : Only m s₀ s) : Only m s₀ (nextStep s u x3) := by
  unfold nextStep
  try dsimp only
  with_reducible
    repeat'
      first
      | assumption | exact mask_trans (by decide) hm | apply State.setRound_only | apply State.setUnit_only
      | apply setTest_only | (apply Only.foldl; intro u a hu; try dsimp only) | apply Only.ite | split | intro _

theorem testStepDone_only {m : Nat} {s₀ : State} (hm : 70028112446 ||| m = m) (s : State) (u : Nat) (pass : Bool)
    (h_s : Only m s₀ s) : Only m s₀ (testStepDone s u pass) := by
  unfold testStepDone
  try dsimp only
  with_reducible
    repeat'
      first
      | assumption | exact mask_trans (by decide) hm | apply testComplete_only | apply roundRecord_only
      | apply testFails_only | apply abortStep_only | apply nextStep_only
      | (apply Only.foldl; intro u a hu; try dsimp only) | apply Only.ite | split | intro _

end Sys2Proof.Machine
end

