-- ==== Sys2Proof/Laws/Firmware.lean ====
section
/-!
SUPPORT. Machine/Firmware.lean: every operation of it keeps what `Keeps` says, and changes only the parts of its mask.
-/
set_option linter.unusedTactic false
set_option linter.unreachableTactic false
set_option linter.unusedVariables false

namespace Sys2Proof.Machine

theorem fwActivate_keeps {s₀ : State} (s : State) (h_s : Keeps s₀ s) : Keeps s₀ (fwActivate s).2 := by
  unfold fwActivate
  try dsimp only
  with_reducible
    repeat'
      first
      | assumption | apply State.setRf_keeps | apply roundPoll_keeps | (apply Keeps.foldl; intro u a hu; try dsimp only)
      | apply Keeps.ite | split | intro _ | refine Keeps.written rfl rfl rfl rfl rfl rfl rfl rfl ?_

theorem fwCancel_keeps {s₀ : State} (s : State) (h_s : Keeps s₀ s) : Keeps s₀ (fwCancel s) := by
  unfold fwCancel
  try dsimp only
  with_reducible
    repeat'
      first
      | assumption | apply State.setRf_keeps | apply roundPoll_keeps | (apply Keeps.foldl; intro u a hu; try dsimp only)
      | apply Keeps.ite | split | intro _ | refine Keeps.written rfl rfl rfl rfl rfl rfl rfl rfl ?_

theorem fwVerify_keeps {s₀ : State} (s : State) (h_s : Keeps s₀ s) : Keeps s₀ (fwVerify s).2 := by
  unfold fwVerify
  try dsimp only
  with_reducible
    repeat'
      first
      | assumption | (apply Keeps.foldl; intro u a hu; try dsimp only) | apply Keeps.ite | split | intro _
      | refine Keeps.written rfl rfl rfl rfl rfl rfl rfl rfl ?_

theorem fwWrite_keeps {s₀ : State} (s : State) (offset : Nat) (ws : List Word) (h_s : Keeps s₀ s)
    : Keeps s₀ (fwWrite s offset ws).2 := by
  unfold fwWrite
  try dsimp only
  with_reducible
    repeat'
      first
      | assumption | apply State.setRf_keeps | (apply Keeps.foldl; intro u a hu; try dsimp only) | apply Keeps.ite | split
      | intro _ | refine Keeps.written rfl rfl rfl rfl rfl rfl rfl rfl ?_

theorem fwActivation_keeps {s₀ : State} (s : State) (h_s : Keeps s₀ s) : Keeps s₀ (fwActivation s) := by
  unfold fwActivation
  try dsimp only
  with_reducible
    repeat'
      first
      | assumption | apply State.setRf_keeps | (apply Keeps.foldl; intro u a hu; try dsimp only) | apply Keeps.ite | split
      | intro _ | refine Keeps.written rfl rfl rfl rfl rfl rfl rfl rfl ?_

theorem fwProgramDone_keeps {s₀ : State} (s : State) (h_s : Keeps s₀ s) : Keeps s₀ (fwProgramDone s) := by
  unfold fwProgramDone
  try dsimp only
  with_reducible
    repeat'
      first
      | assumption | apply State.setRf_keeps | (apply Keeps.foldl; intro u a hu; try dsimp only) | apply Keeps.ite | split
      | intro _ | refine Keeps.written rfl rfl rfl rfl rfl rfl rfl rfl ?_

theorem fwRevert_keeps {s₀ : State} (s : State) (h_s : Keeps s₀ s) : Keeps s₀ (fwRevert s) := by
  unfold fwRevert
  try dsimp only
  with_reducible
    repeat'
      first
      | assumption | apply State.arrive_keeps | apply State.setRf_keeps
      | (apply Keeps.foldl; intro u a hu; try dsimp only) | apply Keeps.ite | split | intro _
      | refine Keeps.written rfl rfl rfl rfl rfl rfl rfl rfl ?_

theorem fwRunning_keeps {s₀ : State} (s : State) (h_s : Keeps s₀ s) : Keeps s₀ (fwRunning s) := by
  unfold fwRunning
  try dsimp only
  with_reducible
    repeat'
      first
      | assumption | apply State.setReg_keeps | apply State.arrive_keeps | apply State.setRf_keeps
      | (apply Keeps.foldl; intro u a hu; try dsimp only) | apply Keeps.ite | split | intro _
      | refine Keeps.written rfl rfl rfl rfl rfl rfl rfl rfl ?_

theorem fwVerifyDone_keeps {s₀ : State} (s : State) (h_s : Keeps s₀ s) : Keeps s₀ (fwVerifyDone s) := by
  unfold fwVerifyDone
  try dsimp only
  with_reducible
    repeat'
      first
      | assumption | apply State.arrive_keeps | apply State.setRf_keeps
      | (apply Keeps.foldl; intro u a hu; try dsimp only) | apply Keeps.ite | split | intro _
      | refine Keeps.written rfl rfl rfl rfl rfl rfl rfl rfl ?_

theorem fwActivate_only {m : Nat} {s₀ : State} (hm : 134217732 ||| m = m) (s : State)
    (h_s : Only m s₀ s) : Only m s₀ (fwActivate s).2 := by
  unfold fwActivate
  try dsimp only
  with_reducible
    repeat'
      first
      | assumption | exact mask_trans (by decide) hm | apply State.setRf_only | apply roundPoll_only
      | (apply Only.foldl; intro u a hu; try dsimp only) | apply Only.ite | split | intro _

theorem fwCancel_only {m : Nat} {s₀ : State} (hm : 134217732 ||| m = m) (s : State)
    (h_s : Only m s₀ s) : Only m s₀ (fwCancel s) := by
  unfold fwCancel
  try dsimp only
  with_reducible
    repeat'
      first
      | assumption | exact mask_trans (by decide) hm | apply State.setRf_only | apply roundPoll_only
      | (apply Only.foldl; intro u a hu; try dsimp only) | apply Only.ite | split | intro _

theorem fwVerify_only {m : Nat} {s₀ : State} (hm : 536870912 ||| m = m) (s : State)
    (h_s : Only m s₀ s) : Only m s₀ (fwVerify s).2 := by
  unfold fwVerify
  try dsimp only
  with_reducible
    repeat'
      first
      | assumption | exact .inr (mask_bit hm (by decide)) | exact .inl rfl | exact mask_trans (by decide) hm
      | (apply Only.foldl; intro u a hu; try dsimp only) | apply Only.ite | split | intro _
      | refine Only.written rfl ?_ ?_ ?_ ?_ ?_ ?_ ?_ ?_ ?_ ?_ ?_ ?_ ?_ ?_ ?_ ?_ ?_ ?_ ?_ ?_ ?_ ?_ ?_ ?_ ?_ ?_ ?_ ?_ ?_ ?_ ?_ ?_ ?_ ?_ ?_ ?_ ?_ ?_

theorem fwWrite_only {m : Nat} {s₀ : State} (hm : 536870916 ||| m = m) (s : State) (offset : Nat) (ws : List Word)
    (h_s : Only m s₀ s) : Only m s₀ (fwWrite s offset ws).2 := by
  unfold fwWrite
  try dsimp only
  with_reducible
    repeat'
      first
      | assumption | exact .inr (mask_bit hm (by decide)) | exact .inl rfl | exact mask_trans (by decide) hm
      | apply State.setRf_only | (apply Only.foldl; intro u a hu; try dsimp only) | apply Only.ite | split | intro _
      | refine Only.written rfl ?_ ?_ ?_ ?_ ?_ ?_ ?_ ?_ ?_ ?_ ?_ ?_ ?_ ?_ ?_ ?_ ?_ ?_ ?_ ?_ ?_ ?_ ?_ ?_ ?_ ?_ ?_ ?_ ?_ ?_ ?_ ?_ ?_ ?_ ?_ ?_ ?_ ?_

theorem fwActivation_only {m : Nat} {s₀ : State} (hm : 536870916 ||| m = m) (s : State)
    (h_s : Only m s₀ s) : Only m s₀ (fwActivation s) := by
  unfold fwActivation
  try dsimp only
  with_reducible
    repeat'
      first
      | assumption | exact .inr (mask_bit hm (by decide)) | exact .inl rfl | exact mask_trans (by decide) hm
      | apply State.setRf_only | (apply Only.foldl; intro u a hu; try dsimp only) | apply Only.ite | split | intro _
      | refine Only.written rfl ?_ ?_ ?_ ?_ ?_ ?_ ?_ ?_ ?_ ?_ ?_ ?_ ?_ ?_ ?_ ?_ ?_ ?_ ?_ ?_ ?_ ?_ ?_ ?_ ?_ ?_ ?_ ?_ ?_ ?_ ?_ ?_ ?_ ?_ ?_ ?_ ?_ ?_

theorem fwProgramDone_only {m : Nat} {s₀ : State} (hm : 536870916 ||| m = m) (s : State)
    (h_s : Only m s₀ s) : Only m s₀ (fwProgramDone s) := by
  unfold fwProgramDone
  try dsimp only
  with_reducible
    repeat'
      first
      | assumption | exact .inr (mask_bit hm (by decide)) | exact .inl rfl | exact mask_trans (by decide) hm
      | apply State.setRf_only | (apply Only.foldl; intro u a hu; try dsimp only) | apply Only.ite | split | intro _
      | refine Only.written rfl ?_ ?_ ?_ ?_ ?_ ?_ ?_ ?_ ?_ ?_ ?_ ?_ ?_ ?_ ?_ ?_ ?_ ?_ ?_ ?_ ?_ ?_ ?_ ?_ ?_ ?_ ?_ ?_ ?_ ?_ ?_ ?_ ?_ ?_ ?_ ?_ ?_ ?_

theorem fwRevert_only {m : Nat} {s₀ : State} (hm : 536871460 ||| m = m) (s : State)
    (h_s : Only m s₀ s) : Only m s₀ (fwRevert s) := by
  unfold fwRevert
  try dsimp only
  with_reducible
    repeat'
      first
      | assumption | exact .inr (mask_bit hm (by decide)) | exact .inl rfl | exact mask_trans (by decide) hm
      | apply State.arrive_only | apply State.setRf_only | (apply Only.foldl; intro u a hu; try dsimp only)
      | apply Only.ite | split | intro _
      | refine Only.written rfl ?_ ?_ ?_ ?_ ?_ ?_ ?_ ?_ ?_ ?_ ?_ ?_ ?_ ?_ ?_ ?_ ?_ ?_ ?_ ?_ ?_ ?_ ?_ ?_ ?_ ?_ ?_ ?_ ?_ ?_ ?_ ?_ ?_ ?_ ?_ ?_ ?_ ?_

theorem fwRunning_only {m : Nat} {s₀ : State} (hm : 536871460 ||| m = m) (s : State)
    (h_s : Only m s₀ s) : Only m s₀ (fwRunning s) := by
  unfold fwRunning
  try dsimp only
  with_reducible
    repeat'
      first
      | assumption | exact .inr (mask_bit hm (by decide)) | exact .inl rfl | exact mask_trans (by decide) hm
      | apply State.setReg_only | apply State.arrive_only | apply State.setRf_only
      | (apply Only.foldl; intro u a hu; try dsimp only) | apply Only.ite | split | intro _
      | refine Only.written rfl ?_ ?_ ?_ ?_ ?_ ?_ ?_ ?_ ?_ ?_ ?_ ?_ ?_ ?_ ?_ ?_ ?_ ?_ ?_ ?_ ?_ ?_ ?_ ?_ ?_ ?_ ?_ ?_ ?_ ?_ ?_ ?_ ?_ ?_ ?_ ?_ ?_ ?_

theorem fwVerifyDone_only {m : Nat} {s₀ : State} (hm : 69256348196 ||| m = m) (s : State)
    (h_s : Only m s₀ s) : Only m s₀ (fwVerifyDone s) := by
  unfold fwVerifyDone
  try dsimp only
  with_reducible
    repeat'
      first
      | assumption | exact .inr (mask_bit hm (by decide)) | exact .inl rfl | exact mask_trans (by decide) hm
      | apply State.arrive_only | apply State.setRf_only | (apply Only.foldl; intro u a hu; try dsimp only)
      | apply Only.ite | split | intro _
      | refine Only.written rfl ?_ ?_ ?_ ?_ ?_ ?_ ?_ ?_ ?_ ?_ ?_ ?_ ?_ ?_ ?_ ?_ ?_ ?_ ?_ ?_ ?_ ?_ ?_ ?_ ?_ ?_ ?_ ?_ ?_ ?_ ?_ ?_ ?_ ?_ ?_ ?_ ?_ ?_

end Sys2Proof.Machine
end

