-- ==== Sys2Proof/Laws/Adc.lean ====
section
/-!
SUPPORT. Machine/Adc.lean: every operation of it keeps what `Keeps` says, and changes only the parts of its mask.
-/
set_option linter.unusedTactic false
set_option linter.unreachableTactic false
set_option linter.unusedVariables false

namespace Sys2Proof.Machine

theorem abortConv_keeps {s₀ : State} (s : State) (k : Nat) (h_s : Keeps s₀ s) : Keeps s₀ (abortConv s k) := by
  unfold abortConv
  try dsimp only
  with_reducible
    repeat'
      first
      | assumption | apply State.setConv_keeps | apply State.cntSat_keeps
      | (apply Keeps.foldl; intro u a hu; try dsimp only) | apply Keeps.ite | split | intro _
      | refine Keeps.written rfl rfl rfl rfl rfl rfl rfl rfl ?_

theorem adcStart_keeps {s₀ : State} (s : State) (k : Nat) (h_s : Keeps s₀ s) : Keeps s₀ (adcStart s k) := by
  unfold adcStart
  try dsimp only
  with_reducible
    repeat'
      first
      | assumption | apply State.setConv_keeps | (apply Keeps.foldl; intro u a hu; try dsimp only) | apply Keeps.ite
      | split | intro _ | refine Keeps.written rfl rfl rfl rfl rfl rfl rfl rfl ?_

theorem adcStop_keeps {s₀ : State} (s : State) (k : Nat) (h_s : Keeps s₀ s) : Keeps s₀ (adcStop s k) := by
  unfold adcStop
  try dsimp only
  with_reducible
    repeat'
      first
      | assumption | apply State.setConv_keeps | apply tlmUndef_keeps | (apply Keeps.foldl; intro u a hu; try dsimp only)
      | apply Keeps.ite | split | intro _ | refine Keeps.written rfl rfl rfl rfl rfl rfl rfl rfl ?_

theorem adcCfgWrite_keeps {s₀ : State} (s : State) (k : Nat) (v : Word) (h_s : Keeps s₀ s)
    : Keeps s₀ (adcCfgWrite s k v) := by
  unfold adcCfgWrite
  try dsimp only
  with_reducible
    repeat'
      first
      | assumption | apply State.setConv_keeps | apply State.setReg_keeps | apply adcStart_keeps | apply adcStop_keeps
      | (apply Keeps.foldl; intro u a hu; try dsimp only) | apply Keeps.ite | split | intro _
      | refine Keeps.written rfl rfl rfl rfl rfl rfl rfl rfl ?_

theorem adcQuiesce_keeps {s₀ : State} (s : State) (k : Nat) (h_s : Keeps s₀ s) : Keeps s₀ (adcQuiesce s k) := by
  unfold adcQuiesce
  try dsimp only
  with_reducible
    repeat'
      first
      | assumption | apply State.setConv_keeps | (apply Keeps.foldl; intro u a hu; try dsimp only) | apply Keeps.ite
      | split | intro _ | refine Keeps.written rfl rfl rfl rfl rfl rfl rfl rfl ?_

theorem convSettle_keeps {s₀ : State} (s : State) (k : Nat) (h_s : Keeps s₀ s) : Keeps s₀ (convSettle s k) := by
  unfold convSettle
  try dsimp only
  with_reducible
    repeat'
      first
      | assumption | apply bankSettle_keeps | (apply Keeps.foldl; intro u a hu; try dsimp only) | apply Keeps.ite | split
      | intro _ | refine Keeps.written rfl rfl rfl rfl rfl rfl rfl rfl ?_

theorem adcStepPut_keeps {s₀ : State} (s : State) (k : Nat) (st : Nat) (v : Word) (h_s : Keeps s₀ s)
    : Keeps s₀ (adcStepPut s k st v) := by
  unfold adcStepPut
  try dsimp only
  with_reducible
    repeat'
      first
      | assumption | apply State.setConv_keeps | apply State.setReg_keeps | apply convSettle_keeps
      | (apply Keeps.foldl; intro u a hu; try dsimp only) | apply Keeps.ite | split | intro _
      | refine Keeps.written rfl rfl rfl rfl rfl rfl rfl rfl ?_

theorem adcTimerWrite_keeps {s₀ : State} (s : State) (k : Nat) (i : Nat) (v : Word) (h_s : Keeps s₀ s)
    : Keeps s₀ (adcTimerWrite s k i v) := by
  unfold adcTimerWrite
  try dsimp only
  with_reducible
    repeat'
      first
      | assumption | apply State.setConv_keeps | apply State.setRf_keeps
      | (apply Keeps.foldl; intro u a hu; try dsimp only) | apply Keeps.ite | split | intro _
      | refine Keeps.written rfl rfl rfl rfl rfl rfl rfl rfl ?_

theorem hostPressSet_keeps {s₀ : State} (s : State) (h2 : Nat) (v : Nat) (h_s : Keeps s₀ s)
    : Keeps s₀ (hostPressSet s h2 v) := by
  unfold hostPressSet
  try dsimp only
  with_reducible
    repeat'
      first
      | assumption | apply State.setRf_keeps | (apply Keeps.foldl; intro u a hu; try dsimp only) | apply Keeps.ite | split
      | intro _ | refine Keeps.written rfl rfl rfl rfl rfl rfl rfl rfl ?_

theorem winCfgWrite_keeps {s₀ : State} (s : State) (w : Nat) (v : Word) (h_s : Keeps s₀ s)
    : Keeps s₀ (winCfgWrite s w v) := by
  unfold winCfgWrite
  try dsimp only
  with_reducible
    repeat'
      first
      | assumption | apply State.setReg_keeps | apply winUndecide_keeps
      | (apply Keeps.foldl; intro u a hu; try dsimp only) | apply Keeps.ite | split | intro _
      | refine Keeps.written rfl rfl rfl rfl rfl rfl rfl rfl ?_

theorem beginConv_keeps {s₀ : State} (s : State) (k : Nat) (kind : ConvKind) (i : Inst) (h_s : Keeps s₀ s)
    : Keeps s₀ (beginConv s k kind i) := by
  unfold beginConv
  try dsimp only
  with_reducible
    repeat'
      first
      | assumption | apply State.setConv_keeps | (apply Keeps.foldl; intro u a hu; try dsimp only) | apply Keeps.ite
      | split | intro _ | refine Keeps.written rfl rfl rfl rfl rfl rfl rfl rfl ?_

theorem calReject_keeps {s₀ : State} (s : State) (k : Nat) (h_s : Keeps s₀ s) : Keeps s₀ (calReject s k) := by
  unfold calReject
  try dsimp only
  with_reducible
    repeat'
      first
      | assumption | apply State.setConv_keeps | apply State.cntSat_keeps | apply State.arrive_keeps
      | (apply Keeps.foldl; intro u a hu; try dsimp only) | apply Keeps.ite | split | intro _
      | refine Keeps.written rfl rfl rfl rfl rfl rfl rfl rfl ?_

theorem calEnd_keeps {s₀ : State} (s : State) (k : Nat) (c : Conv) (high : Bool) (raw : Nat) (h_s : Keeps s₀ s)
    : Keeps s₀ (calEnd s k c high raw) := by
  unfold calEnd
  try dsimp only
  with_reducible
    repeat'
      first
      | assumption | apply State.setConv_keeps | apply calReject_keeps | (apply Keeps.foldl; intro u a hu; try dsimp only)
      | apply Keeps.ite | split | intro _ | refine Keeps.written rfl rfl rfl rfl rfl rfl rfl rfl ?_

theorem calSpan_keeps {s₀ : State} (s : State) (k : Nat) (h_s : Keeps s₀ s) : Keeps s₀ (calSpan s k) := by
  unfold calSpan
  try dsimp only
  with_reducible
    repeat'
      first
      | assumption | apply State.setConv_keeps | (apply Keeps.foldl; intro u a hu; try dsimp only) | apply Keeps.ite
      | split | intro _ | refine Keeps.written rfl rfl rfl rfl rfl rfl rfl rfl ?_

theorem setUncal_keeps {s₀ : State} (s : State) (k : Nat) (v : Nat) (h_s : Keeps s₀ s) : Keeps s₀ (setUncal s k v) := by
  unfold setUncal
  try dsimp only
  with_reducible
    repeat'
      first
      | assumption | apply State.setRf_keeps | (apply Keeps.foldl; intro u a hu; try dsimp only) | apply Keeps.ite | split
      | intro _ | refine Keeps.written rfl rfl rfl rfl rfl rfl rfl rfl ?_

theorem calibrationApply_keeps {s₀ : State} (s : State) (k : Nat) (h_s : Keeps s₀ s) : Keeps s₀ (calibrationApply s k) := by
  unfold calibrationApply
  try dsimp only
  with_reducible
    repeat'
      first
      | assumption | apply State.setConv_keeps | apply State.setRf_keeps | apply convSettle_keeps | apply setUncal_keeps
      | (apply Keeps.foldl; intro u a hu; try dsimp only) | apply Keeps.ite | split | intro _
      | refine Keeps.written rfl rfl rfl rfl rfl rfl rfl rfl ?_

theorem calibrationDue_keeps {s₀ : State} (s : State) (k : Nat) (h_s : Keeps s₀ s) : Keeps s₀ (calibrationDue s k) := by
  unfold calibrationDue
  try dsimp only
  with_reducible
    repeat'
      first
      | assumption | apply State.setConv_keeps | (apply Keeps.foldl; intro u a hu; try dsimp only) | apply Keeps.ite
      | split | intro _ | refine Keeps.written rfl rfl rfl rfl rfl rfl rfl rfl ?_

theorem chooseConv_keeps {s₀ : State} (s : State) (k : Nat) (h_s : Keeps s₀ s) : Keeps s₀ (chooseConv s k) := by
  unfold chooseConv
  try dsimp only
  with_reducible
    repeat'
      first
      | assumption | apply State.setConv_keeps | apply beginConv_keeps | (apply Keeps.foldl; intro u a hu; try dsimp only)
      | apply Keeps.ite | split | intro _ | refine Keeps.written rfl rfl rfl rfl rfl rfl rfl rfl ?_

theorem supplyCheck_keeps {s₀ : State} (s : State) (b : Nat) (code : Nat) (ovr : Bool) (h_s : Keeps s₀ s)
    : Keeps s₀ (supplyCheck s b code ovr) := by
  unfold supplyCheck
  try dsimp only
  with_reducible
    repeat'
      first
      | assumption | apply State.setBank_keeps | apply bankSafe_keeps | (apply Keeps.foldl; intro u a hu; try dsimp only)
      | apply Keeps.ite | split | intro _ | refine Keeps.written rfl rfl rfl rfl rfl rfl rfl rfl ?_

theorem velSample_keeps {s₀ : State} (s : State) (d : Nat) (code : Nat) (hold : Nat) (h_s : Keeps s₀ s)
    : Keeps s₀ (velSample s d code hold) := by
  unfold velSample
  try dsimp only
  with_reducible
    repeat'
      first
      | assumption | apply State.setEl_keeps | (apply Keeps.foldl; intro u a hu; try dsimp only) | apply Keeps.ite | split
      | intro _ | refine Keeps.written rfl rfl rfl rfl rfl rfl rfl rfl ?_

theorem stepEnd_keeps {s₀ : State} (s : State) (k : Nat) (c : Conv) (code : Nat) (ovrHi : Bool) (ovrLo : Bool) (h_s
    : Keeps s₀ s) : Keeps s₀ (stepEnd s k c code ovrHi ovrLo) := by
  unfold stepEnd
  try dsimp only
  with_reducible
    repeat'
      first
      | assumption | apply tlmCaptureWith_keeps | apply State.setConv_keeps | apply State.setReg_keeps
      | apply chainTrigger_keeps | apply supplyCheck_keeps | apply velSample_keeps | apply qProduce_keeps
      | (apply Keeps.foldl; intro u a hu; try dsimp only) | apply Keeps.ite | split | intro _
      | refine Keeps.written rfl rfl rfl rfl rfl rfl rfl rfl ?_

theorem switchAway_keeps {s₀ : State} (s : State) (fromB : Bool) (h_s : Keeps s₀ s) : Keeps s₀ (switchAway s fromB) := by
  unfold switchAway
  try dsimp only
  with_reducible
    repeat'
      first
      | assumption | apply State.setConv_keeps | (apply Keeps.foldl; intro u a hu; try dsimp only) | apply Keeps.ite
      | split | intro _ | refine Keeps.written rfl rfl rfl rfl rfl rfl rfl rfl ?_

theorem refJudge_keeps {s₀ : State} (s : State) (h_s : Keeps s₀ s) : Keeps s₀ (refJudge s) := by
  unfold refJudge
  try dsimp only
  with_reducible
    repeat'
      first
      | assumption | apply State.arrive_keeps | apply switchAway_keeps | apply fatalNow_keeps
      | (apply Keeps.foldl; intro u a hu; try dsimp only) | apply Keeps.ite | split | intro _
      | refine Keeps.written rfl rfl rfl rfl rfl rfl rfl rfl ?_

theorem refDecide_keeps {s₀ : State} (s : State) (h_s : Keeps s₀ s) : Keeps s₀ (refDecide s) := by
  unfold refDecide
  try dsimp only
  with_reducible
    repeat'
      first
      | assumption | apply refJudge_keeps | (apply Keeps.foldl; intro u a hu; try dsimp only) | apply Keeps.ite | split
      | intro _ | refine Keeps.written rfl rfl rfl rfl rfl rfl rfl rfl ?_

theorem refEnd_keeps {s₀ : State} (s : State) (k : Nat) (half : Bool) (code : Nat) (h_s : Keeps s₀ s)
    : Keeps s₀ (refEnd s k half code) := by
  unfold refEnd
  try dsimp only
  with_reducible
    repeat'
      first
      | assumption | apply State.setRf_keeps | apply refDecide_keeps | (apply Keeps.foldl; intro u a hu; try dsimp only)
      | apply Keeps.ite | split | intro _ | refine Keeps.written rfl rfl rfl rfl rfl rfl rfl rfl ?_

theorem conversionEnd_keeps {s₀ : State} (s : State) (k : Nat) (raw : Nat) (ovrHi : Bool) (ovrLo : Bool) (h_s
    : Keeps s₀ s) : Keeps s₀ (conversionEnd s k raw ovrHi ovrLo) := by
  unfold conversionEnd
  try dsimp only
  with_reducible
    repeat'
      first
      | assumption | apply State.setConv_keeps | apply kinkSample_keeps | apply stepEnd_keeps | apply refEnd_keeps
      | apply calEnd_keeps | (apply Keeps.foldl; intro u a hu; try dsimp only) | apply Keeps.ite | split | intro _
      | refine Keeps.written rfl rfl rfl rfl rfl rfl rfl rfl ?_

theorem conversionStart_keeps {s₀ : State} (s : State) (k : Nat) (h_s : Keeps s₀ s) : Keeps s₀ (conversionStart s k) := by
  unfold conversionStart
  try dsimp only
  with_reducible
    repeat'
      first
      | assumption | apply convSettle_keeps | apply chooseConv_keeps | apply abortConv_keeps
      | (apply Keeps.foldl; intro u a hu; try dsimp only) | apply Keeps.ite | split | intro _
      | refine Keeps.written rfl rfl rfl rfl rfl rfl rfl rfl ?_

theorem timerFire_keeps {s₀ : State} (s : State) (k : Nat) (i : Nat) (h_s : Keeps s₀ s) : Keeps s₀ (timerFire s k i) := by
  unfold timerFire
  try dsimp only
  with_reducible
    repeat'
      first
      | assumption | apply State.setConv_keeps | apply convTrigger_keeps
      | (apply Keeps.foldl; intro u a hu; try dsimp only) | apply Keeps.ite | split | intro _
      | refine Keeps.written rfl rfl rfl rfl rfl rfl rfl rfl ?_

theorem converterTimer_keeps {s₀ : State} (s : State) (k : Nat) (i : Nat) (h_s : Keeps s₀ s)
    : Keeps s₀ (converterTimer s k i) := by
  unfold converterTimer
  try dsimp only
  with_reducible
    repeat'
      first
      | assumption | apply timerFire_keeps | (apply Keeps.foldl; intro u a hu; try dsimp only) | apply Keeps.ite | split
      | intro _ | refine Keeps.written rfl rfl rfl rfl rfl rfl rfl rfl ?_

theorem maxwait_keeps {s₀ : State} (s : State) (k : Nat) (st : Nat) (h_s : Keeps s₀ s) : Keeps s₀ (maxwait s k st) := by
  unfold maxwait
  try dsimp only
  with_reducible
    repeat'
      first
      | assumption | apply convSettle_keeps | apply dropInst_keeps | (apply Keeps.foldl; intro u a hu; try dsimp only)
      | apply Keeps.ite | split | intro _ | refine Keeps.written rfl rfl rfl rfl rfl rfl rfl rfl ?_

theorem referenceCheck_keeps {s₀ : State} (s : State) (h_s : Keeps s₀ s) : Keeps s₀ (referenceCheck s) := by
  unfold referenceCheck
  try dsimp only
  with_reducible
    repeat'
      first
      | assumption | apply State.setConv_keeps | (apply Keeps.foldl; intro u a hu; try dsimp only) | apply Keeps.ite
      | split | intro _ | refine Keeps.written rfl rfl rfl rfl rfl rfl rfl rfl ?_

theorem referenceSwitch_keeps {s₀ : State} (s : State) (k : Nat) (h_s : Keeps s₀ s) : Keeps s₀ (referenceSwitch s k) := by
  unfold referenceSwitch
  try dsimp only
  with_reducible
    repeat'
      first
      | assumption | apply State.setConv_keeps | apply State.setRf_keeps | apply convSettle_keeps | apply setUncal_keeps
      | (apply Keeps.foldl; intro u a hu; try dsimp only) | apply Keeps.ite | split | intro _
      | refine Keeps.written rfl rfl rfl rfl rfl rfl rfl rfl ?_

theorem stepReady_keeps {s₀ : State} (s : State) (k : Nat) (st : Nat) (h_s : Keeps s₀ s) : Keeps s₀ (stepReady s k st) := by
  unfold stepReady
  try dsimp only
  with_reducible
    repeat'
      first
      | assumption | apply State.setConv_keeps | apply convSettle_keeps
      | (apply Keeps.foldl; intro u a hu; try dsimp only) | apply Keeps.ite | split | intro _
      | refine Keeps.written rfl rfl rfl rfl rfl rfl rfl rfl ?_

theorem abortConv_only {m : Nat} {s₀ : State} (hm : 262148 ||| m = m) (s : State) (k : Nat)
    (h_s : Only m s₀ s) : Only m s₀ (abortConv s k) := by
  unfold abortConv
  try dsimp only
  with_reducible
    repeat'
      first
      | assumption | exact mask_trans (by decide) hm | apply State.setConv_only | apply State.cntSat_only
      | (apply Only.foldl; intro u a hu; try dsimp only) | apply Only.ite | split | intro _

theorem adcStart_only {m : Nat} {s₀ : State} (hm : 262144 ||| m = m) (s : State) (k : Nat)
    (h_s : Only m s₀ s) : Only m s₀ (adcStart s k) := by
  unfold adcStart
  try dsimp only
  with_reducible
    repeat'
      first
      | assumption | exact mask_trans (by decide) hm | apply State.setConv_only
      | (apply Only.foldl; intro u a hu; try dsimp only) | apply Only.ite | split | intro _

theorem adcStop_only {m : Nat} {s₀ : State} (hm : 68719739444 ||| m = m) (s : State) (k : Nat)
    (h_s : Only m s₀ s) : Only m s₀ (adcStop s k) := by
  unfold adcStop
  try dsimp only
  with_reducible
    repeat'
      first
      | assumption | exact mask_trans (by decide) hm | apply State.setConv_only | apply tlmUndef_only
      | (apply Only.foldl; intro u a hu; try dsimp only) | apply Only.ite | split | intro _

theorem adcCfgWrite_only {m : Nat} {s₀ : State} (hm : 68719739444 ||| m = m) (s : State) (k : Nat) (v : Word)
    (h_s : Only m s₀ s) : Only m s₀ (adcCfgWrite s k v) := by
  unfold adcCfgWrite
  try dsimp only
  with_reducible
    repeat'
      first
      | assumption | exact mask_trans (by decide) hm | apply State.setConv_only | apply State.setReg_only
      | apply adcStart_only | apply adcStop_only | (apply Only.foldl; intro u a hu; try dsimp only) | apply Only.ite
      | split | intro _

theorem adcQuiesce_only {m : Nat} {s₀ : State} (hm : 262144 ||| m = m) (s : State) (k : Nat)
    (h_s : Only m s₀ s) : Only m s₀ (adcQuiesce s k) := by
  unfold adcQuiesce
  try dsimp only
  with_reducible
    repeat'
      first
      | assumption | exact mask_trans (by decide) hm | apply State.setConv_only
      | (apply Only.foldl; intro u a hu; try dsimp only) | apply Only.ite | split | intro _

theorem convSettle_only {m : Nat} {s₀ : State} (hm : 267252 ||| m = m) (s : State) (k : Nat)
    (h_s : Only m s₀ s) : Only m s₀ (convSettle s k) := by
  unfold convSettle
  try dsimp only
  with_reducible
    repeat'
      first
      | assumption | exact mask_trans (by decide) hm | apply bankSettle_only
      | (apply Only.foldl; intro u a hu; try dsimp only) | apply Only.ite | split | intro _

theorem adcStepPut_only {m : Nat} {s₀ : State} (hm : 267252 ||| m = m) (s : State) (k : Nat) (st : Nat) (v : Word)
    (h_s : Only m s₀ s) : Only m s₀ (adcStepPut s k st v) := by
  unfold adcStepPut
  try dsimp only
  with_reducible
    repeat'
      first
      | assumption | exact mask_trans (by decide) hm | apply State.setConv_only | apply State.setReg_only
      | apply convSettle_only | (apply Only.foldl; intro u a hu; try dsimp only) | apply Only.ite | split | intro _

theorem adcTimerWrite_only {m : Nat} {s₀ : State} (hm : 262148 ||| m = m) (s : State) (k : Nat) (i : Nat) (v : Word)
    (h_s : Only m s₀ s) : Only m s₀ (adcTimerWrite s k i v) := by
  unfold adcTimerWrite
  try dsimp only
  with_reducible
    repeat'
      first
      | assumption | exact mask_trans (by decide) hm | apply State.setConv_only | apply State.setRf_only
      | (apply Only.foldl; intro u a hu; try dsimp only) | apply Only.ite | split | intro _

theorem hostPressSet_only {m : Nat} {s₀ : State} (hm : 2097156 ||| m = m) (s : State) (h2 : Nat) (v : Nat)
    (h_s : Only m s₀ s) : Only m s₀ (hostPressSet s h2 v) := by
  unfold hostPressSet
  try dsimp only
  with_reducible
    repeat'
      first
      | assumption | exact .inr (mask_bit hm (by decide)) | exact .inl rfl | exact mask_trans (by decide) hm
      | apply State.setRf_only | (apply Only.foldl; intro u a hu; try dsimp only) | apply Only.ite | split | intro _
      | refine Only.written rfl ?_ ?_ ?_ ?_ ?_ ?_ ?_ ?_ ?_ ?_ ?_ ?_ ?_ ?_ ?_ ?_ ?_ ?_ ?_ ?_ ?_ ?_ ?_ ?_ ?_ ?_ ?_ ?_ ?_ ?_ ?_ ?_ ?_ ?_ ?_ ?_ ?_ ?_

theorem winCfgWrite_only {m : Nat} {s₀ : State} (hm : 1048580 ||| m = m) (s : State) (w : Nat) (v : Word)
    (h_s : Only m s₀ s) : Only m s₀ (winCfgWrite s w v) := by
  unfold winCfgWrite
  try dsimp only
  with_reducible
    repeat'
      first
      | assumption | exact mask_trans (by decide) hm | apply State.setReg_only | apply winUndecide_only
      | (apply Only.foldl; intro u a hu; try dsimp only) | apply Only.ite | split | intro _

theorem beginConv_only {m : Nat} {s₀ : State} (hm : 262144 ||| m = m) (s : State) (k : Nat) (kind : ConvKind) (i : Inst)
    (h_s : Only m s₀ s) : Only m s₀ (beginConv s k kind i) := by
  unfold beginConv
  try dsimp only
  with_reducible
    repeat'
      first
      | assumption | exact mask_trans (by decide) hm | apply State.setConv_only
      | (apply Only.foldl; intro u a hu; try dsimp only) | apply Only.ite | split | intro _

theorem calReject_only {m : Nat} {s₀ : State} (hm : 262692 ||| m = m) (s : State) (k : Nat)
    (h_s : Only m s₀ s) : Only m s₀ (calReject s k) := by
  unfold calReject
  try dsimp only
  with_reducible
    repeat'
      first
      | assumption | exact mask_trans (by decide) hm | apply State.setConv_only | apply State.cntSat_only
      | apply State.arrive_only | (apply Only.foldl; intro u a hu; try dsimp only) | apply Only.ite | split | intro _

theorem calEnd_only {m : Nat} {s₀ : State} (hm : 262692 ||| m = m) (s : State) (k : Nat) (c : Conv) (high : Bool)
    (raw : Nat) (h_s : Only m s₀ s) : Only m s₀ (calEnd s k c high raw) := by
  unfold calEnd
  try dsimp only
  with_reducible
    repeat'
      first
      | assumption | exact mask_trans (by decide) hm | apply State.setConv_only | apply calReject_only
      | (apply Only.foldl; intro u a hu; try dsimp only) | apply Only.ite | split | intro _

theorem calSpan_only {m : Nat} {s₀ : State} (hm : 262144 ||| m = m) (s : State) (k : Nat)
    (h_s : Only m s₀ s) : Only m s₀ (calSpan s k) := by
  unfold calSpan
  try dsimp only
  with_reducible
    repeat'
      first
      | assumption | exact mask_trans (by decide) hm | apply State.setConv_only
      | (apply Only.foldl; intro u a hu; try dsimp only) | apply Only.ite | split | intro _

theorem setUncal_only {m : Nat} {s₀ : State} (hm : 4 ||| m = m) (s : State) (k : Nat) (v : Nat)
    (h_s : Only m s₀ s) : Only m s₀ (setUncal s k v) := by
  unfold setUncal
  try dsimp only
  with_reducible
    repeat'
      first
      | assumption | exact mask_trans (by decide) hm | apply State.setRf_only
      | (apply Only.foldl; intro u a hu; try dsimp only) | apply Only.ite | split | intro _

theorem calibrationApply_only {m : Nat} {s₀ : State} (hm : 267252 ||| m = m) (s : State) (k : Nat)
    (h_s : Only m s₀ s) : Only m s₀ (calibrationApply s k) := by
  unfold calibrationApply
  try dsimp only
  with_reducible
    repeat'
      first
      | assumption | exact mask_trans (by decide) hm | apply State.setConv_only | apply State.setRf_only
      | apply convSettle_only | apply setUncal_only | (apply Only.foldl; intro u a hu; try dsimp only) | apply Only.ite
      | split | intro _

theorem calibrationDue_only {m : Nat} {s₀ : State} (hm : 262144 ||| m = m) (s : State) (k : Nat)
    (h_s : Only m s₀ s) : Only m s₀ (calibrationDue s k) := by
  unfold calibrationDue
  try dsimp only
  with_reducible
    repeat'
      first
      | assumption | exact mask_trans (by decide) hm | apply State.setConv_only
      | (apply Only.foldl; intro u a hu; try dsimp only) | apply Only.ite | split | intro _

theorem chooseConv_only {m : Nat} {s₀ : State} (hm : 262144 ||| m = m) (s : State) (k : Nat)
    (h_s : Only m s₀ s) : Only m s₀ (chooseConv s k) := by
  unfold chooseConv
  try dsimp only
  with_reducible
    repeat'
      first
      | assumption | exact mask_trans (by decide) hm | apply State.setConv_only | apply beginConv_only
      | (apply Only.foldl; intro u a hu; try dsimp only) | apply Only.ite | split | intro _

theorem supplyCheck_only {m : Nat} {s₀ : State} (hm : 69861653500 ||| m = m) (s : State) (b : Nat) (code : Nat)
    (ovr : Bool) (h_s : Only m s₀ s) : Only m s₀ (supplyCheck s b code ovr) := by
  unfold supplyCheck
  try dsimp only
  with_reducible
    repeat'
      first
      | assumption | exact mask_trans (by decide) hm | apply State.setBank_only | apply bankSafe_only
      | (apply Only.foldl; intro u a hu; try dsimp only) | apply Only.ite | split | intro _

theorem velSample_only {m : Nat} {s₀ : State} (hm : 65536 ||| m = m) (s : State) (d : Nat) (code : Nat) (hold : Nat)
    (h_s : Only m s₀ s) : Only m s₀ (velSample s d code hold) := by
  unfold velSample
  try dsimp only
  with_reducible
    repeat'
      first
      | assumption | exact mask_trans (by decide) hm | apply State.setEl_only
      | (apply Only.foldl; intro u a hu; try dsimp only) | apply Only.ite | split | intro _

theorem stepEnd_only {m : Nat} {s₀ : State} (hm : 69861719036 ||| m = m) (s : State) (k : Nat) (c : Conv) (code : Nat)
    (ovrHi : Bool) (ovrLo : Bool) (h_s : Only m s₀ s) : Only m s₀ (stepEnd s k c code ovrHi ovrLo) := by
  unfold stepEnd
  try dsimp only
  with_reducible
    repeat'
      first
      | assumption | exact mask_trans (by decide) hm | apply tlmCaptureWith_only | apply State.setConv_only
      | apply State.setReg_only | apply chainTrigger_only | apply supplyCheck_only | apply velSample_only
      | apply qProduce_only | (apply Only.foldl; intro u a hu; try dsimp only) | apply Only.ite | split | intro _

theorem switchAway_only {m : Nat} {s₀ : State} (hm : 262144 ||| m = m) (s : State) (fromB : Bool)
    (h_s : Only m s₀ s) : Only m s₀ (switchAway s fromB) := by
  unfold switchAway
  try dsimp only
  with_reducible
    repeat'
      first
      | assumption | exact mask_trans (by decide) hm | apply State.setConv_only
      | (apply Only.foldl; intro u a hu; try dsimp only) | apply Only.ite | split | intro _

theorem refJudge_only {m : Nat} {s₀ : State} (hm : 70130614270 ||| m = m) (s : State)
    (h_s : Only m s₀ s) : Only m s₀ (refJudge s) := by
  unfold refJudge
  try dsimp only
  with_reducible
    repeat'
      first
      | assumption | exact .inr (mask_bit hm (by decide)) | exact .inl rfl | exact mask_trans (by decide) hm
      | apply State.arrive_only | apply switchAway_only | apply fatalNow_only
      | (apply Only.foldl; intro u a hu; try dsimp only) | apply Only.ite | split | intro _
      | refine Only.written rfl ?_ ?_ ?_ ?_ ?_ ?_ ?_ ?_ ?_ ?_ ?_ ?_ ?_ ?_ ?_ ?_ ?_ ?_ ?_ ?_ ?_ ?_ ?_ ?_ ?_ ?_ ?_ ?_ ?_ ?_ ?_ ?_ ?_ ?_ ?_ ?_ ?_ ?_

theorem refDecide_only {m : Nat} {s₀ : State} (hm : 70130614270 ||| m = m) (s : State)
    (h_s : Only m s₀ s) : Only m s₀ (refDecide s) := by
  unfold refDecide
  try dsimp only
  with_reducible
    repeat'
      first
      | assumption | exact .inr (mask_bit hm (by decide)) | exact .inl rfl | exact mask_trans (by decide) hm
      | apply refJudge_only | (apply Only.foldl; intro u a hu; try dsimp only) | apply Only.ite | split | intro _
      | refine Only.written rfl ?_ ?_ ?_ ?_ ?_ ?_ ?_ ?_ ?_ ?_ ?_ ?_ ?_ ?_ ?_ ?_ ?_ ?_ ?_ ?_ ?_ ?_ ?_ ?_ ?_ ?_ ?_ ?_ ?_ ?_ ?_ ?_ ?_ ?_ ?_ ?_ ?_ ?_

theorem refEnd_only {m : Nat} {s₀ : State} (hm : 70130614270 ||| m = m) (s : State) (k : Nat) (half : Bool) (code : Nat)
    (h_s : Only m s₀ s) : Only m s₀ (refEnd s k half code) := by
  unfold refEnd
  try dsimp only
  with_reducible
    repeat'
      first
      | assumption | exact mask_trans (by decide) hm | apply State.setRf_only | apply refDecide_only
      | (apply Only.foldl; intro u a hu; try dsimp only) | apply Only.ite | split | intro _

theorem conversionEnd_only {m : Nat} {s₀ : State} (hm : 70130679806 ||| m = m) (s : State) (k : Nat) (raw : Nat)
    (ovrHi : Bool) (ovrLo : Bool) (h_s : Only m s₀ s) : Only m s₀ (conversionEnd s k raw ovrHi ovrLo) := by
  unfold conversionEnd
  try dsimp only
  with_reducible
    repeat'
      first
      | assumption | exact mask_trans (by decide) hm | apply State.setConv_only | apply kinkSample_only
      | apply stepEnd_only | apply refEnd_only | apply calEnd_only | (apply Only.foldl; intro u a hu; try dsimp only)
      | apply Only.ite | split | intro _

theorem conversionStart_only {m : Nat} {s₀ : State} (hm : 267252 ||| m = m) (s : State) (k : Nat)
    (h_s : Only m s₀ s) : Only m s₀ (conversionStart s k) := by
  unfold conversionStart
  try dsimp only
  with_reducible
    repeat'
      first
      | assumption | exact mask_trans (by decide) hm | apply convSettle_only | apply chooseConv_only
      | apply abortConv_only | (apply Only.foldl; intro u a hu; try dsimp only) | apply Only.ite | split | intro _

theorem timerFire_only {m : Nat} {s₀ : State} (hm : 262148 ||| m = m) (s : State) (k : Nat) (i : Nat)
    (h_s : Only m s₀ s) : Only m s₀ (timerFire s k i) := by
  unfold timerFire
  try dsimp only
  with_reducible
    repeat'
      first
      | assumption | exact mask_trans (by decide) hm | apply State.setConv_only | apply convTrigger_only
      | (apply Only.foldl; intro u a hu; try dsimp only) | apply Only.ite | split | intro _

theorem converterTimer_only {m : Nat} {s₀ : State} (hm : 262148 ||| m = m) (s : State) (k : Nat) (i : Nat)
    (h_s : Only m s₀ s) : Only m s₀ (converterTimer s k i) := by
  unfold converterTimer
  try dsimp only
  with_reducible
    repeat'
      first
      | assumption | exact mask_trans (by decide) hm | apply timerFire_only
      | (apply Only.foldl; intro u a hu; try dsimp only) | apply Only.ite | split | intro _

theorem maxwait_only {m : Nat} {s₀ : State} (hm : 267252 ||| m = m) (s : State) (k : Nat) (st : Nat)
    (h_s : Only m s₀ s) : Only m s₀ (maxwait s k st) := by
  unfold maxwait
  try dsimp only
  with_reducible
    repeat'
      first
      | assumption | exact mask_trans (by decide) hm | apply convSettle_only | apply dropInst_only
      | (apply Only.foldl; intro u a hu; try dsimp only) | apply Only.ite | split | intro _

theorem referenceCheck_only {m : Nat} {s₀ : State} (hm : 786432 ||| m = m) (s : State)
    (h_s : Only m s₀ s) : Only m s₀ (referenceCheck s) := by
  unfold referenceCheck
  try dsimp only
  with_reducible
    repeat'
      first
      | assumption | exact .inr (mask_bit hm (by decide)) | exact .inl rfl | exact mask_trans (by decide) hm
      | apply State.setConv_only | (apply Only.foldl; intro u a hu; try dsimp only) | apply Only.ite | split | intro _
      | refine Only.written rfl ?_ ?_ ?_ ?_ ?_ ?_ ?_ ?_ ?_ ?_ ?_ ?_ ?_ ?_ ?_ ?_ ?_ ?_ ?_ ?_ ?_ ?_ ?_ ?_ ?_ ?_ ?_ ?_ ?_ ?_ ?_ ?_ ?_ ?_ ?_ ?_ ?_ ?_

theorem referenceSwitch_only {m : Nat} {s₀ : State} (hm : 267252 ||| m = m) (s : State) (k : Nat)
    (h_s : Only m s₀ s) : Only m s₀ (referenceSwitch s k) := by
  unfold referenceSwitch
  try dsimp only
  with_reducible
    repeat'
      first
      | assumption | exact mask_trans (by decide) hm | apply State.setConv_only | apply State.setRf_only
      | apply convSettle_only | apply setUncal_only | (apply Only.foldl; intro u a hu; try dsimp only) | apply Only.ite
      | split | intro _

theorem stepReady_only {m : Nat} {s₀ : State} (hm : 267252 ||| m = m) (s : State) (k : Nat) (st : Nat)
    (h_s : Only m s₀ s) : Only m s₀ (stepReady s k st) := by
  unfold stepReady
  try dsimp only
  with_reducible
    repeat'
      first
      | assumption | exact mask_trans (by decide) hm | apply State.setConv_only | apply convSettle_only
      | (apply Only.foldl; intro u a hu; try dsimp only) | apply Only.ite | split | intro _

end Sys2Proof.Machine
end

