-- ==== Sys2Proof/Laws/Link.lean ====
section
/-!
SUPPORT. Machine/Link.lean: every operation of it keeps what `Keeps` says, and changes only the parts of its mask.
-/
set_option linter.unusedTactic false
set_option linter.unreachableTactic false
set_option linter.unusedVariables false

namespace Sys2Proof.Machine

theorem announcePeriod_keeps {s₀ : State} (s : State) (h_s : Keeps s₀ s) : Keeps s₀ (announcePeriod s) := by
  unfold announcePeriod
  try dsimp only
  with_reducible
    repeat'
      first
      | assumption | apply sendAnnounce_keeps | apply sendFrame_keeps | (apply Keeps.foldl; intro u a hu; try dsimp only)
      | apply Keeps.ite | split | intro _ | refine Keeps.written rfl rfl rfl rfl rfl rfl rfl rfl ?_

theorem answerStale_keeps {s₀ : State} (s : State) (r : Nat) (src : Nat) (h_s : Keeps s₀ s)
    : Keeps s₀ (answerStale s r src) := by
  unfold answerStale
  try dsimp only
  with_reducible
    repeat'
      first
      | assumption | apply sendUnlessDup_keeps | apply State.setV_keeps
      | (apply Keeps.foldl; intro u a hu; try dsimp only) | apply Keeps.ite | split | intro _
      | refine Keeps.written rfl rfl rfl rfl rfl rfl rfl rfl ?_

theorem sendSync_keeps {s₀ : State} (s : State) (h_s : Keeps s₀ s) : Keeps s₀ (sendSync s) := by
  unfold sendSync
  try dsimp only
  with_reducible
    repeat'
      first
      | assumption | apply State.setRole_keeps | apply sendUnlessDup_keeps
      | (apply Keeps.foldl; intro u a hu; try dsimp only) | apply Keeps.ite | split | intro _
      | refine Keeps.written rfl rfl rfl rfl rfl rfl rfl rfl ?_

theorem sendMains_keeps {s₀ : State} (s : State) (h_s : Keeps s₀ s) : Keeps s₀ (sendMains s) := by
  unfold sendMains
  try dsimp only
  with_reducible
    repeat'
      first
      | assumption | apply State.setRole_keeps | apply sendUnlessDup_keeps | apply anglesTo_keeps
      | (apply Keeps.foldl; intro u a hu; try dsimp only) | apply Keeps.ite | split | intro _
      | refine Keeps.written rfl rfl rfl rfl rfl rfl rfl rfl ?_

theorem sendRole_keeps {s₀ : State} (s : State) (r : Nat) (h_s : Keeps s₀ s) : Keeps s₀ (sendRole s r) := by
  unfold sendRole
  try dsimp only
  with_reducible
    repeat'
      first
      | assumption | apply sendMains_keeps | apply sendSync_keeps | (apply Keeps.foldl; intro u a hu; try dsimp only)
      | apply Keeps.ite | split | intro _ | refine Keeps.written rfl rfl rfl rfl rfl rfl rfl rfl ?_

theorem slewEnd_keeps {s₀ : State} (s : State) (r : Nat) (h_s : Keeps s₀ s) : Keeps s₀ (slewEnd s r) := by
  unfold slewEnd
  split
  · exact h_s.trans ⟨rfl, le_refl _, id, id, fun _ => le_refl _, id, id⟩
  · exact h_s

theorem dropMains_keeps {s₀ : State} (s : State) (r : Nat) (e : Nat) (h_s : Keeps s₀ s) : Keeps s₀ (dropMains s r e) := by
  unfold dropMains
  try dsimp only
  with_reducible
    repeat'
      first
      | assumption | apply State.setEl_keeps | (apply Keeps.foldl; intro u a hu; try dsimp only) | apply Keeps.ite | split
      | intro _ | refine Keeps.written rfl rfl rfl rfl rfl rfl rfl rfl ?_

theorem setQual_keeps {s₀ : State} (s : State) (q : Nat) (h_s : Keeps s₀ s) : Keeps s₀ (setQual s q) := by
  unfold setQual
  try dsimp only
  with_reducible
    repeat'
      first
      | assumption | apply State.setReg_keeps | apply State.arrive_keeps | apply linkReview_keeps
      | (apply Keeps.foldl; intro u a hu; try dsimp only) | apply Keeps.ite | split | intro _
      | refine Keeps.written rfl rfl rfl rfl rfl rfl rfl rfl ?_

theorem masterQual_keeps {s₀ : State} (s : State) (h_s : Keeps s₀ s) : Keeps s₀ (masterQual s) := by
  unfold masterQual
  try dsimp only
  with_reducible
    repeat'
      first
      | assumption | apply setQual_keeps | (apply Keeps.foldl; intro u a hu; try dsimp only) | apply Keeps.ite | split
      | intro _ | refine Keeps.written rfl rfl rfl rfl rfl rfl rfl rfl ?_

theorem becomeMaster_keeps {s₀ : State} (s : State) (r : Nat) (e : Nat) (h_s : Keeps s₀ s)
    : Keeps s₀ (becomeMaster s r e) := by
  unfold becomeMaster
  try dsimp only
  with_reducible
    repeat'
      first
      | assumption | apply masterQual_keeps | apply changeRole_keeps | apply dropMains_keeps | apply slewEnd_keeps
      | (apply Keeps.foldl; intro u a hu; try dsimp only) | apply Keeps.ite | split | intro _
      | refine Keeps.written rfl rfl rfl rfl rfl rfl rfl rfl ?_

theorem backupRises_keeps {s₀ : State} (s : State) (r : Nat) (h_s : Keeps s₀ s) : Keeps s₀ (backupRises s r) := by
  unfold backupRises
  try dsimp only
  with_reducible
    repeat'
      first
      | assumption | apply becomeMaster_keeps | apply sendRole_keeps | (apply Keeps.foldl; intro u a hu; try dsimp only)
      | apply Keeps.ite | split | intro _ | refine Keeps.written rfl rfl rfl rfl rfl rfl rfl rfl ?_

theorem backupSilence_keeps {s₀ : State} (s : State) (r : Nat) (h_s : Keeps s₀ s) : Keeps s₀ (backupSilence s r) := by
  unfold backupSilence
  try dsimp only
  with_reducible
    repeat'
      first
      | assumption | apply changeRole_keeps | (apply Keeps.foldl; intro u a hu; try dsimp only) | apply Keeps.ite | split
      | intro _ | refine Keeps.written rfl rfl rfl rfl rfl rfl rfl rfl ?_

theorem backupTakeover_keeps {s₀ : State} (s : State) (r : Nat) (h_s : Keeps s₀ s) : Keeps s₀ (backupTakeover s r) := by
  unfold backupTakeover
  try dsimp only
  with_reducible
    repeat'
      first
      | assumption | apply backupRises_keeps | apply linkReview_keeps | (apply Keeps.foldl; intro u a hu; try dsimp only)
      | apply Keeps.ite | split | intro _ | refine Keeps.written rfl rfl rfl rfl rfl rfl rfl rfl ?_

theorem vlkFresh_keeps {s₀ : State} (s : State) (h_s : Keeps s₀ s) : Keeps s₀ (vlkFresh s) := by
  unfold vlkFresh
  try dsimp only
  with_reducible
    repeat'
      first
      | assumption | apply State.setEl_keeps | apply State.setV_keeps | apply linkReview_keeps
      | (apply Keeps.foldl; intro u a hu; try dsimp only) | apply Keeps.ite | split | intro _
      | refine Keeps.written rfl rfl rfl rfl rfl rfl rfl rfl ?_

theorem vlkCfgWrite_keeps {s₀ : State} (s : State) (v : Word) (h_s : Keeps s₀ s) : Keeps s₀ (vlkCfgWrite s v) := by
  unfold vlkCfgWrite
  try dsimp only
  with_reducible
    repeat'
      first
      | assumption | apply State.setReg_keeps | apply State.setV_keeps | apply vlkFresh_keeps
      | (apply Keeps.foldl; intro u a hu; try dsimp only) | apply Keeps.ite | split | intro _
      | refine Keeps.written rfl rfl rfl rfl rfl rfl rfl rfl ?_

theorem countStale_keeps {s₀ : State} (s : State) (r : Nat) (h_s : Keeps s₀ s) : Keeps s₀ (countStale s r) := by
  unfold countStale
  try dsimp only
  with_reducible
    repeat'
      first
      | assumption | apply State.setRole_keeps | apply State.arrive_keeps | apply State.setV_keeps
      | (apply Keeps.foldl; intro u a hu; try dsimp only) | apply Keeps.ite | split | intro _
      | refine Keeps.written rfl rfl rfl rfl rfl rfl rfl rfl ?_

theorem linkResign_keeps {s₀ : State} (s : State) (r : Nat) (h_s : Keeps s₀ s) : Keeps s₀ (linkResign s r).2 := by
  unfold linkResign
  try dsimp only
  with_reducible
    repeat'
      first
      | assumption | apply resign_keeps | (apply Keeps.foldl; intro u a hu; try dsimp only) | apply Keeps.ite | split
      | intro _ | refine Keeps.written rfl rfl rfl rfl rfl rfl rfl rfl ?_

theorem sendWaiting_keeps {s₀ : State} (s : State) (h_s : Keeps s₀ s) : Keeps s₀ (sendWaiting s) := by
  unfold sendWaiting
  try dsimp only
  with_reducible
    repeat'
      first
      | assumption | apply State.setV_keeps | apply putFrame_keeps | (apply Keeps.foldl; intro u a hu; try dsimp only)
      | apply Keeps.ite | split | intro _ | refine Keeps.written rfl rfl rfl rfl rfl rfl rfl rfl ?_

theorem linkSend_keeps {s₀ : State} (s : State) (w : List Word) (h_s : Keeps s₀ s) : Keeps s₀ (linkSend s w).2.2 := by
  unfold linkSend
  try dsimp only
  with_reducible
    repeat'
      first
      | assumption | apply State.countFrame_keeps | apply sendWaiting_keeps | apply State.setV_keeps
      | (apply Keeps.foldl; intro u a hu; try dsimp only) | apply Keeps.ite | split | intro _
      | refine Keeps.written rfl rfl rfl rfl rfl rfl rfl rfl ?_

theorem sendWake_keeps {s₀ : State} (s : State) (target : Nat) (h_s : Keeps s₀ s) : Keeps s₀ (sendWake s target) := by
  unfold sendWake
  try dsimp only
  with_reducible
    repeat'
      first
      | assumption | apply State.linkOut_keeps | (apply Keeps.foldl; intro u a hu; try dsimp only) | apply Keeps.ite
      | split | intro _ | refine Keeps.written rfl rfl rfl rfl rfl rfl rfl rfl ?_

theorem linkWake_keeps {s₀ : State} (s : State) (target : Nat) (h_s : Keeps s₀ s) : Keeps s₀ (linkWake s target).2 := by
  unfold linkWake
  try dsimp only
  with_reducible
    repeat'
      first
      | assumption | apply sendUnlessDup_keeps | apply sendWake_keeps | (apply Keeps.foldl; intro u a hu; try dsimp only)
      | apply Keeps.ite | split | intro _ | refine Keeps.written rfl rfl rfl rfl rfl rfl rfl rfl ?_

theorem dropRole_keeps {s₀ : State} (s : State) (r : Nat) (h_s : Keeps s₀ s) : Keeps s₀ (dropRole s r) := by
  unfold dropRole
  try dsimp only
  with_reducible
    repeat'
      first
      | assumption | apply State.setRole_keeps | apply State.setV_keeps
      | (apply Keeps.foldl; intro u a hu; try dsimp only) | apply Keeps.ite | split | intro _
      | refine Keeps.written rfl rfl rfl rfl rfl rfl rfl rfl ?_

theorem linkSleep_keeps {s₀ : State} (s : State) (h_s : Keeps s₀ s) : Keeps s₀ (linkSleep s) := by
  unfold linkSleep
  try dsimp only
  with_reducible
    repeat'
      first
      | assumption | apply State.linkOut_keeps | apply State.setV_keeps
      | (apply Keeps.foldl; intro u a hu; try dsimp only) | apply Keeps.ite | split | intro _
      | refine Keeps.written rfl rfl rfl rfl rfl rfl rfl rfl ?_

theorem takeFrame_keeps {s₀ : State} (ty : Nat) (f : Frame) (g : State → State) (s : State)
    (hg : ∀ a0, Keeps s₀ a0 → Keeps s₀ (g a0)) (h_s : Keeps s₀ s) : Keeps s₀ (takeFrame ty f g s) := by
  unfold takeFrame
  try dsimp only
  with_reducible
    repeat'
      first
      | assumption | apply hg | apply State.setV_keeps | (apply Keeps.foldl; intro u a hu; try dsimp only)
      | apply Keeps.ite | split | intro _ | refine Keeps.written rfl rfl rfl rfl rfl rfl rfl rfl ?_

theorem staleFrame_keeps {s₀ s s' : State} {r n e : Nat} (h : staleFrame s r n e = some s') (h_s : Keeps s₀ s)
    : Keeps s₀ s' := by
  unfold staleFrame at h
  split at h
  · obtain rfl := Option.some.inj h
    exact answerStale_keeps _ _ _ (countStale_keeps _ _ h_s)
  · exact absurd h (by simp)

theorem restartGood_keeps {s₀ : State} (s : State) (r : Nat) (e : Nat) (h_s : Keeps s₀ s)
    : Keeps s₀ (restartGood s r e) := by
  unfold restartGood
  try dsimp only
  with_reducible
    repeat'
      first
      | assumption | apply State.setV_keeps | (apply Keeps.foldl; intro u a hu; try dsimp only) | apply Keeps.ite | split
      | intro _ | refine Keeps.written rfl rfl rfl rfl rfl rfl rfl rfl ?_

theorem followEpoch_keeps {s₀ : State} (s : State) (r : Nat) (e : Nat) (h_s : Keeps s₀ s)
    : Keeps s₀ (followEpoch s r e) := by
  unfold followEpoch
  try dsimp only
  with_reducible
    repeat'
      first
      | assumption | apply State.setRole_keeps | apply restartGood_keeps | apply dropMains_keeps
      | (apply Keeps.foldl; intro u a hu; try dsimp only) | apply Keeps.ite | split | intro _
      | refine Keeps.written rfl rfl rfl rfl rfl rfl rfl rfl ?_

theorem followAnnounce_keeps {s₀ : State} (s : State) (r : Nat) (f : Frame) (b : LRole) (h_s : Keeps s₀ s)
    : Keeps s₀ (followAnnounce s r f b) := by
  unfold followAnnounce
  try dsimp only
  with_reducible
    repeat'
      first
      | assumption | apply State.setRole_keeps | apply followEpoch_keeps | apply roleNotice_keeps
      | (apply Keeps.foldl; intro u a hu; try dsimp only) | apply Keeps.ite | split | intro _
      | refine Keeps.written rfl rfl rfl rfl rfl rfl rfl rfl ?_

theorem rivalAnnounce_keeps {s₀ : State} (s : State) (r : Nat) (f : Frame) (h_s : Keeps s₀ s)
    : Keeps s₀ (rivalAnnounce s r f) := by
  unfold rivalAnnounce
  try dsimp only
  with_reducible
    repeat'
      first
      | assumption | apply followAnnounce_keeps | apply dropRole_keeps | (apply Keeps.foldl; intro u a hu; try dsimp only)
      | apply Keeps.ite | split | intro _ | refine Keeps.written rfl rfl rfl rfl rfl rfl rfl rfl ?_

theorem resigning_keeps {s₀ : State} (s : State) (r : Nat) (f : Frame) (h_s : Keeps s₀ s) : Keeps s₀ (resigning s r f) := by
  unfold resigning
  try dsimp only
  with_reducible
    repeat'
      first
      | assumption | apply backupRises_keeps | apply changeRole_keeps | (apply Keeps.foldl; intro u a hu; try dsimp only)
      | apply Keeps.ite | split | intro _ | refine Keeps.written rfl rfl rfl rfl rfl rfl rfl rfl ?_

theorem takeAnnounce_keeps {s₀ : State} (f : Frame) (s : State) (h_s : Keeps s₀ s) : Keeps s₀ (takeAnnounce f s) := by
  unfold takeAnnounce
  dsimp only
  refine Keeps.ite h_s ?_
  split
  · next h =>
    split at h
    · exact absurd h (by simp)
    · exact staleFrame_keeps h h_s
  · refine linkReview_keeps _ ?_
    have hr := fun x => State.setRole_keeps s (fld (f.pay 0) 31 30) x h_s
    split
    · exact Keeps.ite (rivalAnnounce_keeps _ _ _ (hr _)) (followAnnounce_keeps _ _ _ _ (hr _))
    · exact resigning_keeps _ _ _ (hr _)
    · exact hr _

theorem takeBeacon_keeps {s₀ : State} (p : Nat) (f : Frame) (s : State) (h_s : Keeps s₀ s)
    : Keeps s₀ (takeBeacon p f s) := by
  unfold takeBeacon
  try dsimp only
  with_reducible
    repeat'
      first
      | assumption | apply State.arrive_keeps | apply State.setV_keeps | (apply Keeps.foldl; intro u a hu; try dsimp only)
      | apply Keeps.ite | split | intro _ | refine Keeps.written rfl rfl rfl rfl rfl rfl rfl rfl ?_

theorem takeNotice_keeps {s₀ : State} (f : Frame) (s : State) (h_s : Keeps s₀ s) : Keeps s₀ (takeNotice f s) := by
  unfold takeNotice
  try dsimp only
  with_reducible
    repeat'
      first
      | assumption | apply State.setRole_keeps | apply followEpoch_keeps | apply linkReview_keeps | apply roleNotice_keeps
      | apply dropRole_keeps | (apply Keeps.foldl; intro u a hu; try dsimp only) | apply Keeps.ite | split | intro _
      | refine Keeps.written rfl rfl rfl rfl rfl rfl rfl rfl ?_

theorem noteFrom_keeps {s₀ : State} (s : State) (f : Frame) (h_s : Keeps s₀ s) : Keeps s₀ (noteFrom s f) := by
  unfold noteFrom
  try dsimp only
  with_reducible
    repeat'
      first
      | assumption | apply State.setV_keeps | (apply Keeps.foldl; intro u a hu; try dsimp only) | apply Keeps.ite | split
      | intro _ | refine Keeps.written rfl rfl rfl rfl rfl rfl rfl rfl ?_

theorem frameForward_keeps {s₀ : State} (s : State) (p : Nat) (f : Frame) (h_s : Keeps s₀ s)
    : Keeps s₀ (frameForward s p f) := by
  unfold frameForward
  try dsimp only
  with_reducible
    repeat'
      first
      | assumption | apply State.linkOut_keeps | apply State.setV_keeps | apply noteFrom_keeps
      | (apply Keeps.foldl; intro u a hu; try dsimp only) | apply Keeps.ite | split | intro _
      | refine Keeps.written rfl rfl rfl rfl rfl rfl rfl rfl ?_

theorem followMaster_keeps {s₀ : State} (s : State) (r : Nat) (src : Nat) (e : Nat) (h_s : Keeps s₀ s)
    : Keeps s₀ (followMaster s r src e) := by
  unfold followMaster
  try dsimp only
  with_reducible
    repeat'
      first
      | assumption | apply followEpoch_keeps | apply changeRole_keeps | (apply Keeps.foldl; intro u a hu; try dsimp only)
      | apply Keeps.ite | split | intro _ | refine Keeps.written rfl rfl rfl rfl rfl rfl rfl rfl ?_

theorem takeMains_keeps {s₀ : State} (f : Frame) (s : State) (h_s : Keeps s₀ s) : Keeps s₀ (takeMains f s) := by
  unfold takeMains
  dsimp only
  split
  · next h => exact staleFrame_keeps h h_s
  · refine Keeps.ite h_s (Keeps.ite (linkReview_keeps _ (State.setEl_keeps _ _ _ ?_)) ?_) <;> exact followMaster_keeps _ _ _ _ h_s

theorem mainsPeriod_keeps {s₀ : State} (s : State) (h_s : Keeps s₀ s) : Keeps s₀ (mainsPeriod s) := by
  unfold mainsPeriod
  try dsimp only
  with_reducible
    repeat'
      first
      | assumption | apply sendMains_keeps | (apply Keeps.foldl; intro u a hu; try dsimp only) | apply Keeps.ite | split
      | intro _ | refine Keeps.written rfl rfl rfl rfl rfl rfl rfl rfl ?_

theorem mainsTimeout_keeps {s₀ : State} (s : State) (h_s : Keeps s₀ s) : Keeps s₀ (mainsTimeout s) := by
  unfold mainsTimeout
  try dsimp only
  with_reducible
    repeat'
      first
      | assumption | apply linkReview_keeps | (apply Keeps.foldl; intro u a hu; try dsimp only) | apply Keeps.ite | split
      | intro _ | refine Keeps.written rfl rfl rfl rfl rfl rfl rfl rfl ?_

theorem masterSilence_keeps {s₀ : State} (s : State) (r : Nat) (h_s : Keeps s₀ s) : Keeps s₀ (masterSilence s r) := by
  unfold masterSilence
  try dsimp only
  with_reducible
    repeat'
      first
      | assumption | apply becomeMaster_keeps | apply linkReview_keeps | (apply Keeps.foldl; intro u a hu; try dsimp only)
      | apply Keeps.ite | split | intro _ | refine Keeps.written rfl rfl rfl rfl rfl rfl rfl rfl ?_

theorem pdelayPeriod_keeps {s₀ : State} (s : State) (p : Nat) (h_s : Keeps s₀ s) : Keeps s₀ (pdelayPeriod s p) := by
  unfold pdelayPeriod
  try dsimp only
  with_reducible
    repeat'
      first
      | assumption | apply State.setV_keeps | apply sendLocal_keeps | (apply Keeps.foldl; intro u a hu; try dsimp only)
      | apply Keeps.ite | split | intro _ | refine Keeps.written rfl rfl rfl rfl rfl rfl rfl rfl ?_

theorem takePdelayReq_keeps {s₀ : State} (p : Nat) (f : Frame) (ts : Nat) (s : State) (h_s : Keeps s₀ s)
    : Keeps s₀ (takePdelayReq p f ts s) := by
  unfold takePdelayReq
  try dsimp only
  with_reducible
    repeat'
      first
      | assumption | apply sendLocal_keeps | (apply Keeps.foldl; intro u a hu; try dsimp only) | apply Keeps.ite | split
      | intro _ | refine Keeps.written rfl rfl rfl rfl rfl rfl rfl rfl ?_

theorem takePdelayResp_keeps {s₀ : State} (p : Nat) (f : Frame) (ts : Nat) (s : State) (h_s : Keeps s₀ s)
    : Keeps s₀ (takePdelayResp p f ts s) := by
  unfold takePdelayResp
  try dsimp only
  with_reducible
    repeat'
      first
      | assumption | apply State.setV_keeps | (apply Keeps.foldl; intro u a hu; try dsimp only) | apply Keeps.ite | split
      | intro _ | refine Keeps.written rfl rfl rfl rfl rfl rfl rfl rfl ?_

theorem setPortSt_keeps {s₀ : State} (s : State) (p : Nat) (st : Nat) (h_s : Keeps s₀ s) : Keeps s₀ (setPortSt s p st) := by
  unfold setPortSt
  try dsimp only
  with_reducible
    repeat'
      first
      | assumption | apply State.arrive_keeps | apply State.setV_keeps | (apply Keeps.foldl; intro u a hu; try dsimp only)
      | apply Keeps.ite | split | intro _ | refine Keeps.written rfl rfl rfl rfl rfl rfl rfl rfl ?_

theorem wrapPort_keeps {s₀ : State} (s : State) (p : Nat) (h_s : Keeps s₀ s) : Keeps s₀ (wrapPort s p) := by
  unfold wrapPort
  try dsimp only
  with_reducible
    repeat'
      first
      | assumption | apply State.setV_keeps | apply sendTopo_keeps | (apply Keeps.foldl; intro u a hu; try dsimp only)
      | apply Keeps.ite | split | intro _ | refine Keeps.written rfl rfl rfl rfl rfl rfl rfl rfl ?_

theorem portDown_keeps {s₀ : State} (s : State) (p : Nat) (since : Nat) (h_s : Keeps s₀ s)
    : Keeps s₀ (portDown s p since) := by
  unfold portDown
  try dsimp only
  with_reducible
    repeat'
      first
      | assumption | apply State.linkOut_keeps | apply State.setV_keeps | apply setPortSt_keeps | apply wrapPort_keeps
      | (apply Keeps.foldl; intro u a hu; try dsimp only) | apply Keeps.ite | split | intro _
      | refine Keeps.written rfl rfl rfl rfl rfl rfl rfl rfl ?_

theorem portSleeping_keeps {s₀ : State} (s : State) (p : Nat) (h_s : Keeps s₀ s) : Keeps s₀ (portSleeping s p) := by
  unfold portSleeping
  try dsimp only
  with_reducible
    repeat'
      first
      | assumption | apply setPortSt_keeps | apply wrapPort_keeps | (apply Keeps.foldl; intro u a hu; try dsimp only)
      | apply Keeps.ite | split | intro _ | refine Keeps.written rfl rfl rfl rfl rfl rfl rfl rfl ?_

theorem portUnwrap_keeps {s₀ : State} (s : State) (p : Nat) (h_s : Keeps s₀ s) : Keeps s₀ (portUnwrap s p) := by
  unfold portUnwrap
  try dsimp only
  with_reducible
    repeat'
      first
      | assumption | apply State.setV_keeps | apply sendTopo_keeps | (apply Keeps.foldl; intro u a hu; try dsimp only)
      | apply Keeps.ite | split | intro _ | refine Keeps.written rfl rfl rfl rfl rfl rfl rfl rfl ?_

theorem portUp_keeps {s₀ : State} (s : State) (p : Nat) (h_s : Keeps s₀ s) : Keeps s₀ (portUp s p) := by
  unfold portUp
  try dsimp only
  with_reducible
    repeat'
      first
      | assumption | apply sendWaiting_keeps | apply State.setV_keeps | apply setPortSt_keeps
      | (apply Keeps.foldl; intro u a hu; try dsimp only) | apply Keeps.ite | split | intro _
      | refine Keeps.written rfl rfl rfl rfl rfl rfl rfl rfl ?_

theorem takeSnap_keeps {s₀ : State} (f : Frame) (s : State) (h_s : Keeps s₀ s) : Keeps s₀ (takeSnap f s) := by
  unfold takeSnap
  try dsimp only
  with_reducible
    repeat'
      first
      | assumption | apply State.setV_keeps | (apply Keeps.foldl; intro u a hu; try dsimp only) | apply Keeps.ite | split
      | intro _ | refine Keeps.written rfl rfl rfl rfl rfl rfl rfl rfl ?_

theorem snapPeriod_keeps {s₀ : State} (s : State) (k : Nat) (h_s : Keeps s₀ s) : Keeps s₀ (snapPeriod s k) := by
  unfold snapPeriod
  try dsimp only
  with_reducible
    repeat'
      first
      | assumption | apply sendUnlessDup_keeps | apply State.setV_keeps | apply anglesTo_keeps
      | (apply Keeps.foldl; intro u a hu; try dsimp only) | apply Keeps.ite | split | intro _
      | refine Keeps.written rfl rfl rfl rfl rfl rfl rfl rfl ?_

theorem sourceForget_keeps {s₀ : State} (s : State) (src : Nat) (h_s : Keeps s₀ s) : Keeps s₀ (sourceForget s src) := by
  unfold sourceForget
  try dsimp only
  with_reducible
    repeat'
      first
      | assumption | apply State.setV_keeps | (apply Keeps.foldl; intro u a hu; try dsimp only) | apply Keeps.ite | split
      | intro _ | refine Keeps.written rfl rfl rfl rfl rfl rfl rfl rfl ?_

theorem takeSupervisory_keeps {s₀ : State} (f : Frame) (ts : Nat) (s : State) (h_s : Keeps s₀ s)
    : Keeps s₀ (takeSupervisory f ts s) := by
  unfold takeSupervisory
  try dsimp only
  with_reducible
    repeat'
      first
      | assumption | apply State.putWords_keeps | apply State.arrive_keeps | apply State.setV_keeps
      | (apply Keeps.foldl; intro u a hu; try dsimp only) | apply Keeps.ite | split | intro _
      | refine Keeps.written rfl rfl rfl rfl rfl rfl rfl rfl ?_

theorem syncQual_keeps {s₀ : State} (s : State) (o : Int) (h_s : Keeps s₀ s) : Keeps s₀ (syncQual s o) := by
  unfold syncQual
  try dsimp only
  with_reducible
    repeat'
      first
      | assumption | apply State.setV_keeps | apply setQual_keeps | (apply Keeps.foldl; intro u a hu; try dsimp only)
      | apply Keeps.ite | split | intro _ | refine Keeps.written rfl rfl rfl rfl rfl rfl rfl rfl ?_

theorem followTime_keeps {s₀ : State} (s : State) (o : Int) (h_s : Keeps s₀ s) : Keeps s₀ (followTime s o) := by
  have base : ∀ c : Clk, c.now = s.clk.now → c.since = s.clk.now → Keeps s { s with clk := c } := fun c h1 h2 =>
    ⟨rfl, h1.ge, id, id, fun _ => by show c.since ≤ c.now; rw [h1, h2], id, id⟩
  refine h_s.trans ?_
  unfold followTime
  dsimp only
  split
  · exact base _ rfl rfl
  · split <;> exact base _ rfl rfl

theorem takeSync_keeps {s₀ : State} (p : Nat) (f : Frame) (ts : Nat) (s : State) (h_s : Keeps s₀ s)
    : Keeps s₀ (takeSync p f ts s) := by
  unfold takeSync
  dsimp only
  split
  · next h => exact staleFrame_keeps h h_s
  · exact Keeps.ite h_s (syncQual_keeps _ _ (followTime_keeps _ _ (State.setV_keeps _ _ (followMaster_keeps _ _ _ _ h_s))))

theorem syncPeriod_keeps {s₀ : State} (s : State) (h_s : Keeps s₀ s) : Keeps s₀ (syncPeriod s) := by
  unfold syncPeriod
  try dsimp only
  with_reducible
    repeat'
      first
      | assumption | apply sendSync_keeps | (apply Keeps.foldl; intro u a hu; try dsimp only) | apply Keeps.ite | split
      | intro _ | refine Keeps.written rfl rfl rfl rfl rfl rfl rfl rfl ?_

theorem timeQualityLoss_keeps {s₀ : State} (s : State) (h_s : Keeps s₀ s) : Keeps s₀ (timeQualityLoss s) := by
  unfold timeQualityLoss
  try dsimp only
  with_reducible
    repeat'
      first
      | assumption | apply State.setV_keeps | apply setQual_keeps | (apply Keeps.foldl; intro u a hu; try dsimp only)
      | apply Keeps.ite | split | intro _ | refine Keeps.written rfl rfl rfl rfl rfl rfl rfl rfl ?_

theorem announcePeriod_only {m : Nat} {s₀ : State} (hm : 268435472 ||| m = m) (s : State)
    (h_s : Only m s₀ s) : Only m s₀ (announcePeriod s) := by
  unfold announcePeriod
  try dsimp only
  with_reducible
    repeat'
      first
      | assumption | exact mask_trans (by decide) hm | apply sendAnnounce_only | apply sendFrame_only
      | (apply Only.foldl; intro u a hu; try dsimp only) | apply Only.ite | split | intro _

theorem answerStale_only {m : Nat} {s₀ : State} (hm : 268435472 ||| m = m) (s : State) (r : Nat) (src : Nat)
    (h_s : Only m s₀ s) : Only m s₀ (answerStale s r src) := by
  unfold answerStale
  try dsimp only
  with_reducible
    repeat'
      first
      | assumption | exact mask_trans (by decide) hm | apply sendUnlessDup_only | apply State.setV_only
      | (apply Only.foldl; intro u a hu; try dsimp only) | apply Only.ite | split | intro _

theorem sendSync_only {m : Nat} {s₀ : State} (hm : 268435472 ||| m = m) (s : State)
    (h_s : Only m s₀ s) : Only m s₀ (sendSync s) := by
  unfold sendSync
  try dsimp only
  with_reducible
    repeat'
      first
      | assumption | exact mask_trans (by decide) hm | apply State.setRole_only | apply sendUnlessDup_only
      | (apply Only.foldl; intro u a hu; try dsimp only) | apply Only.ite | split | intro _

theorem sendMains_only {m : Nat} {s₀ : State} (hm : 104536014844 ||| m = m) (s : State)
    (h_s : Only m s₀ s) : Only m s₀ (sendMains s) := by
  unfold sendMains
  try dsimp only
  with_reducible
    repeat'
      first
      | assumption | exact mask_trans (by decide) hm | apply State.setRole_only | apply sendUnlessDup_only
      | apply anglesTo_only | (apply Only.foldl; intro u a hu; try dsimp only) | apply Only.ite | split | intro _

theorem sendRole_only {m : Nat} {s₀ : State} (hm : 104536014844 ||| m = m) (s : State) (r : Nat)
    (h_s : Only m s₀ s) : Only m s₀ (sendRole s r) := by
  unfold sendRole
  try dsimp only
  with_reducible
    repeat'
      first
      | assumption | exact mask_trans (by decide) hm | apply sendMains_only | apply sendSync_only
      | (apply Only.foldl; intro u a hu; try dsimp only) | apply Only.ite | split | intro _

theorem slewEnd_only {m : Nat} {s₀ : State} (hm : 1 ||| m = m) (s : State) (r : Nat)
    (h_s : Only m s₀ s) : Only m s₀ (slewEnd s r) := by
  unfold slewEnd
  try dsimp only
  with_reducible
    repeat'
      first
      | assumption | exact .inr (mask_bit hm (by decide)) | exact .inl rfl | exact mask_trans (by decide) hm
      | (apply Only.foldl; intro u a hu; try dsimp only) | apply Only.ite | split | intro _
      | refine Only.written rfl ?_ ?_ ?_ ?_ ?_ ?_ ?_ ?_ ?_ ?_ ?_ ?_ ?_ ?_ ?_ ?_ ?_ ?_ ?_ ?_ ?_ ?_ ?_ ?_ ?_ ?_ ?_ ?_ ?_ ?_ ?_ ?_ ?_ ?_ ?_ ?_ ?_ ?_

theorem dropMains_only {m : Nat} {s₀ : State} (hm : 65536 ||| m = m) (s : State) (r : Nat) (e : Nat)
    (h_s : Only m s₀ s) : Only m s₀ (dropMains s r e) := by
  unfold dropMains
  try dsimp only
  with_reducible
    repeat'
      first
      | assumption | exact mask_trans (by decide) hm | apply State.setEl_only
      | (apply Only.foldl; intro u a hu; try dsimp only) | apply Only.ite | split | intro _

theorem setQual_only {m : Nat} {s₀ : State} (hm : 106415128573 ||| m = m) (s : State) (q : Nat)
    (h_s : Only m s₀ s) : Only m s₀ (setQual s q) := by
  unfold setQual
  try dsimp only
  with_reducible
    repeat'
      first
      | assumption | exact .inr (mask_bit hm (by decide)) | exact .inl rfl | exact mask_trans (by decide) hm
      | apply State.setReg_only | apply State.arrive_only | apply linkReview_only
      | (apply Only.foldl; intro u a hu; try dsimp only) | apply Only.ite | split | intro _
      | refine Only.written rfl ?_ ?_ ?_ ?_ ?_ ?_ ?_ ?_ ?_ ?_ ?_ ?_ ?_ ?_ ?_ ?_ ?_ ?_ ?_ ?_ ?_ ?_ ?_ ?_ ?_ ?_ ?_ ?_ ?_ ?_ ?_ ?_ ?_ ?_ ?_ ?_ ?_ ?_

theorem masterQual_only {m : Nat} {s₀ : State} (hm : 106415128573 ||| m = m) (s : State)
    (h_s : Only m s₀ s) : Only m s₀ (masterQual s) := by
  unfold masterQual
  try dsimp only
  with_reducible
    repeat'
      first
      | assumption | exact mask_trans (by decide) hm | apply setQual_only
      | (apply Only.foldl; intro u a hu; try dsimp only) | apply Only.ite | split | intro _

theorem becomeMaster_only {m : Nat} {s₀ : State} (hm : 106683564029 ||| m = m) (s : State) (r : Nat) (e : Nat)
    (h_s : Only m s₀ s) : Only m s₀ (becomeMaster s r e) := by
  unfold becomeMaster
  try dsimp only
  with_reducible
    repeat'
      first
      | assumption | exact mask_trans (by decide) hm | apply masterQual_only | apply changeRole_only
      | apply dropMains_only | apply slewEnd_only | (apply Only.foldl; intro u a hu; try dsimp only) | apply Only.ite
      | split | intro _

theorem backupRises_only {m : Nat} {s₀ : State} (hm : 106683564029 ||| m = m) (s : State) (r : Nat)
    (h_s : Only m s₀ s) : Only m s₀ (backupRises s r) := by
  unfold backupRises
  try dsimp only
  with_reducible
    repeat'
      first
      | assumption | exact mask_trans (by decide) hm | apply becomeMaster_only | apply sendRole_only
      | (apply Only.foldl; intro u a hu; try dsimp only) | apply Only.ite | split | intro _

theorem backupSilence_only {m : Nat} {s₀ : State} (hm : 268436000 ||| m = m) (s : State) (r : Nat)
    (h_s : Only m s₀ s) : Only m s₀ (backupSilence s r) := by
  unfold backupSilence
  try dsimp only
  with_reducible
    repeat'
      first
      | assumption | exact mask_trans (by decide) hm | apply changeRole_only
      | (apply Only.foldl; intro u a hu; try dsimp only) | apply Only.ite | split | intro _

theorem backupTakeover_only {m : Nat} {s₀ : State} (hm : 106683564029 ||| m = m) (s : State) (r : Nat)
    (h_s : Only m s₀ s) : Only m s₀ (backupTakeover s r) := by
  unfold backupTakeover
  try dsimp only
  with_reducible
    repeat'
      first
      | assumption | exact mask_trans (by decide) hm | apply backupRises_only | apply linkReview_only
      | (apply Only.foldl; intro u a hu; try dsimp only) | apply Only.ite | split | intro _

theorem vlkFresh_only {m : Nat} {s₀ : State} (hm : 104536080380 ||| m = m) (s : State)
    (h_s : Only m s₀ s) : Only m s₀ (vlkFresh s) := by
  unfold vlkFresh
  try dsimp only
  with_reducible
    repeat'
      first
      | assumption | exact mask_trans (by decide) hm | apply State.setEl_only | apply State.setV_only
      | apply linkReview_only | (apply Only.foldl; intro u a hu; try dsimp only) | apply Only.ite | split | intro _

theorem vlkCfgWrite_only {m : Nat} {s₀ : State} (hm : 104536080380 ||| m = m) (s : State) (v : Word)
    (h_s : Only m s₀ s) : Only m s₀ (vlkCfgWrite s v) := by
  unfold vlkCfgWrite
  try dsimp only
  with_reducible
    repeat'
      first
      | assumption | exact .inr (mask_bit hm (by decide)) | exact .inl rfl | exact mask_trans (by decide) hm
      | apply State.setReg_only | apply State.setV_only | apply vlkFresh_only
      | (apply Only.foldl; intro u a hu; try dsimp only) | apply Only.ite | split | intro _
      | refine Only.written rfl ?_ ?_ ?_ ?_ ?_ ?_ ?_ ?_ ?_ ?_ ?_ ?_ ?_ ?_ ?_ ?_ ?_ ?_ ?_ ?_ ?_ ?_ ?_ ?_ ?_ ?_ ?_ ?_ ?_ ?_ ?_ ?_ ?_ ?_ ?_ ?_ ?_ ?_

theorem countStale_only {m : Nat} {s₀ : State} (hm : 268436000 ||| m = m) (s : State) (r : Nat)
    (h_s : Only m s₀ s) : Only m s₀ (countStale s r) := by
  unfold countStale
  try dsimp only
  with_reducible
    repeat'
      first
      | assumption | exact mask_trans (by decide) hm | apply State.setRole_only | apply State.arrive_only
      | apply State.setV_only | (apply Only.foldl; intro u a hu; try dsimp only) | apply Only.ite | split | intro _

theorem linkResign_only {m : Nat} {s₀ : State} (hm : 268436016 ||| m = m) (s : State) (r : Nat)
    (h_s : Only m s₀ s) : Only m s₀ (linkResign s r).2 := by
  unfold linkResign
  try dsimp only
  with_reducible
    repeat'
      first
      | assumption | exact mask_trans (by decide) hm | apply resign_only
      | (apply Only.foldl; intro u a hu; try dsimp only) | apply Only.ite | split | intro _

theorem sendWaiting_only {m : Nat} {s₀ : State} (hm : 268435472 ||| m = m) (s : State)
    (h_s : Only m s₀ s) : Only m s₀ (sendWaiting s) := by
  unfold sendWaiting
  try dsimp only
  with_reducible
    repeat'
      first
      | assumption | exact mask_trans (by decide) hm | apply State.setV_only | apply putFrame_only
      | (apply Only.foldl; intro u a hu; try dsimp only) | apply Only.ite | split | intro _

theorem linkSend_only {m : Nat} {s₀ : State} (hm : 268435472 ||| m = m) (s : State) (w : List Word)
    (h_s : Only m s₀ s) : Only m s₀ (linkSend s w).2.2 := by
  unfold linkSend
  try dsimp only
  with_reducible
    repeat'
      first
      | assumption | exact mask_trans (by decide) hm | apply State.countFrame_only | apply sendWaiting_only
      | apply State.setV_only | (apply Only.foldl; intro u a hu; try dsimp only) | apply Only.ite | split | intro _

theorem sendWake_only {m : Nat} {s₀ : State} (hm : 16 ||| m = m) (s : State) (target : Nat)
    (h_s : Only m s₀ s) : Only m s₀ (sendWake s target) := by
  unfold sendWake
  try dsimp only
  with_reducible
    repeat'
      first
      | assumption | exact mask_trans (by decide) hm | apply State.linkOut_only
      | (apply Only.foldl; intro u a hu; try dsimp only) | apply Only.ite | split | intro _

theorem linkWake_only {m : Nat} {s₀ : State} (hm : 268435472 ||| m = m) (s : State) (target : Nat)
    (h_s : Only m s₀ s) : Only m s₀ (linkWake s target).2 := by
  unfold linkWake
  try dsimp only
  with_reducible
    repeat'
      first
      | assumption | exact mask_trans (by decide) hm | apply sendUnlessDup_only | apply sendWake_only
      | (apply Only.foldl; intro u a hu; try dsimp only) | apply Only.ite | split | intro _

theorem dropRole_only {m : Nat} {s₀ : State} (hm : 268435456 ||| m = m) (s : State) (r : Nat)
    (h_s : Only m s₀ s) : Only m s₀ (dropRole s r) := by
  unfold dropRole
  try dsimp only
  with_reducible
    repeat'
      first
      | assumption | exact mask_trans (by decide) hm | apply State.setRole_only | apply State.setV_only
      | (apply Only.foldl; intro u a hu; try dsimp only) | apply Only.ite | split | intro _

theorem linkSleep_only {m : Nat} {s₀ : State} (hm : 268435472 ||| m = m) (s : State)
    (h_s : Only m s₀ s) : Only m s₀ (linkSleep s) := by
  unfold linkSleep
  try dsimp only
  with_reducible
    repeat'
      first
      | assumption | exact mask_trans (by decide) hm | apply State.linkOut_only | apply State.setV_only
      | (apply Only.foldl; intro u a hu; try dsimp only) | apply Only.ite | split | intro _

theorem takeFrame_only {m : Nat} {s₀ : State} (hm : 268435456 ||| m = m) (ty : Nat) (f : Frame) (g : State → State)
    (s : State) (hg : ∀ a0, Only m s₀ a0 → Only m s₀ (g a0)) (h_s : Only m s₀ s) : Only m s₀ (takeFrame ty f g s) := by
  unfold takeFrame
  try dsimp only
  with_reducible
    repeat'
      first
      | assumption | exact mask_trans (by decide) hm | apply hg | apply State.setV_only
      | (apply Only.foldl; intro u a hu; try dsimp only) | apply Only.ite | split | intro _

theorem staleFrame_only {m : Nat} {s₀ s s' : State} {r n e : Nat} (hm : 268436016 ||| m = m)
    (h : staleFrame s r n e = some s') (h_s : Only m s₀ s) : Only m s₀ s' := by
  unfold staleFrame at h
  split at h
  · obtain rfl := Option.some.inj h
    exact answerStale_only (mask_trans (by decide) hm) _ _ _ (countStale_only (mask_trans (by decide) hm) _ _ h_s)
  · exact absurd h (by simp)

theorem restartGood_only {m : Nat} {s₀ : State} (hm : 268435456 ||| m = m) (s : State) (r : Nat) (e : Nat)
    (h_s : Only m s₀ s) : Only m s₀ (restartGood s r e) := by
  unfold restartGood
  try dsimp only
  with_reducible
    repeat'
      first
      | assumption | exact mask_trans (by decide) hm | apply State.setV_only
      | (apply Only.foldl; intro u a hu; try dsimp only) | apply Only.ite | split | intro _

theorem followEpoch_only {m : Nat} {s₀ : State} (hm : 268500992 ||| m = m) (s : State) (r : Nat) (e : Nat)
    (h_s : Only m s₀ s) : Only m s₀ (followEpoch s r e) := by
  unfold followEpoch
  try dsimp only
  with_reducible
    repeat'
      first
      | assumption | exact mask_trans (by decide) hm | apply State.setRole_only | apply restartGood_only
      | apply dropMains_only | (apply Only.foldl; intro u a hu; try dsimp only) | apply Only.ite | split | intro _

theorem followAnnounce_only {m : Nat} {s₀ : State} (hm : 268501536 ||| m = m) (s : State) (r : Nat) (f : Frame)
    (b : LRole) (h_s : Only m s₀ s) : Only m s₀ (followAnnounce s r f b) := by
  unfold followAnnounce
  try dsimp only
  with_reducible
    repeat'
      first
      | assumption | exact mask_trans (by decide) hm | apply State.setRole_only | apply followEpoch_only
      | apply roleNotice_only | (apply Only.foldl; intro u a hu; try dsimp only) | apply Only.ite | split | intro _

theorem rivalAnnounce_only {m : Nat} {s₀ : State} (hm : 268501536 ||| m = m) (s : State) (r : Nat) (f : Frame)
    (h_s : Only m s₀ s) : Only m s₀ (rivalAnnounce s r f) := by
  unfold rivalAnnounce
  try dsimp only
  with_reducible
    repeat'
      first
      | assumption | exact mask_trans (by decide) hm | apply followAnnounce_only | apply dropRole_only
      | (apply Only.foldl; intro u a hu; try dsimp only) | apply Only.ite | split | intro _

theorem resigning_only {m : Nat} {s₀ : State} (hm : 106683564029 ||| m = m) (s : State) (r : Nat) (f : Frame)
    (h_s : Only m s₀ s) : Only m s₀ (resigning s r f) := by
  unfold resigning
  try dsimp only
  with_reducible
    repeat'
      first
      | assumption | exact mask_trans (by decide) hm | apply backupRises_only | apply changeRole_only
      | (apply Only.foldl; intro u a hu; try dsimp only) | apply Only.ite | split | intro _

theorem takeAnnounce_only {m : Nat} {s₀ : State} (hm : 106683564029 ||| m = m) (f : Frame) (s : State)
    (h_s : Only m s₀ s) : Only m s₀ (takeAnnounce f s) := by
  unfold takeAnnounce
  dsimp only
  refine Only.ite h_s ?_
  split
  · next h =>
    split at h
    · exact absurd h (by simp)
    · exact staleFrame_only (mask_trans (by decide) hm) h h_s
  · refine linkReview_only (mask_trans (by decide) hm) _ ?_
    have hr := fun x => State.setRole_only (mask_trans (by decide) hm) s (fld (f.pay 0) 31 30) x h_s
    split
    · exact Only.ite (rivalAnnounce_only (mask_trans (by decide) hm) _ _ _ (hr _)) (followAnnounce_only (mask_trans (by decide) hm) _ _ _ _ (hr _))
    · exact resigning_only (mask_trans (by decide) hm) _ _ _ (hr _)
    · exact hr _

theorem takeBeacon_only {m : Nat} {s₀ : State} (hm : 268436000 ||| m = m) (p : Nat) (f : Frame) (s : State)
    (h_s : Only m s₀ s) : Only m s₀ (takeBeacon p f s) := by
  unfold takeBeacon
  try dsimp only
  with_reducible
    repeat'
      first
      | assumption | exact mask_trans (by decide) hm | apply State.arrive_only | apply State.setV_only
      | (apply Only.foldl; intro u a hu; try dsimp only) | apply Only.ite | split | intro _

theorem takeNotice_only {m : Nat} {s₀ : State} (hm : 104536080380 ||| m = m) (f : Frame) (s : State)
    (h_s : Only m s₀ s) : Only m s₀ (takeNotice f s) := by
  unfold takeNotice
  try dsimp only
  with_reducible
    repeat'
      first
      | assumption | exact mask_trans (by decide) hm | apply State.setRole_only | apply followEpoch_only
      | apply linkReview_only | apply roleNotice_only | apply dropRole_only
      | (apply Only.foldl; intro u a hu; try dsimp only) | apply Only.ite | split | intro _

theorem noteFrom_only {m : Nat} {s₀ : State} (hm : 268435456 ||| m = m) (s : State) (f : Frame)
    (h_s : Only m s₀ s) : Only m s₀ (noteFrom s f) := by
  unfold noteFrom
  try dsimp only
  with_reducible
    repeat'
      first
      | assumption | exact mask_trans (by decide) hm | apply State.setV_only
      | (apply Only.foldl; intro u a hu; try dsimp only) | apply Only.ite | split | intro _

theorem frameForward_only {m : Nat} {s₀ : State} (hm : 68987912208 ||| m = m) (s : State) (p : Nat) (f : Frame)
    (h_s : Only m s₀ s) : Only m s₀ (frameForward s p f) := by
  unfold frameForward
  try dsimp only
  with_reducible
    repeat'
      first
      | assumption | exact .inr (mask_bit hm (by decide)) | exact .inl rfl | exact mask_trans (by decide) hm
      | apply State.linkOut_only | apply State.setV_only | apply noteFrom_only
      | (apply Only.foldl; intro u a hu; try dsimp only) | apply Only.ite | split | intro _
      | refine Only.written rfl ?_ ?_ ?_ ?_ ?_ ?_ ?_ ?_ ?_ ?_ ?_ ?_ ?_ ?_ ?_ ?_ ?_ ?_ ?_ ?_ ?_ ?_ ?_ ?_ ?_ ?_ ?_ ?_ ?_ ?_ ?_ ?_ ?_ ?_ ?_ ?_ ?_ ?_

theorem followMaster_only {m : Nat} {s₀ : State} (hm : 268501536 ||| m = m) (s : State) (r : Nat) (src : Nat) (e : Nat)
    (h_s : Only m s₀ s) : Only m s₀ (followMaster s r src e) := by
  unfold followMaster
  try dsimp only
  with_reducible
    repeat'
      first
      | assumption | exact mask_trans (by decide) hm | apply followEpoch_only | apply changeRole_only
      | (apply Only.foldl; intro u a hu; try dsimp only) | apply Only.ite | split | intro _

theorem takeMains_only {m : Nat} {s₀ : State} (hm : 104536080380 ||| m = m) (f : Frame) (s : State)
    (h_s : Only m s₀ s) : Only m s₀ (takeMains f s) := by
  unfold takeMains
  dsimp only
  split
  · next h => exact staleFrame_only (mask_trans (by decide) hm) h h_s
  · refine Only.ite h_s (Only.ite (linkReview_only (mask_trans (by decide) hm) _ (State.setEl_only (mask_trans (by decide) hm) _ _ _ ?_)) ?_) <;> exact followMaster_only (mask_trans (by decide) hm) _ _ _ _ h_s

theorem mainsPeriod_only {m : Nat} {s₀ : State} (hm : 104536014844 ||| m = m) (s : State)
    (h_s : Only m s₀ s) : Only m s₀ (mainsPeriod s) := by
  unfold mainsPeriod
  try dsimp only
  with_reducible
    repeat'
      first
      | assumption | exact mask_trans (by decide) hm | apply sendMains_only
      | (apply Only.foldl; intro u a hu; try dsimp only) | apply Only.ite | split | intro _

theorem mainsTimeout_only {m : Nat} {s₀ : State} (hm : 104267644924 ||| m = m) (s : State)
    (h_s : Only m s₀ s) : Only m s₀ (mainsTimeout s) := by
  unfold mainsTimeout
  try dsimp only
  with_reducible
    repeat'
      first
      | assumption | exact mask_trans (by decide) hm | apply linkReview_only
      | (apply Only.foldl; intro u a hu; try dsimp only) | apply Only.ite | split | intro _

theorem masterSilence_only {m : Nat} {s₀ : State} (hm : 106683564029 ||| m = m) (s : State) (r : Nat)
    (h_s : Only m s₀ s) : Only m s₀ (masterSilence s r) := by
  unfold masterSilence
  try dsimp only
  with_reducible
    repeat'
      first
      | assumption | exact mask_trans (by decide) hm | apply becomeMaster_only | apply linkReview_only
      | (apply Only.foldl; intro u a hu; try dsimp only) | apply Only.ite | split | intro _

theorem pdelayPeriod_only {m : Nat} {s₀ : State} (hm : 268435472 ||| m = m) (s : State) (p : Nat)
    (h_s : Only m s₀ s) : Only m s₀ (pdelayPeriod s p) := by
  unfold pdelayPeriod
  try dsimp only
  with_reducible
    repeat'
      first
      | assumption | exact mask_trans (by decide) hm | apply State.setV_only | apply sendLocal_only
      | (apply Only.foldl; intro u a hu; try dsimp only) | apply Only.ite | split | intro _

theorem takePdelayReq_only {m : Nat} {s₀ : State} (hm : 268435472 ||| m = m) (p : Nat) (f : Frame) (ts : Nat) (s : State)
    (h_s : Only m s₀ s) : Only m s₀ (takePdelayReq p f ts s) := by
  unfold takePdelayReq
  try dsimp only
  with_reducible
    repeat'
      first
      | assumption | exact mask_trans (by decide) hm | apply sendLocal_only
      | (apply Only.foldl; intro u a hu; try dsimp only) | apply Only.ite | split | intro _

theorem takePdelayResp_only {m : Nat} {s₀ : State} (hm : 268435456 ||| m = m) (p : Nat) (f : Frame) (ts : Nat) (s : State)
    (h_s : Only m s₀ s) : Only m s₀ (takePdelayResp p f ts s) := by
  unfold takePdelayResp
  try dsimp only
  with_reducible
    repeat'
      first
      | assumption | exact mask_trans (by decide) hm | apply State.setV_only
      | (apply Only.foldl; intro u a hu; try dsimp only) | apply Only.ite | split | intro _

theorem setPortSt_only {m : Nat} {s₀ : State} (hm : 268436000 ||| m = m) (s : State) (p : Nat) (st : Nat)
    (h_s : Only m s₀ s) : Only m s₀ (setPortSt s p st) := by
  unfold setPortSt
  try dsimp only
  with_reducible
    repeat'
      first
      | assumption | exact mask_trans (by decide) hm | apply State.arrive_only | apply State.setV_only
      | (apply Only.foldl; intro u a hu; try dsimp only) | apply Only.ite | split | intro _

theorem wrapPort_only {m : Nat} {s₀ : State} (hm : 268435472 ||| m = m) (s : State) (p : Nat)
    (h_s : Only m s₀ s) : Only m s₀ (wrapPort s p) := by
  unfold wrapPort
  try dsimp only
  with_reducible
    repeat'
      first
      | assumption | exact mask_trans (by decide) hm | apply State.setV_only | apply sendTopo_only
      | (apply Only.foldl; intro u a hu; try dsimp only) | apply Only.ite | split | intro _

theorem portDown_only {m : Nat} {s₀ : State} (hm : 268436016 ||| m = m) (s : State) (p : Nat) (since : Nat)
    (h_s : Only m s₀ s) : Only m s₀ (portDown s p since) := by
  unfold portDown
  try dsimp only
  with_reducible
    repeat'
      first
      | assumption | exact mask_trans (by decide) hm | apply State.linkOut_only | apply State.setV_only
      | apply setPortSt_only | apply wrapPort_only | (apply Only.foldl; intro u a hu; try dsimp only) | apply Only.ite
      | split | intro _

theorem portSleeping_only {m : Nat} {s₀ : State} (hm : 268436016 ||| m = m) (s : State) (p : Nat)
    (h_s : Only m s₀ s) : Only m s₀ (portSleeping s p) := by
  unfold portSleeping
  try dsimp only
  with_reducible
    repeat'
      first
      | assumption | exact mask_trans (by decide) hm | apply setPortSt_only | apply wrapPort_only
      | (apply Only.foldl; intro u a hu; try dsimp only) | apply Only.ite | split | intro _

theorem portUnwrap_only {m : Nat} {s₀ : State} (hm : 268435472 ||| m = m) (s : State) (p : Nat)
    (h_s : Only m s₀ s) : Only m s₀ (portUnwrap s p) := by
  unfold portUnwrap
  try dsimp only
  with_reducible
    repeat'
      first
      | assumption | exact mask_trans (by decide) hm | apply State.setV_only | apply sendTopo_only
      | (apply Only.foldl; intro u a hu; try dsimp only) | apply Only.ite | split | intro _

theorem portUp_only {m : Nat} {s₀ : State} (hm : 268436016 ||| m = m) (s : State) (p : Nat)
    (h_s : Only m s₀ s) : Only m s₀ (portUp s p) := by
  unfold portUp
  try dsimp only
  with_reducible
    repeat'
      first
      | assumption | exact mask_trans (by decide) hm | apply sendWaiting_only | apply State.setV_only
      | apply setPortSt_only | (apply Only.foldl; intro u a hu; try dsimp only) | apply Only.ite | split | intro _

theorem takeSnap_only {m : Nat} {s₀ : State} (hm : 268435456 ||| m = m) (f : Frame) (s : State)
    (h_s : Only m s₀ s) : Only m s₀ (takeSnap f s) := by
  unfold takeSnap
  try dsimp only
  with_reducible
    repeat'
      first
      | assumption | exact mask_trans (by decide) hm | apply State.setV_only
      | (apply Only.foldl; intro u a hu; try dsimp only) | apply Only.ite | split | intro _

theorem snapPeriod_only {m : Nat} {s₀ : State} (hm : 104536014844 ||| m = m) (s : State) (k : Nat)
    (h_s : Only m s₀ s) : Only m s₀ (snapPeriod s k) := by
  unfold snapPeriod
  try dsimp only
  with_reducible
    repeat'
      first
      | assumption | exact mask_trans (by decide) hm | apply sendUnlessDup_only | apply State.setV_only
      | apply anglesTo_only | (apply Only.foldl; intro u a hu; try dsimp only) | apply Only.ite | split | intro _

theorem sourceForget_only {m : Nat} {s₀ : State} (hm : 268435456 ||| m = m) (s : State) (src : Nat)
    (h_s : Only m s₀ s) : Only m s₀ (sourceForget s src) := by
  unfold sourceForget
  try dsimp only
  with_reducible
    repeat'
      first
      | assumption | exact mask_trans (by decide) hm | apply State.setV_only
      | (apply Only.foldl; intro u a hu; try dsimp only) | apply Only.ite | split | intro _

theorem takeSupervisory_only {m : Nat} {s₀ : State} (hm : 268436008 ||| m = m) (f : Frame) (ts : Nat) (s : State)
    (h_s : Only m s₀ s) : Only m s₀ (takeSupervisory f ts s) := by
  unfold takeSupervisory
  try dsimp only
  with_reducible
    repeat'
      first
      | assumption | exact mask_trans (by decide) hm | apply State.putWords_only | apply State.arrive_only
      | apply State.setV_only | (apply Only.foldl; intro u a hu; try dsimp only) | apply Only.ite | split | intro _

theorem syncQual_only {m : Nat} {s₀ : State} (hm : 106683564029 ||| m = m) (s : State) (o : Int)
    (h_s : Only m s₀ s) : Only m s₀ (syncQual s o) := by
  unfold syncQual
  try dsimp only
  with_reducible
    repeat'
      first
      | assumption | exact mask_trans (by decide) hm | apply State.setV_only | apply setQual_only
      | (apply Only.foldl; intro u a hu; try dsimp only) | apply Only.ite | split | intro _

theorem followTime_only {m : Nat} {s₀ : State} (hm : 1 ||| m = m) (s : State) (o : Int)
    (h_s : Only m s₀ s) : Only m s₀ (followTime s o) := by
  unfold followTime
  try dsimp only
  with_reducible
    repeat'
      first
      | assumption | exact .inr (mask_bit hm (by decide)) | exact .inl rfl | exact mask_trans (by decide) hm
      | (apply Only.foldl; intro u a hu; try dsimp only) | apply Only.ite | split | intro _
      | refine Only.written rfl ?_ ?_ ?_ ?_ ?_ ?_ ?_ ?_ ?_ ?_ ?_ ?_ ?_ ?_ ?_ ?_ ?_ ?_ ?_ ?_ ?_ ?_ ?_ ?_ ?_ ?_ ?_ ?_ ?_ ?_ ?_ ?_ ?_ ?_ ?_ ?_ ?_ ?_

theorem takeSync_only {m : Nat} {s₀ : State} (hm : 106683564029 ||| m = m) (p : Nat) (f : Frame) (ts : Nat) (s : State)
    (h_s : Only m s₀ s) : Only m s₀ (takeSync p f ts s) := by
  unfold takeSync
  dsimp only
  split
  · next h => exact staleFrame_only (mask_trans (by decide) hm) h h_s
  · exact Only.ite h_s (syncQual_only (mask_trans (by decide) hm) _ _ (followTime_only (mask_trans (by decide) hm) _ _ (State.setV_only (mask_trans (by decide) hm) _ _ (followMaster_only (mask_trans (by decide) hm) _ _ _ _ h_s))))

theorem syncPeriod_only {m : Nat} {s₀ : State} (hm : 268435472 ||| m = m) (s : State)
    (h_s : Only m s₀ s) : Only m s₀ (syncPeriod s) := by
  unfold syncPeriod
  try dsimp only
  with_reducible
    repeat'
      first
      | assumption | exact mask_trans (by decide) hm | apply sendSync_only
      | (apply Only.foldl; intro u a hu; try dsimp only) | apply Only.ite | split | intro _

theorem timeQualityLoss_only {m : Nat} {s₀ : State} (hm : 106683564029 ||| m = m) (s : State)
    (h_s : Only m s₀ s) : Only m s₀ (timeQualityLoss s) := by
  unfold timeQualityLoss
  try dsimp only
  with_reducible
    repeat'
      first
      | assumption | exact mask_trans (by decide) hm | apply State.setV_only | apply setQual_only
      | (apply Only.foldl; intro u a hu; try dsimp only) | apply Only.ite | split | intro _

end Sys2Proof.Machine
end

