-- ==== Sys2Proof/Laws/Hif.lean ====
section
/-!
SUPPORT. Machine/Hif.lean: every operation of it keeps what `Keeps` says, and changes only the parts of its mask.
-/
set_option linter.unusedTactic false
set_option linter.unreachableTactic false
set_option linter.unusedVariables false

namespace Sys2Proof.Machine

theorem reply_keeps {s₀ : State} (s : State) (r : Nat) (c : Fetched) (y : Reply) (h_s : Keeps s₀ s)
    : Keeps s₀ (reply s r c y) := by
  unfold reply
  try dsimp only
  with_reducible
    repeat'
      first
      | assumption | apply State.setRing_keeps | apply complete_keeps | (apply Keeps.foldl; intro u a hu; try dsimp only)
      | apply Keeps.ite | split | intro _ | refine Keeps.written rfl rfl rfl rfl rfl rfl rfl rfl ?_

theorem refuseUnknown_keeps {s₀ : State} (s : State) (r : Nat) (h_s : Keeps s₀ s) : Keeps s₀ (refuseUnknown s r) := by
  unfold refuseUnknown
  try dsimp only
  with_reducible
    repeat'
      first
      | assumption | apply reply_keeps | (apply Keeps.foldl; intro u a hu; try dsimp only) | apply Keeps.ite | split
      | intro _ | refine Keeps.written rfl rfl rfl rfl rfl rfl rfl rfl ?_

theorem finish_keeps {s₀ : State} (s : State) (r : Nat) (c : Fetched) (y : Reply) (h_s : Keeps s₀ s)
    : Keeps s₀ (finish s r c y) := by
  unfold finish
  try dsimp only
  with_reducible
    repeat'
      first
      | assumption | apply refuseUnknown_keeps | apply reply_keeps | (apply Keeps.foldl; intro u a hu; try dsimp only)
      | apply Keeps.ite | split | intro _ | refine Keeps.written rfl rfl rfl rfl rfl rfl rfl rfl ?_

theorem ringCmd_keeps {s₀ : State} (op : Nat) (r : Nat) (f : State → Fetched → Reply × State) (s : State)
    (hf : ∀ a0 a1, Keeps s₀ a0 → Keeps s₀ (f a0 a1).2) (h_s : Keeps s₀ s) : Keeps s₀ (ringCmd op r f s) := by
  unfold ringCmd
  try dsimp only
  with_reducible
    repeat'
      first
      | assumption | apply hf | apply finish_keeps | (apply Keeps.foldl; intro u a hu; try dsimp only) | apply Keeps.ite
      | split | intro _ | refine Keeps.written rfl rfl rfl rfl rfl rfl rfl rfl ?_

theorem msixTableWrite_keeps {s₀ : State} (s : State) (addr : Nat) (size : Nat) (v : BitVec 64) (h_s : Keeps s₀ s)
    : Keeps s₀ (msixTableWrite s addr size v) := by
  unfold msixTableWrite
  try dsimp only
  with_reducible
    repeat'
      first
      | assumption | apply State.unFirst_keeps | apply State.setReg_keeps
      | (apply Keeps.foldl; intro u a hu; try dsimp only) | apply Keeps.ite | split | intro _
      | refine Keeps.written rfl rfl rfl rfl rfl rfl rfl rfl ?_

theorem clearHostReset_keeps {s₀ : State} (s : State) (h_s : Keeps s₀ s) : Keeps s₀ (clearHostReset s) := by
  unfold clearHostReset
  try dsimp only
  with_reducible
    repeat'
      first
      | assumption | apply State.setRf_keeps | (apply Keeps.foldl; intro u a hu; try dsimp only) | apply Keeps.ite | split
      | intro _ | refine Keeps.written rfl rfl rfl rfl rfl rfl rfl rfl ?_

theorem indicesZero_keeps {s₀ : State} (s : State) (h_s : Keeps s₀ s) : Keeps s₀ (indicesZero s) := by
  unfold indicesZero
  try dsimp only
  with_reducible
    repeat'
      first
      | assumption | apply State.setReg_keeps | (apply Keeps.foldl; intro u a hu; try dsimp only) | apply Keeps.ite
      | split | intro _ | refine Keeps.written rfl rfl rfl rfl rfl rfl rfl rfl ?_

theorem runAccepted_keeps {s₀ : State} (s : State) (h_s : Keeps s₀ s) : Keeps s₀ (runAccepted s) := by
  unfold runAccepted
  try dsimp only
  with_reducible
    repeat'
      first
      | assumption | apply tableCheckTake_keeps | apply State.setRf_keeps | apply indicesZero_keeps
      | (apply Keeps.foldl; intro u a hu; try dsimp only) | apply Keeps.ite | split | intro _
      | refine Keeps.written rfl rfl rfl rfl rfl rfl rfl rfl ?_

theorem runStart_keeps {s₀ : State} (s : State) (h_s : Keeps s₀ s) : Keeps s₀ (runStart s) := by
  unfold runStart
  try dsimp only
  with_reducible
    repeat'
      first
      | assumption | apply State.refuseWrite_keeps | apply clearHostReset_keeps | apply State.unFirst_keeps
      | apply runAccepted_keeps | (apply Keeps.foldl; intro u a hu; try dsimp only) | apply Keeps.ite | split | intro _
      | refine Keeps.written rfl rfl rfl rfl rfl rfl rfl rfl ?_

theorem keepArm_keeps {s₀ : State} (s : State) (n : Nat) (slot : Nat) (h_s : Keeps s₀ s) : Keeps s₀ (keepArm s n slot) := by
  unfold keepArm
  try dsimp only
  with_reducible
    repeat'
      first
      | assumption | apply State.cntSat_keeps | (apply Keeps.foldl; intro u a hu; try dsimp only) | apply Keeps.ite
      | split | intro _ | refine Keeps.written rfl rfl rfl rfl rfl rfl rfl rfl ?_

theorem doorbellPoll_keeps {s₀ : State} (s : State) (h_s : Keeps s₀ s) : Keeps s₀ (doorbellPoll s) := by
  unfold doorbellPoll
  try dsimp only
  with_reducible
    repeat'
      first
      | assumption | apply State.emit_keeps | (apply Keeps.foldl; intro u a hu; try dsimp only) | apply Keeps.ite | split
      | intro _ | refine Keeps.written rfl rfl rfl rfl rfl rfl rfl rfl ?_

theorem pollRing_keeps {s₀ : State} (s : State) (r : Nat) (p : Nat) (h_s : Keeps s₀ s) : Keeps s₀ (pollRing s r p) := by
  unfold pollRing
  try dsimp only
  with_reducible
    repeat'
      first
      | assumption | apply State.setRing_keeps | apply State.cntSat_keeps | apply State.setRf_keeps
      | apply State.emit_keeps | (apply Keeps.foldl; intro u a hu; try dsimp only) | apply Keeps.ite | split | intro _
      | refine Keeps.written rfl rfl rfl rfl rfl rfl rfl rfl ?_

theorem pollReturn_keeps {s₀ : State} (s : State) (ok : Bool) (gen : Word) (prods : List (Nat × Nat)) (h_s : Keeps s₀ s)
    : Keeps s₀ (pollReturn s ok gen prods) := by
  unfold pollReturn
  try dsimp only
  with_reducible
    repeat'
      first
      | assumption | apply pollRing_keeps | (apply Keeps.foldl; intro u a hu; try dsimp only) | apply Keeps.ite | split
      | intro _ | refine Keeps.written rfl rfl rfl rfl rfl rfl rfl rfl ?_

theorem fetchFail_keeps {s₀ : State} (s : State) (r : Nat) (desc : Option (List Word)) (h_s : Keeps s₀ s)
    : Keeps s₀ (fetchFail s r desc) := by
  unfold fetchFail
  try dsimp only
  with_reducible
    repeat'
      first
      | assumption | apply State.setRing_keeps | apply refuseUnknown_keeps | apply State.cntSat_keeps
      | apply State.setRf_keeps | apply State.emit_keeps | (apply Keeps.foldl; intro u a hu; try dsimp only)
      | apply Keeps.ite | split | intro _ | refine Keeps.written rfl rfl rfl rfl rfl rfl rfl rfl ?_

theorem lapMiss_keeps {s₀ : State} (s : State) (r : Nat) (h_s : Keeps s₀ s) : Keeps s₀ (lapMiss s r) := by
  unfold lapMiss
  try dsimp only
  with_reducible
    repeat'
      first
      | assumption | apply State.setRing_keeps | apply State.cntSat_keeps | apply State.arrive_keeps
      | apply State.setRf_keeps | (apply Keeps.foldl; intro u a hu; try dsimp only) | apply Keeps.ite | split | intro _
      | refine Keeps.written rfl rfl rfl rfl rfl rfl rfl rfl ?_

theorem takeDesc_keeps {s₀ : State} (s : State) (r : Nat) (ws : List Word) (buf : List Word) (h_s : Keeps s₀ s)
    : Keeps s₀ (takeDesc s r ws buf) := by
  unfold takeDesc
  try dsimp only
  with_reducible
    repeat'
      first
      | assumption | apply State.setRing_keeps | apply State.cntWrap_keeps | apply refuseUnknown_keeps
      | apply State.setRf_keeps | apply State.emit_keeps | (apply Keeps.foldl; intro u a hu; try dsimp only)
      | apply Keeps.ite | split | intro _ | refine Keeps.written rfl rfl rfl rfl rfl rfl rfl rfl ?_

theorem fetchDone_keeps {s₀ : State} (s : State) (r : Nat) (desc : Option (List Word)) (buf : Option (List Word)) (h_s
    : Keeps s₀ s) : Keeps s₀ (fetchDone s r desc buf) := by
  unfold fetchDone
  try dsimp only
  with_reducible
    repeat'
      first
      | assumption | apply State.setRing_keeps | apply State.emit_keeps | apply fetchFail_keeps | apply takeDesc_keeps
      | apply lapMiss_keeps | (apply Keeps.foldl; intro u a hu; try dsimp only) | apply Keeps.ite | split | intro _
      | refine Keeps.written rfl rfl rfl rfl rfl rfl rfl rfl ?_

theorem hostPathReset_keeps {s₀ : State} (s : State) (h_s : Keeps s₀ s) : Keeps s₀ (hostPathReset s) := by
  refine h_s.trans ⟨rfl, le_refl _, fun h => ?_, id, id, id, id⟩
  exact cwf_rset 0x1004 2 (cwf_rset 0x1000 _ (cwf_filter _ _ h))

theorem msixMaskWrite_keeps {s₀ : State} (s : State) (en : Bool) (mask : Bool) (h_s : Keeps s₀ s)
    : Keeps s₀ (msixMaskWrite s en mask) := by
  unfold msixMaskWrite
  try dsimp only
  with_reducible
    repeat'
      first
      | assumption | (apply Keeps.foldl; intro u a hu; try dsimp only) | apply Keeps.ite | split | intro _
      | refine Keeps.written rfl rfl rfl rfl rfl rfl rfl rfl ?_

theorem pmeTurnOff_keeps {s₀ : State} (s : State) (h_s : Keeps s₀ s) : Keeps s₀ (pmeTurnOff s) := by
  unfold pmeTurnOff
  try dsimp only
  with_reducible
    repeat'
      first
      | assumption | apply State.emit_keeps | (apply Keeps.foldl; intro u a hu; try dsimp only) | apply Keeps.ite | split
      | intro _ | refine Keeps.written rfl rfl rfl rfl rfl rfl rfl rfl ?_

theorem suspension_keeps {s₀ : State} (s : State) (bme : Bool) (dstate : Nat) (lstate : Nat) (pci : PciCfg) (h_s
    : Keeps s₀ s) : Keeps s₀ (suspension s bme dstate lstate pci) := by
  unfold suspension
  try dsimp only
  with_reducible
    repeat'
      first
      | assumption | apply flushBacklog_keeps | apply resumeReads_keeps
      | (apply Keeps.foldl; intro u a hu; try dsimp only) | apply Keeps.ite | split | intro _
      | refine Keeps.written rfl rfl rfl rfl rfl rfl rfl rfl ?_

theorem telemetryPeriod_keeps {s₀ : State} (s : State) (i : Nat) (h_s : Keeps s₀ s) : Keeps s₀ (telemetryPeriod s i) := by
  unfold telemetryPeriod
  try dsimp only
  with_reducible
    repeat'
      first
      | assumption | apply State.setProd_keeps | apply publishLatest_keeps
      | (apply Keeps.foldl; intro u a hu; try dsimp only) | apply Keeps.ite | split | intro _
      | refine Keeps.written rfl rfl rfl rfl rfl rfl rfl rfl ?_

theorem reply_only {m : Nat} {s₀ : State} (hm : 564 ||| m = m) (s : State) (r : Nat) (c : Fetched) (y : Reply)
    (h_s : Only m s₀ s) : Only m s₀ (reply s r c y) := by
  unfold reply
  try dsimp only
  with_reducible
    repeat'
      first
      | assumption | exact mask_trans (by decide) hm | apply State.setRing_only | apply complete_only
      | (apply Only.foldl; intro u a hu; try dsimp only) | apply Only.ite | split | intro _

theorem refuseUnknown_only {m : Nat} {s₀ : State} (hm : 564 ||| m = m) (s : State) (r : Nat)
    (h_s : Only m s₀ s) : Only m s₀ (refuseUnknown s r) := by
  unfold refuseUnknown
  try dsimp only
  with_reducible
    repeat'
      first
      | assumption | exact mask_trans (by decide) hm | apply reply_only | (apply Only.foldl; intro u a hu; try dsimp only)
      | apply Only.ite | split | intro _

theorem finish_only {m : Nat} {s₀ : State} (hm : 564 ||| m = m) (s : State) (r : Nat) (c : Fetched) (y : Reply)
    (h_s : Only m s₀ s) : Only m s₀ (finish s r c y) := by
  unfold finish
  try dsimp only
  with_reducible
    repeat'
      first
      | assumption | exact mask_trans (by decide) hm | apply refuseUnknown_only | apply reply_only
      | (apply Only.foldl; intro u a hu; try dsimp only) | apply Only.ite | split | intro _

theorem ringCmd_only {m : Nat} {s₀ : State} (hm : 564 ||| m = m) (op : Nat) (r : Nat)
    (f : State → Fetched → Reply × State) (s : State) (hf : ∀ a0 a1, Only m s₀ a0 → Only m s₀ (f a0 a1).2)
    (h_s : Only m s₀ s) : Only m s₀ (ringCmd op r f s) := by
  unfold ringCmd
  try dsimp only
  with_reducible
    repeat'
      first
      | assumption | exact mask_trans (by decide) hm | apply hf | apply finish_only
      | (apply Only.foldl; intro u a hu; try dsimp only) | apply Only.ite | split | intro _

theorem msixTableWrite_only {m : Nat} {s₀ : State} (hm : 518 ||| m = m) (s : State) (addr : Nat) (size : Nat)
    (v : BitVec 64) (h_s : Only m s₀ s) : Only m s₀ (msixTableWrite s addr size v) := by
  unfold msixTableWrite
  try dsimp only
  with_reducible
    repeat'
      first
      | assumption | exact .inr (mask_bit hm (by decide)) | exact .inl rfl | exact mask_trans (by decide) hm
      | apply State.unFirst_only | apply State.setReg_only | (apply Only.foldl; intro u a hu; try dsimp only)
      | apply Only.ite | split | intro _
      | refine Only.written rfl ?_ ?_ ?_ ?_ ?_ ?_ ?_ ?_ ?_ ?_ ?_ ?_ ?_ ?_ ?_ ?_ ?_ ?_ ?_ ?_ ?_ ?_ ?_ ?_ ?_ ?_ ?_ ?_ ?_ ?_ ?_ ?_ ?_ ?_ ?_ ?_ ?_ ?_

theorem clearHostReset_only {m : Nat} {s₀ : State} (hm : 4 ||| m = m) (s : State)
    (h_s : Only m s₀ s) : Only m s₀ (clearHostReset s) := by
  unfold clearHostReset
  try dsimp only
  with_reducible
    repeat'
      first
      | assumption | exact mask_trans (by decide) hm | apply State.setRf_only
      | (apply Only.foldl; intro u a hu; try dsimp only) | apply Only.ite | split | intro _

theorem indicesZero_only {m : Nat} {s₀ : State} (hm : 4 ||| m = m) (s : State)
    (h_s : Only m s₀ s) : Only m s₀ (indicesZero s) := by
  unfold indicesZero
  try dsimp only
  with_reducible
    repeat'
      first
      | assumption | exact mask_trans (by decide) hm | apply State.setReg_only
      | (apply Only.foldl; intro u a hu; try dsimp only) | apply Only.ite | split | intro _

theorem runAccepted_only {m : Nat} {s₀ : State} (hm : 36 ||| m = m) (s : State)
    (h_s : Only m s₀ s) : Only m s₀ (runAccepted s) := by
  unfold runAccepted
  try dsimp only
  with_reducible
    repeat'
      first
      | assumption | exact .inr (mask_bit hm (by decide)) | exact .inl rfl | exact mask_trans (by decide) hm
      | apply tableCheckTake_only | apply State.setRf_only | apply indicesZero_only
      | (apply Only.foldl; intro u a hu; try dsimp only) | apply Only.ite | split | intro _
      | refine Only.written rfl ?_ ?_ ?_ ?_ ?_ ?_ ?_ ?_ ?_ ?_ ?_ ?_ ?_ ?_ ?_ ?_ ?_ ?_ ?_ ?_ ?_ ?_ ?_ ?_ ?_ ?_ ?_ ?_ ?_ ?_ ?_ ?_ ?_ ?_ ?_ ?_ ?_ ?_

theorem runStart_only {m : Nat} {s₀ : State} (hm : 38 ||| m = m) (s : State)
    (h_s : Only m s₀ s) : Only m s₀ (runStart s) := by
  unfold runStart
  try dsimp only
  with_reducible
    repeat'
      first
      | assumption | exact mask_trans (by decide) hm | apply State.refuseWrite_only | apply clearHostReset_only
      | apply State.unFirst_only | apply runAccepted_only | (apply Only.foldl; intro u a hu; try dsimp only)
      | apply Only.ite | split | intro _

theorem keepArm_only {m : Nat} {s₀ : State} (hm : 36 ||| m = m) (s : State) (n : Nat) (slot : Nat)
    (h_s : Only m s₀ s) : Only m s₀ (keepArm s n slot) := by
  unfold keepArm
  try dsimp only
  with_reducible
    repeat'
      first
      | assumption | exact .inr (mask_bit hm (by decide)) | exact .inl rfl | exact mask_trans (by decide) hm
      | apply State.cntSat_only | (apply Only.foldl; intro u a hu; try dsimp only) | apply Only.ite | split | intro _
      | refine Only.written rfl ?_ ?_ ?_ ?_ ?_ ?_ ?_ ?_ ?_ ?_ ?_ ?_ ?_ ?_ ?_ ?_ ?_ ?_ ?_ ?_ ?_ ?_ ?_ ?_ ?_ ?_ ?_ ?_ ?_ ?_ ?_ ?_ ?_ ?_ ?_ ?_ ?_ ?_

theorem doorbellPoll_only {m : Nat} {s₀ : State} (hm : 48 ||| m = m) (s : State)
    (h_s : Only m s₀ s) : Only m s₀ (doorbellPoll s) := by
  unfold doorbellPoll
  try dsimp only
  with_reducible
    repeat'
      first
      | assumption | exact .inr (mask_bit hm (by decide)) | exact .inl rfl | exact mask_trans (by decide) hm
      | apply State.emit_only | (apply Only.foldl; intro u a hu; try dsimp only) | apply Only.ite | split | intro _
      | refine Only.written rfl ?_ ?_ ?_ ?_ ?_ ?_ ?_ ?_ ?_ ?_ ?_ ?_ ?_ ?_ ?_ ?_ ?_ ?_ ?_ ?_ ?_ ?_ ?_ ?_ ?_ ?_ ?_ ?_ ?_ ?_ ?_ ?_ ?_ ?_ ?_ ?_ ?_ ?_

theorem pollRing_only {m : Nat} {s₀ : State} (hm : 52 ||| m = m) (s : State) (r : Nat) (p : Nat)
    (h_s : Only m s₀ s) : Only m s₀ (pollRing s r p) := by
  unfold pollRing
  try dsimp only
  with_reducible
    repeat'
      first
      | assumption | exact mask_trans (by decide) hm | apply State.setRing_only | apply State.cntSat_only
      | apply State.setRf_only | apply State.emit_only | (apply Only.foldl; intro u a hu; try dsimp only) | apply Only.ite
      | split | intro _

theorem pollReturn_only {m : Nat} {s₀ : State} (hm : 52 ||| m = m) (s : State) (ok : Bool) (gen : Word)
    (prods : List (Nat × Nat)) (h_s : Only m s₀ s) : Only m s₀ (pollReturn s ok gen prods) := by
  unfold pollReturn
  try dsimp only
  with_reducible
    repeat'
      first
      | assumption | exact .inr (mask_bit hm (by decide)) | exact .inl rfl | exact mask_trans (by decide) hm
      | apply pollRing_only | (apply Only.foldl; intro u a hu; try dsimp only) | apply Only.ite | split | intro _
      | refine Only.written rfl ?_ ?_ ?_ ?_ ?_ ?_ ?_ ?_ ?_ ?_ ?_ ?_ ?_ ?_ ?_ ?_ ?_ ?_ ?_ ?_ ?_ ?_ ?_ ?_ ?_ ?_ ?_ ?_ ?_ ?_ ?_ ?_ ?_ ?_ ?_ ?_ ?_ ?_

theorem fetchFail_only {m : Nat} {s₀ : State} (hm : 564 ||| m = m) (s : State) (r : Nat) (desc : Option (List Word))
    (h_s : Only m s₀ s) : Only m s₀ (fetchFail s r desc) := by
  unfold fetchFail
  try dsimp only
  with_reducible
    repeat'
      first
      | assumption | exact mask_trans (by decide) hm | apply State.setRing_only | apply refuseUnknown_only
      | apply State.cntSat_only | apply State.setRf_only | apply State.emit_only
      | (apply Only.foldl; intro u a hu; try dsimp only) | apply Only.ite | split | intro _

theorem lapMiss_only {m : Nat} {s₀ : State} (hm : 548 ||| m = m) (s : State) (r : Nat)
    (h_s : Only m s₀ s) : Only m s₀ (lapMiss s r) := by
  unfold lapMiss
  try dsimp only
  with_reducible
    repeat'
      first
      | assumption | exact mask_trans (by decide) hm | apply State.setRing_only | apply State.cntSat_only
      | apply State.arrive_only | apply State.setRf_only | (apply Only.foldl; intro u a hu; try dsimp only)
      | apply Only.ite | split | intro _

theorem takeDesc_only {m : Nat} {s₀ : State} (hm : 564 ||| m = m) (s : State) (r : Nat) (ws : List Word) (buf : List Word)
    (h_s : Only m s₀ s) : Only m s₀ (takeDesc s r ws buf) := by
  unfold takeDesc
  try dsimp only
  with_reducible
    repeat'
      first
      | assumption | exact mask_trans (by decide) hm | apply State.setRing_only | apply State.cntWrap_only
      | apply refuseUnknown_only | apply State.setRf_only | apply State.emit_only
      | (apply Only.foldl; intro u a hu; try dsimp only) | apply Only.ite | split | intro _

theorem fetchDone_only {m : Nat} {s₀ : State} (hm : 564 ||| m = m) (s : State) (r : Nat) (desc : Option (List Word))
    (buf : Option (List Word)) (h_s : Only m s₀ s) : Only m s₀ (fetchDone s r desc buf) := by
  unfold fetchDone
  try dsimp only
  with_reducible
    repeat'
      first
      | assumption | exact mask_trans (by decide) hm | apply State.setRing_only | apply State.emit_only
      | apply fetchFail_only | apply takeDesc_only | apply lapMiss_only | (apply Only.foldl; intro u a hu; try dsimp only)
      | apply Only.ite | split | intro _

theorem hostPathReset_only {m : Nat} {s₀ : State} (hm : 2147484196 ||| m = m) (s : State)
    (h_s : Only m s₀ s) : Only m s₀ (hostPathReset s) := by
  unfold hostPathReset
  try dsimp only
  with_reducible
    repeat'
      first
      | assumption | exact .inr (mask_bit hm (by decide)) | exact .inl rfl | exact mask_trans (by decide) hm
      | (apply Only.foldl; intro u a hu; try dsimp only) | apply Only.ite | split | intro _
      | refine Only.written rfl ?_ ?_ ?_ ?_ ?_ ?_ ?_ ?_ ?_ ?_ ?_ ?_ ?_ ?_ ?_ ?_ ?_ ?_ ?_ ?_ ?_ ?_ ?_ ?_ ?_ ?_ ?_ ?_ ?_ ?_ ?_ ?_ ?_ ?_ ?_ ?_ ?_ ?_

theorem msixMaskWrite_only {m : Nat} {s₀ : State} (hm : 512 ||| m = m) (s : State) (en : Bool) (mask : Bool)
    (h_s : Only m s₀ s) : Only m s₀ (msixMaskWrite s en mask) := by
  unfold msixMaskWrite
  try dsimp only
  with_reducible
    repeat'
      first
      | assumption | exact .inr (mask_bit hm (by decide)) | exact .inl rfl | exact mask_trans (by decide) hm
      | (apply Only.foldl; intro u a hu; try dsimp only) | apply Only.ite | split | intro _
      | refine Only.written rfl ?_ ?_ ?_ ?_ ?_ ?_ ?_ ?_ ?_ ?_ ?_ ?_ ?_ ?_ ?_ ?_ ?_ ?_ ?_ ?_ ?_ ?_ ?_ ?_ ?_ ?_ ?_ ?_ ?_ ?_ ?_ ?_ ?_ ?_ ?_ ?_ ?_ ?_

theorem pmeTurnOff_only {m : Nat} {s₀ : State} (hm : 16 ||| m = m) (s : State)
    (h_s : Only m s₀ s) : Only m s₀ (pmeTurnOff s) := by
  unfold pmeTurnOff
  try dsimp only
  with_reducible
    repeat'
      first
      | assumption | exact mask_trans (by decide) hm | apply State.emit_only
      | (apply Only.foldl; intro u a hu; try dsimp only) | apply Only.ite | split | intro _

theorem suspension_only {m : Nat} {s₀ : State} (hm : 692 ||| m = m) (s : State) (bme : Bool) (dstate : Nat) (lstate : Nat)
    (pci : PciCfg) (h_s : Only m s₀ s) : Only m s₀ (suspension s bme dstate lstate pci) := by
  unfold suspension
  try dsimp only
  with_reducible
    repeat'
      first
      | assumption | exact .inr (mask_bit hm (by decide)) | exact .inl rfl | exact mask_trans (by decide) hm
      | apply flushBacklog_only | apply resumeReads_only | (apply Only.foldl; intro u a hu; try dsimp only)
      | apply Only.ite | split | intro _
      | refine Only.written rfl ?_ ?_ ?_ ?_ ?_ ?_ ?_ ?_ ?_ ?_ ?_ ?_ ?_ ?_ ?_ ?_ ?_ ?_ ?_ ?_ ?_ ?_ ?_ ?_ ?_ ?_ ?_ ?_ ?_ ?_ ?_ ?_ ?_ ?_ ?_ ?_ ?_ ?_

theorem telemetryPeriod_only {m : Nat} {s₀ : State} (hm : 564 ||| m = m) (s : State) (i : Nat)
    (h_s : Only m s₀ s) : Only m s₀ (telemetryPeriod s i) := by
  unfold telemetryPeriod
  try dsimp only
  with_reducible
    repeat'
      first
      | assumption | exact mask_trans (by decide) hm | apply State.setProd_only | apply publishLatest_only
      | (apply Only.foldl; intro u a hu; try dsimp only) | apply Only.ite | split | intro _

end Sys2Proof.Machine
end

