-- ==== Sys2Proof/Laws/Power.lean ====
section
/-!
SUPPORT. Machine/Power.lean: every operation of it keeps what `Keeps` says, and changes only the parts of its mask.
-/
set_option linter.unusedTactic false
set_option linter.unreachableTactic false
set_option linter.unusedVariables false

namespace Sys2Proof.Machine

theorem State.setPwr_keeps {s₀ : State} (s : State) (p : Power) (h_s : Keeps s₀ s) : Keeps s₀ (State.setPwr s p) := by
  unfold State.setPwr
  try dsimp only
  with_reducible
    repeat'
      first
      | assumption | (apply Keeps.foldl; intro u a hu; try dsimp only) | apply Keeps.ite | split | intro _
      | refine Keeps.written rfl rfl rfl rfl rfl rfl rfl rfl ?_

theorem aonFallback_keeps {s₀ : State} (s : State) (h_s : Keeps s₀ s) : Keeps s₀ (aonFallback s) := by
  unfold aonFallback
  try dsimp only
  with_reducible
    repeat'
      first
      | assumption | apply State.setPwr_keeps | (apply Keeps.foldl; intro u a hu; try dsimp only) | apply Keeps.ite
      | split | intro _ | refine Keeps.written rfl rfl rfl rfl rfl rfl rfl rfl ?_

theorem latchSet_keeps {s₀ : State} (s : State) (l : Nat) (h_s : Keeps s₀ s) : Keeps s₀ (latchSet s l) := by
  unfold latchSet
  try dsimp only
  with_reducible
    repeat'
      first
      | assumption | apply State.setPwr_keeps | (apply Keeps.foldl; intro u a hu; try dsimp only) | apply Keeps.ite
      | split | intro _ | refine Keeps.written rfl rfl rfl rfl rfl rfl rfl rfl ?_

theorem wakeLatch_keeps {s₀ : State} (s : State) (l : Nat) (h_s : Keeps s₀ s) : Keeps s₀ (wakeLatch s l) := by
  unfold wakeLatch
  try dsimp only
  with_reducible
    repeat'
      first
      | assumption | apply latchSet_keeps | (apply Keeps.foldl; intro u a hu; try dsimp only) | apply Keeps.ite | split
      | intro _ | refine Keeps.written rfl rfl rfl rfl rfl rfl rfl rfl ?_

theorem aonTimer_keeps {s₀ : State} (s : State) (h_s : Keeps s₀ s) : Keeps s₀ (aonTimer s) := by
  unfold aonTimer
  try dsimp only
  with_reducible
    repeat'
      first
      | assumption | apply wakeLatch_keeps | (apply Keeps.foldl; intro u a hu; try dsimp only) | apply Keeps.ite | split
      | intro _ | refine Keeps.written rfl rfl rfl rfl rfl rfl rfl rfl ?_

theorem duskBegin_keeps {s₀ : State} (s : State) (r : Option Nat) (h_s : Keeps s₀ s) : Keeps s₀ (duskBegin s r) := by
  unfold duskBegin
  try dsimp only
  with_reducible
    repeat'
      first
      | assumption | apply State.setPwr_keeps | (apply Keeps.foldl; intro u a hu; try dsimp only) | apply Keeps.ite
      | split | intro _ | refine Keeps.written rfl rfl rfl rfl rfl rfl rfl rfl ?_

theorem duskReq_keeps {s₀ : State} (s : State) (h_s : Keeps s₀ s) : Keeps s₀ (duskReq s) := by
  unfold duskReq
  try dsimp only
  with_reducible
    repeat'
      first
      | assumption | apply duskBegin_keeps | (apply Keeps.foldl; intro u a hu; try dsimp only) | apply Keeps.ite | split
      | intro _ | refine Keeps.written rfl rfl rfl rfl rfl rfl rfl rfl ?_

theorem pllAsk_keeps {s₀ : State} (s : State) (r : Option Nat) (h_s : Keeps s₀ s) : Keeps s₀ (pllAsk s r) := by
  unfold pllAsk
  try dsimp only
  with_reducible
    repeat'
      first
      | assumption | apply State.setPwr_keeps | (apply Keeps.foldl; intro u a hu; try dsimp only) | apply Keeps.ite
      | split | intro _ | refine Keeps.written rfl rfl rfl rfl rfl rfl rfl rfl ?_

theorem bridgeAtSwitch_keeps {s₀ : State} (s : State) (h_s : Keeps s₀ s) : Keeps s₀ (bridgeAtSwitch s) := by
  unfold bridgeAtSwitch
  try dsimp only
  with_reducible
    repeat'
      first
      | assumption | apply State.setReg_keeps | apply State.setPwr_keeps
      | (apply Keeps.foldl; intro u a hu; try dsimp only) | apply Keeps.ite | split | intro _
      | refine Keeps.written rfl rfl rfl rfl rfl rfl rfl rfl ?_

theorem deviceReset_keeps {s₀ : State} (s : State) (keep : Bool) (bit : Nat) (h_s : Keeps s₀ s)
    : Keeps s₀ (deviceReset s keep bit) := by
  refine h_s.trans ?_
  have base : ∀ z : State, z.pending = s.pending → z.clk.now = s.clk.now → z.clk.since = s.clk.now → z.regs = [] →
      z.mem = memAfter s.mem keep → z.glb.first = false → z.glb.refused = 0 → Keeps s z := by
    intro z h1 h2 h3 h4 h5 h6 h7
    exact ⟨h1, h2.ge, fun _ => by rw [h4]; rfl, fun h => by rw [h5]; exact cwf_filter _ _ h, fun _ => by rw [h2, h3],
      fun _ _ => h6, fun _ => by rw [h7]; exact Nat.zero_le _⟩
  unfold deviceReset
  dsimp only
  split
  · exact State.setRf_keeps _ _ _ _ _ (base _ rfl rfl rfl rfl rfl rfl rfl)
  · exact base _ rfl rfl rfl rfl rfl rfl rfl

theorem clockTo_keeps {s₀ : State} (s : State) (pll : Bool) (h_s : Keeps s₀ s) : Keeps s₀ (clockTo s pll) :=
  h_s.trans ⟨rfl, le_refl _, id, id, fun _ => le_refl _, id, id⟩

theorem pllReply_keeps {s₀ : State} (s : State) (r : Option Nat) (y : Reply) (h_s : Keeps s₀ s)
    : Keeps s₀ (pllReply s r y) := by
  unfold pllReply
  try dsimp only
  with_reducible
    repeat'
      first
      | assumption | apply finish_keeps | (apply Keeps.foldl; intro u a hu; try dsimp only) | apply Keeps.ite | split
      | intro _ | refine Keeps.written rfl rfl rfl rfl rfl rfl rfl rfl ?_

theorem clockSwitch_keeps {s₀ : State} (s : State) (h_s : Keeps s₀ s) : Keeps s₀ (clockSwitch s) := by
  unfold clockSwitch
  try dsimp only
  with_reducible
    repeat'
      first
      | assumption | apply bridgeAtSwitch_keeps | apply State.setPwr_keeps | apply masterQual_keeps
      | apply reelReview_keeps | apply pllReply_keeps | apply clockTo_keeps | apply setQual_keeps
      | (apply Keeps.foldl; intro u a hu; try dsimp only) | apply Keeps.ite | split | intro _
      | refine Keeps.written rfl rfl rfl rfl rfl rfl rfl rfl ?_

theorem countRefusal_keeps {s₀ : State} (s : State) (id : Nat) (h_s : Keeps s₀ s) : Keeps s₀ (countRefusal s id) := by
  unfold countRefusal
  try dsimp only
  with_reducible
    repeat'
      first
      | assumption | apply State.cntSat_keeps | apply State.setRf_keeps
      | (apply Keeps.foldl; intro u a hu; try dsimp only) | apply Keeps.ite | split | intro _
      | refine Keeps.written rfl rfl rfl rfl rfl rfl rfl rfl ?_

theorem pwrSet_keeps {s₀ : State} (s : State) (w : List Word) (h_s : Keeps s₀ s) : Keeps s₀ (pwrSet s w).2 := by
  unfold pwrSet
  try dsimp only
  with_reducible
    repeat'
      first
      | assumption | apply State.configChanged_keeps | apply State.setReg_keeps | apply State.setRf_keeps
      | (apply Keeps.foldl; intro u a hu; try dsimp only) | apply Keeps.ite | split | intro _
      | refine Keeps.written rfl rfl rfl rfl rfl rfl rfl rfl ?_

theorem reelResume_keeps {s₀ : State} (s : State) (h_s : Keeps s₀ s) : Keeps s₀ (reelResume s) := by
  unfold reelResume
  try dsimp only
  with_reducible
    repeat'
      first
      | assumption | apply State.setReel_keeps | (apply Keeps.foldl; intro u a hu; try dsimp only) | apply Keeps.ite
      | split | intro _ | refine Keeps.written rfl rfl rfl rfl rfl rfl rfl rfl ?_

theorem timerResume_keeps {s₀ : State} (s : State) (k : Nat) (h_s : Keeps s₀ s) : Keeps s₀ (timerResume s k) := by
  unfold timerResume
  try dsimp only
  with_reducible
    repeat'
      first
      | assumption | apply State.setConv_keeps | (apply Keeps.foldl; intro u a hu; try dsimp only) | apply Keeps.ite
      | split | intro _ | refine Keeps.written rfl rfl rfl rfl rfl rfl rfl rfl ?_

theorem unitResume_keeps {s₀ : State} (s : State) (u : Nat) (h_s : Keeps s₀ s) : Keeps s₀ (unitResume s u) := by
  unfold unitResume
  try dsimp only
  with_reducible
    repeat'
      first
      | assumption | apply resumeDomain_keeps | (apply Keeps.foldl; intro u a hu; try dsimp only) | apply Keeps.ite
      | split | intro _ | refine Keeps.written rfl rfl rfl rfl rfl rfl rfl rfl ?_

theorem wardenResume_keeps {s₀ : State} (s : State) (h_s : Keeps s₀ s) : Keeps s₀ (wardenResume s) := by
  unfold wardenResume
  try dsimp only
  with_reducible
    repeat'
      first
      | assumption | (apply Keeps.foldl; intro u a hu; try dsimp only) | apply Keeps.ite | split | intro _
      | refine Keeps.written rfl rfl rfl rfl rfl rfl rfl rfl ?_

theorem latchArrivals_keeps {s₀ : State} (s : State) (h_s : Keeps s₀ s) : Keeps s₀ (latchArrivals s) := by
  unfold latchArrivals
  try dsimp only
  with_reducible
    repeat'
      first
      | assumption | apply State.setPwr_keeps | apply State.arrive_keeps
      | (apply Keeps.foldl; intro u a hu; try dsimp only) | apply Keeps.ite | split | intro _
      | refine Keeps.written rfl rfl rfl rfl rfl rfl rfl rfl ?_

theorem duskReply_keeps {s₀ : State} (s : State) (y : Reply) (h_s : Keeps s₀ s) : Keeps s₀ (duskReply s y) := by
  unfold duskReply
  try dsimp only
  with_reducible
    repeat'
      first
      | assumption | apply State.setPwr_keeps | apply finish_keeps | (apply Keeps.foldl; intro u a hu; try dsimp only)
      | apply Keeps.ite | split | intro _ | refine Keeps.written rfl rfl rfl rfl rfl rfl rfl rfl ?_

theorem duskAbort_keeps {s₀ : State} (s : State) (i : Nat) (h_s : Keeps s₀ s) : Keeps s₀ (duskAbort s i) := by
  unfold duskAbort
  try dsimp only
  with_reducible
    repeat'
      first
      | assumption | apply latchArrivals_keeps | apply countRefusal_keeps | apply State.setPwr_keeps
      | apply wardenResume_keeps | apply State.arrive_keeps | apply timerResume_keeps | apply reelResume_keeps
      | apply unitResume_keeps | apply duskReply_keeps | (apply Keeps.foldl; intro u a hu; try dsimp only)
      | apply Keeps.ite | split | intro _ | refine Keeps.written rfl rfl rfl rfl rfl rfl rfl rfl ?_

theorem duskCountFrom_keeps {s₀ : State} (s : State) (d : Nat) (h_s : Keeps s₀ s) : Keeps s₀ (duskCountFrom s d) := by
  unfold duskCountFrom
  try dsimp only
  with_reducible
    repeat'
      first
      | assumption | apply State.setDom_keeps | (apply Keeps.foldl; intro u a hu; try dsimp only) | apply Keeps.ite
      | split | intro _ | refine Keeps.written rfl rfl rfl rfl rfl rfl rfl rfl ?_

theorem duskReplay_keeps {s₀ : State} (s : State) (h_s : Keeps s₀ s) : Keeps s₀ (duskReplay s) := by
  unfold duskReplay
  try dsimp only
  with_reducible
    repeat'
      first
      | assumption | apply countRefusal_keeps | apply State.setPwr_keeps
      | (apply Keeps.foldl; intro u a hu; try dsimp only) | apply Keeps.ite | split | intro _
      | refine Keeps.written rfl rfl rfl rfl rfl rfl rfl rfl ?_

theorem duskCommit_keeps {s₀ : State} (s : State) (h_s : Keeps s₀ s) : Keeps s₀ (duskCommit s) := by
  unfold duskCommit
  try dsimp only
  with_reducible
    repeat'
      first
      | assumption | apply duskCountFrom_keeps | apply reelHoldBegin_keeps | apply State.setPwr_keeps
      | apply State.cntSat_keeps | apply State.setRf_keeps | apply duskReplay_keeps | apply linkSleep_keeps
      | apply clockTo_keeps | (apply Keeps.foldl; intro u a hu; try dsimp only) | apply Keeps.ite | split | intro _
      | refine Keeps.written rfl rfl rfl rfl rfl rfl rfl rfl ?_

theorem duskEdge_keeps {s₀ : State} (s : State) (d : Nat) (dir : Option Bool) (h_s : Keeps s₀ s)
    : Keeps s₀ (duskEdge s d dir) := by
  unfold duskEdge
  try dsimp only
  with_reducible
    repeat'
      first
      | assumption | apply State.setDom_keeps | (apply Keeps.foldl; intro u a hu; try dsimp only) | apply Keeps.ite
      | split | intro _ | refine Keeps.written rfl rfl rfl rfl rfl rfl rfl rfl ?_

theorem duskEnter_keeps {s₀ : State} (r : Nat) (s : State) (h_s : Keeps s₀ s) : Keeps s₀ (duskEnter r s) := by
  unfold duskEnter
  try dsimp only
  with_reducible
    repeat'
      first
      | assumption | apply duskBegin_keeps | apply finish_keeps | (apply Keeps.foldl; intro u a hu; try dsimp only)
      | apply Keeps.ite | split | intro _ | refine Keeps.written rfl rfl rfl rfl rfl rfl rfl rfl ?_

theorem duskToothEdge_keeps {s₀ : State} (s : State) (d : Nat) (ts : Nat) (lv : Int) (dir : Option Bool) (h_s
    : Keeps s₀ s) : Keeps s₀ (duskToothEdge s d ts lv dir) := by
  unfold duskToothEdge
  try dsimp only
  with_reducible
    repeat'
      first
      | assumption | apply State.setDom_keeps | apply duskEdge_keeps | apply latchSet_keeps
      | (apply Keeps.foldl; intro u a hu; try dsimp only) | apply Keeps.ite | split | intro _
      | refine Keeps.written rfl rfl rfl rfl rfl rfl rfl rfl ?_

theorem unparkAll_keeps {s₀ : State} (s : State) (h_s : Keeps s₀ s) : Keeps s₀ (unparkAll s) := by
  unfold unparkAll
  try dsimp only
  with_reducible
    repeat'
      first
      | assumption | apply State.setX_keeps | apply noteOwner_keeps | (apply Keeps.foldl; intro u a hu; try dsimp only)
      | apply Keeps.ite | split | intro _ | refine Keeps.written rfl rfl rfl rfl rfl rfl rfl rfl ?_

theorem voterAgrees_keeps {s₀ : State} (s : State) (i : Nat) (h_s : Keeps s₀ s) : Keeps s₀ (voterAgrees s i) := by
  unfold voterAgrees
  try dsimp only
  with_reducible
    repeat'
      first
      | assumption | apply State.setPwr_keeps | apply adcQuiesce_keeps | apply unparkAll_keeps | apply duskReply_keeps
      | (apply Keeps.foldl; intro u a hu; try dsimp only) | apply Keeps.ite | split | intro _
      | refine Keeps.written rfl rfl rfl rfl rfl rfl rfl rfl ?_

theorem duskVote_keeps {s₀ : State} (s : State) (h_s : Keeps s₀ s) : Keeps s₀ (duskVote s) := by
  unfold duskVote
  try dsimp only
  with_reducible
    repeat'
      first
      | assumption | apply State.setPwr_keeps | apply voterAgrees_keeps | apply duskAbort_keeps
      | (apply Keeps.foldl; intro u a hu; try dsimp only) | apply Keeps.ite | split | intro _
      | refine Keeps.written rfl rfl rfl rfl rfl rfl rfl rfl ?_

theorem perstReset_keeps {s₀ : State} (s : State) (h_s : Keeps s₀ s) : Keeps s₀ (perstReset s) := by
  unfold perstReset
  try dsimp only
  with_reducible
    repeat'
      first
      | assumption | apply hostPathReset_keeps | apply deviceReset_keeps
      | (apply Keeps.foldl; intro u a hu; try dsimp only) | apply Keeps.ite | split | intro _
      | refine Keeps.written rfl rfl rfl rfl rfl rfl rfl rfl ?_

theorem pinReset_keeps {s₀ : State} (s : State) (width : Nat) (h_s : Keeps s₀ s) : Keeps s₀ (pinReset s width) := by
  unfold pinReset
  try dsimp only
  with_reducible
    repeat'
      first
      | assumption | apply deviceReset_keeps | (apply Keeps.foldl; intro u a hu; try dsimp only) | apply Keeps.ite | split
      | intro _ | refine Keeps.written rfl rfl rfl rfl rfl rfl rfl rfl ?_

theorem pllLock_keeps {s₀ : State} (s : State) (h_s : Keeps s₀ s) : Keeps s₀ (pllLock s) := by
  unfold pllLock
  try dsimp only
  with_reducible
    repeat'
      first
      | assumption | apply State.setRf_keeps | (apply Keeps.foldl; intro u a hu; try dsimp only) | apply Keeps.ite | split
      | intro _ | refine Keeps.written rfl rfl rfl rfl rfl rfl rfl rfl ?_

theorem pllLockLoss_keeps {s₀ : State} (s : State) (h_s : Keeps s₀ s) : Keeps s₀ (pllLockLoss s) := by
  unfold pllLockLoss
  try dsimp only
  with_reducible
    repeat'
      first
      | assumption | apply State.setRf_keeps | apply fatalNow_keeps | apply setQual_keeps | apply clockTo_keeps
      | (apply Keeps.foldl; intro u a hu; try dsimp only) | apply Keeps.ite | split | intro _
      | refine Keeps.written rfl rfl rfl rfl rfl rfl rfl rfl ?_

theorem pllSwitch_keeps {s₀ : State} (r : Nat) (s : State) (h_s : Keeps s₀ s) : Keeps s₀ (pllSwitch r s) := by
  unfold pllSwitch
  try dsimp only
  with_reducible
    repeat'
      first
      | assumption | apply State.setPwr_keeps | apply finish_keeps | apply pllAsk_keeps
      | (apply Keeps.foldl; intro u a hu; try dsimp only) | apply Keeps.ite | split | intro _
      | refine Keeps.written rfl rfl rfl rfl rfl rfl rfl rfl ?_

theorem pllTimeout_keeps {s₀ : State} (s : State) (h_s : Keeps s₀ s) : Keeps s₀ (pllTimeout s) := by
  unfold pllTimeout
  try dsimp only
  with_reducible
    repeat'
      first
      | assumption | apply State.setPwr_keeps | apply pllReply_keeps | (apply Keeps.foldl; intro u a hu; try dsimp only)
      | apply Keeps.ite | split | intro _ | refine Keeps.written rfl rfl rfl rfl rfl rfl rfl rfl ?_

theorem powerOnReset_keeps {s₀ : State} (s : State) (h_s : Keeps s₀ s) : Keeps s₀ (powerOnReset s) := by
  unfold powerOnReset
  try dsimp only
  with_reducible
    repeat'
      first
      | assumption | apply deviceReset_keeps | (apply Keeps.foldl; intro u a hu; try dsimp only) | apply Keeps.ite | split
      | intro _ | refine Keeps.written rfl rfl rfl rfl rfl rfl rfl rfl ?_

theorem resetRelease_keeps {s₀ : State} (s : State) (h_s : Keeps s₀ s) : Keeps s₀ (resetRelease s) := by
  unfold resetRelease
  split
  · exact h_s.trans ⟨rfl, le_refl _, id, id, fun _ => le_refl _, id, id⟩
  · exact h_s

theorem xfrTimersStart_keeps {s₀ : State} (s : State) (h_s : Keeps s₀ s) : Keeps s₀ (xfrTimersStart s) := by
  unfold xfrTimersStart
  try dsimp only
  with_reducible
    repeat'
      first
      | assumption | (apply Keeps.foldl; intro u a hu; try dsimp only) | apply Keeps.ite | split | intro _
      | refine Keeps.written rfl rfl rfl rfl rfl rfl rfl rfl ?_

theorem restoreBlocks_keeps {s₀ : State} (s : State) (h_s : Keeps s₀ s) : Keeps s₀ (restoreBlocks s) := by
  unfold restoreBlocks
  try dsimp only
  with_reducible
    repeat'
      first
      | assumption | apply State.irqReview_keeps | apply xfrTimersStart_keeps | apply State.setUnit_keeps
      | apply modesAtReset_keeps | apply State.setV_keeps | apply adcStart_keeps | apply vlkFresh_keeps
      | (apply Keeps.foldl; intro u a hu; try dsimp only) | apply Keeps.ite | split | intro _
      | refine Keeps.written rfl rfl rfl rfl rfl rfl rfl rfl ?_

theorem restoreDone_keeps {s₀ : State} (s : State) (h_s : Keeps s₀ s) : Keeps s₀ (restoreDone s) := by
  unfold restoreDone
  try dsimp only
  with_reducible
    repeat'
      first
      | assumption | apply restoreBlocks_keeps | apply progressNote_keeps | apply restore_keeps
      | (apply Keeps.foldl; intro u a hu; try dsimp only) | apply Keeps.ite | split | intro _
      | refine Keeps.written rfl rfl rfl rfl rfl rfl rfl rfl ?_

theorem supplyReset_keeps {s₀ : State} (s : State) (h_s : Keeps s₀ s) : Keeps s₀ (supplyReset s) := by
  unfold supplyReset
  try dsimp only
  with_reducible
    repeat'
      first
      | assumption | apply deviceReset_keeps | (apply Keeps.foldl; intro u a hu; try dsimp only) | apply Keeps.ite | split
      | intro _ | refine Keeps.written rfl rfl rfl rfl rfl rfl rfl rfl ?_

theorem wakeIrq_keeps {s₀ : State} (s : State) (l : Nat) (h_s : Keeps s₀ s) : Keeps s₀ (wakeIrq s l) := by
  unfold wakeIrq
  try dsimp only
  with_reducible
    repeat'
      first
      | assumption | apply State.irqReview_keeps | apply State.setPwr_keeps
      | (apply Keeps.foldl; intro u a hu; try dsimp only) | apply Keeps.ite | split | intro _
      | refine Keeps.written rfl rfl rfl rfl rfl rfl rfl rfl ?_

theorem wakeMech_keeps {s₀ : State} (s : State) (d : Nat) (h_s : Keeps s₀ s) : Keeps s₀ (wakeMech s d) := by
  unfold wakeMech
  try dsimp only
  with_reducible
    repeat'
      first
      | assumption | apply State.setDom_keeps | apply setAngle_keeps | apply setSync_keeps
      | (apply Keeps.foldl; intro u a hu; try dsimp only) | apply Keeps.ite | split | intro _
      | refine Keeps.written rfl rfl rfl rfl rfl rfl rfl rfl ?_

theorem wakeWins_keeps {s₀ : State} (s : State) (h_s : Keeps s₀ s) : Keeps s₀ (wakeWins s) := by
  unfold wakeWins
  try dsimp only
  with_reducible
    repeat'
      first
      | assumption | apply State.setCell_keeps | (apply Keeps.foldl; intro u a hu; try dsimp only) | apply Keeps.ite
      | split | intro _ | refine Keeps.written rfl rfl rfl rfl rfl rfl rfl rfl ?_

theorem wakeQueues_keeps {s₀ : State} (s : State) (h_s : Keeps s₀ s) : Keeps s₀ (wakeQueues s) := by
  unfold wakeQueues
  try dsimp only
  with_reducible
    repeat'
      first
      | assumption | apply xfrTimersStart_keeps | apply State.setQ_keeps | apply State.setX_keeps
      | (apply Keeps.foldl; intro u a hu; try dsimp only) | apply Keeps.ite | split | intro _
      | refine Keeps.written rfl rfl rfl rfl rfl rfl rfl rfl ?_

theorem wakeAdc_keeps {s₀ : State} (s : State) (k : Nat) (h_s : Keeps s₀ s) : Keeps s₀ (wakeAdc s k) := by
  unfold wakeAdc
  try dsimp only
  with_reducible
    repeat'
      first
      | assumption | apply adcQuiesce_keeps | apply adcStart_keeps | (apply Keeps.foldl; intro u a hu; try dsimp only)
      | apply Keeps.ite | split | intro _ | refine Keeps.written rfl rfl rfl rfl rfl rfl rfl rfl ?_

theorem wakeBlocks_keeps {s₀ : State} (s : State) (l : Nat) (h_s : Keeps s₀ s) : Keeps s₀ (wakeBlocks s l) := by
  unfold wakeBlocks
  try dsimp only
  with_reducible
    repeat'
      first
      | assumption | apply hostPathReset_keeps | apply State.setUnit_keeps | apply State.setReel_keeps
      | apply wardenResume_keeps | apply uncoverAll_keeps | apply wakeQueues_keeps | apply reelReview_keeps
      | apply wakeMech_keeps | apply wakeWins_keeps | apply wakeIrq_keeps | apply wakeAdc_keeps | apply toNone_keeps
      | (apply Keeps.foldl; intro u a hu; try dsimp only) | apply Keeps.ite | split | intro _
      | refine Keeps.written rfl rfl rfl rfl rfl rfl rfl rfl ?_

theorem wakeTime_keeps {s₀ : State} (s : State) (n : Nat) (h_s : Keeps s₀ s) : Keeps s₀ (wakeTime s n) := by
  unfold wakeTime
  exact setQual_keeps _ _ (State.setReg_keeps _ _ _ (State.setReg_keeps _ _ _ (State.setReg_keeps _ _ _ (State.setPwr_keeps _ _
    (h_s.trans ⟨rfl, le_refl _, id, id, fun _ => le_refl _, id, id⟩)))))

theorem wakeUp_keeps {s₀ : State} (s : State) (l : Nat) (n : Nat) (h_s : Keeps s₀ s) : Keeps s₀ (wakeUp s l n) := by
  unfold wakeUp
  try dsimp only
  with_reducible
    repeat'
      first
      | assumption | apply State.setPwr_keeps | apply State.cntSat_keeps | apply State.arrive_keeps
      | apply State.setRf_keeps | apply wakeBlocks_keeps | apply wakeTime_keeps
      | (apply Keeps.foldl; intro u a hu; try dsimp only) | apply Keeps.ite | split | intro _
      | refine Keeps.written rfl rfl rfl rfl rfl rfl rfl rfl ?_

theorem wake_keeps {s₀ : State} (s : State) (l : Nat) (n : Nat) (eccErr : Bool) (h_s : Keeps s₀ s)
    : Keeps s₀ (wake s l n eccErr) := by
  unfold wake
  try dsimp only
  with_reducible
    repeat'
      first
      | assumption | apply State.setRf_keeps | apply deviceReset_keeps | apply reflNotice_keeps | apply wakeUp_keeps
      | (apply Keeps.foldl; intro u a hu; try dsimp only) | apply Keeps.ite | split | intro _
      | refine Keeps.written rfl rfl rfl rfl rfl rfl rfl rfl ?_

theorem State.setPwr_only {m : Nat} {s₀ : State} (hm : 2147483648 ||| m = m) (s : State) (p : Power)
    (h_s : Only m s₀ s) : Only m s₀ (State.setPwr s p) := by
  unfold State.setPwr
  try dsimp only
  with_reducible
    repeat'
      first
      | assumption | exact .inr (mask_bit hm (by decide)) | exact .inl rfl | exact mask_trans (by decide) hm
      | (apply Only.foldl; intro u a hu; try dsimp only) | apply Only.ite | split | intro _
      | refine Only.written rfl ?_ ?_ ?_ ?_ ?_ ?_ ?_ ?_ ?_ ?_ ?_ ?_ ?_ ?_ ?_ ?_ ?_ ?_ ?_ ?_ ?_ ?_ ?_ ?_ ?_ ?_ ?_ ?_ ?_ ?_ ?_ ?_ ?_ ?_ ?_ ?_ ?_ ?_

theorem aonFallback_only {m : Nat} {s₀ : State} (hm : 2147483648 ||| m = m) (s : State)
    (h_s : Only m s₀ s) : Only m s₀ (aonFallback s) := by
  unfold aonFallback
  try dsimp only
  with_reducible
    repeat'
      first
      | assumption | exact mask_trans (by decide) hm | apply State.setPwr_only
      | (apply Only.foldl; intro u a hu; try dsimp only) | apply Only.ite | split | intro _

theorem latchSet_only {m : Nat} {s₀ : State} (hm : 2147483648 ||| m = m) (s : State) (l : Nat)
    (h_s : Only m s₀ s) : Only m s₀ (latchSet s l) := by
  unfold latchSet
  try dsimp only
  with_reducible
    repeat'
      first
      | assumption | exact mask_trans (by decide) hm | apply State.setPwr_only
      | (apply Only.foldl; intro u a hu; try dsimp only) | apply Only.ite | split | intro _

theorem wakeLatch_only {m : Nat} {s₀ : State} (hm : 2147483648 ||| m = m) (s : State) (l : Nat)
    (h_s : Only m s₀ s) : Only m s₀ (wakeLatch s l) := by
  unfold wakeLatch
  try dsimp only
  with_reducible
    repeat'
      first
      | assumption | exact mask_trans (by decide) hm | apply latchSet_only
      | (apply Only.foldl; intro u a hu; try dsimp only) | apply Only.ite | split | intro _

theorem aonTimer_only {m : Nat} {s₀ : State} (hm : 2147483648 ||| m = m) (s : State)
    (h_s : Only m s₀ s) : Only m s₀ (aonTimer s) := by
  unfold aonTimer
  try dsimp only
  with_reducible
    repeat'
      first
      | assumption | exact mask_trans (by decide) hm | apply wakeLatch_only
      | (apply Only.foldl; intro u a hu; try dsimp only) | apply Only.ite | split | intro _

theorem duskBegin_only {m : Nat} {s₀ : State} (hm : 2147483648 ||| m = m) (s : State) (r : Option Nat)
    (h_s : Only m s₀ s) : Only m s₀ (duskBegin s r) := by
  unfold duskBegin
  try dsimp only
  with_reducible
    repeat'
      first
      | assumption | exact mask_trans (by decide) hm | apply State.setPwr_only
      | (apply Only.foldl; intro u a hu; try dsimp only) | apply Only.ite | split | intro _

theorem duskReq_only {m : Nat} {s₀ : State} (hm : 2147483648 ||| m = m) (s : State)
    (h_s : Only m s₀ s) : Only m s₀ (duskReq s) := by
  unfold duskReq
  try dsimp only
  with_reducible
    repeat'
      first
      | assumption | exact mask_trans (by decide) hm | apply duskBegin_only
      | (apply Only.foldl; intro u a hu; try dsimp only) | apply Only.ite | split | intro _

theorem pllAsk_only {m : Nat} {s₀ : State} (hm : 2147483648 ||| m = m) (s : State) (r : Option Nat)
    (h_s : Only m s₀ s) : Only m s₀ (pllAsk s r) := by
  unfold pllAsk
  try dsimp only
  with_reducible
    repeat'
      first
      | assumption | exact mask_trans (by decide) hm | apply State.setPwr_only
      | (apply Only.foldl; intro u a hu; try dsimp only) | apply Only.ite | split | intro _

theorem bridgeAtSwitch_only {m : Nat} {s₀ : State} (hm : 2147483652 ||| m = m) (s : State)
    (h_s : Only m s₀ s) : Only m s₀ (bridgeAtSwitch s) := by
  unfold bridgeAtSwitch
  try dsimp only
  with_reducible
    repeat'
      first
      | assumption | exact mask_trans (by decide) hm | apply State.setReg_only | apply State.setPwr_only
      | (apply Only.foldl; intro u a hu; try dsimp only) | apply Only.ite | split | intro _

theorem deviceReset_only {m : Nat} {s₀ : State} (hm : 137438953455 ||| m = m) (s : State) (keep : Bool) (bit : Nat)
    (h_s : Only m s₀ s) : Only m s₀ (deviceReset s keep bit) := by
  unfold deviceReset
  try dsimp only
  with_reducible
    repeat'
      first
      | assumption | exact .inr (mask_bit hm (by decide)) | exact .inl rfl | exact mask_trans (by decide) hm
      | apply State.setRf_only | (apply Only.foldl; intro u a hu; try dsimp only) | apply Only.ite | split | intro _
      | refine Only.written rfl ?_ ?_ ?_ ?_ ?_ ?_ ?_ ?_ ?_ ?_ ?_ ?_ ?_ ?_ ?_ ?_ ?_ ?_ ?_ ?_ ?_ ?_ ?_ ?_ ?_ ?_ ?_ ?_ ?_ ?_ ?_ ?_ ?_ ?_ ?_ ?_ ?_ ?_

theorem clockTo_only {m : Nat} {s₀ : State} (hm : 1 ||| m = m) (s : State) (pll : Bool)
    (h_s : Only m s₀ s) : Only m s₀ (clockTo s pll) := by
  unfold clockTo
  try dsimp only
  with_reducible
    repeat'
      first
      | assumption | exact .inr (mask_bit hm (by decide)) | exact .inl rfl | exact mask_trans (by decide) hm
      | (apply Only.foldl; intro u a hu; try dsimp only) | apply Only.ite | split | intro _
      | refine Only.written rfl ?_ ?_ ?_ ?_ ?_ ?_ ?_ ?_ ?_ ?_ ?_ ?_ ?_ ?_ ?_ ?_ ?_ ?_ ?_ ?_ ?_ ?_ ?_ ?_ ?_ ?_ ?_ ?_ ?_ ?_ ?_ ?_ ?_ ?_ ?_ ?_ ?_ ?_

theorem pllReply_only {m : Nat} {s₀ : State} (hm : 564 ||| m = m) (s : State) (r : Option Nat) (y : Reply)
    (h_s : Only m s₀ s) : Only m s₀ (pllReply s r y) := by
  unfold pllReply
  try dsimp only
  with_reducible
    repeat'
      first
      | assumption | exact mask_trans (by decide) hm | apply finish_only
      | (apply Only.foldl; intro u a hu; try dsimp only) | apply Only.ite | split | intro _

theorem clockSwitch_only {m : Nat} {s₀ : State} (hm : 106415128573 ||| m = m) (s : State)
    (h_s : Only m s₀ s) : Only m s₀ (clockSwitch s) := by
  unfold clockSwitch
  try dsimp only
  with_reducible
    repeat'
      first
      | assumption | exact mask_trans (by decide) hm | apply bridgeAtSwitch_only | apply State.setPwr_only
      | apply masterQual_only | apply reelReview_only | apply pllReply_only | apply clockTo_only | apply setQual_only
      | (apply Only.foldl; intro u a hu; try dsimp only) | apply Only.ite | split | intro _

theorem countRefusal_only {m : Nat} {s₀ : State} (hm : 4 ||| m = m) (s : State) (id : Nat)
    (h_s : Only m s₀ s) : Only m s₀ (countRefusal s id) := by
  unfold countRefusal
  try dsimp only
  with_reducible
    repeat'
      first
      | assumption | exact mask_trans (by decide) hm | apply State.cntSat_only | apply State.setRf_only
      | (apply Only.foldl; intro u a hu; try dsimp only) | apply Only.ite | split | intro _

theorem pwrSet_only {m : Nat} {s₀ : State} (hm : 6 ||| m = m) (s : State) (w : List Word)
    (h_s : Only m s₀ s) : Only m s₀ (pwrSet s w).2 := by
  unfold pwrSet
  try dsimp only
  with_reducible
    repeat'
      first
      | assumption | exact mask_trans (by decide) hm | apply State.configChanged_only | apply State.setReg_only
      | apply State.setRf_only | (apply Only.foldl; intro u a hu; try dsimp only) | apply Only.ite | split | intro _

theorem reelResume_only {m : Nat} {s₀ : State} (hm : 1024 ||| m = m) (s : State)
    (h_s : Only m s₀ s) : Only m s₀ (reelResume s) := by
  unfold reelResume
  try dsimp only
  with_reducible
    repeat'
      first
      | assumption | exact mask_trans (by decide) hm | apply State.setReel_only
      | (apply Only.foldl; intro u a hu; try dsimp only) | apply Only.ite | split | intro _

theorem timerResume_only {m : Nat} {s₀ : State} (hm : 262144 ||| m = m) (s : State) (k : Nat)
    (h_s : Only m s₀ s) : Only m s₀ (timerResume s k) := by
  unfold timerResume
  try dsimp only
  with_reducible
    repeat'
      first
      | assumption | exact mask_trans (by decide) hm | apply State.setConv_only
      | (apply Only.foldl; intro u a hu; try dsimp only) | apply Only.ite | split | intro _

theorem unitResume_only {m : Nat} {s₀ : State} (hm : 104221391868 ||| m = m) (s : State) (u : Nat)
    (h_s : Only m s₀ s) : Only m s₀ (unitResume s u) := by
  unfold unitResume
  try dsimp only
  with_reducible
    repeat'
      first
      | assumption | exact mask_trans (by decide) hm | apply resumeDomain_only
      | (apply Only.foldl; intro u a hu; try dsimp only) | apply Only.ite | split | intro _

theorem wardenResume_only {m : Nat} {s₀ : State} (hm : 201326592 ||| m = m) (s : State)
    (h_s : Only m s₀ s) : Only m s₀ (wardenResume s) := by
  unfold wardenResume
  try dsimp only
  with_reducible
    repeat'
      first
      | assumption | exact .inr (mask_bit hm (by decide)) | exact .inl rfl | exact mask_trans (by decide) hm
      | (apply Only.foldl; intro u a hu; try dsimp only) | apply Only.ite | split | intro _
      | refine Only.written rfl ?_ ?_ ?_ ?_ ?_ ?_ ?_ ?_ ?_ ?_ ?_ ?_ ?_ ?_ ?_ ?_ ?_ ?_ ?_ ?_ ?_ ?_ ?_ ?_ ?_ ?_ ?_ ?_ ?_ ?_ ?_ ?_ ?_ ?_ ?_ ?_ ?_ ?_

theorem latchArrivals_only {m : Nat} {s₀ : State} (hm : 2147484192 ||| m = m) (s : State)
    (h_s : Only m s₀ s) : Only m s₀ (latchArrivals s) := by
  unfold latchArrivals
  try dsimp only
  with_reducible
    repeat'
      first
      | assumption | exact mask_trans (by decide) hm | apply State.setPwr_only | apply State.arrive_only
      | (apply Only.foldl; intro u a hu; try dsimp only) | apply Only.ite | split | intro _

theorem duskReply_only {m : Nat} {s₀ : State} (hm : 2147484212 ||| m = m) (s : State) (y : Reply)
    (h_s : Only m s₀ s) : Only m s₀ (duskReply s y) := by
  unfold duskReply
  try dsimp only
  with_reducible
    repeat'
      first
      | assumption | exact mask_trans (by decide) hm | apply State.setPwr_only | apply finish_only
      | (apply Only.foldl; intro u a hu; try dsimp only) | apply Only.ite | split | intro _

theorem duskAbort_only {m : Nat} {s₀ : State} (hm : 106503094268 ||| m = m) (s : State) (i : Nat)
    (h_s : Only m s₀ s) : Only m s₀ (duskAbort s i) := by
  unfold duskAbort
  try dsimp only
  with_reducible
    repeat'
      first
      | assumption | exact mask_trans (by decide) hm | apply latchArrivals_only | apply countRefusal_only
      | apply State.setPwr_only | apply wardenResume_only | apply State.arrive_only | apply timerResume_only
      | apply reelResume_only | apply unitResume_only | apply duskReply_only
      | (apply Only.foldl; intro u a hu; try dsimp only) | apply Only.ite | split | intro _

theorem duskCountFrom_only {m : Nat} {s₀ : State} (hm : 32768 ||| m = m) (s : State) (d : Nat)
    (h_s : Only m s₀ s) : Only m s₀ (duskCountFrom s d) := by
  unfold duskCountFrom
  try dsimp only
  with_reducible
    repeat'
      first
      | assumption | exact mask_trans (by decide) hm | apply State.setDom_only
      | (apply Only.foldl; intro u a hu; try dsimp only) | apply Only.ite | split | intro _

theorem duskReplay_only {m : Nat} {s₀ : State} (hm : 2147483652 ||| m = m) (s : State)
    (h_s : Only m s₀ s) : Only m s₀ (duskReplay s) := by
  unfold duskReplay
  try dsimp only
  with_reducible
    repeat'
      first
      | assumption | exact mask_trans (by decide) hm | apply countRefusal_only | apply State.setPwr_only
      | (apply Only.foldl; intro u a hu; try dsimp only) | apply Only.ite | split | intro _

theorem duskCommit_only {m : Nat} {s₀ : State} (hm : 2415952917 ||| m = m) (s : State)
    (h_s : Only m s₀ s) : Only m s₀ (duskCommit s) := by
  unfold duskCommit
  try dsimp only
  with_reducible
    repeat'
      first
      | assumption | exact mask_trans (by decide) hm | apply duskCountFrom_only | apply reelHoldBegin_only
      | apply State.setPwr_only | apply State.cntSat_only | apply State.setRf_only | apply duskReplay_only
      | apply linkSleep_only | apply clockTo_only | (apply Only.foldl; intro u a hu; try dsimp only) | apply Only.ite
      | split | intro _

theorem duskEdge_only {m : Nat} {s₀ : State} (hm : 32768 ||| m = m) (s : State) (d : Nat) (dir : Option Bool)
    (h_s : Only m s₀ s) : Only m s₀ (duskEdge s d dir) := by
  unfold duskEdge
  try dsimp only
  with_reducible
    repeat'
      first
      | assumption | exact mask_trans (by decide) hm | apply State.setDom_only
      | (apply Only.foldl; intro u a hu; try dsimp only) | apply Only.ite | split | intro _

theorem duskEnter_only {m : Nat} {s₀ : State} (hm : 2147484212 ||| m = m) (r : Nat) (s : State)
    (h_s : Only m s₀ s) : Only m s₀ (duskEnter r s) := by
  unfold duskEnter
  try dsimp only
  with_reducible
    repeat'
      first
      | assumption | exact mask_trans (by decide) hm | apply duskBegin_only | apply finish_only
      | (apply Only.foldl; intro u a hu; try dsimp only) | apply Only.ite | split | intro _

theorem duskToothEdge_only {m : Nat} {s₀ : State} (hm : 2147516416 ||| m = m) (s : State) (d : Nat) (ts : Nat) (lv : Int)
    (dir : Option Bool) (h_s : Only m s₀ s) : Only m s₀ (duskToothEdge s d ts lv dir) := by
  unfold duskToothEdge
  try dsimp only
  with_reducible
    repeat'
      first
      | assumption | exact mask_trans (by decide) hm | apply State.setDom_only | apply duskEdge_only | apply latchSet_only
      | (apply Only.foldl; intro u a hu; try dsimp only) | apply Only.ite | split | intro _

theorem unparkAll_only {m : Nat} {s₀ : State} (hm : 384 ||| m = m) (s : State)
    (h_s : Only m s₀ s) : Only m s₀ (unparkAll s) := by
  unfold unparkAll
  try dsimp only
  with_reducible
    repeat'
      first
      | assumption | exact mask_trans (by decide) hm | apply State.setX_only | apply noteOwner_only
      | (apply Only.foldl; intro u a hu; try dsimp only) | apply Only.ite | split | intro _

theorem voterAgrees_only {m : Nat} {s₀ : State} (hm : 2147746740 ||| m = m) (s : State) (i : Nat)
    (h_s : Only m s₀ s) : Only m s₀ (voterAgrees s i) := by
  unfold voterAgrees
  try dsimp only
  with_reducible
    repeat'
      first
      | assumption | exact mask_trans (by decide) hm | apply State.setPwr_only | apply adcQuiesce_only
      | apply unparkAll_only | apply duskReply_only | (apply Only.foldl; intro u a hu; try dsimp only) | apply Only.ite
      | split | intro _

theorem duskVote_only {m : Nat} {s₀ : State} (hm : 106503094268 ||| m = m) (s : State)
    (h_s : Only m s₀ s) : Only m s₀ (duskVote s) := by
  unfold duskVote
  try dsimp only
  with_reducible
    repeat'
      first
      | assumption | exact mask_trans (by decide) hm | apply State.setPwr_only | apply voterAgrees_only
      | apply duskAbort_only | (apply Only.foldl; intro u a hu; try dsimp only) | apply Only.ite | split | intro _

theorem perstReset_only {m : Nat} {s₀ : State} (hm : 137438953455 ||| m = m) (s : State)
    (h_s : Only m s₀ s) : Only m s₀ (perstReset s) := by
  unfold perstReset
  try dsimp only
  with_reducible
    repeat'
      first
      | assumption | exact mask_trans (by decide) hm | apply hostPathReset_only | apply deviceReset_only
      | (apply Only.foldl; intro u a hu; try dsimp only) | apply Only.ite | split | intro _

theorem pinReset_only {m : Nat} {s₀ : State} (hm : 137438953455 ||| m = m) (s : State) (width : Nat)
    (h_s : Only m s₀ s) : Only m s₀ (pinReset s width) := by
  unfold pinReset
  try dsimp only
  with_reducible
    repeat'
      first
      | assumption | exact .inr (mask_bit hm (by decide)) | exact .inl rfl | exact mask_trans (by decide) hm
      | apply deviceReset_only | (apply Only.foldl; intro u a hu; try dsimp only) | apply Only.ite | split | intro _
      | refine Only.written rfl ?_ ?_ ?_ ?_ ?_ ?_ ?_ ?_ ?_ ?_ ?_ ?_ ?_ ?_ ?_ ?_ ?_ ?_ ?_ ?_ ?_ ?_ ?_ ?_ ?_ ?_ ?_ ?_ ?_ ?_ ?_ ?_ ?_ ?_ ?_ ?_ ?_ ?_

theorem pllLock_only {m : Nat} {s₀ : State} (hm : 4 ||| m = m) (s : State) (h_s : Only m s₀ s) : Only m s₀ (pllLock s) := by
  unfold pllLock
  try dsimp only
  with_reducible
    repeat'
      first
      | assumption | exact mask_trans (by decide) hm | apply State.setRf_only
      | (apply Only.foldl; intro u a hu; try dsimp only) | apply Only.ite | split | intro _

theorem pllLockLoss_only {m : Nat} {s₀ : State} (hm : 106683564031 ||| m = m) (s : State)
    (h_s : Only m s₀ s) : Only m s₀ (pllLockLoss s) := by
  unfold pllLockLoss
  try dsimp only
  with_reducible
    repeat'
      first
      | assumption | exact mask_trans (by decide) hm | apply State.setRf_only | apply fatalNow_only | apply setQual_only
      | apply clockTo_only | (apply Only.foldl; intro u a hu; try dsimp only) | apply Only.ite | split | intro _

theorem pllSwitch_only {m : Nat} {s₀ : State} (hm : 2147484212 ||| m = m) (r : Nat) (s : State)
    (h_s : Only m s₀ s) : Only m s₀ (pllSwitch r s) := by
  unfold pllSwitch
  try dsimp only
  with_reducible
    repeat'
      first
      | assumption | exact mask_trans (by decide) hm | apply State.setPwr_only | apply finish_only | apply pllAsk_only
      | (apply Only.foldl; intro u a hu; try dsimp only) | apply Only.ite | split | intro _

theorem pllTimeout_only {m : Nat} {s₀ : State} (hm : 2147484212 ||| m = m) (s : State)
    (h_s : Only m s₀ s) : Only m s₀ (pllTimeout s) := by
  unfold pllTimeout
  try dsimp only
  with_reducible
    repeat'
      first
      | assumption | exact mask_trans (by decide) hm | apply State.setPwr_only | apply pllReply_only
      | (apply Only.foldl; intro u a hu; try dsimp only) | apply Only.ite | split | intro _

theorem powerOnReset_only {m : Nat} {s₀ : State} (hm : 137438953455 ||| m = m) (s : State)
    (h_s : Only m s₀ s) : Only m s₀ (powerOnReset s) := by
  unfold powerOnReset
  try dsimp only
  with_reducible
    repeat'
      first
      | assumption | exact mask_trans (by decide) hm | apply deviceReset_only
      | (apply Only.foldl; intro u a hu; try dsimp only) | apply Only.ite | split | intro _

theorem resetRelease_only {m : Nat} {s₀ : State} (hm : 2147483649 ||| m = m) (s : State)
    (h_s : Only m s₀ s) : Only m s₀ (resetRelease s) := by
  unfold resetRelease
  try dsimp only
  with_reducible
    repeat'
      first
      | assumption | exact .inr (mask_bit hm (by decide)) | exact .inl rfl | exact mask_trans (by decide) hm
      | (apply Only.foldl; intro u a hu; try dsimp only) | apply Only.ite | split | intro _
      | refine Only.written rfl ?_ ?_ ?_ ?_ ?_ ?_ ?_ ?_ ?_ ?_ ?_ ?_ ?_ ?_ ?_ ?_ ?_ ?_ ?_ ?_ ?_ ?_ ?_ ?_ ?_ ?_ ?_ ?_ ?_ ?_ ?_ ?_ ?_ ?_ ?_ ?_ ?_ ?_

theorem xfrTimersStart_only {m : Nat} {s₀ : State} (hm : 128 ||| m = m) (s : State)
    (h_s : Only m s₀ s) : Only m s₀ (xfrTimersStart s) := by
  unfold xfrTimersStart
  try dsimp only
  with_reducible
    repeat'
      first
      | assumption | exact .inr (mask_bit hm (by decide)) | exact .inl rfl | exact mask_trans (by decide) hm
      | (apply Only.foldl; intro u a hu; try dsimp only) | apply Only.ite | split | intro _
      | refine Only.written rfl ?_ ?_ ?_ ?_ ?_ ?_ ?_ ?_ ?_ ?_ ?_ ?_ ?_ ?_ ?_ ?_ ?_ ?_ ?_ ?_ ?_ ?_ ?_ ?_ ?_ ?_ ?_ ?_ ?_ ?_ ?_ ?_ ?_ ?_ ?_ ?_ ?_ ?_

theorem restoreBlocks_only {m : Nat} {s₀ : State} (hm : 104536080383 ||| m = m) (s : State)
    (h_s : Only m s₀ s) : Only m s₀ (restoreBlocks s) := by
  unfold restoreBlocks
  try dsimp only
  with_reducible
    repeat'
      first
      | assumption | exact .inr (mask_bit hm (by decide)) | exact .inl rfl | exact mask_trans (by decide) hm
      | apply State.irqReview_only | apply xfrTimersStart_only | apply State.setUnit_only | apply modesAtReset_only
      | apply State.setV_only | apply adcStart_only | apply vlkFresh_only
      | (apply Only.foldl; intro u a hu; try dsimp only) | apply Only.ite | split | intro _
      | refine Only.written rfl ?_ ?_ ?_ ?_ ?_ ?_ ?_ ?_ ?_ ?_ ?_ ?_ ?_ ?_ ?_ ?_ ?_ ?_ ?_ ?_ ?_ ?_ ?_ ?_ ?_ ?_ ?_ ?_ ?_ ?_ ?_ ?_ ?_ ?_ ?_ ?_ ?_ ?_

theorem restoreDone_only {m : Nat} {s₀ : State} (hm : 104536080383 ||| m = m) (s : State)
    (h_s : Only m s₀ s) : Only m s₀ (restoreDone s) := by
  unfold restoreDone
  try dsimp only
  with_reducible
    repeat'
      first
      | assumption | exact mask_trans (by decide) hm | apply restoreBlocks_only | apply progressNote_only
      | apply restore_only | (apply Only.foldl; intro u a hu; try dsimp only) | apply Only.ite | split | intro _

theorem supplyReset_only {m : Nat} {s₀ : State} (hm : 137438953455 ||| m = m) (s : State)
    (h_s : Only m s₀ s) : Only m s₀ (supplyReset s) := by
  unfold supplyReset
  try dsimp only
  with_reducible
    repeat'
      first
      | assumption | exact mask_trans (by decide) hm | apply deviceReset_only
      | (apply Only.foldl; intro u a hu; try dsimp only) | apply Only.ite | split | intro _

theorem wakeIrq_only {m : Nat} {s₀ : State} (hm : 2147484160 ||| m = m) (s : State) (l : Nat)
    (h_s : Only m s₀ s) : Only m s₀ (wakeIrq s l) := by
  unfold wakeIrq
  try dsimp only
  with_reducible
    repeat'
      first
      | assumption | exact .inr (mask_bit hm (by decide)) | exact .inl rfl | exact mask_trans (by decide) hm
      | apply State.irqReview_only | apply State.setPwr_only | (apply Only.foldl; intro u a hu; try dsimp only)
      | apply Only.ite | split | intro _
      | refine Only.written rfl ?_ ?_ ?_ ?_ ?_ ?_ ?_ ?_ ?_ ?_ ?_ ?_ ?_ ?_ ?_ ?_ ?_ ?_ ?_ ?_ ?_ ?_ ?_ ?_ ?_ ?_ ?_ ?_ ?_ ?_ ?_ ?_ ?_ ?_ ?_ ?_ ?_ ?_

theorem wakeMech_only {m : Nat} {s₀ : State} (hm : 68766989300 ||| m = m) (s : State) (d : Nat)
    (h_s : Only m s₀ s) : Only m s₀ (wakeMech s d) := by
  unfold wakeMech
  try dsimp only
  with_reducible
    repeat'
      first
      | assumption | exact .inr (mask_bit hm (by decide)) | exact .inl rfl | exact mask_trans (by decide) hm
      | apply State.setDom_only | apply setAngle_only | apply setSync_only
      | (apply Only.foldl; intro u a hu; try dsimp only) | apply Only.ite | split | intro _
      | refine Only.written rfl ?_ ?_ ?_ ?_ ?_ ?_ ?_ ?_ ?_ ?_ ?_ ?_ ?_ ?_ ?_ ?_ ?_ ?_ ?_ ?_ ?_ ?_ ?_ ?_ ?_ ?_ ?_ ?_ ?_ ?_ ?_ ?_ ?_ ?_ ?_ ?_ ?_ ?_

theorem wakeWins_only {m : Nat} {s₀ : State} (hm : 1050624 ||| m = m) (s : State)
    (h_s : Only m s₀ s) : Only m s₀ (wakeWins s) := by
  unfold wakeWins
  try dsimp only
  with_reducible
    repeat'
      first
      | assumption | exact .inr (mask_bit hm (by decide)) | exact .inl rfl | exact mask_trans (by decide) hm
      | apply State.setCell_only | (apply Only.foldl; intro u a hu; try dsimp only) | apply Only.ite | split | intro _
      | refine Only.written rfl ?_ ?_ ?_ ?_ ?_ ?_ ?_ ?_ ?_ ?_ ?_ ?_ ?_ ?_ ?_ ?_ ?_ ?_ ?_ ?_ ?_ ?_ ?_ ?_ ?_ ?_ ?_ ?_ ?_ ?_ ?_ ?_ ?_ ?_ ?_ ?_ ?_ ?_

theorem wakeQueues_only {m : Nat} {s₀ : State} (hm : 448 ||| m = m) (s : State)
    (h_s : Only m s₀ s) : Only m s₀ (wakeQueues s) := by
  unfold wakeQueues
  try dsimp only
  with_reducible
    repeat'
      first
      | assumption | exact .inr (mask_bit hm (by decide)) | exact .inl rfl | exact mask_trans (by decide) hm
      | apply xfrTimersStart_only | apply State.setQ_only | apply State.setX_only
      | (apply Only.foldl; intro u a hu; try dsimp only) | apply Only.ite | split | intro _
      | refine Only.written rfl ?_ ?_ ?_ ?_ ?_ ?_ ?_ ?_ ?_ ?_ ?_ ?_ ?_ ?_ ?_ ?_ ?_ ?_ ?_ ?_ ?_ ?_ ?_ ?_ ?_ ?_ ?_ ?_ ?_ ?_ ?_ ?_ ?_ ?_ ?_ ?_ ?_ ?_

theorem wakeAdc_only {m : Nat} {s₀ : State} (hm : 262144 ||| m = m) (s : State) (k : Nat)
    (h_s : Only m s₀ s) : Only m s₀ (wakeAdc s k) := by
  unfold wakeAdc
  try dsimp only
  with_reducible
    repeat'
      first
      | assumption | exact mask_trans (by decide) hm | apply adcQuiesce_only | apply adcStart_only
      | (apply Only.foldl; intro u a hu; try dsimp only) | apply Only.ite | split | intro _

theorem wakeBlocks_only {m : Nat} {s₀ : State} (hm : 71117963252 ||| m = m) (s : State) (l : Nat)
    (h_s : Only m s₀ s) : Only m s₀ (wakeBlocks s l) := by
  unfold wakeBlocks
  try dsimp only
  with_reducible
    repeat'
      first
      | assumption | exact .inr (mask_bit hm (by decide)) | exact .inl rfl | exact mask_trans (by decide) hm
      | apply hostPathReset_only | apply State.setUnit_only | apply State.setReel_only | apply wardenResume_only
      | apply uncoverAll_only | apply wakeQueues_only | apply reelReview_only | apply wakeMech_only | apply wakeWins_only
      | apply wakeIrq_only | apply wakeAdc_only | apply toNone_only | (apply Only.foldl; intro u a hu; try dsimp only)
      | apply Only.ite | split | intro _
      | refine Only.written rfl ?_ ?_ ?_ ?_ ?_ ?_ ?_ ?_ ?_ ?_ ?_ ?_ ?_ ?_ ?_ ?_ ?_ ?_ ?_ ?_ ?_ ?_ ?_ ?_ ?_ ?_ ?_ ?_ ?_ ?_ ?_ ?_ ?_ ?_ ?_ ?_ ?_ ?_

theorem wakeTime_only {m : Nat} {s₀ : State} (hm : 106415128573 ||| m = m) (s : State) (n : Nat)
    (h_s : Only m s₀ s) : Only m s₀ (wakeTime s n) := by
  unfold wakeTime
  try dsimp only
  with_reducible
    repeat'
      first
      | assumption | exact .inr (mask_bit hm (by decide)) | exact .inl rfl | exact mask_trans (by decide) hm
      | apply State.setPwr_only | apply State.setReg_only | apply setQual_only
      | (apply Only.foldl; intro u a hu; try dsimp only) | apply Only.ite | split | intro _
      | refine Only.written rfl ?_ ?_ ?_ ?_ ?_ ?_ ?_ ?_ ?_ ?_ ?_ ?_ ?_ ?_ ?_ ?_ ?_ ?_ ?_ ?_ ?_ ?_ ?_ ?_ ?_ ?_ ?_ ?_ ?_ ?_ ?_ ?_ ?_ ?_ ?_ ?_ ?_ ?_

theorem wakeUp_only {m : Nat} {s₀ : State} (hm : 106551443453 ||| m = m) (s : State) (l : Nat) (n : Nat)
    (h_s : Only m s₀ s) : Only m s₀ (wakeUp s l n) := by
  unfold wakeUp
  try dsimp only
  with_reducible
    repeat'
      first
      | assumption | exact mask_trans (by decide) hm | apply State.setPwr_only | apply State.cntSat_only
      | apply State.arrive_only | apply State.setRf_only | apply wakeBlocks_only | apply wakeTime_only
      | (apply Only.foldl; intro u a hu; try dsimp only) | apply Only.ite | split | intro _

theorem wake_only {m : Nat} {s₀ : State} (hm : 137438953471 ||| m = m) (s : State) (l : Nat) (n : Nat) (eccErr : Bool)
    (h_s : Only m s₀ s) : Only m s₀ (wake s l n eccErr) := by
  unfold wake
  try dsimp only
  with_reducible
    repeat'
      first
      | assumption | exact mask_trans (by decide) hm | apply State.setRf_only | apply deviceReset_only
      | apply reflNotice_only | apply wakeUp_only | (apply Only.foldl; intro u a hu; try dsimp only) | apply Only.ite
      | split | intro _

end Sys2Proof.Machine
end

