-- ==== Sys2Proof/Laws/Bar2.lean ====
section
/-!
SUPPORT. Machine/Bar2.lean: every operation of it keeps what `Keeps` says, and changes only the parts of its mask.
-/
set_option linter.unusedTactic false
set_option linter.unreachableTactic false
set_option linter.unusedVariables false

namespace Sys2Proof.Machine

theorem storeWords_keeps {s₀ : State} (s : State) (l : List (Nat × Word)) (h_s : Keeps s₀ s)
    : Keeps s₀ (storeWords s l) := by
  unfold storeWords
  try dsimp only
  with_reducible
    repeat'
      first
      | assumption | apply State.putWords_keeps | (apply Keeps.foldl; intro u a hu; try dsimp only) | apply Keeps.ite
      | split | intro _ | refine Keeps.written rfl rfl rfl rfl rfl rfl rfl rfl ?_

theorem balStore_keeps {s₀ : State} (s : State) (l : List (Nat × Word)) (h_s : Keeps s₀ s) : Keeps s₀ (balStore s l) := by
  unfold balStore
  try dsimp only
  with_reducible
    repeat'
      first
      | assumption | apply State.configChanged_keeps | apply storeWords_keeps | apply balClear_keeps
      | apply tlmUndef_keeps | (apply Keeps.foldl; intro u a hu; try dsimp only) | apply Keeps.ite | split | intro _
      | refine Keeps.written rfl rfl rfl rfl rfl rfl rfl rfl ?_

theorem balWrite_keeps {s₀ : State} (s : State) (l : List (Nat × Word)) (h_s : Keeps s₀ s) : Keeps s₀ (balWrite s l) := by
  unfold balWrite
  try dsimp only
  with_reducible
    repeat'
      first
      | assumption | apply State.cntSat_keeps | apply balStore_keeps | (apply Keeps.foldl; intro u a hu; try dsimp only)
      | apply Keeps.ite | split | intro _ | refine Keeps.written rfl rfl rfl rfl rfl rfl rfl rfl ?_

theorem eventWrite_keeps {s₀ : State} (s : State) (n : Nat) (slot : Nat) (l : List (Nat × Word)) (h_s : Keeps s₀ s)
    : Keeps s₀ (eventWrite s n slot l) := by
  unfold eventWrite
  try dsimp only
  with_reducible
    repeat'
      first
      | assumption | apply State.configChanged_keeps | apply State.setUnit_keeps
      | (apply Keeps.foldl; intro u a hu; try dsimp only) | apply Keeps.ite | split | intro _
      | refine Keeps.written rfl rfl rfl rfl rfl rfl rfl rfl ?_

theorem profileWordWrite_keeps {s₀ : State} (s : State) (l : List (Nat × Word)) (c : Nat) (h_s : Keeps s₀ s)
    : Keeps s₀ (profileWordWrite s l c) := by
  unfold profileWordWrite
  try dsimp only
  with_reducible
    repeat'
      first
      | assumption | apply State.configChanged_keeps | apply State.cntSat_keeps | apply storeWords_keeps
      | (apply Keeps.foldl; intro u a hu; try dsimp only) | apply Keeps.ite | split | intro _
      | refine Keeps.written rfl rfl rfl rfl rfl rfl rfl rfl ?_

theorem toothWrite_keeps {s₀ : State} (s : State) (l : List (Nat × Word)) (d : Nat) (h_s : Keeps s₀ s)
    : Keeps s₀ (toothWrite s l d) := by
  unfold toothWrite
  try dsimp only
  with_reducible
    repeat'
      first
      | assumption | apply State.configChanged_keeps | apply State.cntSat_keeps | apply storeWords_keeps
      | (apply Keeps.foldl; intro u a hu; try dsimp only) | apply Keeps.ite | split | intro _
      | refine Keeps.written rfl rfl rfl rfl rfl rfl rfl rfl ?_

theorem wheelWrite_keeps {s₀ : State} (s : State) (l : List (Nat × Word)) (d : Nat) (o : Nat) (h_s : Keeps s₀ s)
    : Keeps s₀ (wheelWrite s l d o) := by
  unfold wheelWrite
  try dsimp only
  with_reducible
    repeat'
      first
      | assumption | apply State.configChanged_keeps | apply profileTouched_keeps | apply toothWrite_keeps
      | apply storeWords_keeps | (apply Keeps.foldl; intro u a hu; try dsimp only) | apply Keeps.ite | split | intro _
      | refine Keeps.written rfl rfl rfl rfl rfl rfl rfl rfl ?_

theorem sideStore_keeps {s₀ : State} (s : State) (l : List (Nat × Word)) (h_s : Keeps s₀ s) : Keeps s₀ (sideStore s l) := by
  unfold sideStore
  try dsimp only
  with_reducible
    repeat'
      first
      | assumption | apply storeWords_keeps | (apply Keeps.foldl; intro u a hu; try dsimp only) | apply Keeps.ite | split
      | intro _ | refine Keeps.written rfl rfl rfl rfl rfl rfl rfl rfl ?_

theorem modelWrite_keeps {s₀ : State} (s : State) (l : List (Nat × Word)) (o : Nat) (h_s : Keeps s₀ s)
    : Keeps s₀ (modelWrite s l o) := by
  unfold modelWrite
  try dsimp only
  with_reducible
    repeat'
      first
      | assumption | apply State.configChanged_keeps | apply sideStore_keeps
      | (apply Keeps.foldl; intro u a hu; try dsimp only) | apply Keeps.ite | split | intro _
      | refine Keeps.written rfl rfl rfl rfl rfl rfl rfl rfl ?_

theorem imemWrite_keeps {s₀ : State} (s : State) (l : List (Nat × Word)) (h_s : Keeps s₀ s) : Keeps s₀ (imemWrite s l) := by
  unfold imemWrite
  try dsimp only
  with_reducible
    repeat'
      first
      | assumption | apply State.configChanged_keeps | apply State.reelTurn_keeps | apply reelImemWord_keeps
      | (apply Keeps.foldl; intro u a hu; try dsimp only) | apply Keeps.ite | split | intro _
      | refine Keeps.written rfl rfl rfl rfl rfl rfl rfl rfl ?_

theorem bar2Store_keeps {s₀ : State} (s : State) (a : Nat) (l : List (Nat × Word)) (h_s : Keeps s₀ s)
    : Keeps s₀ (bar2Store s a l) := by
  unfold bar2Store
  try dsimp only
  with_reducible
    repeat'
      first
      | assumption | apply State.configChanged_keeps | apply profileWordWrite_keeps | apply eventWrite_keeps
      | apply wheelWrite_keeps | apply modelWrite_keeps | apply storeWords_keeps | apply imemWrite_keeps
      | apply balWrite_keeps | (apply Keeps.foldl; intro u a hu; try dsimp only) | apply Keeps.ite | split | intro _
      | refine Keeps.written rfl rfl rfl rfl rfl rfl rfl rfl ?_

theorem bar2Write_keeps {s₀ : State} (s : State) (a : Nat) (size : Nat) (v : BitVec 64) (h_s : Keeps s₀ s)
    : Keeps s₀ (bar2Write s a size v) := by
  unfold bar2Write
  try dsimp only
  with_reducible
    repeat'
      first
      | assumption | apply State.refuseWrite_keeps | apply State.unFirst_keeps | apply bar2Store_keeps
      | (apply Keeps.foldl; intro u a hu; try dsimp only) | apply Keeps.ite | split | intro _
      | refine Keeps.written rfl rfl rfl rfl rfl rfl rfl rfl ?_

theorem storeWords_only {m : Nat} {s₀ : State} (hm : 8 ||| m = m) (s : State) (l : List (Nat × Word))
    (h_s : Only m s₀ s) : Only m s₀ (storeWords s l) := by
  unfold storeWords
  try dsimp only
  with_reducible
    repeat'
      first
      | assumption | exact mask_trans (by decide) hm | apply State.putWords_only
      | (apply Only.foldl; intro u a hu; try dsimp only) | apply Only.ite | split | intro _

theorem balStore_only {m : Nat} {s₀ : State} (hm : 68736254526 ||| m = m) (s : State) (l : List (Nat × Word))
    (h_s : Only m s₀ s) : Only m s₀ (balStore s l) := by
  unfold balStore
  try dsimp only
  with_reducible
    repeat'
      first
      | assumption | exact mask_trans (by decide) hm | apply State.configChanged_only | apply storeWords_only
      | apply balClear_only | apply tlmUndef_only | (apply Only.foldl; intro u a hu; try dsimp only) | apply Only.ite
      | split | intro _

theorem balWrite_only {m : Nat} {s₀ : State} (hm : 68736254526 ||| m = m) (s : State) (l : List (Nat × Word))
    (h_s : Only m s₀ s) : Only m s₀ (balWrite s l) := by
  unfold balWrite
  try dsimp only
  with_reducible
    repeat'
      first
      | assumption | exact mask_trans (by decide) hm | apply State.cntSat_only | apply balStore_only
      | (apply Only.foldl; intro u a hu; try dsimp only) | apply Only.ite | split | intro _

theorem eventWrite_only {m : Nat} {s₀ : State} (hm : 8194 ||| m = m) (s : State) (n : Nat) (slot : Nat)
    (l : List (Nat × Word)) (h_s : Only m s₀ s) : Only m s₀ (eventWrite s n slot l) := by
  unfold eventWrite
  try dsimp only
  with_reducible
    repeat'
      first
      | assumption | exact mask_trans (by decide) hm | apply State.configChanged_only | apply State.setUnit_only
      | (apply Only.foldl; intro u a hu; try dsimp only) | apply Only.ite | split | intro _

theorem profileWordWrite_only {m : Nat} {s₀ : State} (hm : 14 ||| m = m) (s : State) (l : List (Nat × Word)) (c : Nat)
    (h_s : Only m s₀ s) : Only m s₀ (profileWordWrite s l c) := by
  unfold profileWordWrite
  try dsimp only
  with_reducible
    repeat'
      first
      | assumption | exact mask_trans (by decide) hm | apply State.configChanged_only | apply State.cntSat_only
      | apply storeWords_only | (apply Only.foldl; intro u a hu; try dsimp only) | apply Only.ite | split | intro _

theorem toothWrite_only {m : Nat} {s₀ : State} (hm : 14 ||| m = m) (s : State) (l : List (Nat × Word)) (d : Nat)
    (h_s : Only m s₀ s) : Only m s₀ (toothWrite s l d) := by
  unfold toothWrite
  try dsimp only
  with_reducible
    repeat'
      first
      | assumption | exact mask_trans (by decide) hm | apply State.configChanged_only | apply State.cntSat_only
      | apply storeWords_only | (apply Only.foldl; intro u a hu; try dsimp only) | apply Only.ite | split | intro _

theorem wheelWrite_only {m : Nat} {s₀ : State} (hm : 33326 ||| m = m) (s : State) (l : List (Nat × Word)) (d : Nat)
    (o : Nat) (h_s : Only m s₀ s) : Only m s₀ (wheelWrite s l d o) := by
  unfold wheelWrite
  try dsimp only
  with_reducible
    repeat'
      first
      | assumption | exact mask_trans (by decide) hm | apply State.configChanged_only | apply profileTouched_only
      | apply toothWrite_only | apply storeWords_only | (apply Only.foldl; intro u a hu; try dsimp only) | apply Only.ite
      | split | intro _

theorem sideStore_only {m : Nat} {s₀ : State} (hm : 34359738376 ||| m = m) (s : State) (l : List (Nat × Word))
    (h_s : Only m s₀ s) : Only m s₀ (sideStore s l) := by
  unfold sideStore
  try dsimp only
  with_reducible
    repeat'
      first
      | assumption | exact .inr (mask_bit hm (by decide)) | exact .inl rfl | exact mask_trans (by decide) hm
      | apply storeWords_only | (apply Only.foldl; intro u a hu; try dsimp only) | apply Only.ite | split | intro _
      | refine Only.written rfl ?_ ?_ ?_ ?_ ?_ ?_ ?_ ?_ ?_ ?_ ?_ ?_ ?_ ?_ ?_ ?_ ?_ ?_ ?_ ?_ ?_ ?_ ?_ ?_ ?_ ?_ ?_ ?_ ?_ ?_ ?_ ?_ ?_ ?_ ?_ ?_ ?_ ?_

theorem modelWrite_only {m : Nat} {s₀ : State} (hm : 34359738378 ||| m = m) (s : State) (l : List (Nat × Word)) (o : Nat)
    (h_s : Only m s₀ s) : Only m s₀ (modelWrite s l o) := by
  unfold modelWrite
  try dsimp only
  with_reducible
    repeat'
      first
      | assumption | exact mask_trans (by decide) hm | apply State.configChanged_only | apply sideStore_only
      | (apply Only.foldl; intro u a hu; try dsimp only) | apply Only.ite | split | intro _

theorem imemWrite_only {m : Nat} {s₀ : State} (hm : 1035 ||| m = m) (s : State) (l : List (Nat × Word))
    (h_s : Only m s₀ s) : Only m s₀ (imemWrite s l) := by
  unfold imemWrite
  try dsimp only
  with_reducible
    repeat'
      first
      | assumption | exact mask_trans (by decide) hm | apply State.configChanged_only | apply State.reelTurn_only
      | apply reelImemWord_only | (apply Only.foldl; intro u a hu; try dsimp only) | apply Only.ite | split | intro _

theorem bar2Store_only {m : Nat} {s₀ : State} (hm : 103096034879 ||| m = m) (s : State) (a : Nat) (l : List (Nat × Word))
    (h_s : Only m s₀ s) : Only m s₀ (bar2Store s a l) := by
  unfold bar2Store
  try dsimp only
  with_reducible
    repeat'
      first
      | assumption | exact mask_trans (by decide) hm | apply State.configChanged_only | apply profileWordWrite_only
      | apply eventWrite_only | apply wheelWrite_only | apply modelWrite_only | apply storeWords_only
      | apply imemWrite_only | apply balWrite_only | (apply Only.foldl; intro u a hu; try dsimp only) | apply Only.ite
      | split | intro _

theorem bar2Write_only {m : Nat} {s₀ : State} (hm : 103096034879 ||| m = m) (s : State) (a : Nat) (size : Nat)
    (v : BitVec 64) (h_s : Only m s₀ s) : Only m s₀ (bar2Write s a size v) := by
  unfold bar2Write
  try dsimp only
  with_reducible
    repeat'
      first
      | assumption | exact mask_trans (by decide) hm | apply State.refuseWrite_only | apply State.unFirst_only
      | apply bar2Store_only | (apply Only.foldl; intro u a hu; try dsimp only) | apply Only.ite | split | intro _

end Sys2Proof.Machine
end

