-- ==== Sys2Proof/Laws/Transfer.lean ====
section
/-!
SUPPORT. Machine/Transfer.lean: every operation of it keeps what `Keeps` says, and changes only the parts of its mask.
-/
set_option linter.unusedTactic false
set_option linter.unreachableTactic false
set_option linter.unusedVariables false

namespace Sys2Proof.Machine

theorem xfrRecord_keeps {s₀ : State} (s : State) (n : Nat) (status : Nat) (h_s : Keeps s₀ s)
    : Keeps s₀ (xfrRecord s n status) := by
  unfold xfrRecord
  try dsimp only
  with_reducible
    repeat'
      first
      | assumption | apply qProduce_keeps | (apply Keeps.foldl; intro u a hu; try dsimp only) | apply Keeps.ite | split
      | intro _ | refine Keeps.written rfl rfl rfl rfl rfl rfl rfl rfl ?_

theorem descEnd_keeps {s₀ : State} (s : State) (n : Nat) (h_s : Keeps s₀ s) : Keeps s₀ (descEnd s n) := by
  unfold descEnd
  try dsimp only
  with_reducible
    repeat'
      first
      | assumption | apply State.setX_keeps | apply xfrTrigger_keeps | apply xfrRecord_keeps | apply issueRead_keeps
      | (apply Keeps.foldl; intro u a hu; try dsimp only) | apply Keeps.ite | split | intro _
      | refine Keeps.written rfl rfl rfl rfl rfl rfl rfl rfl ?_

theorem nextBlock_keeps {s₀ : State} (s : State) (n : Nat) (h_s : Keeps s₀ s) : Keeps s₀ (nextBlock s n) := by
  unfold nextBlock
  try dsimp only
  with_reducible
    repeat'
      first
      | assumption | apply qlevelStart_keeps | apply blockStart_keeps | apply State.setX_keeps
      | (apply Keeps.foldl; intro u a hu; try dsimp only) | apply Keeps.ite | split | intro _
      | refine Keeps.written rfl rfl rfl rfl rfl rfl rfl rfl ?_

theorem afterMove_keeps {s₀ : State} (s : State) (n : Nat) (h_s : Keeps s₀ s) : Keeps s₀ (afterMove s n) := by
  unfold afterMove
  try dsimp only
  with_reducible
    repeat'
      first
      | assumption | apply nextBlock_keeps | apply descEnd_keeps | (apply Keeps.foldl; intro u a hu; try dsimp only)
      | apply Keeps.ite | split | intro _ | refine Keeps.written rfl rfl rfl rfl rfl rfl rfl rfl ?_

theorem xfrTimerWrite_keeps {s₀ : State} (s : State) (k : Nat) (h_s : Keeps s₀ s) : Keeps s₀ (xfrTimerWrite s k) := by
  unfold xfrTimerWrite
  try dsimp only
  with_reducible
    repeat'
      first
      | assumption | (apply Keeps.foldl; intro u a hu; try dsimp only) | apply Keeps.ite | split | intro _
      | refine Keeps.written rfl rfl rfl rfl rfl rfl rfl rfl ?_

theorem xfrIrqs_keeps {s₀ : State} (s : State) (n : Nat) (a : Nat) (b : Nat) (h_s : Keeps s₀ s)
    : Keeps s₀ (xfrIrqs s n a b) := by
  unfold xfrIrqs
  try dsimp only
  with_reducible
    repeat'
      first
      | assumption | apply State.arrive_keeps | (apply Keeps.foldl; intro u a hu; try dsimp only) | apply Keeps.ite
      | split | intro _ | refine Keeps.written rfl rfl rfl rfl rfl rfl rfl rfl ?_

theorem flushHeld_keeps {s₀ : State} (s : State) (n : Nat) (h_s : Keeps s₀ s) : Keeps s₀ (flushHeld s n) := by
  unfold flushHeld
  try dsimp only
  with_reducible
    repeat'
      first
      | assumption | apply State.emitXfr_keeps | apply State.setX_keeps | apply xfrIrqs_keeps
      | (apply Keeps.foldl; intro u a hu; try dsimp only) | apply Keeps.ite | split | intro _
      | refine Keeps.written rfl rfl rfl rfl rfl rfl rfl rfl ?_

theorem xfrStop_keeps {s₀ : State} (s : State) (n : Nat) (h_s : Keeps s₀ s) : Keeps s₀ (xfrStop s n).2 := by
  unfold xfrStop
  try dsimp only
  with_reducible
    repeat'
      first
      | assumption | apply State.setX_keeps | apply flushHeld_keeps | apply noteOwner_keeps | apply xfrRecord_keeps
      | (apply Keeps.foldl; intro u a hu; try dsimp only) | apply Keeps.ite | split | intro _
      | refine Keeps.written rfl rfl rfl rfl rfl rfl rfl rfl ?_

theorem xfrBegin_keeps {s₀ : State} (s : State) (n : Nat) (addr : Nat) (h_s : Keeps s₀ s)
    : Keeps s₀ (xfrBegin s n addr) := by
  unfold xfrBegin
  try dsimp only
  with_reducible
    repeat'
      first
      | assumption | apply State.setX_keeps | apply issueRead_keeps | (apply Keeps.foldl; intro u a hu; try dsimp only)
      | apply Keeps.ite | split | intro _ | refine Keeps.written rfl rfl rfl rfl rfl rfl rfl rfl ?_

theorem xfrStart_keeps {s₀ : State} (s : State) (n : Nat) (addr : Nat) (h_s : Keeps s₀ s)
    : Keeps s₀ (xfrStart s n addr).2 := by
  unfold xfrStart
  try dsimp only
  with_reducible
    repeat'
      first
      | assumption | apply xfrBegin_keeps | (apply Keeps.foldl; intro u a hu; try dsimp only) | apply Keeps.ite | split
      | intro _ | refine Keeps.written rfl rfl rfl rfl rfl rfl rfl rfl ?_

theorem xfrCtlStart_keeps {s₀ : State} (s : State) (n : Nat) (h_s : Keeps s₀ s) : Keeps s₀ (xfrCtlStart s n) := by
  unfold xfrCtlStart
  try dsimp only
  with_reducible
    repeat'
      first
      | assumption | apply xfrStart_keeps | (apply Keeps.foldl; intro u a hu; try dsimp only) | apply Keeps.ite | split
      | intro _ | refine Keeps.written rfl rfl rfl rfl rfl rfl rfl rfl ?_

theorem bar2Move_keeps {s₀ : State} (s : State) (n : Nat) (h_s : Keeps s₀ s) : Keeps s₀ (bar2Move s n) := by
  unfold bar2Move
  try dsimp only
  with_reducible
    repeat'
      first
      | assumption | apply State.emit_keeps | apply State.setX_keeps | (apply Keeps.foldl; intro u a hu; try dsimp only)
      | apply Keeps.ite | split | intro _ | refine Keeps.written rfl rfl rfl rfl rfl rfl rfl rfl ?_

theorem parkedPoll_keeps {s₀ : State} (s : State) (n : Nat) (h_s : Keeps s₀ s) : Keeps s₀ (parkedPoll s n) := by
  unfold parkedPoll
  try dsimp only
  with_reducible
    repeat'
      first
      | assumption | apply State.setX_keeps | apply issueRead_keeps | (apply Keeps.foldl; intro u a hu; try dsimp only)
      | apply Keeps.ite | split | intro _ | refine Keeps.written rfl rfl rfl rfl rfl rfl rfl rfl ?_

theorem xfrPoll_keeps {s₀ : State} (s : State) (h_s : Keeps s₀ s) : Keeps s₀ (xfrPoll s) := by
  unfold xfrPoll
  try dsimp only
  with_reducible
    repeat'
      first
      | assumption | apply parkedPoll_keeps | (apply Keeps.foldl; intro u a hu; try dsimp only) | apply Keeps.ite | split
      | intro _ | refine Keeps.written rfl rfl rfl rfl rfl rfl rfl rfl ?_

theorem pollAll_keeps {s₀ : State} (s : State) (ok : Bool) (gen : Word) (prods : List (Nat × Nat)) (h_s : Keeps s₀ s)
    : Keeps s₀ (pollAll s ok gen prods) := by
  unfold pollAll
  try dsimp only
  with_reducible
    repeat'
      first
      | assumption | apply pollReturn_keeps | apply xfrPoll_keeps | (apply Keeps.foldl; intro u a hu; try dsimp only)
      | apply Keeps.ite | split | intro _ | refine Keeps.written rfl rfl rfl rfl rfl rfl rfl rfl ?_

theorem xfrError_keeps {s₀ : State} (s : State) (n : Nat) (code : Nat) (h_s : Keeps s₀ s)
    : Keeps s₀ (xfrError s n code) := by
  unfold xfrError
  try dsimp only
  with_reducible
    repeat'
      first
      | assumption | apply State.arrive_keeps | apply State.setX_keeps | apply noteOwner_keeps | apply xfrRecord_keeps
      | (apply Keeps.foldl; intro u a hu; try dsimp only) | apply Keeps.ite | split | intro _
      | refine Keeps.written rfl rfl rfl rfl rfl rfl rfl rfl ?_

theorem xfrFetched_keeps {s₀ : State} (s : State) (n : Nat) (desc : Option (List Word)) (h_s : Keeps s₀ s)
    : Keeps s₀ (xfrFetched s n desc) := by
  unfold xfrFetched
  try dsimp only
  with_reducible
    repeat'
      first
      | assumption | apply State.setX_keeps | apply noteOwner_keeps | apply nextBlock_keeps | apply xfrError_keeps
      | (apply Keeps.foldl; intro u a hu; try dsimp only) | apply Keeps.ite | split | intro _
      | refine Keeps.written rfl rfl rfl rfl rfl rfl rfl rfl ?_

theorem traceMove_keeps {s₀ : State} (s : State) (n : Nat) (k : Nat) (h_s : Keeps s₀ s) : Keeps s₀ (traceMove s n k) := by
  unfold traceMove
  try dsimp only
  with_reducible
    repeat'
      first
      | assumption | apply State.emit_keeps | apply State.setX_keeps | (apply Keeps.foldl; intro u a hu; try dsimp only)
      | apply Keeps.ite | split | intro _ | refine Keeps.written rfl rfl rfl rfl rfl rfl rfl rfl ?_

theorem reelMove_keeps {s₀ : State} (s : State) (n : Nat) (h_s : Keeps s₀ s) : Keeps s₀ (reelMove s n) := by
  unfold reelMove
  try dsimp only
  with_reducible
    repeat'
      first
      | assumption | apply State.reelTurn_keeps | apply reelAppend_keeps | apply State.setX_keeps
      | (apply Keeps.foldl; intro u a hu; try dsimp only) | apply Keeps.ite | split | intro _
      | refine Keeps.written rfl rfl rfl rfl rfl rfl rfl rfl ?_

theorem moveBlock_keeps {s₀ : State} (s : State) (n : Nat) (h_s : Keeps s₀ s) : Keeps s₀ (moveBlock s n) := by
  unfold moveBlock
  try dsimp only
  with_reducible
    repeat'
      first
      | assumption | apply flushHeld_keeps | apply traceMove_keeps | apply reelMove_keeps | apply bar2Move_keeps
      | apply xfrIrqs_keeps | (apply Keeps.foldl; intro u a hu; try dsimp only) | apply Keeps.ite | split | intro _
      | refine Keeps.written rfl rfl rfl rfl rfl rfl rfl rfl ?_

theorem xfrBlockEnd_keeps {s₀ : State} (s : State) (n : Nat) (h_s : Keeps s₀ s) : Keeps s₀ (xfrBlockEnd s n) := by
  unfold xfrBlockEnd
  try dsimp only
  with_reducible
    repeat'
      first
      | assumption | apply moveBlock_keeps | apply afterMove_keeps | (apply Keeps.foldl; intro u a hu; try dsimp only)
      | apply Keeps.ite | split | intro _ | refine Keeps.written rfl rfl rfl rfl rfl rfl rfl rfl ?_

theorem xfrReadData_keeps {s₀ : State} (s : State) (n : Nat) (data : Option (List Word)) (h_s : Keeps s₀ s)
    : Keeps s₀ (xfrReadData s n data) := by
  unfold xfrReadData
  try dsimp only
  with_reducible
    repeat'
      first
      | assumption | apply xfrBlockEnd_keeps | apply State.setX_keeps | apply xfrError_keeps
      | (apply Keeps.foldl; intro u a hu; try dsimp only) | apply Keeps.ite | split | intro _
      | refine Keeps.written rfl rfl rfl rfl rfl rfl rfl rfl ?_

theorem xfrLinkRead_keeps {s₀ : State} (s : State) (n : Nat) (link : Option Nat) (h_s : Keeps s₀ s)
    : Keeps s₀ (xfrLinkRead s n link) := by
  unfold xfrLinkRead
  try dsimp only
  with_reducible
    repeat'
      first
      | assumption | apply State.setX_keeps | apply issueRead_keeps | apply xfrError_keeps
      | (apply Keeps.foldl; intro u a hu; try dsimp only) | apply Keeps.ite | split | intro _
      | refine Keeps.written rfl rfl rfl rfl rfl rfl rfl rfl ?_

theorem queueWordHead_keeps {s₀ : State} (s : State) (q : Nat) (h_s : Keeps s₀ s) : Keeps s₀ (queueWordHead s q) := by
  unfold queueWordHead
  try dsimp only
  with_reducible
    repeat'
      first
      | assumption | apply captureTake_keeps | apply State.setX_keeps | apply qTake_keeps
      | (apply Keeps.foldl; intro u a hu; try dsimp only) | apply Keeps.ite | split | intro _
      | refine Keeps.written rfl rfl rfl rfl rfl rfl rfl rfl ?_

theorem xfrTimer_keeps {s₀ : State} (s : State) (k : Nat) (h_s : Keeps s₀ s) : Keeps s₀ (xfrTimer s k) := by
  unfold xfrTimer
  try dsimp only
  with_reducible
    repeat'
      first
      | assumption | apply xfrTrigger_keeps | (apply Keeps.foldl; intro u a hu; try dsimp only) | apply Keeps.ite | split
      | intro _ | refine Keeps.written rfl rfl rfl rfl rfl rfl rfl rfl ?_

theorem xfrRecord_only {m : Nat} {s₀ : State} (hm : 756 ||| m = m) (s : State) (n : Nat) (status : Nat)
    (h_s : Only m s₀ s) : Only m s₀ (xfrRecord s n status) := by
  unfold xfrRecord
  try dsimp only
  with_reducible
    repeat'
      first
      | assumption | exact mask_trans (by decide) hm | apply qProduce_only
      | (apply Only.foldl; intro u a hu; try dsimp only) | apply Only.ite | split | intro _

theorem descEnd_only {m : Nat} {s₀ : State} (hm : 756 ||| m = m) (s : State) (n : Nat)
    (h_s : Only m s₀ s) : Only m s₀ (descEnd s n) := by
  unfold descEnd
  try dsimp only
  with_reducible
    repeat'
      first
      | assumption | exact mask_trans (by decide) hm | apply State.setX_only | apply xfrTrigger_only
      | apply xfrRecord_only | apply issueRead_only | (apply Only.foldl; intro u a hu; try dsimp only) | apply Only.ite
      | split | intro _

theorem nextBlock_only {m : Nat} {s₀ : State} (hm : 144 ||| m = m) (s : State) (n : Nat)
    (h_s : Only m s₀ s) : Only m s₀ (nextBlock s n) := by
  unfold nextBlock
  try dsimp only
  with_reducible
    repeat'
      first
      | assumption | exact mask_trans (by decide) hm | apply qlevelStart_only | apply blockStart_only
      | apply State.setX_only | (apply Only.foldl; intro u a hu; try dsimp only) | apply Only.ite | split | intro _

theorem afterMove_only {m : Nat} {s₀ : State} (hm : 756 ||| m = m) (s : State) (n : Nat)
    (h_s : Only m s₀ s) : Only m s₀ (afterMove s n) := by
  unfold afterMove
  try dsimp only
  with_reducible
    repeat'
      first
      | assumption | exact mask_trans (by decide) hm | apply nextBlock_only | apply descEnd_only
      | (apply Only.foldl; intro u a hu; try dsimp only) | apply Only.ite | split | intro _

theorem xfrTimerWrite_only {m : Nat} {s₀ : State} (hm : 128 ||| m = m) (s : State) (k : Nat)
    (h_s : Only m s₀ s) : Only m s₀ (xfrTimerWrite s k) := by
  unfold xfrTimerWrite
  try dsimp only
  with_reducible
    repeat'
      first
      | assumption | exact .inr (mask_bit hm (by decide)) | exact .inl rfl | exact mask_trans (by decide) hm
      | (apply Only.foldl; intro u a hu; try dsimp only) | apply Only.ite | split | intro _
      | refine Only.written rfl ?_ ?_ ?_ ?_ ?_ ?_ ?_ ?_ ?_ ?_ ?_ ?_ ?_ ?_ ?_ ?_ ?_ ?_ ?_ ?_ ?_ ?_ ?_ ?_ ?_ ?_ ?_ ?_ ?_ ?_ ?_ ?_ ?_ ?_ ?_ ?_ ?_ ?_

theorem xfrIrqs_only {m : Nat} {s₀ : State} (hm : 544 ||| m = m) (s : State) (n : Nat) (a : Nat) (b : Nat)
    (h_s : Only m s₀ s) : Only m s₀ (xfrIrqs s n a b) := by
  unfold xfrIrqs
  try dsimp only
  with_reducible
    repeat'
      first
      | assumption | exact mask_trans (by decide) hm | apply State.arrive_only
      | (apply Only.foldl; intro u a hu; try dsimp only) | apply Only.ite | split | intro _

theorem flushHeld_only {m : Nat} {s₀ : State} (hm : 688 ||| m = m) (s : State) (n : Nat)
    (h_s : Only m s₀ s) : Only m s₀ (flushHeld s n) := by
  unfold flushHeld
  try dsimp only
  with_reducible
    repeat'
      first
      | assumption | exact mask_trans (by decide) hm | apply State.emitXfr_only | apply State.setX_only
      | apply xfrIrqs_only | (apply Only.foldl; intro u a hu; try dsimp only) | apply Only.ite | split | intro _

theorem xfrStop_only {m : Nat} {s₀ : State} (hm : 1012 ||| m = m) (s : State) (n : Nat)
    (h_s : Only m s₀ s) : Only m s₀ (xfrStop s n).2 := by
  unfold xfrStop
  try dsimp only
  with_reducible
    repeat'
      first
      | assumption | exact mask_trans (by decide) hm | apply State.setX_only | apply flushHeld_only | apply noteOwner_only
      | apply xfrRecord_only | (apply Only.foldl; intro u a hu; try dsimp only) | apply Only.ite | split | intro _

theorem xfrBegin_only {m : Nat} {s₀ : State} (hm : 144 ||| m = m) (s : State) (n : Nat) (addr : Nat)
    (h_s : Only m s₀ s) : Only m s₀ (xfrBegin s n addr) := by
  unfold xfrBegin
  try dsimp only
  with_reducible
    repeat'
      first
      | assumption | exact mask_trans (by decide) hm | apply State.setX_only | apply issueRead_only
      | (apply Only.foldl; intro u a hu; try dsimp only) | apply Only.ite | split | intro _

theorem xfrStart_only {m : Nat} {s₀ : State} (hm : 144 ||| m = m) (s : State) (n : Nat) (addr : Nat)
    (h_s : Only m s₀ s) : Only m s₀ (xfrStart s n addr).2 := by
  unfold xfrStart
  try dsimp only
  with_reducible
    repeat'
      first
      | assumption | exact mask_trans (by decide) hm | apply xfrBegin_only
      | (apply Only.foldl; intro u a hu; try dsimp only) | apply Only.ite | split | intro _

theorem xfrCtlStart_only {m : Nat} {s₀ : State} (hm : 144 ||| m = m) (s : State) (n : Nat)
    (h_s : Only m s₀ s) : Only m s₀ (xfrCtlStart s n) := by
  unfold xfrCtlStart
  try dsimp only
  with_reducible
    repeat'
      first
      | assumption | exact mask_trans (by decide) hm | apply xfrStart_only
      | (apply Only.foldl; intro u a hu; try dsimp only) | apply Only.ite | split | intro _

theorem bar2Move_only {m : Nat} {s₀ : State} (hm : 144 ||| m = m) (s : State) (n : Nat)
    (h_s : Only m s₀ s) : Only m s₀ (bar2Move s n) := by
  unfold bar2Move
  try dsimp only
  with_reducible
    repeat'
      first
      | assumption | exact mask_trans (by decide) hm | apply State.emit_only | apply State.setX_only
      | (apply Only.foldl; intro u a hu; try dsimp only) | apply Only.ite | split | intro _

theorem parkedPoll_only {m : Nat} {s₀ : State} (hm : 144 ||| m = m) (s : State) (n : Nat)
    (h_s : Only m s₀ s) : Only m s₀ (parkedPoll s n) := by
  unfold parkedPoll
  try dsimp only
  with_reducible
    repeat'
      first
      | assumption | exact mask_trans (by decide) hm | apply State.setX_only | apply issueRead_only
      | (apply Only.foldl; intro u a hu; try dsimp only) | apply Only.ite | split | intro _

theorem xfrPoll_only {m : Nat} {s₀ : State} (hm : 144 ||| m = m) (s : State)
    (h_s : Only m s₀ s) : Only m s₀ (xfrPoll s) := by
  unfold xfrPoll
  try dsimp only
  with_reducible
    repeat'
      first
      | assumption | exact mask_trans (by decide) hm | apply parkedPoll_only
      | (apply Only.foldl; intro u a hu; try dsimp only) | apply Only.ite | split | intro _

theorem pollAll_only {m : Nat} {s₀ : State} (hm : 180 ||| m = m) (s : State) (ok : Bool) (gen : Word)
    (prods : List (Nat × Nat)) (h_s : Only m s₀ s) : Only m s₀ (pollAll s ok gen prods) := by
  unfold pollAll
  try dsimp only
  with_reducible
    repeat'
      first
      | assumption | exact mask_trans (by decide) hm | apply pollReturn_only | apply xfrPoll_only
      | (apply Only.foldl; intro u a hu; try dsimp only) | apply Only.ite | split | intro _

theorem xfrError_only {m : Nat} {s₀ : State} (hm : 1012 ||| m = m) (s : State) (n : Nat) (code : Nat)
    (h_s : Only m s₀ s) : Only m s₀ (xfrError s n code) := by
  unfold xfrError
  try dsimp only
  with_reducible
    repeat'
      first
      | assumption | exact mask_trans (by decide) hm | apply State.arrive_only | apply State.setX_only
      | apply noteOwner_only | apply xfrRecord_only | (apply Only.foldl; intro u a hu; try dsimp only) | apply Only.ite
      | split | intro _

theorem xfrFetched_only {m : Nat} {s₀ : State} (hm : 1012 ||| m = m) (s : State) (n : Nat) (desc : Option (List Word))
    (h_s : Only m s₀ s) : Only m s₀ (xfrFetched s n desc) := by
  unfold xfrFetched
  try dsimp only
  with_reducible
    repeat'
      first
      | assumption | exact mask_trans (by decide) hm | apply State.setX_only | apply noteOwner_only | apply nextBlock_only
      | apply xfrError_only | (apply Only.foldl; intro u a hu; try dsimp only) | apply Only.ite | split | intro _

theorem traceMove_only {m : Nat} {s₀ : State} (hm : 400 ||| m = m) (s : State) (n : Nat) (k : Nat)
    (h_s : Only m s₀ s) : Only m s₀ (traceMove s n k) := by
  unfold traceMove
  try dsimp only
  with_reducible
    repeat'
      first
      | assumption | exact .inr (mask_bit hm (by decide)) | exact .inl rfl | exact mask_trans (by decide) hm
      | apply State.emit_only | apply State.setX_only | (apply Only.foldl; intro u a hu; try dsimp only) | apply Only.ite
      | split | intro _
      | refine Only.written rfl ?_ ?_ ?_ ?_ ?_ ?_ ?_ ?_ ?_ ?_ ?_ ?_ ?_ ?_ ?_ ?_ ?_ ?_ ?_ ?_ ?_ ?_ ?_ ?_ ?_ ?_ ?_ ?_ ?_ ?_ ?_ ?_ ?_ ?_ ?_ ?_ ?_ ?_

theorem reelMove_only {m : Nat} {s₀ : State} (hm : 1153 ||| m = m) (s : State) (n : Nat)
    (h_s : Only m s₀ s) : Only m s₀ (reelMove s n) := by
  unfold reelMove
  try dsimp only
  with_reducible
    repeat'
      first
      | assumption | exact mask_trans (by decide) hm | apply State.reelTurn_only | apply reelAppend_only
      | apply State.setX_only | (apply Only.foldl; intro u a hu; try dsimp only) | apply Only.ite | split | intro _

theorem moveBlock_only {m : Nat} {s₀ : State} (hm : 1969 ||| m = m) (s : State) (n : Nat)
    (h_s : Only m s₀ s) : Only m s₀ (moveBlock s n) := by
  unfold moveBlock
  try dsimp only
  with_reducible
    repeat'
      first
      | assumption | exact mask_trans (by decide) hm | apply flushHeld_only | apply traceMove_only | apply reelMove_only
      | apply bar2Move_only | apply xfrIrqs_only | (apply Only.foldl; intro u a hu; try dsimp only) | apply Only.ite
      | split | intro _

theorem xfrBlockEnd_only {m : Nat} {s₀ : State} (hm : 2037 ||| m = m) (s : State) (n : Nat)
    (h_s : Only m s₀ s) : Only m s₀ (xfrBlockEnd s n) := by
  unfold xfrBlockEnd
  try dsimp only
  with_reducible
    repeat'
      first
      | assumption | exact mask_trans (by decide) hm | apply moveBlock_only | apply afterMove_only
      | (apply Only.foldl; intro u a hu; try dsimp only) | apply Only.ite | split | intro _

theorem xfrReadData_only {m : Nat} {s₀ : State} (hm : 2037 ||| m = m) (s : State) (n : Nat) (data : Option (List Word))
    (h_s : Only m s₀ s) : Only m s₀ (xfrReadData s n data) := by
  unfold xfrReadData
  try dsimp only
  with_reducible
    repeat'
      first
      | assumption | exact mask_trans (by decide) hm | apply xfrBlockEnd_only | apply State.setX_only
      | apply xfrError_only | (apply Only.foldl; intro u a hu; try dsimp only) | apply Only.ite | split | intro _

theorem xfrLinkRead_only {m : Nat} {s₀ : State} (hm : 1012 ||| m = m) (s : State) (n : Nat) (link : Option Nat)
    (h_s : Only m s₀ s) : Only m s₀ (xfrLinkRead s n link) := by
  unfold xfrLinkRead
  try dsimp only
  with_reducible
    repeat'
      first
      | assumption | exact mask_trans (by decide) hm | apply State.setX_only | apply issueRead_only | apply xfrError_only
      | (apply Only.foldl; intro u a hu; try dsimp only) | apply Only.ite | split | intro _

theorem queueWordHead_only {m : Nat} {s₀ : State} (hm : 756 ||| m = m) (s : State) (q : Nat)
    (h_s : Only m s₀ s) : Only m s₀ (queueWordHead s q) := by
  unfold queueWordHead
  try dsimp only
  with_reducible
    repeat'
      first
      | assumption | exact mask_trans (by decide) hm | apply captureTake_only | apply State.setX_only | apply qTake_only
      | (apply Only.foldl; intro u a hu; try dsimp only) | apply Only.ite | split | intro _

theorem xfrTimer_only {m : Nat} {s₀ : State} (hm : 144 ||| m = m) (s : State) (k : Nat)
    (h_s : Only m s₀ s) : Only m s₀ (xfrTimer s k) := by
  unfold xfrTimer
  try dsimp only
  with_reducible
    repeat'
      first
      | assumption | exact .inr (mask_bit hm (by decide)) | exact .inl rfl | exact mask_trans (by decide) hm
      | apply xfrTrigger_only | (apply Only.foldl; intro u a hu; try dsimp only) | apply Only.ite | split | intro _
      | refine Only.written rfl ?_ ?_ ?_ ?_ ?_ ?_ ?_ ?_ ?_ ?_ ?_ ?_ ?_ ?_ ?_ ?_ ?_ ?_ ?_ ?_ ?_ ?_ ?_ ?_ ?_ ?_ ?_ ?_ ?_ ?_ ?_ ?_ ?_ ?_ ?_ ?_ ?_ ?_

end Sys2Proof.Machine
end

