-- ==== Sys2Proof/Laws/Bus.lean ====
section
/-!
SUPPORT. Machine/Bus.lean: every operation of it keeps what `Keeps` says, and changes only the parts of its mask.
-/
set_option linter.unusedTactic false
set_option linter.unreachableTactic false
set_option linter.unusedVariables false

namespace Sys2Proof.Machine

theorem convWrite_keeps {s₀ : State} (s : State) (k : Nat) (o : Nat) (v : Word) (h_s : Keeps s₀ s)
    : Keeps s₀ (convWrite s k o v) := by
  unfold convWrite
  try dsimp only
  with_reducible
    repeat'
      first
      | assumption | apply adcTimerWrite_keeps | apply adcCfgWrite_keeps
      | (apply Keeps.foldl; intro u a hu; try dsimp only) | apply Keeps.ite | split | intro _
      | refine Keeps.written rfl rfl rfl rfl rfl rfl rfl rfl ?_

theorem plainPut_keeps {s₀ : State} (s : State) (a : Nat) (v : Word) (h_s : Keeps s₀ s) : Keeps s₀ (plainPut s a v) := by
  unfold plainPut
  try dsimp only
  with_reducible
    repeat'
      first
      | assumption | apply State.setReg_keeps | (apply Keeps.foldl; intro u a hu; try dsimp only) | apply Keeps.ite
      | split | intro _ | refine Keeps.written rfl rfl rfl rfl rfl rfl rfl rfl ?_

theorem adcWrite_keeps {s₀ : State} (s : State) (o : Nat) (v : Word) (h_s : Keeps s₀ s) : Keeps s₀ (adcWrite s o v) := by
  unfold adcWrite
  try dsimp only
  with_reducible
    repeat'
      first
      | assumption | apply hostPressSet_keeps | apply adcStepPut_keeps | apply convWrite_keeps | apply plainPut_keeps
      | (apply Keeps.foldl; intro u a hu; try dsimp only) | apply Keeps.ite | split | intro _
      | refine Keeps.written rfl rfl rfl rfl rfl rfl rfl rfl ?_

theorem domCfgWrite_keeps {s₀ : State} (s : State) (d : Nat) (v : Word) (h_s : Keeps s₀ s)
    : Keeps s₀ (domCfgWrite s d v) := by
  unfold domCfgWrite
  try dsimp only
  with_reducible
    repeat'
      first
      | assumption | apply domainDisable_keeps | apply State.setReg_keeps | apply domainEnable_keeps
      | apply linkReview_keeps | apply toNone_keeps | (apply Keeps.foldl; intro u a hu; try dsimp only) | apply Keeps.ite
      | split | intro _ | refine Keeps.written rfl rfl rfl rfl rfl rfl rfl rfl ?_

theorem pairPut_keeps {s₀ : State} (s : State) (a : Nat) (hh : Nat) (hl : Nat) (lh : Nat) (ll : Nat) (v : Word) (h_s
    : Keeps s₀ s) : Keeps s₀ (pairPut s a hh hl lh ll v) := by
  unfold pairPut
  try dsimp only
  with_reducible
    repeat'
      first
      | assumption | apply State.setReg_keeps | (apply Keeps.foldl; intro u a hu; try dsimp only) | apply Keeps.ite
      | split | intro _ | refine Keeps.written rfl rfl rfl rfl rfl rfl rfl rfl ?_

theorem domWrite_keeps {s₀ : State} (s : State) (d : Nat) (o : Nat) (v : Word) (h_s : Keeps s₀ s)
    : Keeps s₀ (domWrite s d o v) := by
  unfold domWrite
  try dsimp only
  with_reducible
    repeat'
      first
      | assumption | apply domCfgWrite_keeps | apply ncylWritten_keeps | apply learnStart_keeps | apply learnAbort_keeps
      | apply plainPut_keeps | apply pairPut_keeps | apply toNone_keeps
      | (apply Keeps.foldl; intro u a hu; try dsimp only) | apply Keeps.ite | split | intro _
      | refine Keeps.written rfl rfl rfl rfl rfl rfl rfl rfl ?_

theorem atuWrite_keeps {s₀ : State} (s : State) (o : Nat) (v : Word) (h_s : Keeps s₀ s) : Keeps s₀ (atuWrite s o v) := by
  unfold atuWrite
  try dsimp only
  with_reducible
    repeat'
      first
      | assumption | apply syncCancel_keeps | apply domWrite_keeps | apply plainPut_keeps | apply syncArm_keeps
      | (apply Keeps.foldl; intro u a hu; try dsimp only) | apply Keeps.ite | split | intro _
      | refine Keeps.written rfl rfl rfl rfl rfl rfl rfl rfl ?_

theorem bankWrite_keeps {s₀ : State} (s : State) (b : Nat) (o : Nat) (v : Word) (h_s : Keeps s₀ s)
    : Keeps s₀ (bankWrite s b o v) := by
  unfold bankWrite
  try dsimp only
  with_reducible
    repeat'
      first
      | assumption | apply chanCfgWrite_keeps | apply chanCtlWrite_keeps | apply winThrWrite_keeps
      | apply bankResume_keeps | apply adcStepPut_keeps | apply convWrite_keeps | apply plainPut_keeps
      | (apply Keeps.foldl; intro u a hu; try dsimp only) | apply Keeps.ite | split | intro _
      | refine Keeps.written rfl rfl rfl rfl rfl rfl rfl rfl ?_

theorem dtimeRead_keeps {s₀ : State} (s : State) (h_s : Keeps s₀ s) : Keeps s₀ (dtimeRead s) := by
  unfold dtimeRead
  try dsimp only
  with_reducible
    repeat'
      first
      | assumption | apply State.answer_keeps | (apply Keeps.foldl; intro u a hu; try dsimp only) | apply Keeps.ite
      | split | intro _ | refine Keeps.written rfl rfl rfl rfl rfl rfl rfl rfl ?_

theorem dtimeHighRead_keeps {s₀ : State} (s : State) (h_s : Keeps s₀ s) : Keeps s₀ (dtimeHighRead s) := by
  unfold dtimeHighRead
  try dsimp only
  with_reducible
    repeat'
      first
      | assumption | apply State.answer_keeps | (apply Keeps.foldl; intro u a hu; try dsimp only) | apply Keeps.ite
      | split | intro _ | refine Keeps.written rfl rfl rfl rfl rfl rfl rfl rfl ?_

theorem hostClaim_keeps {s₀ : State} (s : State) (t : Nat) (h_s : Keeps s₀ s) : Keeps s₀ (hostClaim s t) := by
  unfold hostClaim
  try dsimp only
  with_reducible
    repeat'
      first
      | assumption | apply State.answer_keeps | apply State.claim_keeps
      | (apply Keeps.foldl; intro u a hu; try dsimp only) | apply Keeps.ite | split | intro _
      | refine Keeps.written rfl rfl rfl rfl rfl rfl rfl rfl ?_

theorem bar0Read_keeps {s₀ : State} (s : State) (a : Nat) (h_s : Keeps s₀ s) : Keeps s₀ (bar0Read s a) := by
  unfold bar0Read
  try dsimp only
  with_reducible
    repeat'
      first
      | assumption | apply dtimeHighRead_keeps | apply State.answer_keeps | apply dtimeRead_keeps | apply hostClaim_keeps
      | apply reelRx_keeps | (apply Keeps.foldl; intro u a hu; try dsimp only) | apply Keeps.ite | split | intro _
      | refine Keeps.written rfl rfl rfl rfl rfl rfl rfl rfl ?_

theorem bar0Access_keeps {s₀ : State} (s : State) (a : Nat) (size : Nat) (h_s : Keeps s₀ s)
    : Keeps s₀ (bar0Access s a size) := by
  unfold bar0Access
  try dsimp only
  with_reducible
    repeat'
      first
      | assumption | apply State.answer_keeps | apply bar0Read_keeps | (apply Keeps.foldl; intro u a hu; try dsimp only)
      | apply Keeps.ite | split | intro _ | refine Keeps.written rfl rfl rfl rfl rfl rfl rfl rfl ?_

theorem glbWrite_keeps {s₀ : State} (s : State) (a : Nat) (v : Word) (h_s : Keeps s₀ s) : Keeps s₀ (glbWrite s a v) := by
  unfold glbWrite
  try dsimp only
  with_reducible
    repeat'
      first
      | assumption | apply State.setReg_keeps | apply modeRequest_keeps | apply plainPut_keeps
      | (apply Keeps.foldl; intro u a hu; try dsimp only) | apply Keeps.ite | split | intro _
      | refine Keeps.written rfl rfl rfl rfl rfl rfl rfl rfl ?_

theorem hifWrite_keeps {s₀ : State} (s : State) (a : Nat) (v : Word) (h_s : Keeps s₀ s) : Keeps s₀ (hifWrite s a v) := by
  unfold hifWrite
  try dsimp only
  with_reducible
    repeat'
      first
      | assumption | apply clearHostReset_keeps | apply State.setRf_keeps | apply runAccepted_keeps | apply plainPut_keeps
      | (apply Keeps.foldl; intro u a hu; try dsimp only) | apply Keeps.ite | split | intro _
      | refine Keeps.written rfl rfl rfl rfl rfl rfl rfl rfl ?_

theorem pwrWrite_keeps {s₀ : State} (s : State) (a : Nat) (v : Word) (h_s : Keeps s₀ s) : Keeps s₀ (pwrWrite s a v) := by
  unfold pwrWrite
  try dsimp only
  with_reducible
    repeat'
      first
      | assumption | apply journalCommit_keeps | apply plainPut_keeps | apply duskReq_keeps | apply pllAsk_keeps
      | (apply Keeps.foldl; intro u a hu; try dsimp only) | apply Keeps.ite | split | intro _
      | refine Keeps.written rfl rfl rfl rfl rfl rfl rfl rfl ?_

theorem irqWrite_keeps {s₀ : State} (s : State) (o : Nat) (v : Word) (h_s : Keeps s₀ s) : Keeps s₀ (irqWrite s o v) := by
  unfold irqWrite
  try dsimp only
  with_reducible
    repeat'
      first
      | assumption | apply State.irqReview_keeps | apply State.complete_keeps | apply idleWrite_keeps
      | apply plainPut_keeps | apply pendSet_keeps | apply enWrite_keeps
      | (apply Keeps.foldl; intro u a hu; try dsimp only) | apply Keeps.ite | split | intro _
      | refine Keeps.written rfl rfl rfl rfl rfl rfl rfl rfl ?_

theorem xfrWrite_keeps {s₀ : State} (s : State) (o : Nat) (v : Word) (h_s : Keeps s₀ s) : Keeps s₀ (xfrWrite s o v) := by
  unfold xfrWrite
  try dsimp only
  with_reducible
    repeat'
      first
      | assumption | apply xfrTimerWrite_keeps | apply xfrCtlStart_keeps | apply plainPut_keeps | apply xfrStop_keeps
      | (apply Keeps.foldl; intro u a hu; try dsimp only) | apply Keeps.ite | split | intro _
      | refine Keeps.written rfl rfl rfl rfl rfl rfl rfl rfl ?_

theorem queCfgWrite_keeps {s₀ : State} (s : State) (q : Nat) (v : Word) (h_s : Keeps s₀ s)
    : Keeps s₀ (queCfgWrite s q v) := by
  unfold queCfgWrite
  try dsimp only
  with_reducible
    repeat'
      first
      | assumption | apply State.setReg_keeps | apply qlevelStart_keeps | apply levelNotice_keeps | apply qFlush_keeps
      | (apply Keeps.foldl; intro u a hu; try dsimp only) | apply Keeps.ite | split | intro _
      | refine Keeps.written rfl rfl rfl rfl rfl rfl rfl rfl ?_

theorem queWrite_keeps {s₀ : State} (s : State) (o : Nat) (v : Word) (h_s : Keeps s₀ s) : Keeps s₀ (queWrite s o v) := by
  unfold queWrite
  try dsimp only
  with_reducible
    repeat'
      first
      | assumption | apply queCfgWrite_keeps | apply plainPut_keeps | apply qAck_keeps
      | (apply Keeps.foldl; intro u a hu; try dsimp only) | apply Keeps.ite | split | intro _
      | refine Keeps.written rfl rfl rfl rfl rfl rfl rfl rfl ?_

theorem heldPut_keeps {s₀ : State} (s : State) (a : Nat) (v : Word) (free : Bool) (h_s : Keeps s₀ s)
    : Keeps s₀ (heldPut s a v free) := by
  unfold heldPut
  try dsimp only
  with_reducible
    repeat'
      first
      | assumption | apply plainPut_keeps | (apply Keeps.foldl; intro u a hu; try dsimp only) | apply Keeps.ite | split
      | intro _ | refine Keeps.written rfl rfl rfl rfl rfl rfl rfl rfl ?_

theorem vlkWrite_keeps {s₀ : State} (s : State) (o : Nat) (v : Word) (h_s : Keeps s₀ s) : Keeps s₀ (vlkWrite s o v) := by
  unfold vlkWrite
  try dsimp only
  with_reducible
    repeat'
      first
      | assumption | apply vlkCfgWrite_keeps | apply linkReview_keeps | apply plainPut_keeps | apply heldPut_keeps
      | (apply Keeps.foldl; intro u a hu; try dsimp only) | apply Keeps.ite | split | intro _
      | refine Keeps.written rfl rfl rfl rfl rfl rfl rfl rfl ?_

theorem pinCfgWrite_keeps {s₀ : State} (s : State) (p : Nat) (v : Word) (h_s : Keeps s₀ s)
    : Keeps s₀ (pinCfgWrite s p v) := by
  unfold pinCfgWrite
  try dsimp only
  with_reducible
    repeat'
      first
      | assumption | apply State.setRf_keeps | (apply Keeps.foldl; intro u a hu; try dsimp only) | apply Keeps.ite | split
      | intro _ | refine Keeps.written rfl rfl rfl rfl rfl rfl rfl rfl ?_

theorem engCfgWrite_keeps {s₀ : State} (s : State) (e : Nat) (v : Word) (h_s : Keeps s₀ s)
    : Keeps s₀ (engCfgWrite s e v) := by
  unfold engCfgWrite
  try dsimp only
  with_reducible
    repeat'
      first
      | assumption | apply State.setReg_keeps | apply reelFlushOut_keeps | apply reelFlushIn_keeps
      | apply reelDisable_keeps | apply reelEnable_keeps | (apply Keeps.foldl; intro u a hu; try dsimp only)
      | apply Keeps.ite | split | intro _ | refine Keeps.written rfl rfl rfl rfl rfl rfl rfl rfl ?_

theorem engCtlWrite_keeps {s₀ : State} (s : State) (e : Nat) (v : Word) (h_s : Keeps s₀ s)
    : Keeps s₀ (engCtlWrite s e v) := by
  unfold engCtlWrite
  try dsimp only
  with_reducible
    repeat'
      first
      | assumption | apply reelFlushOut_keeps | apply reelRestart_keeps | apply reelFlushIn_keeps
      | (apply Keeps.foldl; intro u a hu; try dsimp only) | apply Keeps.ite | split | intro _
      | refine Keeps.written rfl rfl rfl rfl rfl rfl rfl rfl ?_

theorem engWrite_keeps {s₀ : State} (s : State) (e : Nat) (o : Nat) (v : Word) (h_s : Keeps s₀ s)
    : Keeps s₀ (engWrite s e o v) := by
  unfold engWrite
  try dsimp only
  with_reducible
    repeat'
      first
      | assumption | apply engCfgWrite_keeps | apply reelWrapSet_keeps | apply engCtlWrite_keeps | apply reelInject_keeps
      | apply heldPut_keeps | apply reelTx_keeps | (apply Keeps.foldl; intro u a hu; try dsimp only) | apply Keeps.ite
      | split | intro _ | refine Keeps.written rfl rfl rfl rfl rfl rfl rfl rfl ?_

theorem reelWrite_keeps {s₀ : State} (s : State) (o : Nat) (v : Word) (h_s : Keeps s₀ s) : Keeps s₀ (reelWrite s o v) := by
  unfold reelWrite
  try dsimp only
  with_reducible
    repeat'
      first
      | assumption | apply State.reelTurn_keeps | apply reelFlagWrite_keeps | apply pinCfgWrite_keeps
      | apply engWrite_keeps | (apply Keeps.foldl; intro u a hu; try dsimp only) | apply Keeps.ite | split | intro _
      | refine Keeps.written rfl rfl rfl rfl rfl rfl rfl rfl ?_

theorem cmpWrite_keeps {s₀ : State} (s : State) (o : Nat) (v : Word) (h_s : Keeps s₀ s) : Keeps s₀ (cmpWrite s o v) := by
  unfold cmpWrite
  try dsimp only
  with_reducible
    repeat'
      first
      | assumption | apply winCfgWrite_keeps | apply winThrWrite_keeps | apply plainPut_keeps
      | (apply Keeps.foldl; intro u a hu; try dsimp only) | apply Keeps.ite | split | intro _
      | refine Keeps.written rfl rfl rfl rfl rfl rfl rfl rfl ?_

theorem regionWrite_keeps {s₀ : State} (s : State) (n : Nat) (o : Nat) (v : Word) (h_s : Keeps s₀ s)
    : Keeps s₀ (regionWrite s n o v) := by
  unfold regionWrite
  try dsimp only
  with_reducible
    repeat'
      first
      | assumption | apply bankWrite_keeps | apply plainPut_keeps | apply pairPut_keeps
      | (apply Keeps.foldl; intro u a hu; try dsimp only) | apply Keeps.ite | split | intro _
      | refine Keeps.written rfl rfl rfl rfl rfl rfl rfl rfl ?_

theorem blockWrite_keeps {s₀ : State} (s : State) (a : Nat) (v : Word) (h_s : Keeps s₀ s) : Keeps s₀ (blockWrite s a v) := by
  unfold blockWrite
  try dsimp only
  with_reducible
    repeat'
      first
      | assumption | apply regionWrite_keeps | apply reelWrite_keeps | apply glbWrite_keeps | apply hifWrite_keeps
      | apply pwrWrite_keeps | apply plainPut_keeps | apply irqWrite_keeps | apply xfrWrite_keeps | apply queWrite_keeps
      | apply vlkWrite_keeps | apply atuWrite_keeps | apply adcWrite_keeps | apply cmpWrite_keeps
      | (apply Keeps.foldl; intro u a hu; try dsimp only) | apply Keeps.ite | split | intro _
      | refine Keeps.written rfl rfl rfl rfl rfl rfl rfl rfl ?_

theorem regWrite_keeps {s₀ : State} (s : State) (a : Nat) (v : Word) (h_s : Keeps s₀ s) : Keeps s₀ (regWrite s a v) := by
  unfold regWrite
  try dsimp only
  with_reducible
    repeat'
      first
      | assumption | apply State.configChanged_keeps | apply blockWrite_keeps
      | (apply Keeps.foldl; intro u a hu; try dsimp only) | apply Keeps.ite | split | intro _
      | refine Keeps.written rfl rfl rfl rfl rfl rfl rfl rfl ?_

theorem sealedWrite_keeps {s₀ : State} (s : State) (a : Nat) (size : Nat) (v : Word) (h_s : Keeps s₀ s)
    : Keeps s₀ (sealedWrite s a size v) := by
  unfold sealedWrite
  try dsimp only
  with_reducible
    repeat'
      first
      | assumption | apply State.refuseWrite_keeps | apply State.unFirst_keeps | apply regWrite_keeps
      | apply runStart_keeps | (apply Keeps.foldl; intro u a hu; try dsimp only) | apply Keeps.ite | split | intro _
      | refine Keeps.written rfl rfl rfl rfl rfl rfl rfl rfl ?_

theorem sealWrite_keeps {s₀ : State} (s : State) (v : Word) (hs : s.glb.isSealed = false) (h_s : Keeps s₀ s)
    : Keeps s₀ (sealWrite s v) := by
  unfold sealWrite
  split
  · exact h_s.trans ⟨rfl, le_refl _, id, id, id, fun _ h => by simp [hs] at h, id⟩
  · split
    · exact journalCommit_keeps _ _ (h_s.trans ⟨rfl, le_refl _, id, id, id, fun _ _ => rfl, id⟩)
    · exact State.unFirst_keeps _ h_s

theorem bar0Write_keeps {s₀ : State} (s : State) (a : Nat) (size : Nat) (v : BitVec 64) (h_s : Keeps s₀ s)
    : Keeps s₀ (bar0Write s a size v) := by
  unfold bar0Write
  split
  · exact msixTableWrite_keeps _ _ _ _ h_s
  · split
    · exact sealedWrite_keeps _ _ _ _ h_s
    · next hs =>
      split
      · exact State.unFirst_keeps _ h_s
      · split
        · exact sealWrite_keeps _ _ (by simpa using hs) h_s
        · exact regWrite_keeps _ _ _ (State.unFirst_keeps _ h_s)

theorem bar2Access_keeps {s₀ : State} (s : State) (a : Nat) (size : Nat) (h_s : Keeps s₀ s)
    : Keeps s₀ (bar2Access s a size) := by
  unfold bar2Access
  try dsimp only
  with_reducible
    repeat'
      first
      | assumption | apply State.answer_keeps | (apply Keeps.foldl; intro u a hu; try dsimp only) | apply Keeps.ite
      | split | intro _ | refine Keeps.written rfl rfl rfl rfl rfl rfl rfl rfl ?_

theorem configRead_keeps {s₀ : State} (s : State) (o : Nat) (h_s : Keeps s₀ s) : Keeps s₀ (configRead s o) := by
  unfold configRead
  try dsimp only
  with_reducible
    repeat'
      first
      | assumption | apply State.answer_keeps | (apply Keeps.foldl; intro u a hu; try dsimp only) | apply Keeps.ite
      | split | intro _ | refine Keeps.written rfl rfl rfl rfl rfl rfl rfl rfl ?_

theorem put32_keeps {s₀ : State} (s : State) (a : Nat) (v : Word) (h_s : Keeps s₀ s) : Keeps s₀ (put32 s a v) := by
  unfold put32
  try dsimp only
  with_reducible
    repeat'
      first
      | assumption | apply bar0Write_keeps | (apply Keeps.foldl; intro u a hu; try dsimp only) | apply Keeps.ite | split
      | intro _ | refine Keeps.written rfl rfl rfl rfl rfl rfl rfl rfl ?_

theorem putField_keeps {s₀ : State} (s : State) (a : Nat) (hi : Nat) (lo : Nat) (v : Nat) (h_s : Keeps s₀ s)
    : Keeps s₀ (putField s a hi lo v) := by
  unfold putField
  try dsimp only
  with_reducible
    repeat'
      first
      | assumption | apply put32_keeps | (apply Keeps.foldl; intro u a hu; try dsimp only) | apply Keeps.ite | split
      | intro _ | refine Keeps.written rfl rfl rfl rfl rfl rfl rfl rfl ?_

theorem hostRead_keeps {s₀ : State} (s : State) (sp : ReadSpace) (a : Nat) (size : Nat) (h_s : Keeps s₀ s)
    : Keeps s₀ (hostRead s sp a size) := by
  unfold hostRead
  try dsimp only
  with_reducible
    repeat'
      first
      | assumption | apply bar0Access_keeps | apply bar2Access_keeps | apply configRead_keeps
      | (apply Keeps.foldl; intro u a hu; try dsimp only) | apply Keeps.ite | split | intro _
      | refine Keeps.written rfl rfl rfl rfl rfl rfl rfl rfl ?_

theorem convWrite_only {m : Nat} {s₀ : State} (hm : 68719739444 ||| m = m) (s : State) (k : Nat) (o : Nat) (v : Word)
    (h_s : Only m s₀ s) : Only m s₀ (convWrite s k o v) := by
  unfold convWrite
  try dsimp only
  with_reducible
    repeat'
      first
      | assumption | exact mask_trans (by decide) hm | apply adcTimerWrite_only | apply adcCfgWrite_only
      | (apply Only.foldl; intro u a hu; try dsimp only) | apply Only.ite | split | intro _

theorem plainPut_only {m : Nat} {s₀ : State} (hm : 4 ||| m = m) (s : State) (a : Nat) (v : Word)
    (h_s : Only m s₀ s) : Only m s₀ (plainPut s a v) := by
  unfold plainPut
  try dsimp only
  with_reducible
    repeat'
      first
      | assumption | exact mask_trans (by decide) hm | apply State.setReg_only
      | (apply Only.foldl; intro u a hu; try dsimp only) | apply Only.ite | split | intro _

theorem adcWrite_only {m : Nat} {s₀ : State} (hm : 68721841140 ||| m = m) (s : State) (o : Nat) (v : Word)
    (h_s : Only m s₀ s) : Only m s₀ (adcWrite s o v) := by
  unfold adcWrite
  try dsimp only
  with_reducible
    repeat'
      first
      | assumption | exact mask_trans (by decide) hm | apply hostPressSet_only | apply adcStepPut_only
      | apply convWrite_only | apply plainPut_only | (apply Only.foldl; intro u a hu; try dsimp only) | apply Only.ite
      | split | intro _

theorem domCfgWrite_only {m : Nat} {s₀ : State} (hm : 104267644924 ||| m = m) (s : State) (d : Nat) (v : Word)
    (h_s : Only m s₀ s) : Only m s₀ (domCfgWrite s d v) := by
  unfold domCfgWrite
  try dsimp only
  with_reducible
    repeat'
      first
      | assumption | exact mask_trans (by decide) hm | apply domainDisable_only | apply State.setReg_only
      | apply domainEnable_only | apply linkReview_only | apply toNone_only
      | (apply Only.foldl; intro u a hu; try dsimp only) | apply Only.ite | split | intro _

theorem pairPut_only {m : Nat} {s₀ : State} (hm : 4 ||| m = m) (s : State) (a : Nat) (hh : Nat) (hl : Nat) (lh : Nat)
    (ll : Nat) (v : Word) (h_s : Only m s₀ s) : Only m s₀ (pairPut s a hh hl lh ll v) := by
  unfold pairPut
  try dsimp only
  with_reducible
    repeat'
      first
      | assumption | exact mask_trans (by decide) hm | apply State.setReg_only
      | (apply Only.foldl; intro u a hu; try dsimp only) | apply Only.ite | split | intro _

theorem domWrite_only {m : Nat} {s₀ : State} (hm : 104284422140 ||| m = m) (s : State) (d : Nat) (o : Nat) (v : Word)
    (h_s : Only m s₀ s) : Only m s₀ (domWrite s d o v) := by
  unfold domWrite
  try dsimp only
  with_reducible
    repeat'
      first
      | assumption | exact mask_trans (by decide) hm | apply domCfgWrite_only | apply ncylWritten_only
      | apply learnStart_only | apply learnAbort_only | apply plainPut_only | apply pairPut_only | apply toNone_only
      | (apply Only.foldl; intro u a hu; try dsimp only) | apply Only.ite | split | intro _

theorem atuWrite_only {m : Nat} {s₀ : State} (hm : 104284553212 ||| m = m) (s : State) (o : Nat) (v : Word)
    (h_s : Only m s₀ s) : Only m s₀ (atuWrite s o v) := by
  unfold atuWrite
  try dsimp only
  with_reducible
    repeat'
      first
      | assumption | exact mask_trans (by decide) hm | apply syncCancel_only | apply domWrite_only | apply plainPut_only
      | apply syncArm_only | (apply Only.foldl; intro u a hu; try dsimp only) | apply Only.ite | split | intro _

theorem bankWrite_only {m : Nat} {s₀ : State} (hm : 68720802804 ||| m = m) (s : State) (b : Nat) (o : Nat) (v : Word)
    (h_s : Only m s₀ s) : Only m s₀ (bankWrite s b o v) := by
  unfold bankWrite
  try dsimp only
  with_reducible
    repeat'
      first
      | assumption | exact mask_trans (by decide) hm | apply chanCfgWrite_only | apply chanCtlWrite_only
      | apply winThrWrite_only | apply bankResume_only | apply adcStepPut_only | apply convWrite_only
      | apply plainPut_only | (apply Only.foldl; intro u a hu; try dsimp only) | apply Only.ite | split | intro _

theorem dtimeRead_only {m : Nat} {s₀ : State} (hm : 18 ||| m = m) (s : State)
    (h_s : Only m s₀ s) : Only m s₀ (dtimeRead s) := by
  unfold dtimeRead
  try dsimp only
  with_reducible
    repeat'
      first
      | assumption | exact .inr (mask_bit hm (by decide)) | exact .inl rfl | exact mask_trans (by decide) hm
      | apply State.answer_only | (apply Only.foldl; intro u a hu; try dsimp only) | apply Only.ite | split | intro _
      | refine Only.written rfl ?_ ?_ ?_ ?_ ?_ ?_ ?_ ?_ ?_ ?_ ?_ ?_ ?_ ?_ ?_ ?_ ?_ ?_ ?_ ?_ ?_ ?_ ?_ ?_ ?_ ?_ ?_ ?_ ?_ ?_ ?_ ?_ ?_ ?_ ?_ ?_ ?_ ?_

theorem dtimeHighRead_only {m : Nat} {s₀ : State} (hm : 18 ||| m = m) (s : State)
    (h_s : Only m s₀ s) : Only m s₀ (dtimeHighRead s) := by
  unfold dtimeHighRead
  try dsimp only
  with_reducible
    repeat'
      first
      | assumption | exact .inr (mask_bit hm (by decide)) | exact .inl rfl | exact mask_trans (by decide) hm
      | apply State.answer_only | (apply Only.foldl; intro u a hu; try dsimp only) | apply Only.ite | split | intro _
      | refine Only.written rfl ?_ ?_ ?_ ?_ ?_ ?_ ?_ ?_ ?_ ?_ ?_ ?_ ?_ ?_ ?_ ?_ ?_ ?_ ?_ ?_ ?_ ?_ ?_ ?_ ?_ ?_ ?_ ?_ ?_ ?_ ?_ ?_ ?_ ?_ ?_ ?_ ?_ ?_

theorem hostClaim_only {m : Nat} {s₀ : State} (hm : 529 ||| m = m) (s : State) (t : Nat)
    (h_s : Only m s₀ s) : Only m s₀ (hostClaim s t) := by
  unfold hostClaim
  try dsimp only
  with_reducible
    repeat'
      first
      | assumption | exact mask_trans (by decide) hm | apply State.answer_only | apply State.claim_only
      | (apply Only.foldl; intro u a hu; try dsimp only) | apply Only.ite | split | intro _

theorem bar0Read_only {m : Nat} {s₀ : State} (hm : 1587 ||| m = m) (s : State) (a : Nat)
    (h_s : Only m s₀ s) : Only m s₀ (bar0Read s a) := by
  unfold bar0Read
  try dsimp only
  with_reducible
    repeat'
      first
      | assumption | exact .inr (mask_bit hm (by decide)) | exact .inl rfl | exact mask_trans (by decide) hm
      | apply dtimeHighRead_only | apply State.answer_only | apply dtimeRead_only | apply hostClaim_only
      | apply reelRx_only | (apply Only.foldl; intro u a hu; try dsimp only) | apply Only.ite | split | intro _
      | refine Only.written rfl ?_ ?_ ?_ ?_ ?_ ?_ ?_ ?_ ?_ ?_ ?_ ?_ ?_ ?_ ?_ ?_ ?_ ?_ ?_ ?_ ?_ ?_ ?_ ?_ ?_ ?_ ?_ ?_ ?_ ?_ ?_ ?_ ?_ ?_ ?_ ?_ ?_ ?_

theorem bar0Access_only {m : Nat} {s₀ : State} (hm : 1587 ||| m = m) (s : State) (a : Nat) (size : Nat)
    (h_s : Only m s₀ s) : Only m s₀ (bar0Access s a size) := by
  unfold bar0Access
  try dsimp only
  with_reducible
    repeat'
      first
      | assumption | exact mask_trans (by decide) hm | apply State.answer_only | apply bar0Read_only
      | (apply Only.foldl; intro u a hu; try dsimp only) | apply Only.ite | split | intro _

theorem glbWrite_only {m : Nat} {s₀ : State} (hm : 33554998 ||| m = m) (s : State) (a : Nat) (v : Word)
    (h_s : Only m s₀ s) : Only m s₀ (glbWrite s a v) := by
  unfold glbWrite
  try dsimp only
  with_reducible
    repeat'
      first
      | assumption | exact .inr (mask_bit hm (by decide)) | exact .inl rfl | exact mask_trans (by decide) hm
      | apply State.setReg_only | apply modeRequest_only | apply plainPut_only
      | (apply Only.foldl; intro u a hu; try dsimp only) | apply Only.ite | split | intro _
      | refine Only.written rfl ?_ ?_ ?_ ?_ ?_ ?_ ?_ ?_ ?_ ?_ ?_ ?_ ?_ ?_ ?_ ?_ ?_ ?_ ?_ ?_ ?_ ?_ ?_ ?_ ?_ ?_ ?_ ?_ ?_ ?_ ?_ ?_ ?_ ?_ ?_ ?_ ?_ ?_

theorem hifWrite_only {m : Nat} {s₀ : State} (hm : 36 ||| m = m) (s : State) (a : Nat) (v : Word)
    (h_s : Only m s₀ s) : Only m s₀ (hifWrite s a v) := by
  unfold hifWrite
  try dsimp only
  with_reducible
    repeat'
      first
      | assumption | exact mask_trans (by decide) hm | apply clearHostReset_only | apply State.setRf_only
      | apply runAccepted_only | apply plainPut_only | (apply Only.foldl; intro u a hu; try dsimp only) | apply Only.ite
      | split | intro _

theorem pwrWrite_only {m : Nat} {s₀ : State} (hm : 3221225476 ||| m = m) (s : State) (a : Nat) (v : Word)
    (h_s : Only m s₀ s) : Only m s₀ (pwrWrite s a v) := by
  unfold pwrWrite
  try dsimp only
  with_reducible
    repeat'
      first
      | assumption | exact mask_trans (by decide) hm | apply journalCommit_only | apply plainPut_only | apply duskReq_only
      | apply pllAsk_only | (apply Only.foldl; intro u a hu; try dsimp only) | apply Only.ite | split | intro _

theorem irqWrite_only {m : Nat} {s₀ : State} (hm : 549 ||| m = m) (s : State) (o : Nat) (v : Word)
    (h_s : Only m s₀ s) : Only m s₀ (irqWrite s o v) := by
  unfold irqWrite
  try dsimp only
  with_reducible
    repeat'
      first
      | assumption | exact .inr (mask_bit hm (by decide)) | exact .inl rfl | exact mask_trans (by decide) hm
      | apply State.irqReview_only | apply State.complete_only | apply idleWrite_only | apply plainPut_only
      | apply pendSet_only | apply enWrite_only | (apply Only.foldl; intro u a hu; try dsimp only) | apply Only.ite
      | split | intro _
      | refine Only.written rfl ?_ ?_ ?_ ?_ ?_ ?_ ?_ ?_ ?_ ?_ ?_ ?_ ?_ ?_ ?_ ?_ ?_ ?_ ?_ ?_ ?_ ?_ ?_ ?_ ?_ ?_ ?_ ?_ ?_ ?_ ?_ ?_ ?_ ?_ ?_ ?_ ?_ ?_

theorem xfrWrite_only {m : Nat} {s₀ : State} (hm : 1012 ||| m = m) (s : State) (o : Nat) (v : Word)
    (h_s : Only m s₀ s) : Only m s₀ (xfrWrite s o v) := by
  unfold xfrWrite
  try dsimp only
  with_reducible
    repeat'
      first
      | assumption | exact mask_trans (by decide) hm | apply xfrTimerWrite_only | apply xfrCtlStart_only
      | apply plainPut_only | apply xfrStop_only | (apply Only.foldl; intro u a hu; try dsimp only) | apply Only.ite
      | split | intro _

theorem queCfgWrite_only {m : Nat} {s₀ : State} (hm : 756 ||| m = m) (s : State) (q : Nat) (v : Word)
    (h_s : Only m s₀ s) : Only m s₀ (queCfgWrite s q v) := by
  unfold queCfgWrite
  try dsimp only
  with_reducible
    repeat'
      first
      | assumption | exact mask_trans (by decide) hm | apply State.setReg_only | apply qlevelStart_only
      | apply levelNotice_only | apply qFlush_only | (apply Only.foldl; intro u a hu; try dsimp only) | apply Only.ite
      | split | intro _

theorem queWrite_only {m : Nat} {s₀ : State} (hm : 1012 ||| m = m) (s : State) (o : Nat) (v : Word)
    (h_s : Only m s₀ s) : Only m s₀ (queWrite s o v) := by
  unfold queWrite
  try dsimp only
  with_reducible
    repeat'
      first
      | assumption | exact .inr (mask_bit hm (by decide)) | exact .inl rfl | exact mask_trans (by decide) hm
      | apply queCfgWrite_only | apply plainPut_only | apply qAck_only | (apply Only.foldl; intro u a hu; try dsimp only)
      | apply Only.ite | split | intro _
      | refine Only.written rfl ?_ ?_ ?_ ?_ ?_ ?_ ?_ ?_ ?_ ?_ ?_ ?_ ?_ ?_ ?_ ?_ ?_ ?_ ?_ ?_ ?_ ?_ ?_ ?_ ?_ ?_ ?_ ?_ ?_ ?_ ?_ ?_ ?_ ?_ ?_ ?_ ?_ ?_

theorem heldPut_only {m : Nat} {s₀ : State} (hm : 4 ||| m = m) (s : State) (a : Nat) (v : Word) (free : Bool)
    (h_s : Only m s₀ s) : Only m s₀ (heldPut s a v free) := by
  unfold heldPut
  try dsimp only
  with_reducible
    repeat'
      first
      | assumption | exact mask_trans (by decide) hm | apply plainPut_only
      | (apply Only.foldl; intro u a hu; try dsimp only) | apply Only.ite | split | intro _

theorem vlkWrite_only {m : Nat} {s₀ : State} (hm : 104536080380 ||| m = m) (s : State) (o : Nat) (v : Word)
    (h_s : Only m s₀ s) : Only m s₀ (vlkWrite s o v) := by
  unfold vlkWrite
  try dsimp only
  with_reducible
    repeat'
      first
      | assumption | exact mask_trans (by decide) hm | apply vlkCfgWrite_only | apply linkReview_only
      | apply plainPut_only | apply heldPut_only | (apply Only.foldl; intro u a hu; try dsimp only) | apply Only.ite
      | split | intro _

theorem pinCfgWrite_only {m : Nat} {s₀ : State} (hm : 4 ||| m = m) (s : State) (p : Nat) (v : Word)
    (h_s : Only m s₀ s) : Only m s₀ (pinCfgWrite s p v) := by
  unfold pinCfgWrite
  try dsimp only
  with_reducible
    repeat'
      first
      | assumption | exact mask_trans (by decide) hm | apply State.setRf_only
      | (apply Only.foldl; intro u a hu; try dsimp only) | apply Only.ite | split | intro _

theorem engCfgWrite_only {m : Nat} {s₀ : State} (hm : 1028 ||| m = m) (s : State) (e : Nat) (v : Word)
    (h_s : Only m s₀ s) : Only m s₀ (engCfgWrite s e v) := by
  unfold engCfgWrite
  try dsimp only
  with_reducible
    repeat'
      first
      | assumption | exact mask_trans (by decide) hm | apply State.setReg_only | apply reelFlushOut_only
      | apply reelFlushIn_only | apply reelDisable_only | apply reelEnable_only
      | (apply Only.foldl; intro u a hu; try dsimp only) | apply Only.ite | split | intro _

theorem engCtlWrite_only {m : Nat} {s₀ : State} (hm : 1024 ||| m = m) (s : State) (e : Nat) (v : Word)
    (h_s : Only m s₀ s) : Only m s₀ (engCtlWrite s e v) := by
  unfold engCtlWrite
  try dsimp only
  with_reducible
    repeat'
      first
      | assumption | exact mask_trans (by decide) hm | apply reelFlushOut_only | apply reelRestart_only
      | apply reelFlushIn_only | (apply Only.foldl; intro u a hu; try dsimp only) | apply Only.ite | split | intro _

theorem engWrite_only {m : Nat} {s₀ : State} (hm : 1028 ||| m = m) (s : State) (e : Nat) (o : Nat) (v : Word)
    (h_s : Only m s₀ s) : Only m s₀ (engWrite s e o v) := by
  unfold engWrite
  try dsimp only
  with_reducible
    repeat'
      first
      | assumption | exact mask_trans (by decide) hm | apply engCfgWrite_only | apply reelWrapSet_only
      | apply engCtlWrite_only | apply reelInject_only | apply heldPut_only | apply reelTx_only
      | (apply Only.foldl; intro u a hu; try dsimp only) | apply Only.ite | split | intro _

theorem reelWrite_only {m : Nat} {s₀ : State} (hm : 1029 ||| m = m) (s : State) (o : Nat) (v : Word)
    (h_s : Only m s₀ s) : Only m s₀ (reelWrite s o v) := by
  unfold reelWrite
  try dsimp only
  with_reducible
    repeat'
      first
      | assumption | exact mask_trans (by decide) hm | apply State.reelTurn_only | apply reelFlagWrite_only
      | apply pinCfgWrite_only | apply engWrite_only | (apply Only.foldl; intro u a hu; try dsimp only) | apply Only.ite
      | split | intro _

theorem cmpWrite_only {m : Nat} {s₀ : State} (hm : 1048580 ||| m = m) (s : State) (o : Nat) (v : Word)
    (h_s : Only m s₀ s) : Only m s₀ (cmpWrite s o v) := by
  unfold cmpWrite
  try dsimp only
  with_reducible
    repeat'
      first
      | assumption | exact mask_trans (by decide) hm | apply winCfgWrite_only | apply winThrWrite_only
      | apply plainPut_only | (apply Only.foldl; intro u a hu; try dsimp only) | apply Only.ite | split | intro _

theorem regionWrite_only {m : Nat} {s₀ : State} (hm : 68720802804 ||| m = m) (s : State) (n : Nat) (o : Nat) (v : Word)
    (h_s : Only m s₀ s) : Only m s₀ (regionWrite s n o v) := by
  unfold regionWrite
  try dsimp only
  with_reducible
    repeat'
      first
      | assumption | exact mask_trans (by decide) hm | apply bankWrite_only | apply plainPut_only | apply pairPut_only
      | (apply Only.foldl; intro u a hu; try dsimp only) | apply Only.ite | split | intro _

theorem blockWrite_only {m : Nat} {s₀ : State} (hm : 106702569471 ||| m = m) (s : State) (a : Nat) (v : Word)
    (h_s : Only m s₀ s) : Only m s₀ (blockWrite s a v) := by
  unfold blockWrite
  try dsimp only
  with_reducible
    repeat'
      first
      | assumption | exact mask_trans (by decide) hm | apply regionWrite_only | apply reelWrite_only | apply glbWrite_only
      | apply hifWrite_only | apply pwrWrite_only | apply plainPut_only | apply irqWrite_only | apply xfrWrite_only
      | apply queWrite_only | apply vlkWrite_only | apply atuWrite_only | apply adcWrite_only | apply cmpWrite_only
      | (apply Only.foldl; intro u a hu; try dsimp only) | apply Only.ite | split | intro _

theorem regWrite_only {m : Nat} {s₀ : State} (hm : 106702569471 ||| m = m) (s : State) (a : Nat) (v : Word)
    (h_s : Only m s₀ s) : Only m s₀ (regWrite s a v) := by
  unfold regWrite
  try dsimp only
  with_reducible
    repeat'
      first
      | assumption | exact mask_trans (by decide) hm | apply State.configChanged_only | apply blockWrite_only
      | (apply Only.foldl; intro u a hu; try dsimp only) | apply Only.ite | split | intro _

theorem sealedWrite_only {m : Nat} {s₀ : State} (hm : 106702569471 ||| m = m) (s : State) (a : Nat) (size : Nat)
    (v : Word) (h_s : Only m s₀ s) : Only m s₀ (sealedWrite s a size v) := by
  unfold sealedWrite
  try dsimp only
  with_reducible
    repeat'
      first
      | assumption | exact mask_trans (by decide) hm | apply State.refuseWrite_only | apply State.unFirst_only
      | apply regWrite_only | apply runStart_only | (apply Only.foldl; intro u a hu; try dsimp only) | apply Only.ite
      | split | intro _

theorem sealWrite_only {m : Nat} {s₀ : State} (hm : 1073741826 ||| m = m) (s : State) (v : Word)
    (h_s : Only m s₀ s) : Only m s₀ (sealWrite s v) := by
  unfold sealWrite
  try dsimp only
  with_reducible
    repeat'
      first
      | assumption | exact .inr (mask_bit hm (by decide)) | exact .inl rfl | exact mask_trans (by decide) hm
      | apply journalCommit_only | apply State.unFirst_only | (apply Only.foldl; intro u a hu; try dsimp only)
      | apply Only.ite | split | intro _
      | refine Only.written rfl ?_ ?_ ?_ ?_ ?_ ?_ ?_ ?_ ?_ ?_ ?_ ?_ ?_ ?_ ?_ ?_ ?_ ?_ ?_ ?_ ?_ ?_ ?_ ?_ ?_ ?_ ?_ ?_ ?_ ?_ ?_ ?_ ?_ ?_ ?_ ?_ ?_ ?_

theorem bar0Write_only {m : Nat} {s₀ : State} (hm : 106702569471 ||| m = m) (s : State) (a : Nat) (size : Nat)
    (v : BitVec 64) (h_s : Only m s₀ s) : Only m s₀ (bar0Write s a size v) := by
  unfold bar0Write
  try dsimp only
  with_reducible
    repeat'
      first
      | assumption | exact mask_trans (by decide) hm | apply msixTableWrite_only | apply State.unFirst_only
      | apply sealedWrite_only | apply sealWrite_only | apply regWrite_only
      | (apply Only.foldl; intro u a hu; try dsimp only) | apply Only.ite | split | intro _

theorem bar2Access_only {m : Nat} {s₀ : State} (hm : 16 ||| m = m) (s : State) (a : Nat) (size : Nat)
    (h_s : Only m s₀ s) : Only m s₀ (bar2Access s a size) := by
  unfold bar2Access
  try dsimp only
  with_reducible
    repeat'
      first
      | assumption | exact mask_trans (by decide) hm | apply State.answer_only
      | (apply Only.foldl; intro u a hu; try dsimp only) | apply Only.ite | split | intro _

theorem configRead_only {m : Nat} {s₀ : State} (hm : 68719476752 ||| m = m) (s : State) (o : Nat)
    (h_s : Only m s₀ s) : Only m s₀ (configRead s o) := by
  unfold configRead
  try dsimp only
  with_reducible
    repeat'
      first
      | assumption | exact .inr (mask_bit hm (by decide)) | exact .inl rfl | exact mask_trans (by decide) hm
      | apply State.answer_only | (apply Only.foldl; intro u a hu; try dsimp only) | apply Only.ite | split | intro _
      | refine Only.written rfl ?_ ?_ ?_ ?_ ?_ ?_ ?_ ?_ ?_ ?_ ?_ ?_ ?_ ?_ ?_ ?_ ?_ ?_ ?_ ?_ ?_ ?_ ?_ ?_ ?_ ?_ ?_ ?_ ?_ ?_ ?_ ?_ ?_ ?_ ?_ ?_ ?_ ?_

theorem put32_only {m : Nat} {s₀ : State} (hm : 106702569471 ||| m = m) (s : State) (a : Nat) (v : Word)
    (h_s : Only m s₀ s) : Only m s₀ (put32 s a v) := by
  unfold put32
  try dsimp only
  with_reducible
    repeat'
      first
      | assumption | exact mask_trans (by decide) hm | apply bar0Write_only
      | (apply Only.foldl; intro u a hu; try dsimp only) | apply Only.ite | split | intro _

theorem putField_only {m : Nat} {s₀ : State} (hm : 106702569471 ||| m = m) (s : State) (a : Nat) (hi : Nat) (lo : Nat)
    (v : Nat) (h_s : Only m s₀ s) : Only m s₀ (putField s a hi lo v) := by
  unfold putField
  try dsimp only
  with_reducible
    repeat'
      first
      | assumption | exact mask_trans (by decide) hm | apply put32_only | (apply Only.foldl; intro u a hu; try dsimp only)
      | apply Only.ite | split | intro _

theorem hostRead_only {m : Nat} {s₀ : State} (hm : 68719478323 ||| m = m) (s : State) (sp : ReadSpace) (a : Nat)
    (size : Nat) (h_s : Only m s₀ s) : Only m s₀ (hostRead s sp a size) := by
  unfold hostRead
  try dsimp only
  with_reducible
    repeat'
      first
      | assumption | exact mask_trans (by decide) hm | apply bar0Access_only | apply bar2Access_only
      | apply configRead_only | (apply Only.foldl; intro u a hu; try dsimp only) | apply Only.ite | split | intro _

end Sys2Proof.Machine
end

