-- ==== Sys2Proof/Laws/CfgWrite.lean ====
section
/-!
SUPPORT. Machine/CfgWrite.lean: every operation of it keeps what `Keeps` says, and changes only the parts of its mask.
-/
set_option linter.unusedTactic false
set_option linter.unreachableTactic false
set_option linter.unusedVariables false

namespace Sys2Proof.Machine

theorem cfgPut_keeps {s₀ : State} (s : State) (a : Nat) (m : Word) (v : Word) (h_s : Keeps s₀ s)
    : Keeps s₀ (cfgPut s a m v) := by
  unfold cfgPut
  try dsimp only
  with_reducible
    repeat'
      first
      | assumption | apply State.configChanged_keeps | apply plainPut_keeps | apply regWrite_keeps
      | (apply Keeps.foldl; intro u a hu; try dsimp only) | apply Keeps.ite | split | intro _
      | refine Keeps.written rfl rfl rfl rfl rfl rfl rfl rfl ?_

theorem cfgApply_keeps {s₀ : State} (s : State) (es : List CfgEntry) (h_s : Keeps s₀ s) : Keeps s₀ (cfgApply s es) := by
  unfold cfgApply
  try dsimp only
  with_reducible
    repeat'
      first
      | assumption | apply State.irqReview_keeps | apply cfgPut_keeps | (apply Keeps.foldl; intro u a hu; try dsimp only)
      | apply Keeps.ite | split | intro _ | refine Keeps.written rfl rfl rfl rfl rfl rfl rfl rfl ?_

theorem cfgClassErr_keeps {s₀ : State} (s : State) (es : List CfgEntry) (e : CfgEntry) (h_s : Keeps s₀ s)
    : Keeps s₀ (cfgClassErr s es e) := by
  unfold cfgClassErr
  try dsimp only
  with_reducible
    repeat'
      first
      | assumption | apply State.setCell_keeps | (apply Keeps.foldl; intro u a hu; try dsimp only) | apply Keeps.ite
      | split | intro _ | refine Keeps.written rfl rfl rfl rfl rfl rfl rfl rfl ?_

theorem doCfgWrite_keeps {s₀ : State} (s : State) (c : Fetched) (h_s : Keeps s₀ s) : Keeps s₀ (doCfgWrite s c).2 := by
  unfold doCfgWrite
  try dsimp only
  with_reducible
    repeat'
      first
      | assumption | apply cfgClassErr_keeps | apply cfgApply_keeps | (apply Keeps.foldl; intro u a hu; try dsimp only)
      | apply Keeps.ite | split | intro _ | refine Keeps.written rfl rfl rfl rfl rfl rfl rfl rfl ?_

theorem cfgPut_only {m : Nat} {s₀ : State} (hm : 106702569471 ||| m = m) (s : State) (a : Nat) (m3 : Word) (v : Word)
    (h_s : Only m s₀ s) : Only m s₀ (cfgPut s a m3 v) := by
  unfold cfgPut
  try dsimp only
  with_reducible
    repeat'
      first
      | assumption | exact mask_trans (by decide) hm | apply State.configChanged_only | apply plainPut_only
      | apply regWrite_only | (apply Only.foldl; intro u a hu; try dsimp only) | apply Only.ite | split | intro _

theorem cfgApply_only {m : Nat} {s₀ : State} (hm : 106702569471 ||| m = m) (s : State) (es : List CfgEntry)
    (h_s : Only m s₀ s) : Only m s₀ (cfgApply s es) := by
  unfold cfgApply
  try dsimp only
  with_reducible
    repeat'
      first
      | assumption | exact mask_trans (by decide) hm | apply State.irqReview_only | apply cfgPut_only
      | (apply Only.foldl; intro u a hu; try dsimp only) | apply Only.ite | split | intro _

theorem cfgClassErr_only {m : Nat} {s₀ : State} (hm : 2048 ||| m = m) (s : State) (es : List CfgEntry) (e : CfgEntry)
    (h_s : Only m s₀ s) : Only m s₀ (cfgClassErr s es e) := by
  unfold cfgClassErr
  try dsimp only
  with_reducible
    repeat'
      first
      | assumption | exact mask_trans (by decide) hm | apply State.setCell_only
      | (apply Only.foldl; intro u a hu; try dsimp only) | apply Only.ite | split | intro _

theorem doCfgWrite_only {m : Nat} {s₀ : State} (hm : 106702569471 ||| m = m) (s : State) (c : Fetched)
    (h_s : Only m s₀ s) : Only m s₀ (doCfgWrite s c).2 := by
  unfold doCfgWrite
  try dsimp only
  with_reducible
    repeat'
      first
      | assumption | exact mask_trans (by decide) hm | apply cfgClassErr_only | apply cfgApply_only
      | (apply Only.foldl; intro u a hu; try dsimp only) | apply Only.ite | split | intro _

end Sys2Proof.Machine
end

