-- ==== Sys2Proof/Laws/Cmds.lean ====
section
/-!
SUPPORT. Machine/Cmds.lean: every operation of it keeps what `Keeps` says, and changes only the parts of its mask.
-/
set_option linter.unusedTactic false
set_option linter.unreachableTactic false
set_option linter.unusedVariables false

namespace Sys2Proof.Machine

theorem State.configIf_keeps {s₀ : State} (s : State) (k : Nat) (h_s : Keeps s₀ s) : Keeps s₀ (State.configIf s k) := by
  unfold State.configIf
  try dsimp only
  with_reducible
    repeat'
      first
      | assumption | apply State.configChanged_keeps | (apply Keeps.foldl; intro u a hu; try dsimp only) | apply Keeps.ite
      | split | intro _ | refine Keeps.written rfl rfl rfl rfl rfl rfl rfl rfl ?_

theorem withStatus_keeps {s₀ : State} (k : Nat) (r0 : Word) (r1 : Word) (s : State) (h_s : Keeps s₀ s)
    : Keeps s₀ (withStatus k r0 r1 s).2 := by
  unfold withStatus
  try dsimp only
  with_reducible
    repeat'
      first
      | assumption | (apply Keeps.foldl; intro u a hu; try dsimp only) | apply Keeps.ite | split | intro _
      | refine Keeps.written rfl rfl rfl rfl rfl rfl rfl rfl ?_

theorem done_keeps {s₀ : State} (r0 : Word) (r1 : Word) (s : State) (h_s : Keeps s₀ s) : Keeps s₀ (done r0 r1 s).2 := by
  unfold done
  try dsimp only
  with_reducible
    repeat'
      first
      | assumption | (apply Keeps.foldl; intro u a hu; try dsimp only) | apply Keeps.ite | split | intro _
      | refine Keeps.written rfl rfl rfl rfl rfl rfl rfl rfl ?_

theorem areaWrite_keeps {s₀ : State} (s : State) (area : TArea) (l : List (Nat × Word)) (h_s : Keeps s₀ s)
    : Keeps s₀ (areaWrite s area l).2 := by
  unfold areaWrite
  try dsimp only
  with_reducible
    repeat'
      first
      | assumption | apply State.configChanged_keeps | apply profileTouched_keeps | apply withStatus_keeps
      | apply storeWords_keeps | apply tableFails_keeps | apply tableTake_keeps | apply balStore_keeps | apply done_keeps
      | (apply Keeps.foldl; intro u a hu; try dsimp only) | apply Keeps.ite | split | intro _
      | refine Keeps.written rfl rfl rfl rfl rfl rfl rfl rfl ?_

theorem endSafeHold_keeps {s₀ : State} (s : State) (h_s : Keeps s₀ s) : Keeps s₀ (endSafeHold s) := by
  unfold endSafeHold
  try dsimp only
  with_reducible
    repeat'
      first
      | assumption | apply roundArmed_keeps | apply reelReview_keeps | (apply Keeps.foldl; intro u a hu; try dsimp only)
      | apply Keeps.ite | split | intro _ | refine Keeps.written rfl rfl rfl rfl rfl rfl rfl rfl ?_

theorem doArm_keeps {s₀ : State} (s : State) (c : Fetched) (h_s : Keeps s₀ s) : Keeps s₀ (doArm s c).2 := by
  unfold doArm
  try dsimp only
  with_reducible
    repeat'
      first
      | assumption | apply endSafeHold_keeps | apply withStatus_keeps | apply done_keeps
      | (apply Keeps.foldl; intro u a hu; try dsimp only) | apply Keeps.ite | split | intro _
      | refine Keeps.written rfl rfl rfl rfl rfl rfl rfl rfl ?_

theorem armCmd_keeps {s₀ : State} (r : Nat) (s : State) (h_s : Keeps s₀ s) : Keeps s₀ (armCmd r s) := by
  unfold armCmd
  try dsimp only
  with_reducible
    repeat'
      first
      | assumption | apply ringCmd_keeps | apply doArm_keeps | (apply Keeps.foldl; intro u a hu; try dsimp only)
      | apply Keeps.ite | split | intro _ | refine Keeps.written rfl rfl rfl rfl rfl rfl rfl rfl ?_

theorem badPayload_keeps {s₀ : State} (h1 : Nat) (s : State) (h_s : Keeps s₀ s) : Keeps s₀ (badPayload h1 s).2 := by
  unfold badPayload
  try dsimp only
  with_reducible
    repeat'
      first
      | assumption | (apply Keeps.foldl; intro u a hu; try dsimp only) | apply Keeps.ite | split | intro _
      | refine Keeps.written rfl rfl rfl rfl rfl rfl rfl rfl ?_

theorem chipResetCmd_keeps {s₀ : State} (r : Nat) (s : State) (h_s : Keeps s₀ s) : Keeps s₀ (chipResetCmd r s) := by
  unfold chipResetCmd
  try dsimp only
  with_reducible
    repeat'
      first
      | assumption | apply deviceReset_keeps | apply finish_keeps | (apply Keeps.foldl; intro u a hu; try dsimp only)
      | apply Keeps.ite | split | intro _ | refine Keeps.written rfl rfl rfl rfl rfl rfl rfl rfl ?_

theorem countCmd_keeps {s₀ : State} (s : State) (u : Nat) (k : Nat) (h_s : Keeps s₀ s) : Keeps s₀ (countCmd s u k) := by
  unfold countCmd
  try dsimp only
  with_reducible
    repeat'
      first
      | assumption | apply State.setUnit_keeps | (apply Keeps.foldl; intro u a hu; try dsimp only) | apply Keeps.ite
      | split | intro _ | refine Keeps.written rfl rfl rfl rfl rfl rfl rfl rfl ?_

theorem doAdcStepWrite_keeps {s₀ : State} (s : State) (c : Fetched) (h_s : Keeps s₀ s)
    : Keeps s₀ (doAdcStepWrite s c).2 := by
  unfold doAdcStepWrite
  try dsimp only
  with_reducible
    repeat'
      first
      | assumption | apply State.configChanged_keeps | apply withStatus_keeps | apply adcStepPut_keeps | apply done_keeps
      | (apply Keeps.foldl; intro u a hu; try dsimp only) | apply Keeps.ite | split | intro _
      | refine Keeps.written rfl rfl rfl rfl rfl rfl rfl rfl ?_

theorem doDomainCancel_keeps {s₀ : State} (s : State) (c : Fetched) (h_s : Keeps s₀ s)
    : Keeps s₀ (doDomainCancel s c).2 := by
  unfold doDomainCancel
  try dsimp only
  with_reducible
    repeat'
      first
      | assumption | apply domainCancel_keeps | apply countCmd_keeps | apply done_keeps
      | (apply Keeps.foldl; intro u a hu; try dsimp only) | apply Keeps.ite | split | intro _
      | refine Keeps.written rfl rfl rfl rfl rfl rfl rfl rfl ?_

theorem doFaultLogClear_keeps {s₀ : State} (s : State) (x2 : Fetched) (h_s : Keeps s₀ s)
    : Keeps s₀ (doFaultLogClear s x2).2 := by
  unfold doFaultLogClear
  try dsimp only
  with_reducible
    repeat'
      first
      | assumption | apply faultLogClear_keeps | apply done_keeps | (apply Keeps.foldl; intro u a hu; try dsimp only)
      | apply Keeps.ite | split | intro _ | refine Keeps.written rfl rfl rfl rfl rfl rfl rfl rfl ?_

theorem doFwActivate_keeps {s₀ : State} (s : State) (x2 : Fetched) (h_s : Keeps s₀ s) : Keeps s₀ (doFwActivate s x2).2 := by
  unfold doFwActivate
  try dsimp only
  with_reducible
    repeat'
      first
      | assumption | apply withStatus_keeps | apply fwActivate_keeps | (apply Keeps.foldl; intro u a hu; try dsimp only)
      | apply Keeps.ite | split | intro _ | refine Keeps.written rfl rfl rfl rfl rfl rfl rfl rfl ?_

theorem doFwCancel_keeps {s₀ : State} (s : State) (x2 : Fetched) (h_s : Keeps s₀ s) : Keeps s₀ (doFwCancel s x2).2 := by
  unfold doFwCancel
  try dsimp only
  with_reducible
    repeat'
      first
      | assumption | apply fwCancel_keeps | apply done_keeps | (apply Keeps.foldl; intro u a hu; try dsimp only)
      | apply Keeps.ite | split | intro _ | refine Keeps.written rfl rfl rfl rfl rfl rfl rfl rfl ?_

theorem doFwVerify_keeps {s₀ : State} (s : State) (x2 : Fetched) (h_s : Keeps s₀ s) : Keeps s₀ (doFwVerify s x2).2 := by
  unfold doFwVerify
  try dsimp only
  with_reducible
    repeat'
      first
      | assumption | apply withStatus_keeps | apply fwVerify_keeps | (apply Keeps.foldl; intro u a hu; try dsimp only)
      | apply Keeps.ite | split | intro _ | refine Keeps.written rfl rfl rfl rfl rfl rfl rfl rfl ?_

theorem doFwWrite_keeps {s₀ : State} (s : State) (c : Fetched) (h_s : Keeps s₀ s) : Keeps s₀ (doFwWrite s c).2 := by
  unfold doFwWrite
  try dsimp only
  with_reducible
    repeat'
      first
      | assumption | apply badPayload_keeps | apply withStatus_keeps | apply fwWrite_keeps
      | (apply Keeps.foldl; intro u a hu; try dsimp only) | apply Keeps.ite | split | intro _
      | refine Keeps.written rfl rfl rfl rfl rfl rfl rfl rfl ?_

theorem doJournalCommit_keeps {s₀ : State} (s : State) (x2 : Fetched) (h_s : Keeps s₀ s)
    : Keeps s₀ (doJournalCommit s x2).2 := by
  unfold doJournalCommit
  try dsimp only
  with_reducible
    repeat'
      first
      | assumption | apply journalCommit_keeps | apply done_keeps | (apply Keeps.foldl; intro u a hu; try dsimp only)
      | apply Keeps.ite | split | intro _ | refine Keeps.written rfl rfl rfl rfl rfl rfl rfl rfl ?_

theorem doLinkResign_keeps {s₀ : State} (s : State) (c : Fetched) (h_s : Keeps s₀ s) : Keeps s₀ (doLinkResign s c).2 := by
  unfold doLinkResign
  try dsimp only
  with_reducible
    repeat'
      first
      | assumption | apply withStatus_keeps | apply linkResign_keeps | (apply Keeps.foldl; intro u a hu; try dsimp only)
      | apply Keeps.ite | split | intro _ | refine Keeps.written rfl rfl rfl rfl rfl rfl rfl rfl ?_

theorem doLinkSend_keeps {s₀ : State} (s : State) (c : Fetched) (h_s : Keeps s₀ s) : Keeps s₀ (doLinkSend s c).2 := by
  unfold doLinkSend
  try dsimp only
  with_reducible
    repeat'
      first
      | assumption | apply badPayload_keeps | apply withStatus_keeps | apply linkSend_keeps
      | (apply Keeps.foldl; intro u a hu; try dsimp only) | apply Keeps.ite | split | intro _
      | refine Keeps.written rfl rfl rfl rfl rfl rfl rfl rfl ?_

theorem doLinkWake_keeps {s₀ : State} (s : State) (c : Fetched) (h_s : Keeps s₀ s) : Keeps s₀ (doLinkWake s c).2 := by
  unfold doLinkWake
  try dsimp only
  with_reducible
    repeat'
      first
      | assumption | apply linkWake_keeps | apply done_keeps | (apply Keeps.foldl; intro u a hu; try dsimp only)
      | apply Keeps.ite | split | intro _ | refine Keeps.written rfl rfl rfl rfl rfl rfl rfl rfl ?_

theorem doModeSet_keeps {s₀ : State} (s : State) (c : Fetched) (h_s : Keeps s₀ s) : Keeps s₀ (doModeSet s c).2 := by
  unfold doModeSet
  try dsimp only
  with_reducible
    repeat'
      first
      | assumption | apply planEvaluate_keeps | apply withStatus_keeps | apply roundPoll_keeps | apply regWrite_keeps
      | apply done_keeps | (apply Keeps.foldl; intro u a hu; try dsimp only) | apply Keeps.ite | split | intro _
      | refine Keeps.written rfl rfl rfl rfl rfl rfl rfl rfl ?_

theorem doModelReset_keeps {s₀ : State} (s : State) (c : Fetched) (h_s : Keeps s₀ s) : Keeps s₀ (doModelReset s c).2 := by
  unfold doModelReset
  try dsimp only
  with_reducible
    repeat'
      first
      | assumption | apply cellReset_keeps | apply done_keeps | (apply Keeps.foldl; intro u a hu; try dsimp only)
      | apply Keeps.ite | split | intro _ | refine Keeps.written rfl rfl rfl rfl rfl rfl rfl rfl ?_

theorem doModelWrite_keeps {s₀ : State} (s : State) (c : Fetched) (h_s : Keeps s₀ s) : Keeps s₀ (doModelWrite s c).2 := by
  unfold doModelWrite
  try dsimp only
  with_reducible
    repeat'
      first
      | assumption | apply State.configChanged_keeps | apply State.keepPast_keeps | apply State.setCell_keeps
      | apply badPayload_keeps | apply withStatus_keeps | apply storeWords_keeps | apply done_keeps
      | (apply Keeps.foldl; intro u a hu; try dsimp only) | apply Keeps.ite | split | intro _
      | refine Keeps.written rfl rfl rfl rfl rfl rfl rfl rfl ?_

theorem doNop_keeps {s₀ : State} (s : State) (x2 : Fetched) (h_s : Keeps s₀ s) : Keeps s₀ (doNop s x2).2 := by
  unfold doNop
  try dsimp only
  with_reducible
    repeat'
      first
      | assumption | apply done_keeps | (apply Keeps.foldl; intro u a hu; try dsimp only) | apply Keeps.ite | split
      | intro _ | refine Keeps.written rfl rfl rfl rfl rfl rfl rfl rfl ?_

theorem doPlanEval_keeps {s₀ : State} (s : State) (x2 : Fetched) (h_s : Keeps s₀ s) : Keeps s₀ (doPlanEval s x2).2 := by
  unfold doPlanEval
  try dsimp only
  with_reducible
    repeat'
      first
      | assumption | apply planEvaluate_keeps | apply done_keeps | (apply Keeps.foldl; intro u a hu; try dsimp only)
      | apply Keeps.ite | split | intro _ | refine Keeps.written rfl rfl rfl rfl rfl rfl rfl rfl ?_

theorem doPressureSet_keeps {s₀ : State} (s : State) (c : Fetched) (h_s : Keeps s₀ s) : Keeps s₀ (doPressureSet s c).2 := by
  unfold doPressureSet
  try dsimp only
  with_reducible
    repeat'
      first
      | assumption | apply hostPressSet_keeps | apply done_keeps | (apply Keeps.foldl; intro u a hu; try dsimp only)
      | apply Keeps.ite | split | intro _ | refine Keeps.written rfl rfl rfl rfl rfl rfl rfl rfl ?_

theorem doProfileWrite_keeps {s₀ : State} (s : State) (c : Fetched) (h_s : Keeps s₀ s)
    : Keeps s₀ (doProfileWrite s c).2 := by
  unfold doProfileWrite
  try dsimp only
  with_reducible
    repeat'
      first
      | assumption | apply State.configChanged_keeps | apply State.putWords_keeps | apply State.keepPast_keeps
      | apply State.setCell_keeps | apply badPayload_keeps | apply withStatus_keeps | apply done_keeps
      | (apply Keeps.foldl; intro u a hu; try dsimp only) | apply Keeps.ite | split | intro _
      | refine Keeps.written rfl rfl rfl rfl rfl rfl rfl rfl ?_

theorem doPwrSet_keeps {s₀ : State} (s : State) (c : Fetched) (h_s : Keeps s₀ s) : Keeps s₀ (doPwrSet s c).2 := by
  unfold doPwrSet
  try dsimp only
  with_reducible
    repeat'
      first
      | assumption | apply withStatus_keeps | apply pwrSet_keeps | (apply Keeps.foldl; intro u a hu; try dsimp only)
      | apply Keeps.ite | split | intro _ | refine Keeps.written rfl rfl rfl rfl rfl rfl rfl rfl ?_

theorem withCell_keeps {s₀ : State} (c : Fetched) (s : State) (f : Nat → Reply × State) (hf : ∀ a0, Keeps s₀ (f a0).2)
    (h_s : Keeps s₀ s) : Keeps s₀ (withCell c s f).2 := by
  unfold withCell
  try dsimp only
  with_reducible
    repeat'
      first
      | assumption | apply hf | apply badPayload_keeps | (apply Keeps.foldl; intro u a hu; try dsimp only)
      | apply Keeps.ite | split | intro _ | refine Keeps.written rfl rfl rfl rfl rfl rfl rfl rfl ?_

theorem doQueAck_keeps {s₀ : State} (s : State) (c : Fetched) (h_s : Keeps s₀ s) : Keeps s₀ (doQueAck s c).2 := by
  unfold doQueAck
  try dsimp only
  with_reducible
    repeat'
      first
      | assumption | apply withCell_keeps | apply done_keeps | apply qAck_keeps
      | (apply Keeps.foldl; intro u a hu; try dsimp only) | apply Keeps.ite | split | intro _
      | refine Keeps.written rfl rfl rfl rfl rfl rfl rfl rfl ?_

theorem qClose_keeps {s₀ : State} (s : State) (q : Nat) (h_s : Keeps s₀ s) : Keeps s₀ (qClose s q) := by
  unfold qClose
  try dsimp only
  with_reducible
    repeat'
      first
      | assumption | apply qChange_keeps | (apply Keeps.foldl; intro u a hu; try dsimp only) | apply Keeps.ite | split
      | intro _ | refine Keeps.written rfl rfl rfl rfl rfl rfl rfl rfl ?_

theorem doQueClose_keeps {s₀ : State} (s : State) (c : Fetched) (h_s : Keeps s₀ s) : Keeps s₀ (doQueClose s c).2 := by
  unfold doQueClose
  try dsimp only
  with_reducible
    repeat'
      first
      | assumption | apply withCell_keeps | apply qClose_keeps | apply done_keeps
      | (apply Keeps.foldl; intro u a hu; try dsimp only) | apply Keeps.ite | split | intro _
      | refine Keeps.written rfl rfl rfl rfl rfl rfl rfl rfl ?_

theorem doQueFlush_keeps {s₀ : State} (s : State) (c : Fetched) (h_s : Keeps s₀ s) : Keeps s₀ (doQueFlush s c).2 := by
  unfold doQueFlush
  try dsimp only
  with_reducible
    repeat'
      first
      | assumption | apply withCell_keeps | apply qFlush_keeps | apply done_keeps
      | (apply Keeps.foldl; intro u a hu; try dsimp only) | apply Keeps.ite | split | intro _
      | refine Keeps.written rfl rfl rfl rfl rfl rfl rfl rfl ?_

theorem onEngines_keeps {s₀ : State} (mask : Nat) (f : State → Nat → State) (s : State)
    (hf : ∀ a0 a1, Keeps s₀ a0 → Keeps s₀ (f a0 a1)) (h_s : Keeps s₀ s) : Keeps s₀ (onEngines mask f s) := by
  unfold onEngines
  try dsimp only
  with_reducible
    repeat'
      first
      | assumption | apply hf | (apply Keeps.foldl; intro u a hu; try dsimp only) | apply Keeps.ite | split | intro _
      | refine Keeps.written rfl rfl rfl rfl rfl rfl rfl rfl ?_

theorem doReelControl_keeps {s₀ : State} (s : State) (c : Fetched) (h_s : Keeps s₀ s) : Keeps s₀ (doReelControl s c).2 := by
  unfold doReelControl
  try dsimp only
  with_reducible
    repeat'
      first
      | assumption | apply State.configChanged_keeps | apply reelFlushOut_keeps | apply reelDisable_keeps
      | apply reelRestart_keeps | apply reelFlushIn_keeps | apply withStatus_keeps | apply reelEnable_keeps
      | apply onEngines_keeps | apply done_keeps | (apply Keeps.foldl; intro u a hu; try dsimp only) | apply Keeps.ite
      | split | intro _ | refine Keeps.written rfl rfl rfl rfl rfl rfl rfl rfl ?_

theorem doReelFlag_keeps {s₀ : State} (s : State) (c : Fetched) (h_s : Keeps s₀ s) : Keeps s₀ (doReelFlag s c).2 := by
  unfold doReelFlag
  try dsimp only
  with_reducible
    repeat'
      first
      | assumption | apply reelFlagWrite_keeps | apply done_keeps | (apply Keeps.foldl; intro u a hu; try dsimp only)
      | apply Keeps.ite | split | intro _ | refine Keeps.written rfl rfl rfl rfl rfl rfl rfl rfl ?_

theorem doReelImemWrite_keeps {s₀ : State} (s : State) (c : Fetched) (h_s : Keeps s₀ s)
    : Keeps s₀ (doReelImemWrite s c).2 := by
  unfold doReelImemWrite
  try dsimp only
  with_reducible
    repeat'
      first
      | assumption | apply State.configChanged_keeps | apply State.putWords_keeps | apply badPayload_keeps
      | apply withStatus_keeps | apply done_keeps | (apply Keeps.foldl; intro u a hu; try dsimp only) | apply Keeps.ite
      | split | intro _ | refine Keeps.written rfl rfl rfl rfl rfl rfl rfl rfl ?_

theorem doReelInject_keeps {s₀ : State} (s : State) (c : Fetched) (h_s : Keeps s₀ s) : Keeps s₀ (doReelInject s c).2 := by
  unfold doReelInject
  try dsimp only
  with_reducible
    repeat'
      first
      | assumption | apply withStatus_keeps | apply reelInject_keeps | apply done_keeps
      | (apply Keeps.foldl; intro u a hu; try dsimp only) | apply Keeps.ite | split | intro _
      | refine Keeps.written rfl rfl rfl rfl rfl rfl rfl rfl ?_

theorem doReelWrap_keeps {s₀ : State} (s : State) (c : Fetched) (h_s : Keeps s₀ s) : Keeps s₀ (doReelWrap s c).2 := by
  unfold doReelWrap
  try dsimp only
  with_reducible
    repeat'
      first
      | assumption | apply State.configChanged_keeps | apply reelWrapSet_keeps | apply done_keeps
      | (apply Keeps.foldl; intro u a hu; try dsimp only) | apply Keeps.ite | split | intro _
      | refine Keeps.written rfl rfl rfl rfl rfl rfl rfl rfl ?_

theorem doReelWrite_keeps {s₀ : State} (s : State) (c : Fetched) (h_s : Keeps s₀ s) : Keeps s₀ (doReelWrite s c).2 := by
  unfold doReelWrite
  try dsimp only
  with_reducible
    repeat'
      first
      | assumption | apply withStatus_keeps | apply reelAppend_keeps | apply done_keeps
      | (apply Keeps.foldl; intro u a hu; try dsimp only) | apply Keeps.ite | split | intro _
      | refine Keeps.written rfl rfl rfl rfl rfl rfl rfl rfl ?_

theorem doRegionTakeover_keeps {s₀ : State} (s : State) (c : Fetched) (h_s : Keeps s₀ s)
    : Keeps s₀ (doRegionTakeover s c).2 := by
  unfold doRegionTakeover
  try dsimp only
  with_reducible
    repeat'
      first
      | assumption | apply regionTakeover_keeps | apply withStatus_keeps
      | (apply Keeps.foldl; intro u a hu; try dsimp only) | apply Keeps.ite | split | intro _
      | refine Keeps.written rfl rfl rfl rfl rfl rfl rfl rfl ?_

theorem doRegionTest_keeps {s₀ : State} (s : State) (c : Fetched) (h_s : Keeps s₀ s) : Keeps s₀ (doRegionTest s c).2 := by
  unfold doRegionTest
  try dsimp only
  with_reducible
    repeat'
      first
      | assumption | apply badPayload_keeps | apply withStatus_keeps | apply regionTest_keeps
      | (apply Keeps.foldl; intro u a hu; try dsimp only) | apply Keeps.ite | split | intro _
      | refine Keeps.written rfl rfl rfl rfl rfl rfl rfl rfl ?_

theorem doRoundAbort_keeps {s₀ : State} (s : State) (x2 : Fetched) (h_s : Keeps s₀ s) : Keeps s₀ (doRoundAbort s x2).2 := by
  unfold doRoundAbort
  try dsimp only
  with_reducible
    repeat'
      first
      | assumption | apply withStatus_keeps | apply roundAbort_keeps | (apply Keeps.foldl; intro u a hu; try dsimp only)
      | apply Keeps.ite | split | intro _ | refine Keeps.written rfl rfl rfl rfl rfl rfl rfl rfl ?_

theorem doRoundStart_keeps {s₀ : State} (s : State) (x2 : Fetched) (h_s : Keeps s₀ s) : Keeps s₀ (doRoundStart s x2).2 := by
  unfold doRoundStart
  try dsimp only
  with_reducible
    repeat'
      first
      | assumption | apply withStatus_keeps | apply roundStart_keeps | (apply Keeps.foldl; intro u a hu; try dsimp only)
      | apply Keeps.ite | split | intro _ | refine Keeps.written rfl rfl rfl rfl rfl rfl rfl rfl ?_

theorem doShadowDrop_keeps {s₀ : State} (s : State) (c : Fetched) (h_s : Keeps s₀ s) : Keeps s₀ (doShadowDrop s c).2 := by
  unfold doShadowDrop
  try dsimp only
  with_reducible
    repeat'
      first
      | assumption | apply State.configIf_keeps | apply shadowDrop_keeps | apply withStatus_keeps | apply countCmd_keeps
      | (apply Keeps.foldl; intro u a hu; try dsimp only) | apply Keeps.ite | split | intro _
      | refine Keeps.written rfl rfl rfl rfl rfl rfl rfl rfl ?_

theorem doSlotCancel_keeps {s₀ : State} (s : State) (c : Fetched) (h_s : Keeps s₀ s) : Keeps s₀ (doSlotCancel s c).2 := by
  unfold doSlotCancel
  try dsimp only
  with_reducible
    repeat'
      first
      | assumption | apply slotCancel_keeps | apply countCmd_keeps | apply done_keeps
      | (apply Keeps.foldl; intro u a hu; try dsimp only) | apply Keeps.ite | split | intro _
      | refine Keeps.written rfl rfl rfl rfl rfl rfl rfl rfl ?_

theorem doSlotQuery_keeps {s₀ : State} (s : State) (c : Fetched) (h_s : Keeps s₀ s) : Keeps s₀ (doSlotQuery s c).2 := by
  unfold doSlotQuery
  try dsimp only
  with_reducible
    repeat'
      first
      | assumption | apply countCmd_keeps | apply done_keeps | (apply Keeps.foldl; intro u a hu; try dsimp only)
      | apply Keeps.ite | split | intro _ | refine Keeps.written rfl rfl rfl rfl rfl rfl rfl rfl ?_

theorem doSlotWrite_keeps {s₀ : State} (s : State) (c : Fetched) (h_s : Keeps s₀ s) : Keeps s₀ (doSlotWrite s c).2 := by
  unfold doSlotWrite
  try dsimp only
  with_reducible
    repeat'
      first
      | assumption | apply State.configIf_keeps | apply withStatus_keeps | apply slotWrite_keeps | apply countCmd_keeps
      | apply keepArm_keeps | (apply Keeps.foldl; intro u a hu; try dsimp only) | apply Keeps.ite | split | intro _
      | refine Keeps.written rfl rfl rfl rfl rfl rfl rfl rfl ?_

theorem doTableWrite_keeps {s₀ : State} (s : State) (c : Fetched) (h_s : Keeps s₀ s) : Keeps s₀ (doTableWrite s c).2 := by
  unfold doTableWrite
  try dsimp only
  with_reducible
    repeat'
      first
      | assumption | apply badPayload_keeps | apply withStatus_keeps | apply areaWrite_keeps
      | (apply Keeps.foldl; intro u a hu; try dsimp only) | apply Keeps.ite | split | intro _
      | refine Keeps.written rfl rfl rfl rfl rfl rfl rfl rfl ?_

theorem doTraceAdvance_keeps {s₀ : State} (s : State) (c : Fetched) (h_s : Keeps s₀ s)
    : Keeps s₀ (doTraceAdvance s c).2 := by
  unfold doTraceAdvance
  try dsimp only
  with_reducible
    repeat'
      first
      | assumption | apply badPayload_keeps | apply withStatus_keeps | (apply Keeps.foldl; intro u a hu; try dsimp only)
      | apply Keeps.ite | split | intro _ | refine Keeps.written rfl rfl rfl rfl rfl rfl rfl rfl ?_

theorem doTraceMark_keeps {s₀ : State} (s : State) (x2 : Fetched) (h_s : Keeps s₀ s) : Keeps s₀ (doTraceMark s x2).2 := by
  unfold doTraceMark
  try dsimp only
  with_reducible
    repeat'
      first
      | assumption | apply traceMark_keeps | apply done_keeps | (apply Keeps.foldl; intro u a hu; try dsimp only)
      | apply Keeps.ite | split | intro _ | refine Keeps.written rfl rfl rfl rfl rfl rfl rfl rfl ?_

theorem doTraceRewind_keeps {s₀ : State} (s : State) (x2 : Fetched) (h_s : Keeps s₀ s)
    : Keeps s₀ (doTraceRewind s x2).2 := by
  unfold doTraceRewind
  try dsimp only
  with_reducible
    repeat'
      first
      | assumption | apply withStatus_keeps | (apply Keeps.foldl; intro u a hu; try dsimp only) | apply Keeps.ite | split
      | intro _ | refine Keeps.written rfl rfl rfl rfl rfl rfl rfl rfl ?_

theorem doXfrStart_keeps {s₀ : State} (s : State) (c : Fetched) (h_s : Keeps s₀ s) : Keeps s₀ (doXfrStart s c).2 := by
  unfold doXfrStart
  try dsimp only
  with_reducible
    repeat'
      first
      | assumption | apply badPayload_keeps | apply withStatus_keeps | apply xfrStart_keeps
      | (apply Keeps.foldl; intro u a hu; try dsimp only) | apply Keeps.ite | split | intro _
      | refine Keeps.written rfl rfl rfl rfl rfl rfl rfl rfl ?_

theorem doXfrStop_keeps {s₀ : State} (s : State) (c : Fetched) (h_s : Keeps s₀ s) : Keeps s₀ (doXfrStop s c).2 := by
  unfold doXfrStop
  try dsimp only
  with_reducible
    repeat'
      first
      | assumption | apply xfrStop_keeps | apply done_keeps | (apply Keeps.foldl; intro u a hu; try dsimp only)
      | apply Keeps.ite | split | intro _ | refine Keeps.written rfl rfl rfl rfl rfl rfl rfl rfl ?_

theorem reelDo_keeps {s₀ : State} (f : State → Fetched → Reply × State) (s : State) (c : Fetched)
    (hf : ∀ a0 a1, Keeps s₀ a0 → Keeps s₀ (f a0 a1).2) (h_s : Keeps s₀ s) : Keeps s₀ (reelDo f s c).2 := by
  unfold reelDo
  try dsimp only
  with_reducible
    repeat'
      first
      | assumption | apply hf | apply State.reelTurn_keeps | (apply Keeps.foldl; intro u a hu; try dsimp only)
      | apply Keeps.ite | split | intro _ | refine Keeps.written rfl rfl rfl rfl rfl rfl rfl rfl ?_

theorem State.configIf_only {m : Nat} {s₀ : State} (hm : 2 ||| m = m) (s : State) (k : Nat)
    (h_s : Only m s₀ s) : Only m s₀ (State.configIf s k) := by
  unfold State.configIf
  try dsimp only
  with_reducible
    repeat'
      first
      | assumption | exact mask_trans (by decide) hm | apply State.configChanged_only
      | (apply Only.foldl; intro u a hu; try dsimp only) | apply Only.ite | split | intro _

theorem withStatus_only {m : Nat} {s₀ : State} (hm : 0 ||| m = m) (k : Nat) (r0 : Word) (r1 : Word) (s : State)
    (h_s : Only m s₀ s) : Only m s₀ (withStatus k r0 r1 s).2 := by
  unfold withStatus
  try dsimp only
  with_reducible
    repeat'
      first
      | assumption | exact mask_trans (by decide) hm | (apply Only.foldl; intro u a hu; try dsimp only) | apply Only.ite
      | split | intro _

theorem done_only {m : Nat} {s₀ : State} (hm : 0 ||| m = m) (r0 : Word) (r1 : Word) (s : State)
    (h_s : Only m s₀ s) : Only m s₀ (done r0 r1 s).2 := by
  unfold done
  try dsimp only
  with_reducible
    repeat'
      first
      | assumption | exact mask_trans (by decide) hm | (apply Only.foldl; intro u a hu; try dsimp only) | apply Only.ite
      | split | intro _

theorem areaWrite_only {m : Nat} {s₀ : State} (hm : 68736287294 ||| m = m) (s : State) (area : TArea)
    (l : List (Nat × Word)) (h_s : Only m s₀ s) : Only m s₀ (areaWrite s area l).2 := by
  unfold areaWrite
  try dsimp only
  with_reducible
    repeat'
      first
      | assumption | exact .inr (mask_bit hm (by decide)) | exact .inl rfl | exact mask_trans (by decide) hm
      | apply State.configChanged_only | apply profileTouched_only | apply withStatus_only | apply storeWords_only
      | apply tableFails_only | apply tableTake_only | apply balStore_only | apply done_only
      | (apply Only.foldl; intro u a hu; try dsimp only) | apply Only.ite | split | intro _
      | refine Only.written rfl ?_ ?_ ?_ ?_ ?_ ?_ ?_ ?_ ?_ ?_ ?_ ?_ ?_ ?_ ?_ ?_ ?_ ?_ ?_ ?_ ?_ ?_ ?_ ?_ ?_ ?_ ?_ ?_ ?_ ?_ ?_ ?_ ?_ ?_ ?_ ?_ ?_ ?_

theorem endSafeHold_only {m : Nat} {s₀ : State} (hm : 134218754 ||| m = m) (s : State)
    (h_s : Only m s₀ s) : Only m s₀ (endSafeHold s) := by
  unfold endSafeHold
  try dsimp only
  with_reducible
    repeat'
      first
      | assumption | exact .inr (mask_bit hm (by decide)) | exact .inl rfl | exact mask_trans (by decide) hm
      | apply roundArmed_only | apply reelReview_only | (apply Only.foldl; intro u a hu; try dsimp only) | apply Only.ite
      | split | intro _
      | refine Only.written rfl ?_ ?_ ?_ ?_ ?_ ?_ ?_ ?_ ?_ ?_ ?_ ?_ ?_ ?_ ?_ ?_ ?_ ?_ ?_ ?_ ?_ ?_ ?_ ?_ ?_ ?_ ?_ ?_ ?_ ?_ ?_ ?_ ?_ ?_ ?_ ?_ ?_ ?_

theorem doArm_only {m : Nat} {s₀ : State} (hm : 134218754 ||| m = m) (s : State) (c : Fetched)
    (h_s : Only m s₀ s) : Only m s₀ (doArm s c).2 := by
  unfold doArm
  try dsimp only
  with_reducible
    repeat'
      first
      | assumption | exact .inr (mask_bit hm (by decide)) | exact .inl rfl | exact mask_trans (by decide) hm
      | apply endSafeHold_only | apply withStatus_only | apply done_only
      | (apply Only.foldl; intro u a hu; try dsimp only) | apply Only.ite | split | intro _
      | refine Only.written rfl ?_ ?_ ?_ ?_ ?_ ?_ ?_ ?_ ?_ ?_ ?_ ?_ ?_ ?_ ?_ ?_ ?_ ?_ ?_ ?_ ?_ ?_ ?_ ?_ ?_ ?_ ?_ ?_ ?_ ?_ ?_ ?_ ?_ ?_ ?_ ?_ ?_ ?_

theorem armCmd_only {m : Nat} {s₀ : State} (hm : 134219318 ||| m = m) (r : Nat) (s : State)
    (h_s : Only m s₀ s) : Only m s₀ (armCmd r s) := by
  unfold armCmd
  try dsimp only
  with_reducible
    repeat'
      first
      | assumption | exact mask_trans (by decide) hm | apply ringCmd_only | apply doArm_only
      | (apply Only.foldl; intro u a hu; try dsimp only) | apply Only.ite | split | intro _

theorem badPayload_only {m : Nat} {s₀ : State} (hm : 0 ||| m = m) (h1 : Nat) (s : State)
    (h_s : Only m s₀ s) : Only m s₀ (badPayload h1 s).2 := by
  unfold badPayload
  try dsimp only
  with_reducible
    repeat'
      first
      | assumption | exact mask_trans (by decide) hm | (apply Only.foldl; intro u a hu; try dsimp only) | apply Only.ite
      | split | intro _

theorem chipResetCmd_only {m : Nat} {s₀ : State} (hm : 137438953471 ||| m = m) (r : Nat) (s : State)
    (h_s : Only m s₀ s) : Only m s₀ (chipResetCmd r s) := by
  unfold chipResetCmd
  try dsimp only
  with_reducible
    repeat'
      first
      | assumption | exact mask_trans (by decide) hm | apply deviceReset_only | apply finish_only
      | (apply Only.foldl; intro u a hu; try dsimp only) | apply Only.ite | split | intro _

theorem countCmd_only {m : Nat} {s₀ : State} (hm : 8192 ||| m = m) (s : State) (u : Nat) (k : Nat)
    (h_s : Only m s₀ s) : Only m s₀ (countCmd s u k) := by
  unfold countCmd
  try dsimp only
  with_reducible
    repeat'
      first
      | assumption | exact mask_trans (by decide) hm | apply State.setUnit_only
      | (apply Only.foldl; intro u a hu; try dsimp only) | apply Only.ite | split | intro _

theorem doAdcStepWrite_only {m : Nat} {s₀ : State} (hm : 267254 ||| m = m) (s : State) (c : Fetched)
    (h_s : Only m s₀ s) : Only m s₀ (doAdcStepWrite s c).2 := by
  unfold doAdcStepWrite
  try dsimp only
  with_reducible
    repeat'
      first
      | assumption | exact mask_trans (by decide) hm | apply State.configChanged_only | apply withStatus_only
      | apply adcStepPut_only | apply done_only | (apply Only.foldl; intro u a hu; try dsimp only) | apply Only.ite
      | split | intro _

theorem doDomainCancel_only {m : Nat} {s₀ : State} (hm : 68720802804 ||| m = m) (s : State) (c : Fetched)
    (h_s : Only m s₀ s) : Only m s₀ (doDomainCancel s c).2 := by
  unfold doDomainCancel
  try dsimp only
  with_reducible
    repeat'
      first
      | assumption | exact mask_trans (by decide) hm | apply domainCancel_only | apply countCmd_only | apply done_only
      | (apply Only.foldl; intro u a hu; try dsimp only) | apply Only.ite | split | intro _

theorem doFaultLogClear_only {m : Nat} {s₀ : State} (hm : 1073741836 ||| m = m) (s : State) (x2 : Fetched)
    (h_s : Only m s₀ s) : Only m s₀ (doFaultLogClear s x2).2 := by
  unfold doFaultLogClear
  try dsimp only
  with_reducible
    repeat'
      first
      | assumption | exact mask_trans (by decide) hm | apply faultLogClear_only | apply done_only
      | (apply Only.foldl; intro u a hu; try dsimp only) | apply Only.ite | split | intro _

theorem doFwActivate_only {m : Nat} {s₀ : State} (hm : 134217732 ||| m = m) (s : State) (x2 : Fetched)
    (h_s : Only m s₀ s) : Only m s₀ (doFwActivate s x2).2 := by
  unfold doFwActivate
  try dsimp only
  with_reducible
    repeat'
      first
      | assumption | exact mask_trans (by decide) hm | apply withStatus_only | apply fwActivate_only
      | (apply Only.foldl; intro u a hu; try dsimp only) | apply Only.ite | split | intro _

theorem doFwCancel_only {m : Nat} {s₀ : State} (hm : 134217732 ||| m = m) (s : State) (x2 : Fetched)
    (h_s : Only m s₀ s) : Only m s₀ (doFwCancel s x2).2 := by
  unfold doFwCancel
  try dsimp only
  with_reducible
    repeat'
      first
      | assumption | exact mask_trans (by decide) hm | apply fwCancel_only | apply done_only
      | (apply Only.foldl; intro u a hu; try dsimp only) | apply Only.ite | split | intro _

theorem doFwVerify_only {m : Nat} {s₀ : State} (hm : 536870912 ||| m = m) (s : State) (x2 : Fetched)
    (h_s : Only m s₀ s) : Only m s₀ (doFwVerify s x2).2 := by
  unfold doFwVerify
  try dsimp only
  with_reducible
    repeat'
      first
      | assumption | exact mask_trans (by decide) hm | apply withStatus_only | apply fwVerify_only
      | (apply Only.foldl; intro u a hu; try dsimp only) | apply Only.ite | split | intro _

theorem doFwWrite_only {m : Nat} {s₀ : State} (hm : 536870916 ||| m = m) (s : State) (c : Fetched)
    (h_s : Only m s₀ s) : Only m s₀ (doFwWrite s c).2 := by
  unfold doFwWrite
  try dsimp only
  with_reducible
    repeat'
      first
      | assumption | exact mask_trans (by decide) hm | apply badPayload_only | apply withStatus_only | apply fwWrite_only
      | (apply Only.foldl; intro u a hu; try dsimp only) | apply Only.ite | split | intro _

theorem doJournalCommit_only {m : Nat} {s₀ : State} (hm : 1073741824 ||| m = m) (s : State) (x2 : Fetched)
    (h_s : Only m s₀ s) : Only m s₀ (doJournalCommit s x2).2 := by
  unfold doJournalCommit
  try dsimp only
  with_reducible
    repeat'
      first
      | assumption | exact mask_trans (by decide) hm | apply journalCommit_only | apply done_only
      | (apply Only.foldl; intro u a hu; try dsimp only) | apply Only.ite | split | intro _

theorem doLinkResign_only {m : Nat} {s₀ : State} (hm : 268436016 ||| m = m) (s : State) (c : Fetched)
    (h_s : Only m s₀ s) : Only m s₀ (doLinkResign s c).2 := by
  unfold doLinkResign
  try dsimp only
  with_reducible
    repeat'
      first
      | assumption | exact mask_trans (by decide) hm | apply withStatus_only | apply linkResign_only
      | (apply Only.foldl; intro u a hu; try dsimp only) | apply Only.ite | split | intro _

theorem doLinkSend_only {m : Nat} {s₀ : State} (hm : 268435472 ||| m = m) (s : State) (c : Fetched)
    (h_s : Only m s₀ s) : Only m s₀ (doLinkSend s c).2 := by
  unfold doLinkSend
  try dsimp only
  with_reducible
    repeat'
      first
      | assumption | exact mask_trans (by decide) hm | apply badPayload_only | apply withStatus_only | apply linkSend_only
      | (apply Only.foldl; intro u a hu; try dsimp only) | apply Only.ite | split | intro _

theorem doLinkWake_only {m : Nat} {s₀ : State} (hm : 268435472 ||| m = m) (s : State) (c : Fetched)
    (h_s : Only m s₀ s) : Only m s₀ (doLinkWake s c).2 := by
  unfold doLinkWake
  try dsimp only
  with_reducible
    repeat'
      first
      | assumption | exact mask_trans (by decide) hm | apply linkWake_only | apply done_only
      | (apply Only.foldl; intro u a hu; try dsimp only) | apply Only.ite | split | intro _

theorem doModeSet_only {m : Nat} {s₀ : State} (hm : 106836787199 ||| m = m) (s : State) (c : Fetched)
    (h_s : Only m s₀ s) : Only m s₀ (doModeSet s c).2 := by
  unfold doModeSet
  try dsimp only
  with_reducible
    repeat'
      first
      | assumption | exact mask_trans (by decide) hm | apply planEvaluate_only | apply withStatus_only
      | apply roundPoll_only | apply regWrite_only | apply done_only | (apply Only.foldl; intro u a hu; try dsimp only)
      | apply Only.ite | split | intro _

theorem doModelReset_only {m : Nat} {s₀ : State} (hm : 34359738376 ||| m = m) (s : State) (c : Fetched)
    (h_s : Only m s₀ s) : Only m s₀ (doModelReset s c).2 := by
  unfold doModelReset
  try dsimp only
  with_reducible
    repeat'
      first
      | assumption | exact mask_trans (by decide) hm | apply cellReset_only | apply done_only
      | (apply Only.foldl; intro u a hu; try dsimp only) | apply Only.ite | split | intro _

theorem doModelWrite_only {m : Nat} {s₀ : State} (hm : 34359740426 ||| m = m) (s : State) (c : Fetched)
    (h_s : Only m s₀ s) : Only m s₀ (doModelWrite s c).2 := by
  unfold doModelWrite
  try dsimp only
  with_reducible
    repeat'
      first
      | assumption | exact mask_trans (by decide) hm | apply State.configChanged_only | apply State.keepPast_only
      | apply State.setCell_only | apply badPayload_only | apply withStatus_only | apply storeWords_only | apply done_only
      | (apply Only.foldl; intro u a hu; try dsimp only) | apply Only.ite | split | intro _

theorem doNop_only {m : Nat} {s₀ : State} (hm : 0 ||| m = m) (s : State) (x2 : Fetched)
    (h_s : Only m s₀ s) : Only m s₀ (doNop s x2).2 := by
  unfold doNop
  try dsimp only
  with_reducible
    repeat'
      first
      | assumption | exact mask_trans (by decide) hm | apply done_only | (apply Only.foldl; intro u a hu; try dsimp only)
      | apply Only.ite | split | intro _

theorem doPlanEval_only {m : Nat} {s₀ : State} (hm : 67109439 ||| m = m) (s : State) (x2 : Fetched)
    (h_s : Only m s₀ s) : Only m s₀ (doPlanEval s x2).2 := by
  unfold doPlanEval
  try dsimp only
  with_reducible
    repeat'
      first
      | assumption | exact mask_trans (by decide) hm | apply planEvaluate_only | apply done_only
      | (apply Only.foldl; intro u a hu; try dsimp only) | apply Only.ite | split | intro _

theorem doPressureSet_only {m : Nat} {s₀ : State} (hm : 2097156 ||| m = m) (s : State) (c : Fetched)
    (h_s : Only m s₀ s) : Only m s₀ (doPressureSet s c).2 := by
  unfold doPressureSet
  try dsimp only
  with_reducible
    repeat'
      first
      | assumption | exact mask_trans (by decide) hm | apply hostPressSet_only | apply done_only
      | (apply Only.foldl; intro u a hu; try dsimp only) | apply Only.ite | split | intro _

theorem doProfileWrite_only {m : Nat} {s₀ : State} (hm : 34359740426 ||| m = m) (s : State) (c : Fetched)
    (h_s : Only m s₀ s) : Only m s₀ (doProfileWrite s c).2 := by
  unfold doProfileWrite
  try dsimp only
  with_reducible
    repeat'
      first
      | assumption | exact mask_trans (by decide) hm | apply State.configChanged_only | apply State.putWords_only
      | apply State.keepPast_only | apply State.setCell_only | apply badPayload_only | apply withStatus_only
      | apply done_only | (apply Only.foldl; intro u a hu; try dsimp only) | apply Only.ite | split | intro _

theorem doPwrSet_only {m : Nat} {s₀ : State} (hm : 6 ||| m = m) (s : State) (c : Fetched)
    (h_s : Only m s₀ s) : Only m s₀ (doPwrSet s c).2 := by
  unfold doPwrSet
  try dsimp only
  with_reducible
    repeat'
      first
      | assumption | exact mask_trans (by decide) hm | apply withStatus_only | apply pwrSet_only
      | (apply Only.foldl; intro u a hu; try dsimp only) | apply Only.ite | split | intro _

theorem withCell_only {m : Nat} {s₀ : State} (hm : 0 ||| m = m) (c : Fetched) (s : State) (f : Nat → Reply × State)
    (hf : ∀ a0, Only m s₀ (f a0).2) (h_s : Only m s₀ s) : Only m s₀ (withCell c s f).2 := by
  unfold withCell
  try dsimp only
  with_reducible
    repeat'
      first
      | assumption | exact mask_trans (by decide) hm | apply hf | apply badPayload_only
      | (apply Only.foldl; intro u a hu; try dsimp only) | apply Only.ite | split | intro _

theorem doQueAck_only {m : Nat} {s₀ : State} (hm : 64 ||| m = m) (s : State) (c : Fetched)
    (h_s : Only m s₀ s) : Only m s₀ (doQueAck s c).2 := by
  unfold doQueAck
  try dsimp only
  with_reducible
    repeat'
      first
      | assumption | exact mask_trans (by decide) hm | apply withCell_only | apply done_only | apply qAck_only
      | (apply Only.foldl; intro u a hu; try dsimp only) | apply Only.ite | split | intro _

theorem qClose_only {m : Nat} {s₀ : State} (hm : 752 ||| m = m) (s : State) (q : Nat)
    (h_s : Only m s₀ s) : Only m s₀ (qClose s q) := by
  unfold qClose
  try dsimp only
  with_reducible
    repeat'
      first
      | assumption | exact mask_trans (by decide) hm | apply qChange_only
      | (apply Only.foldl; intro u a hu; try dsimp only) | apply Only.ite | split | intro _

theorem doQueClose_only {m : Nat} {s₀ : State} (hm : 752 ||| m = m) (s : State) (c : Fetched)
    (h_s : Only m s₀ s) : Only m s₀ (doQueClose s c).2 := by
  unfold doQueClose
  try dsimp only
  with_reducible
    repeat'
      first
      | assumption | exact mask_trans (by decide) hm | apply withCell_only | apply qClose_only | apply done_only
      | (apply Only.foldl; intro u a hu; try dsimp only) | apply Only.ite | split | intro _

theorem doQueFlush_only {m : Nat} {s₀ : State} (hm : 64 ||| m = m) (s : State) (c : Fetched)
    (h_s : Only m s₀ s) : Only m s₀ (doQueFlush s c).2 := by
  unfold doQueFlush
  try dsimp only
  with_reducible
    repeat'
      first
      | assumption | exact mask_trans (by decide) hm | apply withCell_only | apply qFlush_only | apply done_only
      | (apply Only.foldl; intro u a hu; try dsimp only) | apply Only.ite | split | intro _

theorem onEngines_only {m : Nat} {s₀ : State} (hm : 0 ||| m = m) (mask : Nat) (f : State → Nat → State) (s : State)
    (hf : ∀ a0 a1, Only m s₀ a0 → Only m s₀ (f a0 a1)) (h_s : Only m s₀ s) : Only m s₀ (onEngines mask f s) := by
  unfold onEngines
  try dsimp only
  with_reducible
    repeat'
      first
      | assumption | exact mask_trans (by decide) hm | apply hf | (apply Only.foldl; intro u a hu; try dsimp only)
      | apply Only.ite | split | intro _

theorem doReelControl_only {m : Nat} {s₀ : State} (hm : 1030 ||| m = m) (s : State) (c : Fetched)
    (h_s : Only m s₀ s) : Only m s₀ (doReelControl s c).2 := by
  unfold doReelControl
  try dsimp only
  with_reducible
    repeat'
      first
      | assumption | exact mask_trans (by decide) hm | apply State.configChanged_only | apply reelFlushOut_only
      | apply reelDisable_only | apply reelRestart_only | apply reelFlushIn_only | apply withStatus_only
      | apply reelEnable_only | apply onEngines_only | apply done_only | (apply Only.foldl; intro u a hu; try dsimp only)
      | apply Only.ite | split | intro _

theorem doReelFlag_only {m : Nat} {s₀ : State} (hm : 1024 ||| m = m) (s : State) (c : Fetched)
    (h_s : Only m s₀ s) : Only m s₀ (doReelFlag s c).2 := by
  unfold doReelFlag
  try dsimp only
  with_reducible
    repeat'
      first
      | assumption | exact mask_trans (by decide) hm | apply reelFlagWrite_only | apply done_only
      | (apply Only.foldl; intro u a hu; try dsimp only) | apply Only.ite | split | intro _

theorem doReelImemWrite_only {m : Nat} {s₀ : State} (hm : 10 ||| m = m) (s : State) (c : Fetched)
    (h_s : Only m s₀ s) : Only m s₀ (doReelImemWrite s c).2 := by
  unfold doReelImemWrite
  try dsimp only
  with_reducible
    repeat'
      first
      | assumption | exact mask_trans (by decide) hm | apply State.configChanged_only | apply State.putWords_only
      | apply badPayload_only | apply withStatus_only | apply done_only | (apply Only.foldl; intro u a hu; try dsimp only)
      | apply Only.ite | split | intro _

theorem doReelInject_only {m : Nat} {s₀ : State} (hm : 1024 ||| m = m) (s : State) (c : Fetched)
    (h_s : Only m s₀ s) : Only m s₀ (doReelInject s c).2 := by
  unfold doReelInject
  try dsimp only
  with_reducible
    repeat'
      first
      | assumption | exact mask_trans (by decide) hm | apply withStatus_only | apply reelInject_only | apply done_only
      | (apply Only.foldl; intro u a hu; try dsimp only) | apply Only.ite | split | intro _

theorem doReelWrap_only {m : Nat} {s₀ : State} (hm : 1030 ||| m = m) (s : State) (c : Fetched)
    (h_s : Only m s₀ s) : Only m s₀ (doReelWrap s c).2 := by
  unfold doReelWrap
  try dsimp only
  with_reducible
    repeat'
      first
      | assumption | exact mask_trans (by decide) hm | apply State.configChanged_only | apply reelWrapSet_only
      | apply done_only | (apply Only.foldl; intro u a hu; try dsimp only) | apply Only.ite | split | intro _

theorem doReelWrite_only {m : Nat} {s₀ : State} (hm : 1024 ||| m = m) (s : State) (c : Fetched)
    (h_s : Only m s₀ s) : Only m s₀ (doReelWrite s c).2 := by
  unfold doReelWrite
  try dsimp only
  with_reducible
    repeat'
      first
      | assumption | exact mask_trans (by decide) hm | apply withStatus_only | apply reelAppend_only | apply done_only
      | (apply Only.foldl; intro u a hu; try dsimp only) | apply Only.ite | split | intro _

theorem doRegionTakeover_only {m : Nat} {s₀ : State} (hm : 70297862142 ||| m = m) (s : State) (c : Fetched)
    (h_s : Only m s₀ s) : Only m s₀ (doRegionTakeover s c).2 := by
  unfold doRegionTakeover
  try dsimp only
  with_reducible
    repeat'
      first
      | assumption | exact mask_trans (by decide) hm | apply regionTakeover_only | apply withStatus_only
      | (apply Only.foldl; intro u a hu; try dsimp only) | apply Only.ite | split | intro _

theorem doRegionTest_only {m : Nat} {s₀ : State} (hm : 1241514548 ||| m = m) (s : State) (c : Fetched)
    (h_s : Only m s₀ s) : Only m s₀ (doRegionTest s c).2 := by
  unfold doRegionTest
  try dsimp only
  with_reducible
    repeat'
      first
      | assumption | exact mask_trans (by decide) hm | apply badPayload_only | apply withStatus_only
      | apply regionTest_only | (apply Only.foldl; intro u a hu; try dsimp only) | apply Only.ite | split | intro _

theorem doRoundAbort_only {m : Nat} {s₀ : State} (hm : 1275068990 ||| m = m) (s : State) (x2 : Fetched)
    (h_s : Only m s₀ s) : Only m s₀ (doRoundAbort s x2).2 := by
  unfold doRoundAbort
  try dsimp only
  with_reducible
    repeat'
      first
      | assumption | exact mask_trans (by decide) hm | apply withStatus_only | apply roundAbort_only
      | (apply Only.foldl; intro u a hu; try dsimp only) | apply Only.ite | split | intro _

theorem doRoundStart_only {m : Nat} {s₀ : State} (hm : 1207960116 ||| m = m) (s : State) (x2 : Fetched)
    (h_s : Only m s₀ s) : Only m s₀ (doRoundStart s x2).2 := by
  unfold doRoundStart
  try dsimp only
  with_reducible
    repeat'
      first
      | assumption | exact mask_trans (by decide) hm | apply withStatus_only | apply roundStart_only
      | (apply Only.foldl; intro u a hu; try dsimp only) | apply Only.ite | split | intro _

theorem doShadowDrop_only {m : Nat} {s₀ : State} (hm : 8194 ||| m = m) (s : State) (c : Fetched)
    (h_s : Only m s₀ s) : Only m s₀ (doShadowDrop s c).2 := by
  unfold doShadowDrop
  try dsimp only
  with_reducible
    repeat'
      first
      | assumption | exact mask_trans (by decide) hm | apply State.configIf_only | apply shadowDrop_only
      | apply withStatus_only | apply countCmd_only | (apply Only.foldl; intro u a hu; try dsimp only) | apply Only.ite
      | split | intro _

theorem doSlotCancel_only {m : Nat} {s₀ : State} (hm : 68720802804 ||| m = m) (s : State) (c : Fetched)
    (h_s : Only m s₀ s) : Only m s₀ (doSlotCancel s c).2 := by
  unfold doSlotCancel
  try dsimp only
  with_reducible
    repeat'
      first
      | assumption | exact mask_trans (by decide) hm | apply slotCancel_only | apply countCmd_only | apply done_only
      | (apply Only.foldl; intro u a hu; try dsimp only) | apply Only.ite | split | intro _

theorem doSlotQuery_only {m : Nat} {s₀ : State} (hm : 8192 ||| m = m) (s : State) (c : Fetched)
    (h_s : Only m s₀ s) : Only m s₀ (doSlotQuery s c).2 := by
  unfold doSlotQuery
  try dsimp only
  with_reducible
    repeat'
      first
      | assumption | exact mask_trans (by decide) hm | apply countCmd_only | apply done_only
      | (apply Only.foldl; intro u a hu; try dsimp only) | apply Only.ite | split | intro _

theorem doSlotWrite_only {m : Nat} {s₀ : State} (hm : 8230 ||| m = m) (s : State) (c : Fetched)
    (h_s : Only m s₀ s) : Only m s₀ (doSlotWrite s c).2 := by
  unfold doSlotWrite
  try dsimp only
  with_reducible
    repeat'
      first
      | assumption | exact mask_trans (by decide) hm | apply State.configIf_only | apply withStatus_only
      | apply slotWrite_only | apply countCmd_only | apply keepArm_only | (apply Only.foldl; intro u a hu; try dsimp only)
      | apply Only.ite | split | intro _

theorem doTableWrite_only {m : Nat} {s₀ : State} (hm : 68736287294 ||| m = m) (s : State) (c : Fetched)
    (h_s : Only m s₀ s) : Only m s₀ (doTableWrite s c).2 := by
  unfold doTableWrite
  try dsimp only
  with_reducible
    repeat'
      first
      | assumption | exact mask_trans (by decide) hm | apply badPayload_only | apply withStatus_only
      | apply areaWrite_only | (apply Only.foldl; intro u a hu; try dsimp only) | apply Only.ite | split | intro _

theorem doTraceAdvance_only {m : Nat} {s₀ : State} (hm : 256 ||| m = m) (s : State) (c : Fetched)
    (h_s : Only m s₀ s) : Only m s₀ (doTraceAdvance s c).2 := by
  unfold doTraceAdvance
  try dsimp only
  with_reducible
    repeat'
      first
      | assumption | exact .inr (mask_bit hm (by decide)) | exact .inl rfl | exact mask_trans (by decide) hm
      | apply badPayload_only | apply withStatus_only | (apply Only.foldl; intro u a hu; try dsimp only) | apply Only.ite
      | split | intro _
      | refine Only.written rfl ?_ ?_ ?_ ?_ ?_ ?_ ?_ ?_ ?_ ?_ ?_ ?_ ?_ ?_ ?_ ?_ ?_ ?_ ?_ ?_ ?_ ?_ ?_ ?_ ?_ ?_ ?_ ?_ ?_ ?_ ?_ ?_ ?_ ?_ ?_ ?_ ?_ ?_

theorem doTraceMark_only {m : Nat} {s₀ : State} (hm : 800 ||| m = m) (s : State) (x2 : Fetched)
    (h_s : Only m s₀ s) : Only m s₀ (doTraceMark s x2).2 := by
  unfold doTraceMark
  try dsimp only
  with_reducible
    repeat'
      first
      | assumption | exact mask_trans (by decide) hm | apply traceMark_only | apply done_only
      | (apply Only.foldl; intro u a hu; try dsimp only) | apply Only.ite | split | intro _

theorem doTraceRewind_only {m : Nat} {s₀ : State} (hm : 256 ||| m = m) (s : State) (x2 : Fetched)
    (h_s : Only m s₀ s) : Only m s₀ (doTraceRewind s x2).2 := by
  unfold doTraceRewind
  try dsimp only
  with_reducible
    repeat'
      first
      | assumption | exact .inr (mask_bit hm (by decide)) | exact .inl rfl | exact mask_trans (by decide) hm
      | apply withStatus_only | (apply Only.foldl; intro u a hu; try dsimp only) | apply Only.ite | split | intro _
      | refine Only.written rfl ?_ ?_ ?_ ?_ ?_ ?_ ?_ ?_ ?_ ?_ ?_ ?_ ?_ ?_ ?_ ?_ ?_ ?_ ?_ ?_ ?_ ?_ ?_ ?_ ?_ ?_ ?_ ?_ ?_ ?_ ?_ ?_ ?_ ?_ ?_ ?_ ?_ ?_

theorem doXfrStart_only {m : Nat} {s₀ : State} (hm : 144 ||| m = m) (s : State) (c : Fetched)
    (h_s : Only m s₀ s) : Only m s₀ (doXfrStart s c).2 := by
  unfold doXfrStart
  try dsimp only
  with_reducible
    repeat'
      first
      | assumption | exact mask_trans (by decide) hm | apply badPayload_only | apply withStatus_only | apply xfrStart_only
      | (apply Only.foldl; intro u a hu; try dsimp only) | apply Only.ite | split | intro _

theorem doXfrStop_only {m : Nat} {s₀ : State} (hm : 1012 ||| m = m) (s : State) (c : Fetched)
    (h_s : Only m s₀ s) : Only m s₀ (doXfrStop s c).2 := by
  unfold doXfrStop
  try dsimp only
  with_reducible
    repeat'
      first
      | assumption | exact mask_trans (by decide) hm | apply xfrStop_only | apply done_only
      | (apply Only.foldl; intro u a hu; try dsimp only) | apply Only.ite | split | intro _

theorem reelDo_only {m : Nat} {s₀ : State} (hm : 1025 ||| m = m) (f : State → Fetched → Reply × State) (s : State)
    (c : Fetched) (hf : ∀ a0 a1, Only m s₀ a0 → Only m s₀ (f a0 a1).2)
    (h_s : Only m s₀ s) : Only m s₀ (reelDo f s c).2 := by
  unfold reelDo
  try dsimp only
  with_reducible
    repeat'
      first
      | assumption | exact mask_trans (by decide) hm | apply hf | apply State.reelTurn_only
      | (apply Only.foldl; intro u a hu; try dsimp only) | apply Only.ite | split | intro _

end Sys2Proof.Machine
end

