-- ==== Sys2Proof/Laws/Jtag.lean ====
section
/-!
SUPPORT. Machine/Jtag.lean: every operation of it keeps what `Keeps` says, and changes only the parts of its mask.
-/
set_option linter.unusedTactic false
set_option linter.unreachableTactic false
set_option linter.unusedVariables false

namespace Sys2Proof.Machine

theorem tckRise_keeps {s₀ : State} (s : State) (tdi : Bool) (h_s : Keeps s₀ s) : Keeps s₀ (tckRise s tdi) := by
  unfold tckRise
  try dsimp only
  with_reducible
    repeat'
      first
      | assumption | (apply Keeps.foldl; intro u a hu; try dsimp only) | apply Keeps.ite | split | intro _
      | refine Keeps.written rfl rfl rfl rfl rfl rfl rfl rfl ?_

theorem tckEdge_keeps {s₀ : State} (s : State) (rising : Bool) (tms : Bool) (tdi : Bool) (h_s : Keeps s₀ s)
    : Keeps s₀ (tckEdge s rising tms tdi) := by
  unfold tckEdge
  try dsimp only
  with_reducible
    repeat'
      first
      | assumption | apply tckRise_keeps | (apply Keeps.foldl; intro u a hu; try dsimp only) | apply Keeps.ite | split
      | intro _ | refine Keeps.written rfl rfl rfl rfl rfl rfl rfl rfl ?_

theorem tckRise_only {m : Nat} {s₀ : State} (hm : 77309411328 ||| m = m) (s : State) (tdi : Bool)
    (h_s : Only m s₀ s) : Only m s₀ (tckRise s tdi) := by
  unfold tckRise
  try dsimp only
  with_reducible
    repeat'
      first
      | assumption | exact .inr (mask_bit hm (by decide)) | exact .inl rfl | exact mask_trans (by decide) hm
      | (apply Only.foldl; intro u a hu; try dsimp only) | apply Only.ite | split | intro _
      | refine Only.written rfl ?_ ?_ ?_ ?_ ?_ ?_ ?_ ?_ ?_ ?_ ?_ ?_ ?_ ?_ ?_ ?_ ?_ ?_ ?_ ?_ ?_ ?_ ?_ ?_ ?_ ?_ ?_ ?_ ?_ ?_ ?_ ?_ ?_ ?_ ?_ ?_ ?_ ?_

theorem tckEdge_only {m : Nat} {s₀ : State} (hm : 77309411328 ||| m = m) (s : State) (rising : Bool) (tms : Bool)
    (tdi : Bool) (h_s : Only m s₀ s) : Only m s₀ (tckEdge s rising tms tdi) := by
  unfold tckEdge
  try dsimp only
  with_reducible
    repeat'
      first
      | assumption | exact .inr (mask_bit hm (by decide)) | exact .inl rfl | exact mask_trans (by decide) hm
      | apply tckRise_only | (apply Only.foldl; intro u a hu; try dsimp only) | apply Only.ite | split | intro _
      | refine Only.written rfl ?_ ?_ ?_ ?_ ?_ ?_ ?_ ?_ ?_ ?_ ?_ ?_ ?_ ?_ ?_ ?_ ?_ ?_ ?_ ?_ ?_ ?_ ?_ ?_ ?_ ?_ ?_ ?_ ?_ ?_ ?_ ?_ ?_ ?_ ?_ ?_ ?_ ?_

end Sys2Proof.Machine
end

