-- ==== Sys2Proof/Laws/Sideband.lean ====
section
/-!
SUPPORT. Machine/Sideband.lean: every operation of it keeps what `Keeps` says, and changes only the parts of its mask.
-/
set_option linter.unusedTactic false
set_option linter.unreachableTactic false
set_option linter.unusedVariables false

namespace Sys2Proof.Machine

theorem State.setSide_keeps {s₀ : State} (s : State) (x2 : Side) (h_s : Keeps s₀ s) : Keeps s₀ (State.setSide s x2) := by
  unfold State.setSide
  try dsimp only
  with_reducible
    repeat'
      first
      | assumption | (apply Keeps.foldl; intro u a hu; try dsimp only) | apply Keeps.ite | split | intro _
      | refine Keeps.written rfl rfl rfl rfl rfl rfl rfl rfl ?_

theorem sideWrite_keeps {s₀ : State} (s : State) (f : State → State) (hf : ∀ a0, Keeps s₀ a0 → Keeps s₀ (f a0)) (h_s
    : Keeps s₀ s) : Keeps s₀ (sideWrite s f) := by
  unfold sideWrite
  try dsimp only
  with_reducible
    repeat'
      first
      | assumption | apply hf | apply State.setSide_keeps | (apply Keeps.foldl; intro u a hu; try dsimp only)
      | apply Keeps.ite | split | intro _ | refine Keeps.written rfl rfl rfl rfl rfl rfl rfl rfl ?_

theorem exportOpen_keeps {s₀ : State} (s : State) (h_s : Keeps s₀ s) : Keeps s₀ (exportOpen s) := by
  unfold exportOpen
  try dsimp only
  with_reducible
    repeat'
      first
      | assumption | apply State.setSide_keeps | apply sideWrite_keeps | (apply Keeps.foldl; intro u a hu; try dsimp only)
      | apply Keeps.ite | split | intro _ | refine Keeps.written rfl rfl rfl rfl rfl rfl rfl rfl ?_

theorem sideRead_keeps {s₀ : State} (s : State) (n : Nat) (l : List Byte) (x4 : Side) (h_s : Keeps s₀ s)
    : Keeps s₀ (sideRead s n l x4) := by
  unfold sideRead
  try dsimp only
  with_reducible
    repeat'
      first
      | assumption | (apply Keeps.foldl; intro u a hu; try dsimp only) | apply Keeps.ite | split | intro _
      | refine Keeps.written rfl rfl rfl rfl rfl rfl rfl rfl ?_

theorem exportClose_keeps {s₀ : State} (s : State) (h_s : Keeps s₀ s) : Keeps s₀ (exportClose s) := by
  unfold exportClose
  try dsimp only
  with_reducible
    repeat'
      first
      | assumption | apply State.setSide_keeps | apply journalNext_keeps
      | (apply Keeps.foldl; intro u a hu; try dsimp only) | apply Keeps.ite | split | intro _
      | refine Keeps.written rfl rfl rfl rfl rfl rfl rfl rfl ?_

theorem exportRead_keeps {s₀ : State} (s : State) (n : Nat) (h_s : Keeps s₀ s) : Keeps s₀ (exportRead s n) := by
  unfold exportRead
  try dsimp only
  with_reducible
    repeat'
      first
      | assumption | apply exportClose_keeps | apply sideRead_keeps | (apply Keeps.foldl; intro u a hu; try dsimp only)
      | apply Keeps.ite | split | intro _ | refine Keeps.written rfl rfl rfl rfl rfl rfl rfl rfl ?_

theorem exportStatus_keeps {s₀ : State} (s : State) (h_s : Keeps s₀ s) : Keeps s₀ (exportStatus s) := by
  unfold exportStatus
  try dsimp only
  with_reducible
    repeat'
      first
      | assumption | apply sideRead_keeps | (apply Keeps.foldl; intro u a hu; try dsimp only) | apply Keeps.ite | split
      | intro _ | refine Keeps.written rfl rfl rfl rfl rfl rfl rfl rfl ?_

theorem exportTimeout_keeps {s₀ : State} (s : State) (h_s : Keeps s₀ s) : Keeps s₀ (exportTimeout s) := by
  unfold exportTimeout
  try dsimp only
  with_reducible
    repeat'
      first
      | assumption | apply exportClose_keeps | (apply Keeps.foldl; intro u a hu; try dsimp only) | apply Keeps.ite | split
      | intro _ | refine Keeps.written rfl rfl rfl rfl rfl rfl rfl rfl ?_

theorem sideIdent_keeps {s₀ : State} (s : State) (h_s : Keeps s₀ s) : Keeps s₀ (sideIdent s) := by
  unfold sideIdent
  try dsimp only
  with_reducible
    repeat'
      first
      | assumption | apply sideRead_keeps | (apply Keeps.foldl; intro u a hu; try dsimp only) | apply Keeps.ite | split
      | intro _ | refine Keeps.written rfl rfl rfl rfl rfl rfl rfl rfl ?_

theorem importData_keeps {s₀ : State} (s : State) (l : List Byte) (h_s : Keeps s₀ s) : Keeps s₀ (importData s l) := by
  unfold importData
  refine sideWrite_keeps _ _ (fun u hu => ?_) h_s
  exact Keeps.ite (State.setSide_keeps _ _ hu) hu

theorem importFail_keeps {s₀ : State} (s : State) (code : Nat) (h_s : Keeps s₀ s) : Keeps s₀ (importFail s code) := by
  unfold importFail
  try dsimp only
  with_reducible
    repeat'
      first
      | assumption | apply State.setSide_keeps | (apply Keeps.foldl; intro u a hu; try dsimp only) | apply Keeps.ite
      | split | intro _ | refine Keeps.written rfl rfl rfl rfl rfl rfl rfl rfl ?_

theorem importFinish_keeps {s₀ : State} (s : State) (h_s : Keeps s₀ s) : Keeps s₀ (importFinish s) := by
  unfold importFinish
  try dsimp only
  with_reducible
    repeat'
      first
      | assumption | apply State.setSide_keeps | apply importFail_keeps | apply sideWrite_keeps
      | (apply Keeps.foldl; intro u a hu; try dsimp only) | apply Keeps.ite | split | intro _
      | refine Keeps.written rfl rfl rfl rfl rfl rfl rfl rfl ?_

theorem importOpenCmd_keeps {s₀ : State} (s : State) (key : Word) (h_s : Keeps s₀ s) : Keeps s₀ (importOpenCmd s key) := by
  unfold importOpenCmd
  try dsimp only
  with_reducible
    repeat'
      first
      | assumption | apply State.setSide_keeps | apply importFail_keeps | apply sideWrite_keeps
      | (apply Keeps.foldl; intro u a hu; try dsimp only) | apply Keeps.ite | split | intro _
      | refine Keeps.written rfl rfl rfl rfl rfl rfl rfl rfl ?_

theorem importStatus_keeps {s₀ : State} (s : State) (h_s : Keeps s₀ s) : Keeps s₀ (importStatus s) := by
  unfold importStatus
  try dsimp only
  with_reducible
    repeat'
      first
      | assumption | apply sideRead_keeps | (apply Keeps.foldl; intro u a hu; try dsimp only) | apply Keeps.ite | split
      | intro _ | refine Keeps.written rfl rfl rfl rfl rfl rfl rfl rfl ?_

theorem importWriteDone_keeps {s₀ : State} (s : State) (ok : Bool) (h_s : Keeps s₀ s) : Keeps s₀ (importWriteDone s ok) := by
  unfold importWriteDone
  try dsimp only
  with_reducible
    repeat'
      first
      | assumption | apply progressWrite_keeps | apply State.setSide_keeps | apply deviceReset_keeps
      | apply journalNext_keeps | apply importFail_keeps | (apply Keeps.foldl; intro u a hu; try dsimp only)
      | apply Keeps.ite | split | intro _ | refine Keeps.written rfl rfl rfl rfl rfl rfl rfl rfl ?_

theorem sideReadBar0_keeps {s₀ : State} (s : State) (off : Nat) (n : Nat) (h_s : Keeps s₀ s)
    : Keeps s₀ (sideReadBar0 s off n) := by
  unfold sideReadBar0
  try dsimp only
  with_reducible
    repeat'
      first
      | assumption | apply sideRead_keeps | (apply Keeps.foldl; intro u a hu; try dsimp only) | apply Keeps.ite | split
      | intro _ | refine Keeps.written rfl rfl rfl rfl rfl rfl rfl rfl ?_

theorem sideReadBar2_keeps {s₀ : State} (s : State) (off : Nat) (n : Nat) (h_s : Keeps s₀ s)
    : Keeps s₀ (sideReadBar2 s off n) := by
  unfold sideReadBar2
  try dsimp only
  with_reducible
    repeat'
      first
      | assumption | apply sideRead_keeps | (apply Keeps.foldl; intro u a hu; try dsimp only) | apply Keeps.ite | split
      | intro _ | refine Keeps.written rfl rfl rfl rfl rfl rfl rfl rfl ?_

theorem State.setSide_only {m : Nat} {s₀ : State} (hm : 4294967296 ||| m = m) (s : State) (x2 : Side)
    (h_s : Only m s₀ s) : Only m s₀ (State.setSide s x2) := by
  unfold State.setSide
  try dsimp only
  with_reducible
    repeat'
      first
      | assumption | exact .inr (mask_bit hm (by decide)) | exact .inl rfl | exact mask_trans (by decide) hm
      | (apply Only.foldl; intro u a hu; try dsimp only) | apply Only.ite | split | intro _
      | refine Only.written rfl ?_ ?_ ?_ ?_ ?_ ?_ ?_ ?_ ?_ ?_ ?_ ?_ ?_ ?_ ?_ ?_ ?_ ?_ ?_ ?_ ?_ ?_ ?_ ?_ ?_ ?_ ?_ ?_ ?_ ?_ ?_ ?_ ?_ ?_ ?_ ?_ ?_ ?_

theorem sideWrite_only {m : Nat} {s₀ : State} (hm : 4294967296 ||| m = m) (s : State) (f : State → State)
    (hf : ∀ a0, Only m s₀ a0 → Only m s₀ (f a0)) (h_s : Only m s₀ s) : Only m s₀ (sideWrite s f) := by
  unfold sideWrite
  try dsimp only
  with_reducible
    repeat'
      first
      | assumption | exact mask_trans (by decide) hm | apply hf | apply State.setSide_only
      | (apply Only.foldl; intro u a hu; try dsimp only) | apply Only.ite | split | intro _

theorem exportOpen_only {m : Nat} {s₀ : State} (hm : 4294967296 ||| m = m) (s : State)
    (h_s : Only m s₀ s) : Only m s₀ (exportOpen s) := by
  unfold exportOpen
  try dsimp only
  with_reducible
    repeat'
      first
      | assumption | exact mask_trans (by decide) hm | apply State.setSide_only | apply sideWrite_only
      | (apply Only.foldl; intro u a hu; try dsimp only) | apply Only.ite | split | intro _

theorem sideRead_only {m : Nat} {s₀ : State} (hm : 4294967312 ||| m = m) (s : State) (n : Nat) (l : List Byte) (x4 : Side)
    (h_s : Only m s₀ s) : Only m s₀ (sideRead s n l x4) := by
  unfold sideRead
  try dsimp only
  with_reducible
    repeat'
      first
      | assumption | exact .inr (mask_bit hm (by decide)) | exact .inl rfl | exact mask_trans (by decide) hm
      | (apply Only.foldl; intro u a hu; try dsimp only) | apply Only.ite | split | intro _
      | refine Only.written rfl ?_ ?_ ?_ ?_ ?_ ?_ ?_ ?_ ?_ ?_ ?_ ?_ ?_ ?_ ?_ ?_ ?_ ?_ ?_ ?_ ?_ ?_ ?_ ?_ ?_ ?_ ?_ ?_ ?_ ?_ ?_ ?_ ?_ ?_ ?_ ?_ ?_ ?_

theorem exportClose_only {m : Nat} {s₀ : State} (hm : 5368709120 ||| m = m) (s : State)
    (h_s : Only m s₀ s) : Only m s₀ (exportClose s) := by
  unfold exportClose
  try dsimp only
  with_reducible
    repeat'
      first
      | assumption | exact mask_trans (by decide) hm | apply State.setSide_only | apply journalNext_only
      | (apply Only.foldl; intro u a hu; try dsimp only) | apply Only.ite | split | intro _

theorem exportRead_only {m : Nat} {s₀ : State} (hm : 5368709136 ||| m = m) (s : State) (n : Nat)
    (h_s : Only m s₀ s) : Only m s₀ (exportRead s n) := by
  unfold exportRead
  try dsimp only
  with_reducible
    repeat'
      first
      | assumption | exact mask_trans (by decide) hm | apply exportClose_only | apply sideRead_only
      | (apply Only.foldl; intro u a hu; try dsimp only) | apply Only.ite | split | intro _

theorem exportStatus_only {m : Nat} {s₀ : State} (hm : 4294967312 ||| m = m) (s : State)
    (h_s : Only m s₀ s) : Only m s₀ (exportStatus s) := by
  unfold exportStatus
  try dsimp only
  with_reducible
    repeat'
      first
      | assumption | exact mask_trans (by decide) hm | apply sideRead_only
      | (apply Only.foldl; intro u a hu; try dsimp only) | apply Only.ite | split | intro _

theorem exportTimeout_only {m : Nat} {s₀ : State} (hm : 5368709120 ||| m = m) (s : State)
    (h_s : Only m s₀ s) : Only m s₀ (exportTimeout s) := by
  unfold exportTimeout
  try dsimp only
  with_reducible
    repeat'
      first
      | assumption | exact mask_trans (by decide) hm | apply exportClose_only
      | (apply Only.foldl; intro u a hu; try dsimp only) | apply Only.ite | split | intro _

theorem sideIdent_only {m : Nat} {s₀ : State} (hm : 4294967312 ||| m = m) (s : State)
    (h_s : Only m s₀ s) : Only m s₀ (sideIdent s) := by
  unfold sideIdent
  try dsimp only
  with_reducible
    repeat'
      first
      | assumption | exact mask_trans (by decide) hm | apply sideRead_only
      | (apply Only.foldl; intro u a hu; try dsimp only) | apply Only.ite | split | intro _

theorem importData_only {m : Nat} {s₀ : State} (hm : 4294967296 ||| m = m) (s : State) (l : List Byte)
    (h_s : Only m s₀ s) : Only m s₀ (importData s l) := by
  unfold importData
  refine sideWrite_only hm _ _ (fun u hu => ?_) h_s
  exact Only.ite (State.setSide_only hm _ _ hu) hu

theorem importFail_only {m : Nat} {s₀ : State} (hm : 4294967296 ||| m = m) (s : State) (code : Nat)
    (h_s : Only m s₀ s) : Only m s₀ (importFail s code) := by
  unfold importFail
  try dsimp only
  with_reducible
    repeat'
      first
      | assumption | exact mask_trans (by decide) hm | apply State.setSide_only
      | (apply Only.foldl; intro u a hu; try dsimp only) | apply Only.ite | split | intro _

theorem importFinish_only {m : Nat} {s₀ : State} (hm : 4294967296 ||| m = m) (s : State)
    (h_s : Only m s₀ s) : Only m s₀ (importFinish s) := by
  unfold importFinish
  try dsimp only
  with_reducible
    repeat'
      first
      | assumption | exact mask_trans (by decide) hm | apply State.setSide_only | apply importFail_only
      | apply sideWrite_only | (apply Only.foldl; intro u a hu; try dsimp only) | apply Only.ite | split | intro _

theorem importOpenCmd_only {m : Nat} {s₀ : State} (hm : 4294967296 ||| m = m) (s : State) (key : Word)
    (h_s : Only m s₀ s) : Only m s₀ (importOpenCmd s key) := by
  unfold importOpenCmd
  try dsimp only
  with_reducible
    repeat'
      first
      | assumption | exact mask_trans (by decide) hm | apply State.setSide_only | apply importFail_only
      | apply sideWrite_only | (apply Only.foldl; intro u a hu; try dsimp only) | apply Only.ite | split | intro _

theorem importStatus_only {m : Nat} {s₀ : State} (hm : 4294967312 ||| m = m) (s : State)
    (h_s : Only m s₀ s) : Only m s₀ (importStatus s) := by
  unfold importStatus
  try dsimp only
  with_reducible
    repeat'
      first
      | assumption | exact mask_trans (by decide) hm | apply sideRead_only
      | (apply Only.foldl; intro u a hu; try dsimp only) | apply Only.ite | split | intro _

theorem importWriteDone_only {m : Nat} {s₀ : State} (hm : 137438953455 ||| m = m) (s : State) (ok : Bool)
    (h_s : Only m s₀ s) : Only m s₀ (importWriteDone s ok) := by
  unfold importWriteDone
  try dsimp only
  with_reducible
    repeat'
      first
      | assumption | exact .inr (mask_bit hm (by decide)) | exact .inl rfl | exact mask_trans (by decide) hm
      | apply progressWrite_only | apply State.setSide_only | apply deviceReset_only | apply journalNext_only
      | apply importFail_only | (apply Only.foldl; intro u a hu; try dsimp only) | apply Only.ite | split | intro _
      | refine Only.written rfl ?_ ?_ ?_ ?_ ?_ ?_ ?_ ?_ ?_ ?_ ?_ ?_ ?_ ?_ ?_ ?_ ?_ ?_ ?_ ?_ ?_ ?_ ?_ ?_ ?_ ?_ ?_ ?_ ?_ ?_ ?_ ?_ ?_ ?_ ?_ ?_ ?_ ?_

theorem sideReadBar0_only {m : Nat} {s₀ : State} (hm : 4294967312 ||| m = m) (s : State) (off : Nat) (n : Nat)
    (h_s : Only m s₀ s) : Only m s₀ (sideReadBar0 s off n) := by
  unfold sideReadBar0
  try dsimp only
  with_reducible
    repeat'
      first
      | assumption | exact mask_trans (by decide) hm | apply sideRead_only
      | (apply Only.foldl; intro u a hu; try dsimp only) | apply Only.ite | split | intro _

theorem sideReadBar2_only {m : Nat} {s₀ : State} (hm : 4294967312 ||| m = m) (s : State) (off : Nat) (n : Nat)
    (h_s : Only m s₀ s) : Only m s₀ (sideReadBar2 s off n) := by
  unfold sideReadBar2
  try dsimp only
  with_reducible
    repeat'
      first
      | assumption | exact mask_trans (by decide) hm | apply sideRead_only
      | (apply Only.foldl; intro u a hu; try dsimp only) | apply Only.ite | split | intro _

end Sys2Proof.Machine
end

