-- ==== Sys2Proof/Laws/ExecBase.lean ====
section
/-!
SUPPORT. Machine/ExecBase.lean: every operation of it keeps what `Keeps` says, and changes only the parts of its mask.
-/
set_option linter.unusedTactic false
set_option linter.unreachableTactic false
set_option linter.unusedVariables false

namespace Sys2Proof.Machine

theorem awake_keeps {s₀ : State} (t : Nat) (s : State) (f : State → State) (hf : ∀ a0, Keeps s₀ a0 → Keeps s₀ (f a0)) (h_s
    : Keeps s₀ s) : Keeps s₀ (awake t s f) := by
  unfold awake
  try dsimp only
  with_reducible
    repeat'
      first
      | assumption | apply hf | apply State.tick_keeps | (apply Keeps.foldl; intro u a hu; try dsimp only)
      | apply Keeps.ite | split | intro _ | refine Keeps.written rfl rfl rfl rfl rfl rfl rfl rfl ?_

theorem capturePairDue_keeps {s₀ : State} (s : State) (r : Nat) (h_s : Keeps s₀ s) : Keeps s₀ (capturePairDue s r) := by
  unfold capturePairDue
  try dsimp only
  with_reducible
    repeat'
      first
      | assumption | apply capturePair_keeps | (apply Keeps.foldl; intro u a hu; try dsimp only) | apply Keeps.ite | split
      | intro _ | refine Keeps.written rfl rfl rfl rfl rfl rfl rfl rfl ?_

theorem convUnless_keeps {s₀ : State} (s : State) (k : Nat) (t : State) (h_s : Keeps s₀ s) (h_t : Keeps s₀ t)
    : Keeps s₀ (convUnless s k t) := by
  unfold convUnless
  try dsimp only
  with_reducible
    repeat'
      first
      | assumption | (apply Keeps.foldl; intro u a hu; try dsimp only) | apply Keeps.ite | split | intro _
      | refine Keeps.written rfl rfl rfl rfl rfl rfl rfl rfl ?_

theorem crankEdgeCmd_keeps {s₀ : State} (s : State) (d : Nat) (ts : Nat) (lv : Int) (dir : Option Bool) (h_s : Keeps s₀ s)
    : Keeps s₀ (crankEdgeCmd s d ts lv dir) := by
  unfold crankEdgeCmd
  try dsimp only
  with_reducible
    repeat'
      first
      | assumption | apply crankEdge_keeps | apply latchSet_keeps | (apply Keeps.foldl; intro u a hu; try dsimp only)
      | apply Keeps.ite | split | intro _ | refine Keeps.written rfl rfl rfl rfl rfl rfl rfl rfl ?_

theorem reelUnless_keeps {s₀ : State} (s : State) (t : State) (h_s : Keeps s₀ s) (h_t : Keeps s₀ t)
    : Keeps s₀ (reelUnless s t) := by
  unfold reelUnless
  try dsimp only
  with_reducible
    repeat'
      first
      | assumption | (apply Keeps.foldl; intro u a hu; try dsimp only) | apply Keeps.ite | split | intro _
      | refine Keeps.written rfl rfl rfl rfl rfl rfl rfl rfl ?_

theorem lostCompletion_keeps {s₀ : State} (s : State) (x2 : ReadTag) (h_s : Keeps s₀ s)
    : Keeps s₀ (lostCompletion s x2) := by
  unfold lostCompletion
  try dsimp only
  with_reducible
    repeat'
      first
      | assumption | apply xfrReadData_keeps | apply xfrLinkRead_keeps | apply xfrFetched_keeps | apply fetchDone_keeps
      | apply pollAll_keeps | (apply Keeps.foldl; intro u a hu; try dsimp only) | apply Keeps.ite | split | intro _
      | refine Keeps.written rfl rfl rfl rfl rfl rfl rfl rfl ?_

theorem slotCmd_keeps {s₀ : State} (op : Nat) (r : Nat) (f : State → Fetched → Reply × State) (s : State)
    (hf : ∀ a0 a1, Keeps s₀ a0 → Keeps s₀ (f a0 a1).2) (h_s : Keeps s₀ s) : Keeps s₀ (slotCmd op r f s) := by
  unfold slotCmd
  try dsimp only
  with_reducible
    repeat'
      first
      | assumption | apply hf | apply anglesTo_keeps | apply ringCmd_keeps
      | (apply Keeps.foldl; intro u a hu; try dsimp only) | apply Keeps.ite | split | intro _
      | refine Keeps.written rfl rfl rfl rfl rfl rfl rfl rfl ?_

theorem freshnessDue_keeps {s₀ : State} (s : State) (p : Nat) (h_s : Keeps s₀ s) : Keeps s₀ (freshnessDue s p) := by
  unfold freshnessDue
  try dsimp only
  with_reducible
    repeat'
      first
      | assumption | apply freshnessLapse_keeps | (apply Keeps.foldl; intro u a hu; try dsimp only) | apply Keeps.ite
      | split | intro _ | refine Keeps.written rfl rfl rfl rfl rfl rfl rfl rfl ?_

theorem holdoffExpiry_keeps {s₀ : State} (s : State) (k : Nat) (h_s : Keeps s₀ s) : Keeps s₀ (holdoffExpiry s k) := by
  unfold holdoffExpiry
  try dsimp only
  with_reducible
    repeat'
      first
      | assumption | (apply Keeps.foldl; intro u a hu; try dsimp only) | apply Keeps.ite | split | intro _
      | refine Keeps.written rfl rfl rfl rfl rfl rfl rfl rfl ?_

theorem wardenClaim_keeps {s₀ : State} (s : State) (k : Nat) (h_s : Keeps s₀ s) : Keeps s₀ (wardenClaim s k) := by
  unfold wardenClaim
  try dsimp only
  with_reducible
    repeat'
      first
      | assumption | apply State.answer_keeps | apply State.claim_keeps
      | (apply Keeps.foldl; intro u a hu; try dsimp only) | apply Keeps.ite | split | intro _
      | refine Keeps.written rfl rfl rfl rfl rfl rfl rfl rfl ?_

theorem wardenComplete_keeps {s₀ : State} (s : State) (k : Nat) (v : Word) (h_s : Keeps s₀ s)
    : Keeps s₀ (wardenComplete s k v) := by
  unfold wardenComplete
  try dsimp only
  with_reducible
    repeat'
      first
      | assumption | apply State.complete_keeps | (apply Keeps.foldl; intro u a hu; try dsimp only) | apply Keeps.ite
      | split | intro _ | refine Keeps.written rfl rfl rfl rfl rfl rfl rfl rfl ?_

theorem vrArmCmd_keeps {s₀ : State} (s : State) (d : Nat) (cam : Bool) (mv : Int) (h_s : Keeps s₀ s)
    : Keeps s₀ (vrArmCmd s d cam mv) := by
  unfold vrArmCmd
  try dsimp only
  with_reducible
    repeat'
      first
      | assumption | apply duskArm_keeps | apply vrArm_keeps | (apply Keeps.foldl; intro u a hu; try dsimp only)
      | apply Keeps.ite | split | intro _ | refine Keeps.written rfl rfl rfl rfl rfl rfl rfl rfl ?_

theorem windowSet_keeps {s₀ : State} (s : State) (w : Nat) (v : Nat) (h_s : Keeps s₀ s) : Keeps s₀ (windowSet s w v) := by
  unfold windowSet
  try dsimp only
  with_reducible
    repeat'
      first
      | assumption | apply putField_keeps | (apply Keeps.foldl; intro u a hu; try dsimp only) | apply Keeps.ite | split
      | intro _ | refine Keeps.written rfl rfl rfl rfl rfl rfl rfl rfl ?_

theorem awake_only {m : Nat} {s₀ : State} (hm : 1 ||| m = m) (t : Nat) (s : State) (f : State → State)
    (hf : ∀ a0, Only m s₀ a0 → Only m s₀ (f a0)) (h_s : Only m s₀ s) : Only m s₀ (awake t s f) := by
  unfold awake
  try dsimp only
  with_reducible
    repeat'
      first
      | assumption | exact mask_trans (by decide) hm | apply hf | apply State.tick_only
      | (apply Only.foldl; intro u a hu; try dsimp only) | apply Only.ite | split | intro _

theorem capturePairDue_only {m : Nat} {s₀ : State} (hm : 564 ||| m = m) (s : State) (r : Nat)
    (h_s : Only m s₀ s) : Only m s₀ (capturePairDue s r) := by
  unfold capturePairDue
  try dsimp only
  with_reducible
    repeat'
      first
      | assumption | exact mask_trans (by decide) hm | apply capturePair_only
      | (apply Only.foldl; intro u a hu; try dsimp only) | apply Only.ite | split | intro _

theorem convUnless_only {m : Nat} {s₀ : State} (hm : 0 ||| m = m) (s : State) (k : Nat) (t : State) (h_s : Only m s₀ s)
    (h_t : Only m s₀ t) : Only m s₀ (convUnless s k t) := by
  unfold convUnless
  try dsimp only
  with_reducible
    repeat'
      first
      | assumption | exact mask_trans (by decide) hm | (apply Only.foldl; intro u a hu; try dsimp only) | apply Only.ite
      | split | intro _

theorem crankEdgeCmd_only {m : Nat} {s₀ : State} (hm : 106415063036 ||| m = m) (s : State) (d : Nat) (ts : Nat) (lv : Int)
    (dir : Option Bool) (h_s : Only m s₀ s) : Only m s₀ (crankEdgeCmd s d ts lv dir) := by
  unfold crankEdgeCmd
  try dsimp only
  with_reducible
    repeat'
      first
      | assumption | exact mask_trans (by decide) hm | apply crankEdge_only | apply latchSet_only
      | (apply Only.foldl; intro u a hu; try dsimp only) | apply Only.ite | split | intro _

theorem reelUnless_only {m : Nat} {s₀ : State} (hm : 0 ||| m = m) (s : State) (t : State) (h_s : Only m s₀ s)
    (h_t : Only m s₀ t) : Only m s₀ (reelUnless s t) := by
  unfold reelUnless
  try dsimp only
  with_reducible
    repeat'
      first
      | assumption | exact mask_trans (by decide) hm | (apply Only.foldl; intro u a hu; try dsimp only) | apply Only.ite
      | split | intro _

theorem lostCompletion_only {m : Nat} {s₀ : State} (hm : 2037 ||| m = m) (s : State) (x2 : ReadTag)
    (h_s : Only m s₀ s) : Only m s₀ (lostCompletion s x2) := by
  unfold lostCompletion
  try dsimp only
  with_reducible
    repeat'
      first
      | assumption | exact mask_trans (by decide) hm | apply xfrReadData_only | apply xfrLinkRead_only
      | apply xfrFetched_only | apply fetchDone_only | apply pollAll_only
      | (apply Only.foldl; intro u a hu; try dsimp only) | apply Only.ite | split | intro _

theorem slotCmd_only {m : Nat} {s₀ : State} (hm : 104267579388 ||| m = m) (op : Nat) (r : Nat)
    (f : State → Fetched → Reply × State) (s : State) (hf : ∀ a0 a1, Only m s₀ a0 → Only m s₀ (f a0 a1).2)
    (h_s : Only m s₀ s) : Only m s₀ (slotCmd op r f s) := by
  unfold slotCmd
  try dsimp only
  with_reducible
    repeat'
      first
      | assumption | exact mask_trans (by decide) hm | apply hf | apply anglesTo_only | apply ringCmd_only
      | (apply Only.foldl; intro u a hu; try dsimp only) | apply Only.ite | split | intro _

theorem freshnessDue_only {m : Nat} {s₀ : State} (hm : 564 ||| m = m) (s : State) (p : Nat)
    (h_s : Only m s₀ s) : Only m s₀ (freshnessDue s p) := by
  unfold freshnessDue
  try dsimp only
  with_reducible
    repeat'
      first
      | assumption | exact mask_trans (by decide) hm | apply freshnessLapse_only
      | (apply Only.foldl; intro u a hu; try dsimp only) | apply Only.ite | split | intro _

theorem holdoffExpiry_only {m : Nat} {s₀ : State} (hm : 512 ||| m = m) (s : State) (k : Nat)
    (h_s : Only m s₀ s) : Only m s₀ (holdoffExpiry s k) := by
  unfold holdoffExpiry
  try dsimp only
  with_reducible
    repeat'
      first
      | assumption | exact .inr (mask_bit hm (by decide)) | exact .inl rfl | exact mask_trans (by decide) hm
      | (apply Only.foldl; intro u a hu; try dsimp only) | apply Only.ite | split | intro _
      | refine Only.written rfl ?_ ?_ ?_ ?_ ?_ ?_ ?_ ?_ ?_ ?_ ?_ ?_ ?_ ?_ ?_ ?_ ?_ ?_ ?_ ?_ ?_ ?_ ?_ ?_ ?_ ?_ ?_ ?_ ?_ ?_ ?_ ?_ ?_ ?_ ?_ ?_ ?_ ?_

theorem wardenClaim_only {m : Nat} {s₀ : State} (hm : 529 ||| m = m) (s : State) (k : Nat)
    (h_s : Only m s₀ s) : Only m s₀ (wardenClaim s k) := by
  unfold wardenClaim
  try dsimp only
  with_reducible
    repeat'
      first
      | assumption | exact mask_trans (by decide) hm | apply State.answer_only | apply State.claim_only
      | (apply Only.foldl; intro u a hu; try dsimp only) | apply Only.ite | split | intro _

theorem wardenComplete_only {m : Nat} {s₀ : State} (hm : 513 ||| m = m) (s : State) (k : Nat) (v : Word)
    (h_s : Only m s₀ s) : Only m s₀ (wardenComplete s k v) := by
  unfold wardenComplete
  try dsimp only
  with_reducible
    repeat'
      first
      | assumption | exact mask_trans (by decide) hm | apply State.complete_only
      | (apply Only.foldl; intro u a hu; try dsimp only) | apply Only.ite | split | intro _

theorem vrArmCmd_only {m : Nat} {s₀ : State} (hm : 32768 ||| m = m) (s : State) (d : Nat) (cam : Bool) (mv : Int)
    (h_s : Only m s₀ s) : Only m s₀ (vrArmCmd s d cam mv) := by
  unfold vrArmCmd
  try dsimp only
  with_reducible
    repeat'
      first
      | assumption | exact mask_trans (by decide) hm | apply duskArm_only | apply vrArm_only
      | (apply Only.foldl; intro u a hu; try dsimp only) | apply Only.ite | split | intro _

theorem windowSet_only {m : Nat} {s₀ : State} (hm : 106702569471 ||| m = m) (s : State) (w : Nat) (v : Nat)
    (h_s : Only m s₀ s) : Only m s₀ (windowSet s w v) := by
  unfold windowSet
  try dsimp only
  with_reducible
    repeat'
      first
      | assumption | exact mask_trans (by decide) hm | apply putField_only
      | (apply Only.foldl; intro u a hu; try dsimp only) | apply Only.ite | split | intro _

end Sys2Proof.Machine
end

