-- ==== Sys2Proof/Laws/Command.lean ====
section
/-!
SUPPORT. What the two shapes of a meaning do: a command of the running device, and a command that reaches the block whatever
its power state.
-/
namespace Sys2Proof.Machine

/-- A command of the running device, while the device runs: time passes, then it has its effect. -/
theorem act_up {t : Nat} {s : State} {f : State → State} (h : s.Up) : act t s f = .next (f (s.tick t)) := by
  simp [act, awake, h.1, h.2]

/-- In Dusk or in reset it has none: only time passes. -/
theorem act_down {t : Nat} {s : State} {f : State → State} (h : ¬ s.Up) : act t s f = .next (s.tick t) := by
  have h' : s.pwr.asleep = true ∨ s.pwr.inReset = true := by
    by_contra hc
    simp only [not_or, Bool.not_eq_true] at hc
    exact h hc
  simp only [act, awake, if_pos h']

/-- A command applied at the head of its ring: its operation, then its completion. -/
theorem act_ringCmd {t op r : Nat} {s : State} {c : Fetched} {f : State → Fetched → Reply × State} (h : Takes s r op c) :
    act t s (fun s => ringCmd op r f s) = .next (finish (f (s.tick t) c).2 r c (f (s.tick t) c).1) := by
  obtain ⟨⟨hu, hh, ho, hg⟩, hc, hr⟩ := h
  have h1 : headCmd (s.tick t) r = some c := hh
  have h2 : (s.tick t).glb.chipSafe = false := hc
  have h3 : roleTakes (s.tick t) c = true := hr
  rw [act_up hu]
  simp only [ringCmd, h1, ho, h2, hg]
  simp only [roleTakes] at h3
  split
  · exact absurd rfl ‹_›
  · split
    · simp_all
    · split
      · simp_all
      · split
        · rename_i n hn
          simp only [hn, Bool.and_eq_true, decide_eq_true_eq, Bool.not_eq_true'] at h3
          obtain ⟨⟨h4, h5⟩, h6⟩ := h3
          rw [if_neg (by omega), if_neg (by simp [h5]), if_neg (by simp [h6])]
        · rfl

/-- A command of the running device keeps what its operation keeps. -/
theorem act_keeps {t : Nat} {s u : State} {f : State → State} (hf : ∀ v, Keeps s v → Keeps s (f v)) (h : act t s f = .next u) :
    Keeps s u := by
  unfold act at h
  obtain rfl := Host.Outcome.next.inj h
  exact awake_keeps _ _ _ hf (.refl s)

/-- A command that always reaches the block keeps what its operation keeps. -/
theorem run_keeps {t : Nat} {s u : State} {f : State → State} (hf : ∀ v, Keeps s v → Keeps s (f v)) (h : run t s f = .next u) :
    Keeps s u := by
  unfold run at h
  obtain rfl := Host.Outcome.next.inj h
  exact hf _ (State.tick_keeps _ _ (.refl s))

/-- A command of the running device changes only what its operation may change, and the time. -/
theorem act_only {m t : Nat} {s u : State} {f : State → State} (h1 : 1 ||| m = m) (hf : ∀ v, Only m s v → Only m s (f v))
    (h : act t s f = .next u) : Only m s u := by
  unfold act at h
  obtain rfl := Host.Outcome.next.inj h
  exact awake_only h1 _ _ _ hf (.refl _ s)

theorem run_only {m t : Nat} {s u : State} {f : State → State} (h1 : 1 ||| m = m) (hf : ∀ v, Only m s v → Only m s (f v))
    (h : run t s f = .next u) : Only m s u := by
  unfold run at h
  obtain rfl := Host.Outcome.next.inj h
  exact hf _ (State.tick_only h1 _ _ (.refl _ s))

end Sys2Proof.Machine
end

