-- ==== Sys2Proof/Certificates/Slice0/Obligations.lean ====
section
/-!
DEFINITION. The statements about the block, for the provers: first the ones about every command, then the blocks of the spec in its
order. In a statement `Runs c s P` says that the command answers a next state and what holds of it (Safety.lean).
-/
open Sys2Proof Sys2Proof.Machine

/-- A step takes the command at the front of the queue and runs it with the queue's rest (the block's first-in first-out order). -/
def Obligations.StepRunsTheFrontCommand : Prop :=
  ∀ (c : Instr) (rest : List Instr) (s : State), step { s with pending := c :: rest } = exec c { s with pending := rest }

/-- With no command waiting a step lets one ECLK tick pass and changes nothing else (the model's choice: log entry 1). -/
def Obligations.AnEmptyQueueLetsOneTickPass : Prop :=
  ∀ s : State, s.pending = [] → step s = .next { s with clk := { s.clk with now := s.clk.now + 1 } }

/-- Every command of the table goes on: it answers a next state from every state, and leaves the commands that wait as they are.
Model time never runs back (the model's time: log entry 2). -/
def Obligations.EveryCommandGoesOnInTime : Prop :=
  (∀ (c : Instr) (s : State), ∃ u, exec c s = .next u ∧ u.pending = s.pending) ∧
  (∀ (c : Instr) (s u : State), exec c s = .next u → s.clk.now ≤ u.clk.now)

/-- In Dusk and while it is held in reset the device takes no command of its running blocks: only time passes (R547, R557). -/
def Obligations.AHeldDeviceTakesNoCommand : Prop :=
  ∀ (c : Instr) (s : State), reachesHeld c = false → ¬ s.Up → ∃ t, exec c s = .next (s.tick t)

/-- A command changes no part of the state outside its footprint, in whatever state it finds the block. -/
def Obligations.EveryCommandChangesOnlyItsFootprint : Prop :=
  ∀ (c : Instr) (s u : State), exec c s = .next u → ChangesOnly (footprint c) s u

/-- Every step keeps the invariant: canonical register and table memory, a time base not ahead of the present, no half of the key
held once sealed (R48), the count of refused writes within its field (R45). -/
def Obligations.EveryStepKeepsTheInvariant : Prop :=
  ∀ s u : State, s.Inv → step s = .next u → u.Inv

/-- The state after reset meets the invariant, and holds what the spec gives it (R41, R48, R310, R538, R557, R559): FIO clocks,
DTIME 0 of quality INTERNAL, SAFE_HOLD, not ARMED, not sealed, RUN = 0, every domain NONE, every output low, epoch 1, no role
COVERED, and an empty queue. Where the spec leaves a point of it open, the clauses follow the model's choices or readings of
log entries 8, 63. -/
def Obligations.ResetMeetsTheInvariant : Prop :=
  State.reset.Inv ∧ State.reset.clk.pll = false ∧ State.reset.dtime = 0 ∧ State.reset.clk.qual = 0 ∧
    State.reset.glb.safeHold = true ∧ State.reset.glb.armed = false ∧ State.reset.glb.isSealed = false ∧
    State.reset.running = false ∧ (∀ d, d < 4 → syncOf State.reset d = .quiet) ∧
    (∀ c, (State.reset.cell c).lsg.level = false) ∧ (∀ b, (State.reset.bank b).epoch = 1) ∧
    (∀ n, (State.reset.refl n).covered = false) ∧ State.reset.pending = []

/-- REGISTER_WRITE before the seal: an access that is not a naturally aligned word is discarded (R15), one to a register of the
WDN block writes each field by its own access and range and leaves every other register (R12), and after the seal a write that
the table of permitted writes does not list changes no field and is counted (R17, R311). BAR2_WRITE: a store to the signal
table area before the seal (R45), the discarded access (R44), and the write refused and counted after the seal (R45). Where
the spec leaves a point of it open, the clauses follow the model's choices or readings of log entries 21, 25. -/
def Obligations.WritesBeforeAndAfterTheSeal : Prop :=
  (∀ (s : State) (t a size : Nat) (v : BitVec 64), s.Up → s.glb.isSealed = false → ¬ (0x1A00 ≤ a ∧ a < 0x1C00) →
    ¬ (size = 4 ∧ a % 4 = 0 ∧ a < 0x100000) →
    exec (.registerWrite t a size v) s = .next { s.tick t with glb := { s.glb with first := false } }) ∧
  (∀ (s : State) (t a : Nat) (v : BitVec 64), s.Open → 0x3000 ≤ a → a < 0x4000 → a % 4 = 0 →
    Runs (.registerWrite t a 4 v) s (fun u => u.reg a = plainWrite a (s.reg a) (lo32 v.toNat) ∧
      (∀ b, b ≠ a → u.reg b = s.reg b) ∧ (cfgDiffers s u a = true → u.glb.digestDue = true) ∧ u.glb.first = false ∧
      ChangesOnly [.clk, .glb, .regs] s u)) ∧
  (∀ (s : State) (t a size : Nat) (v : BitVec 64), s.Up → s.glb.isSealed = true → ¬ (0x1A00 ≤ a ∧ a < 0x1C00) →
    (size = 4 → a % 4 = 0 → irqDirect a = false ∧ (hifSeal a = true → hostReset s = false) ∧ (a = 0x1000 → v.toNat % 2 = 0)) →
    exec (.registerWrite t a size v) s =
      .next { s.tick t with glb := { s.glb with first := false, refused := min 65535 (s.glb.refused + 1), refusedBar2 := false } }) ∧
  (∀ (s : State) (t a : Nat) (v : BitVec 64), s.Open → 0x82000 ≤ a → a < 0x83000 → a % 4 = 0 →
    Runs (.bar2Write t a 4 v) s (fun u => u.word a = lo32 v.toNat ∧
      (∀ b, ¬ (a ≤ b ∧ b < a + 4) → u.byte b = s.byte b) ∧ u.glb = { s.glb with first := false, digestDue := true } ∧
      ChangesOnly [.clk, .glb, .mem] s u)) ∧
  (∀ (s : State) (t a : Nat) (v : BitVec 64), s.Open → 0x82000 ≤ a → a < 0x83000 → a % 8 = 0 →
    Runs (.bar2Write t a 8 v) s (fun u => u.word a = lo32 v.toNat ∧ u.word (a + 4) = hi32 v.toNat ∧
      (∀ b, ¬ (a ≤ b ∧ b < a + 8) → u.byte b = s.byte b) ∧ u.glb = { s.glb with first := false, digestDue := true } ∧
      ChangesOnly [.clk, .glb, .mem] s u)) ∧
  (∀ (s : State) (t a size : Nat) (v : BitVec 64), s.Up → s.glb.isSealed = false →
    ¬ ((size = 4 ∨ size = 8) ∧ a % size = 0 ∧ a + size ≤ 0x800000) →
    exec (.bar2Write t a size v) s = .next { s.tick t with glb := { s.glb with first := false } }) ∧
  (∀ (s : State) (t a size : Nat) (v : BitVec 64), s.Up → s.glb.isSealed = true →
    exec (.bar2Write t a size v) s =
      .next { s.tick t with glb := { s.glb with first := false, refused := min 65535 (s.glb.refused + 1), refusedBar2 := true } })

/-- What a write leaves in a field: a SEAL field takes a value within its range and keeps its own otherwise (R47), an RO field
keeps its value, ones clear a W1C field bit by bit, and a bit of no field keeps its value (R12). -/
def Obligations.FieldsTakeWhatTheirAccessAllows : Prop :=
  (∀ (a : Nat) (old v : Word) (f : Fld), f ∈ regFields a →
    fld (plainWrite a old v) f.hi f.lo =
      match f.acc with
      | .seal => if f.mn ≤ fld v f.hi f.lo ∧ fld v f.hi f.lo ≤ f.mx then fld v f.hi f.lo else fld old f.hi f.lo
      | .w1c => fld (old &&& ~~~ v) f.hi f.lo
      | _ => fld old f.hi f.lo) ∧
  ∀ (a : Nat) (old v : Word) (i : Nat), (∀ f ∈ regFields a, ¬ (f.lo ≤ i ∧ i ≤ f.hi)) → wbit (plainWrite a old v) i = wbit old i

/-- GLB_SEAL (R48): the first key word sets FIRST, the second with FIRST seals the device and has the configuration in force
committed to the journal, any other value clears FIRST, and so does any write to another BAR0 register or to BAR2; after the
seal the write is refused and counted. -/
def Obligations.SealKeySequence : Prop :=
  (∀ (s : State) (t : Nat), s.Open → exec (.sealWrite t 0x5EA1) s = .next { s.tick t with glb := { s.glb with first := true } }) ∧
  (∀ (s : State) (t : Nat), s.Open → s.glb.first = true →
    Runs (.sealWrite t 0xFFFFA15E) s (fun u => u.glb = { s.glb with first := false, isSealed := true } ∧
      u.jrn.committed = some (configImage (s.tick t)) ∧
      (s.jrn.writing = none → s.journalHeld = false → u.jrn.writing.isSome) ∧
      ChangesOnly [.clk, .glb, .jrn] s u)) ∧
  (∀ (s : State) (t : Nat) (v : Word), s.Open → v ≠ 0x5EA1 → (v = 0xFFFFA15E → s.glb.first = false) →
    exec (.sealWrite t v) s = .next { s.tick t with glb := { s.glb with first := false } }) ∧
  (∀ (s : State) (t : Nat) (v : Word), s.Up → s.glb.isSealed = true →
    exec (.sealWrite t v) s =
      .next { s.tick t with glb := { s.glb with first := false, refused := min 65535 (s.glb.refused + 1), refusedBar2 := false } }) ∧
  (∀ (s u : State) (t a size : Nat) (v : BitVec 64), s.Up →
    ((size = 4 ∧ a % 4 = 0 ∧ a ≠ 0x10 ∨ 0x1A00 ≤ a ∧ a < 0x1C00 ∧ a % size = 0) ∧ exec (.registerWrite t a size v) s = .next u ∨
      ((size = 4 ∨ size = 8) ∧ a % size = 0) ∧ exec (.bar2Write t a size v) s = .next u) →
    u.glb.first = false)

/-- The seal lasts until the next reset: no command but one that resets the device clears it, and no write does (R49). -/
def Obligations.TheSealLastsUntilTheNextReset : Prop :=
  (∀ (c : Instr) (s u : State), s.glb.isSealed = true → exec c s = .next u → u.glb.isSealed = true ∨ u.pwr.inReset = true) ∧
  (∀ (s u : State) (t a size : Nat) (v : BitVec 64) (w : Word), s.glb.isSealed = true →
    (exec (.registerWrite t a size v) s = .next u ∨ exec (.bar2Write t a size v) s = .next u ∨
      exec (.sealWrite t w) s = .next u ∨ exec (.msixTableWrite t a size v) s = .next u) → u.glb.isSealed = true)

/-- A read of the low word of GLB_DTIME latches the high word and GLB_DTIME_QUAL of the same instant, which later reads return
whatever the time is then (R50); a read of the high word releases it, and one with nothing latched gives the word as it stands
(R16). -/
def Obligations.DeviceTimeReadsDescribeOneInstant : Prop :=
  (∀ (s : State) (t : Nat), s.Up →
    exec (.dtimeLowRead t) s =
      .next { s.tick t with
        glb := { s.glb with timeHigh := some (BitVec.ofNat 32 ((s.tick t).dtime / 2 ^ 32)), qualLatch := s.clk.qual },
        out := { s.out with rdata := [BitVec.ofNat 32 (s.tick t).dtime] } }) ∧
  (∀ (s : State) (t : Nat) (w : Word), s.Up → s.glb.timeHigh = some w →
    exec (.lowHalfRead t ⟨.bar0, 0x24, 4⟩) s =
      .next { s.tick t with glb := { s.glb with timeHigh := none }, out := { s.out with rdata := [w] } }) ∧
  (∀ (s : State) (t : Nat), s.Up → s.glb.timeHigh = none →
    exec (.lowHalfRead t ⟨.bar0, 0x24, 4⟩) s =
      .next { s.tick t with out := { s.out with rdata := [BitVec.ofNat 32 ((s.tick t).dtime / 2 ^ 32)] } }) ∧
  (∀ (s : State) (t : Nat), s.Up → latched s 0x28 = none →
    exec (.lowHalfRead t ⟨.bar0, 0x28, 4⟩) s = .next { s.tick t with out := { s.out with rdata := [BitVec.ofNat 32 s.glb.qualLatch] } })

/-- GLB_BEH_LEVEL: before the seal 1 and 2 select the level (R21), and any other value leaves the register (R22). Reads of a
64-bit register: the low half latches the high half, which the next read of the high half returns whatever has happened to the
register (R16). A BAR0 read of any other size or alignment gives zeros (R15), and so does a BAR2 read; naturally aligned words
of BAR2 and of the MSI-X structures come 32 or 64 bits at a time (R44, R303). POISONED_READ answers one word that nothing
fixes and is reported through Advanced Error Reporting (R473). FABRIC_GRANT: a promoted request goes first, then class 0,
class 1 and class 2 (R29). CLASS2_PROMOTION: the request that has waited 48 FCLK cycles is promoted. Where the spec leaves a
point of it open, the clauses follow the model's choices or readings of log entries 3, 23, 70, 71. -/
def Obligations.LevelsHalfReadsAndTheFabric : Prop :=
  (∀ (s : State) (t : Nat) (v : Word), s.Open → v = 1 ∨ v = 2 →
    Runs (.behLevelWrite t v) s (fun u => u.rf 4 1 0 = v.toNat ∧ (∀ b, b ≠ 4 → u.reg b = s.reg b) ∧
      ChangesOnly [.clk, .glb, .regs] s u)) ∧
  (∀ (s : State) (t : Nat) (v : Word), s.Open → v ≠ 1 → v ≠ 2 →
    Runs (.behLevelWrite t v) s (fun u => u.rf 4 1 0 = s.rf 4 1 0 ∧ (∀ b, b ≠ 4 → u.reg b = s.reg b) ∧
      ChangesOnly [.clk, .glb, .regs] s u)) ∧
  (∀ (s : State) (t a : Nat), s.Up → isLowHalf a = true →
    Runs (.lowHalfRead t ⟨.bar0, a, 4⟩) s (fun u => u.out.rdata = [bar0Word (s.tick t) a] ∧ ChangesOnly [.clk, .out, .hif] s u ∧
      ∀ t' v, v.Up → v.hif.hiLatch = u.hif.hiLatch →
        Runs (.lowHalfRead t' ⟨.bar0, a + 4, 4⟩) v (fun w => w.out.rdata = [bar0Word (s.tick t) (a + 4)] ∧
          latched w (a + 4) = none ∧ ChangesOnly [.clk, .out, .hif] v w))) ∧
  (∀ (s : State) (t a n : Nat), s.Up → ¬ (n = 4 ∧ a % 4 = 0) → ¬ (n = 8 ∧ a % 8 = 0 ∧ 0x1A00 ≤ a ∧ a < 0x1C08) →
    exec (.lowHalfRead t ⟨.bar0, a, n⟩) s =
      .next { s.tick t with out := { s.out with rdata := List.replicate ((n + 3) / 4) 0 } }) ∧
  (∀ (s : State) (t a n : Nat), s.Up → ¬ ((n = 4 ∨ n = 8) ∧ a % n = 0 ∧ a < 0x800000) →
    exec (.lowHalfRead t ⟨.bar2, a, n⟩) s =
      .next { s.tick t with out := { s.out with rdata := List.replicate ((n + 3) / 4) 0 } }) ∧
  (∀ (s : State) (t a : Nat), s.Up → a < 0x800000 → a % 4 = 0 →
    exec (.lowHalfRead t ⟨.bar2, a, 4⟩) s = .next { s.tick t with out := { s.out with rdata := [bar2Word (s.tick t) a] } } ∧
    (a % 8 = 0 → exec (.lowHalfRead t ⟨.bar2, a, 8⟩) s =
      .next { s.tick t with out := { s.out with rdata := [bar2Word (s.tick t) a, bar2Word (s.tick t) (a + 4)] } })) ∧
  (∀ (s : State) (t a : Nat), s.Up → 0x1A00 ≤ a → a < 0x1C08 → a % 8 = 0 →
    exec (.lowHalfRead t ⟨.bar0, a, 8⟩) s =
      .next { s.tick t with out := { s.out with rdata := [bar0Word (s.tick t) a, bar0Word (s.tick t) (a + 4)] } }) ∧
  (∀ (s : State) (t : Nat) (bar : Fin 3) (a : Nat), s.Up →
    Latest s t .message →
    Runs (.poisonedRead t bar a) s (fun u => u.out.sent = s.out.sent ++ [.poison bar.val a] ∧ u.out.rdata = [Config.freeWord s.free] ∧
      u.free = s.free + 1 ∧ ChangesOnly [.clk, .free, .out] s u)) ∧
  (∀ (s : State) (t : Nat) (l : List (Fin 11)) (k : Nat), s.Up → k < 11 →
    (fabricArrive (s.tick t) (l.map (·.val))).fabric.reqsOf k ≠ [] → s.fabric.promoted.contains k = false →
    Runs (.fabricGrant t l) s (fun u => ∃ g, u.fabric.granted = some g ∧
      (fabricArrive (s.tick t) (l.map (·.val))).fabric.reqsOf g ≠ [] ∧
      (s.fabric.promoted.contains g = true ∧ promotedFree (s.tick t) = true ∨
        s.fabric.promoted.contains g = false ∧ fabricClass g ≤ fabricClass k ∧
          (promotedFree (s.tick t) = true → ∀ p, p < 11 → s.fabric.promoted.contains p = true →
            (fabricArrive (s.tick t) (l.map (·.val))).fabric.reqsOf p = [])) ∧
      u.fabric.reqsOf g = ((fabricArrive (s.tick t) (l.map (·.val))).fabric.reqsOf g).tail ∧
      (∀ j, j ≠ g → u.fabric.reqsOf j = (fabricArrive (s.tick t) (l.map (·.val))).fabric.reqsOf j) ∧
      ChangesOnly [.clk, .fabric] s u)) ∧
  (∀ (s : State) (t : Nat) (k : Fin 11) (r : Nat) (rest : List Nat), s.Up → 8 ≤ k.val → s.fabric.reqsOf k.val = r :: rest →
    r + s.fclk 48 ≤ max s.clk.now t →
    Runs (.class2Promotion t k) s (fun u => k.val ∈ u.fabric.promoted ∧ (∀ j, j ≠ k.val → (j ∈ u.fabric.promoted ↔ j ∈ s.fabric.promoted)) ∧
      u.fabric.reqs = s.fabric.reqs ∧ ChangesOnly [.clk, .fabric] s u))

/-- PLL_LOCK sets the lock bit (R538); PLL_REQ and PLL_SWITCH record the request, which holds its ring (R539); a PLL_SWITCH on the
PLL completes with ON_PLL; 1 ms without lock ends the request with NO_LOCK. CLOCK_SWITCH with lock and a request: the clocks
run from the PLL, DTIME goes on without a step, its quality is BRIDGED while a bridge is in force and LOCAL otherwise, for a
part that is not the TIME master (R540). Where the spec leaves a point of it open, the clauses follow the model's choices or
readings of log entry 26. -/
def Obligations.ThePllSwitchAndItsTime : Prop :=
  (∀ s : State, s.Up → exec .pllLock s = .next ((s.tick s.clk.now).setRf 0x2004 8 8 1)) ∧
  (∀ (s : State) (t : Nat), s.Open → s.clk.pll = false → s.pwr.ask = none →
    exec (.pllReq t) s = .next { s.tick t with glb := { s.glb with first := false },
                                               pwr := { s.pwr with ask := some (max s.clk.now t, none) } }) ∧
  (∀ (s : State) (t : Nat) (r : Fin 64) (c : Fetched), Heads s r.val 0x51 c → s.glb.chipSafe = false → s.clk.pll = false →
    s.pwr.ask = none →
    exec (.pllSwitch t r) s = .next { s.tick t with pwr := { s.pwr with ask := some (max s.clk.now t, some r.val) } }) ∧
  (∀ (s : State) (t : Nat) (r : Fin 64) (c : Fetched), Heads s r.val 0x51 c → s.glb.chipSafe = false → s.clk.pll = true →
    exec (.pllSwitch t r) s = .next (finish (s.tick t) r.val c { cstat := 2, r0 := glbStatusWord s })) ∧
  (∀ (s : State) (t k : Nat), s.Up → s.pwr.ask = some (k, none) → k + 400000 ≤ max s.clk.now t → s.rb 0x2004 8 = false →
    exec (.pllSwitchTimeout t) s = .next { s.tick t with pwr := { s.pwr with ask := none } }) ∧
  (∀ (s : State) (t k r : Nat) (c : Fetched), Heads s r 0x51 c → s.pwr.ask = some (k, some r) → k + 400000 ≤ max s.clk.now t →
    s.rb 0x2004 8 = false →
    exec (.pllSwitchTimeout t) s =
      .next (finish { s.tick t with pwr := { s.pwr with ask := none } } r c { cstat := 1, r0 := glbStatusWord s })) ∧
  (∀ (s : State) (t k : Nat) (r : Option Nat), s.Up → s.pwr.ask = some (k, r) → s.rb 0x2004 8 = true → s.clk.pll = false →
    s.vlk.time.own ≠ 1 →
    Runs (.clockSwitch t) s (fun u => u.clk.pll = true ∧ u.dtime = (s.tick t).dtime ∧
      u.clk.qual = (if s.pwr.bridge then 2 else 1) ∧ u.pwr.ask = none ∧ u.pwr.bridge = s.pwr.bridge ∧ u.glb = s.glb ∧ u.mem = s.mem))

/-- The chip safe state (R463, R464), which the loss of the PLL's lock and the disagreement of the Warden cores bring about (R41):
the chip is safe, the condition is in WDN_STATUS.FATAL, every bank is safe, no unit has a running event, an armed slot or a
waiting start, and the lock loss puts the clocks back on FIO. In the chip safe state no further condition is taken. -/
def Obligations.FatalConditionsTakeTheChipSafe : Prop :=
  (∀ (s : State) (t : Nat), s.Up → s.glb.chipSafe = false →
    Runs (.pllLockLoss t) s (fun u => u.glb = { s.glb with chipSafe := true } ∧ u.rf 0x3000 31 24 = 0x34 ∧ u.clk.pll = false ∧
      u.dtime = (s.tick t).dtime ∧ (∀ b, b < 16 → (u.bank b).safe = true) ∧
      ∀ n, n < 5 → (u.unit n).queue = [] ∧ ∀ k, ((u.unit n).slot k).running = none ∧ ((u.unit n).slot k).st ≠ .armed ∧
        ((u.unit n).slot k).st ≠ .frozen)) ∧
  (∀ s : State, s.Up → s.glb.chipSafe = false →
    Runs .wardenLockstep s (fun u => u.glb = { s.glb with chipSafe := true } ∧ u.rf 0x3000 31 24 = 0x30 ∧ u.clk = s.clk ∧
      (∀ b, b < 16 → (u.bank b).safe = true) ∧
      ∀ n, n < 5 → (u.unit n).queue = [] ∧ ∀ k, ((u.unit n).slot k).running = none ∧ ((u.unit n).slot k).st ≠ .armed ∧
        ((u.unit n).slot k).st ≠ .frozen)) ∧
  (∀ s : State, s.Up → s.glb.chipSafe = true → exec .wardenLockstep s = .next (s.tick s.clk.now))

/-- A Dusk entry (R543 to R547): DUSK_ENTER and PWR_CTL.DUSK begin it when the conditions hold, DUSK_ENTER completes with
CONDITION when they do not, each voter that does not refuse passes the turn on, the last one leaves the commit to do, a
refusing Warden ends the entry under its ID, and the commit makes Dusk stable and puts the clocks on FIO. In Dusk: an active
edge whose level has held for 1 µs (R96) moves the signed count of its domain by one, back only for a backward edge in LEVEL
mode, which a direction not known takes from the edge before (R58, R95); a VR crank input arms beyond VR_MIN (R96); in LATCH
mode an edge, the AON timer and a wake input set their latches (R548, R550); the RC fallback is noted (R592). WAKE by an
enabled latch (R552, R554, R555): DTIME is that of the commit plus ELAPSED, of quality INTERNAL on FIO, the bridge is in
force, and LAST_WAKE names the latch. A latch whose WAKE_EN bit is 0 wakes nothing (R550). An uncorrectable error in the saved
registers makes it a whole-device reset with WAKE_ECC set (R542). Where the spec leaves a point of it open, the clauses follow
the model's choices or readings of log entries 5, 45, 49, 75. -/
def Obligations.DuskIsEnteredCountedAndLeft : Prop :=
  (∀ (s : State) (t : Nat) (r : Fin 64) (c : Fetched), Heads s r.val 0x50 c → s.glb.chipSafe = false → s.pwr.ring ≠ some r.val →
    duskOk s = true →
    exec (.duskEnter t r) s =
      .next { s.tick t with pwr := { s.pwr with entry := 1, voter := 0, ring := some r.val, latches := [], stops := [] } }) ∧
  (∀ (s : State) (t : Nat) (r : Fin 64) (c : Fetched), Heads s r.val 0x50 c → s.glb.chipSafe = false → s.pwr.ring ≠ some r.val →
    duskOk s = false →
    exec (.duskEnter t r) s = .next (finish (s.tick t) r.val c { cstat := 1, r1 := ofNat32 (s.rf 0x2014 15 0) })) ∧
  (∀ (s : State) (t : Nat), s.Open → duskOk s = true →
    exec (.duskReq t) s =
      .next { s.tick t with glb := { s.glb with first := false },
                            pwr := { s.pwr with entry := 1, voter := 0, ring := none, latches := [], stops := [] } }) ∧
  (∀ s : State, s.Up → s.pwr.entry = 1 → voterRefuses s s.pwr.voter = false →
    Runs .duskVote s (fun u => u.pwr.voter = s.pwr.voter + 1 ∧ u.pwr.entry = (if s.pwr.voter = 45 then 2 else 1) ∧
      u.pwr.asleep = false ∧ u.clk = s.clk)) ∧
  (∀ s : State, s.Up → s.pwr.entry = 1 → s.pwr.voter = 0 → s.pwr.ring = none → s.pwr.latches = [] → voterRefuses s 0 = true →
    exec .duskVote s =
      .next (({ (((s.tick s.clk.now).cntSat 0x2014 15 0).setRf 0x2014 31 24 1) with
                  pwr := { s.pwr with entry := 0, stops := [] } } : State).arrive 12)) ∧
  (∀ (s : State) (t : Nat), s.Up → s.pwr.entry = 2 →
    Runs (.duskCommit t) s (fun u => u.pwr.asleep = true ∧ u.pwr.entry = 0 ∧ u.clk.pll = false ∧ u.rb 0x2004 8 = false ∧
      u.pwr.sleptAt = (s.tick t).dtime ∧ u.rf 0x2018 15 0 = min 65535 (s.rf 0x2018 15 0 + 1))) ∧
  (∀ (s : State) (t ts : Nat) (d : Fin 2) (lv : Int) (dir : Option Bool), s.pwr.asleep = true → ts + 400 ≤ max s.clk.now t →
    (s.dom d.val).duskOn = true → (s.dom d.val).duskOver = false → -32768 < (s.dom d.val).duskCount → (s.dom d.val).duskCount < 32767 →
    crankArmed s d.val = true → (s.dom d.val).crkLevel = !s.rb (A.dom d.val + 4) 5 →
    inputLevel (s.rb (A.dom d.val + 4) 8) (s.dom d.val).crkLevel lv = s.rb (A.dom d.val + 4) 5 →
    Runs (.duskToothEdge t d ⟨ts, lv, dir⟩) s (fun u =>
      (u.dom d.val).duskCount = (s.dom d.val).duskCount +
        (if dirMode s d.val = 1 ∧ (dir.map (fun v => v == s.rb (A.dom d.val) 4)).getD (s.dom d.val).lastFwd = false then -1 else 1) ∧
      (u.dom d.val).duskDir = ((s.dom d.val).duskDir && dir.isSome) ∧
      u.pwr.latches = (if s.rb A.irq 0 then s.pwr.latches else insertNat d.val s.pwr.latches) ∧
      (∀ e, e ≠ d.val → u.dom e = s.dom e) ∧ ChangesOnly [.clk, .mech, .pwr] s u)) ∧
  (∀ (s : State) (t ts : Nat) (d : Fin 2) (lv : Int) (dir : Option Bool), max s.clk.now t < ts + 400 →
    exec (.duskToothEdge t d ⟨ts, lv, dir⟩) s = .next (s.tick t)) ∧
  (∀ (s : State) (t : Nat) (d : Fin 2) (mv : Int), s.pwr.asleep = true → s.pwr.inReset = false → s.rb (A.dom d.val + 4) 8 = true →
    decide (mv < 0) = s.rb (A.dom d.val + 4) 5 → 25 * (s.rf (A.dom d.val + 4) 15 12 + 1) < mv.natAbs →
    Runs (.vrArm t d false mv) s (fun u => u.dom d.val =
        { s.dom d.val with armCrank := true, crkLevel := inputLevel true (s.dom d.val).crkLevel (10 * mv) } ∧
      (∀ e, e ≠ d.val → u.dom e = s.dom e) ∧ ChangesOnly [.clk, .mech] s u)) ∧
  (∀ (s : State) (t : Nat) (l : Fin 7), s.pwr.asleep = true → s.rb A.irq 0 = false →
    exec (.wakeLatchEdge t l) s = .next { s.tick t with pwr := { s.pwr with latches := insertNat l.val s.pwr.latches } }) ∧
  (∀ (s : State) (t : Nat), s.pwr.asleep = true → s.rb A.irq 0 = false → s.reg 0x200C ≠ 0 →
    exec (.aonTimerExpiry t) s = .next { s.tick t with pwr := { s.pwr with latches := insertNat 5 s.pwr.latches } }) ∧
  (∀ s : State, exec .aonRcFallback s =
    .next { s.tick s.clk.now with pwr := { s.pwr with rcNow := true, rcDusk := s.pwr.rcDusk || s.pwr.asleep } }) ∧
  (∀ (s : State) (t n : Nat) (l : Fin 7), s.pwr.asleep = true → s.rb 0x2008 l.val = true →
    Runs (.wake t l n false) s (fun u => u.pwr.asleep = false ∧
      u.dtime = (s.pwr.sleptAt + n * Config.aonPeriod / 256) % 2 ^ 64 ∧ u.clk.qual = 0 ∧ u.pwr.bridge = true ∧
      u.pwr.bound = bridgeBound (n * Config.aonPeriod / 256) s.pwr.rcDusk ∧ u.rf 0x2004 6 4 = l.val ∧ u.glb = s.glb)) ∧
  (∀ (s : State) (t n : Nat) (l : Fin 7) (e : Bool), s.rb 0x2008 l.val = false →
    exec (.wake t l n e) s = .next (s.tick t)) ∧
  (∀ (s : State) (t n : Nat) (l : Fin 7), s.pwr.asleep = true → s.rb 0x2008 l.val = true →
    Runs (.wake t l n true) s (fun u => u.pwr.inReset = true ∧ u.rb 0x2004 13 = true ∧ u.glb.safeHold = true))

/-- After a whole-device reset SAFE_HOLD = 1 and ARMED = 0, the seal is clear, RUN = 0, every epoch is 1 and no role is COVERED
(R559): the resets of the power monitors, of the pin, of PERST_N with PERST_MODE = 0, of CHIP_RESET, of a wake with an
uncorrectable error (R542) and of a completed import (R612). -/
def Obligations.EveryResetLeavesTheDeviceHeldAndUnsealed : Prop :=
  ∀ (s : State) (c : Instr) (t : Nat),
    (c = .powerOnReset t ∨ c = .supplyMonitorReset t ∨ (∃ w, 1000 ≤ w ∧ c = .pinReset t w) ∨
      (c = .pcieFundamentalReset t ∧ s.rb 0x1000 8 = false) ∨
      (∃ (r : Fin 64) (f : Fetched), c = .chipReset t r ∧ Heads s r.val 0x43 f ∧ f.w 2 = 0x0000C4E5) ∨
      (∃ (l : Fin 7) (n : Nat), c = .wake t l n true ∧ s.pwr.asleep = true ∧ s.rb 0x2008 l.val = true) ∨
      (c = .importWriteDone t true ∧ s.Up ∧ s.side.imp = 2 ∧ s.jrn.writing = none)) →
    Runs c s (fun u => u.glb.safeHold = true ∧ u.glb.armed = false ∧ u.glb.isSealed = false ∧ u.running = false ∧
      (∀ b, (u.bank b).epoch = 1) ∧ (∀ n, (u.unit n).epoch = 1) ∧ ∀ n, (u.refl n).covered = false)

/-- RESET_RELEASE: a device held in reset is let go and starts up on FIO with DTIME at 0 (R538, R556); one that is not held stays
as it is. GLB_RESET_CAUSE (R558): a power-on leaves SUPPLY alone; every other reset adds its bit, and FATAL when it finds the
chip safe. A low pulse of RESET_N shorter than 100 ns is ignored (R586); PERST_N with PERST_MODE = 1 resets the host path only
(R309). Where the spec leaves a point of it open, the clauses follow the model's choices or readings of log entries 3, 6, 49. -/
def Obligations.ResetCauseAndRelease : Prop :=
  (∀ (s : State) (t : Nat), s.pwr.inReset = true →
    exec (.resetRelease t) s = .next { s.tick t with clk := { s.clk with now := max s.clk.now t, since := max s.clk.now t, base := 0 },
                                                     pwr := { s.pwr with inReset := false } }) ∧
  (∀ (s : State) (t : Nat), s.pwr.inReset = false → exec (.resetRelease t) s = .next (s.tick t)) ∧
  (∀ (s : State) (t : Nat), Runs (.powerOnReset t) s (fun u => u.glb.cause = 2 ∧ u.regs = [] ∧ u.pwr.inReset = true)) ∧
  (∀ (s : State) (t : Nat), Runs (.supplyMonitorReset t) s (fun u =>
    u.glb.cause = ((s.glb.cause ||| 2) ||| (if s.glb.chipSafe then 32 else 0)) ∧ u.pwr.inReset = true)) ∧
  (∀ (s : State) (t w : Nat), 1000 ≤ w → Runs (.pinReset t w) s (fun u =>
    u.glb.cause = ((s.glb.cause ||| 4) ||| (if s.glb.chipSafe then 32 else 0)) ∧ u.pwr.inReset = true)) ∧
  (∀ (s : State) (t w : Nat), w < 100 → exec (.pinReset t w) s = .next (s.tick t)) ∧
  (∀ (s : State) (t : Nat), s.rb 0x1000 8 = false → Runs (.pcieFundamentalReset t) s (fun u =>
    u.glb.cause = ((s.glb.cause ||| 8) ||| (if s.glb.chipSafe then 32 else 0)) ∧ u.pwr.inReset = true)) ∧
  (∀ (s : State) (t : Nat), s.rb 0x1000 8 = true → Runs (.pcieFundamentalReset t) s (fun u =>
    u.running = false ∧ u.rb 0x1004 1 = true ∧ u.rb 0x1000 8 = true ∧ u.hif.bme = false ∧ u.hif.rings = [] ∧ u.glb = s.glb)) ∧
  (∀ (s : State) (t : Nat) (r : Fin 64) (f : Fetched), Heads s r.val 0x43 f → f.w 2 = 0x0000C4E5 →
    Runs (.chipReset t r) s (fun u => u.glb.cause = ((s.glb.cause ||| 16) ||| (if s.glb.chipSafe then 32 else 0)) ∧
      u.pwr.inReset = true ∧ u.out = s.out))

/-- The journal: JOURNAL_COMMIT and PWR_CTL.COMMIT make the configuration in force the committed one and begin a slot write (R562,
R563); the completed slot goes to the slot that is not selected and becomes the selected one (R561); DIGEST_DONE publishes the
digest of the configuration in force (R565); PWR_SET writes its three registers. RESTORE_DONE (R568): on a blank part RESTORED
and BLANK are set and the committed configuration stays the factory one; a part that has been restored is not restored again.
Where the spec leaves a point of it open, the clauses follow the model's choices or readings of log entries 10, 14. -/
def Obligations.JournalAndRestore : Prop :=
  (∀ (s : State) (t : Nat) (r : Fin 64) (c : Fetched), Takes s r.val 0x52 c → s.jrn.writing = none → s.journalHeld = false →
    ∃ l, exec (.journalCommit t r) s =
      .next (finish { s.tick t with jrn := { s.jrn with committed := some (configImage s), writing := some l } } r.val c
        { r0 := ofNat32 ((s.jrn.seq + 1) % 2 ^ 32), r1 := lo32 s.glb.digest }) ∧
      slotSeq l = (s.jrn.seq + 1) % 2 ^ 32) ∧
  (∀ (s : State) (t : Nat), s.Open → s.jrn.writing = none → s.journalHeld = false →
    Runs (.commit t) s (fun u => u.jrn.committed = some (configImage s) ∧ u.jrn.writing.isSome ∧ u.jrn.sel = s.jrn.sel ∧
      u.glb = { s.glb with first := false } ∧ ChangesOnly [.clk, .glb, .jrn] s u)) ∧
  (∀ (s : State) (l : List Byte), s.Up → s.jrn.writing = some l → s.jrn.queued = none →
    Runs .journalWriteDone s (fun u => u.jrn.sel = some (match s.jrn.sel with | some b => !b | none => false) ∧
      u.jrn.selected = l ∧ u.jrn.slot (match s.jrn.sel with | some b => b | none => true) =
        s.jrn.slot (match s.jrn.sel with | some b => b | none => true) ∧
      u.jrn.writing = none ∧ u.rf 0x202C 31 16 = min 65535 (s.rf 0x202C 31 16 + 1) ∧
      ((u.jrn.newest.map (·.base)) = some (slotSeq l)) ∧ ChangesOnly [.clk, .regs, .jrn] s u)) ∧
  (∀ s : State, s.Up → s.glb.digestDue = true →
    exec .digestDone s =
      .next { s.tick s.clk.now with glb := { s.glb with digest := digestOf (configImage s), digestDue := false } }) ∧
  (∀ (s : State) (t : Nat) (r : Fin 64) (c : Fetched), Takes s r.val 0x53 c → 0x08 ≤ fld (c.w 4) 6 0 → fld (c.w 4) 6 0 ≤ 0x77 →
    exec (.pwrSet t r) s =
      .next (finish (((((s.tick t).setRf 0x2008 6 0 (fld (c.w 2) 6 0)).setReg 0x200C (c.w 3)).setRf 0x2010 6 0 (fld (c.w 4) 6 0)).configChanged)
        r.val c {})) ∧
  (∀ (s : State) (t : Nat) (r : Fin 64) (c : Fetched), Takes s r.val 0x53 c → fld (c.w 4) 6 0 < 0x08 ∨ 0x77 < fld (c.w 4) 6 0 →
    exec (.pwrSet t r) s = .next (finish (s.tick t) r.val c { cstat := 1 })) ∧
  (∀ s : State, s.regs = [] → slotSelect s.jrn = none → s.jrn.copyA = none → s.jrn.copyB = none →
    Runs .restoreDone s (fun u => u.regs = rset [] 0x2004 (setFld (regDefault 0x2004) 9 9 1) ∧ u.glb.cause = s.glb.cause ||| 1 ∧
      u.jrn.sel = none ∧ u.jrn.slotA = s.jrn.slotA ∧ u.jrn.slotB = s.jrn.slotB ∧ u.glb.digest = digestOf (configImage s) ∧ u.glb.digestDue = false ∧
      u.mem = s.mem ∧ u.glb.safeHold = s.glb.safeHold)) ∧
  (∀ s : State, s.rb 0x2004 9 = true → exec .restoreDone s = .next (s.tick s.clk.now))

/-- CRANK_EDGE up to its processing: a level that has not held for CRK_FILT changes nothing and a level other than that of CRK_POL
is no active edge (R51, R52), an active edge within 2.5 µs of the last one past the filter is discarded and counted (R53), and
in WIDTH mode an edge waits for its direction (R59). VR_ARM: an excursion above V_arm on the side that arms the input arms it
and becomes V_pk, at most 900 mV, with V_pk 0 after longer than EDGE_TO without an edge (R54 to R57), and a smaller one arms
nothing. CRANK_EDGE processed in a domain that knows the direction at once: from NONE the edge that completes the count leads
to TOOTH, in REV an edge of plausible period is the next tooth and one of implausible period is held as a suspect (R123,
R125), and in LEVEL mode a backward edge leads to REVERSE (R68, R73), one of unknown direction taking that of the edge before
(R58). Pulses of WIDTH mode (R59, R60): a trailing edge before the limit makes the oldest pulse forward, one after it or still
in its filter makes nothing, and the limit plus the filter time makes the pulse backward. CAM_EDGE: a cam edge at a timestamp
that a crank edge may still have is held behind it (R75), and in REV the edge that completes CAM_CONF matches in a row leads
to CYCLE at the revolution of its entry, the last tooth in the revolution before when the angle has passed 0 since it (R77).
Where the spec leaves a point of it open, the clauses follow the model's choices or readings of log entries 31, 33, 34, 45,
46, 68, 70. -/
def Obligations.CrankAndCamEdgesMoveTheDomain : Prop :=
  (∀ (s : State) (t ts : Nat) (d : Fin 2) (lv : Int) (dir : Option Bool) (q : State), Before s t d.val q →
    q.clk.now < eclkEdge q ts + 40 * q.rf (A.dom d.val + 4) 23 20 ∨
      inputLevel (q.rb (A.dom d.val + 4) 8) (q.dom d.val).crkLevel lv = (q.dom d.val).crkLevel →
    exec (.crankEdge t d ⟨ts, lv⟩ dir) s = .next q) ∧
  (∀ (s : State) (t ts : Nat) (d : Fin 2) (lv : Int) (dir : Option Bool) (q : State), Before s t d.val q →
    eclkEdge q ts + 40 * q.rf (A.dom d.val + 4) 23 20 ≤ q.clk.now → (q.dom d.val).crkLevel = q.rb (A.dom d.val + 4) 5 →
    inputLevel (q.rb (A.dom d.val + 4) 8) (q.dom d.val).crkLevel lv = !q.rb (A.dom d.val + 4) 5 →
    exec (.crankEdge t d ⟨ts, lv⟩ dir) s = .next (q.setDom d.val { q.dom d.val with crkLevel := !q.rb (A.dom d.val + 4) 5 })) ∧
  (∀ (s : State) (t ts f : Nat) (d : Fin 2) (lv : Int) (dir : Option Bool) (q : State), Before s t d.val q → q.pwr.entry = 0 →
    ActiveEdge q d.val ts lv → (q.dom d.val).fastTs = some f → eclkEdge q ts < f + 1000 →
    Runs (.crankEdge t d ⟨ts, lv⟩ dir) s (fun u => u.dom d.val = { q.dom d.val with crkLevel := q.rb (A.dom d.val + 4) 5, armCrank := false } ∧
      (∀ e, e ≠ d.val → u.dom e = q.dom e) ∧ u.rf (A.dom d.val + 0x30) 7 0 = min 255 (q.rf (A.dom d.val + 0x30) 7 0 + 1) ∧
      (∀ a, a ≠ A.dom d.val + 0x30 → u.reg a = q.reg a) ∧ ChangesOnly [.regs, .mech] q u)) ∧
  (∀ (s : State) (t ts : Nat) (d : Fin 2) (lv : Int) (dir : Option Bool) (q : State), Before s t d.val q → q.pwr.entry = 0 →
    ActiveEdge q d.val ts lv → (q.dom d.val).fastTs.all (fun f => decide (f + 1000 ≤ eclkEdge q ts)) = true → dirMode q d.val = 2 →
    Runs (.crankEdge t d ⟨ts, lv⟩ dir) s (fun u =>
      u.dom d.val = { q.dom d.val with crkLevel := q.rb (A.dom d.val + 4) 5, armCrank := false, fastTs := some (eclkEdge q ts),
                                       pulses := (q.dom d.val).pulses ++ [eclkEdge q ts] } ∧
      (∀ e, e ≠ d.val → u.dom e = q.dom e) ∧ ChangesOnly [.mech] q u)) ∧
  (∀ (s : State) (t : Nat) (d : Fin 2) (mv : Int), s.Up → s.rb (A.dom d.val + 4) 8 = true → decide (mv < 0) = s.rb (A.dom d.val + 4) 5 →
    vArm8 s d.val (if longerThan (s.tick t) (s.dom d.val).lastAny (edgeTo s d.val) then 0 else (s.dom d.val).vpkCrank) < 8 * mv.natAbs →
    Runs (.vrArm t d false mv) s (fun u => (u.dom d.val).armCrank = true ∧ (u.dom d.val).vpkCrank = min 900 mv.natAbs ∧
      (u.dom d.val).crkLevel = inputLevel true (s.dom d.val).crkLevel (10 * mv) ∧ (u.dom d.val).armCam = (s.dom d.val).armCam ∧
      (∀ e, e ≠ d.val → u.dom e = s.dom e) ∧ ChangesOnly [.clk, .mech] s u)) ∧
  (∀ (s : State) (t : Nat) (d : Fin 2) (mv : Int), s.Up → s.rb (A.dom d.val + 4) 9 = true →
    vArm8 s d.val (if longerThan (s.tick t) (s.dom d.val).camTs (edgeTo s d.val) then 0 else (s.dom d.val).vpkCam) < 8 * mv.natAbs →
    Runs (.vrArm t d true mv) s (fun u => (u.dom d.val).armCam = true ∧ (u.dom d.val).vpkCam = min 900 mv.natAbs ∧
      (u.dom d.val).camLevel = inputLevel true (s.dom d.val).camLevel (10 * mv) ∧ (u.dom d.val).armCrank = (s.dom d.val).armCrank ∧
      (∀ e, e ≠ d.val → u.dom e = s.dom e) ∧ ChangesOnly [.clk, .mech] s u)) ∧
  (∀ (s : State) (t : Nat) (d : Fin 2) (mv : Int), s.Up → s.rb (A.dom d.val + 4) 8 = true →
    decide (mv < 0) ≠ s.rb (A.dom d.val + 4) 5 ∨
      8 * mv.natAbs ≤ vArm8 s d.val (if longerThan (s.tick t) (s.dom d.val).lastAny (edgeTo s d.val) then 0 else (s.dom d.val).vpkCrank) →
    Runs (.vrArm t d false mv) s (fun u => (u.dom d.val).armCrank = (s.dom d.val).armCrank ∧
      (u.dom d.val).vpkCrank = (if longerThan (s.tick t) (s.dom d.val).lastAny (edgeTo s d.val) then 0 else (s.dom d.val).vpkCrank) ∧
      (∀ e, e ≠ d.val → u.dom e = s.dom e) ∧ ChangesOnly [.clk, .mech] s u)) ∧
  (∀ (s : State) (t ts e : Nat) (d : Fin 2) (lv : Int) (dir : Option Bool) (q : State), Before s t d.val q → q.pwr.entry = 0 →
    ActiveEdge q d.val ts lv → (q.dom d.val).fastTs.all (fun f => decide (f + 1000 ≤ eclkEdge q ts)) = true → dirMode q d.val = 0 →
    (q.dom d.val).st = .quiet → (q.dom d.val).traj = none → (q.dom d.val).edges ≠ 0 → (q.dom d.val).lastEdge = some e →
    eclkEdge q ts - e ≤ edgeTo q d.val → q.rf (A.dom d.val + 8) 11 8 ≤ (q.dom d.val).edges + 1 →
    Runs (.crankEdge t d ⟨ts, lv⟩ dir) s (fun u => (u.dom d.val).st = .tooth ∧ (u.dom d.val).lastEdge = some (eclkEdge q ts) ∧
      (u.dom d.val).prev = some (min (eclkEdge q ts - e) 0xFFFFFFFF))) ∧
  (∀ (s : State) (t ts e : Nat) (d : Fin 2) (lv : Int) (dir : Option Bool) (q : State), Before s t d.val q → q.pwr.entry = 0 →
    ActiveEdge q d.val ts lv → (q.dom d.val).fastTs.all (fun f => decide (f + 1000 ≤ eclkEdge q ts)) = true → dirMode q d.val = 0 →
    (q.dom d.val).st = .rev → (q.dom d.val).suspect = none → (q.dom d.val).lastEdge = some e →
    gapFails q d.val (stepTooth q d.val (q.dom d.val) (q.dom d.val).pos (q.dom d.val).revn).1 (min (eclkEdge q ts - e) 0xFFFFFFFF) = false →
    (q.dom d.val).pred = 0 ∨ plausible q d.val (min (eclkEdge q ts - e) 0xFFFFFFFF) (q.dom d.val).pred = true →
    Runs (.crankEdge t d ⟨ts, lv⟩ dir) s (fun u => (u.dom d.val).st = .rev ∧ (u.dom d.val).lastEdge = some (eclkEdge q ts) ∧
      (u.dom d.val).prev = some (min (eclkEdge q ts - e) 0xFFFFFFFF) ∧ (u.dom d.val).suspect = none ∧
      ((u.dom d.val).pos, (u.dom d.val).revn) = stepTooth q d.val (q.dom d.val) (q.dom d.val).pos (q.dom d.val).revn)) ∧
  (∀ (s : State) (t ts e : Nat) (d : Fin 2) (lv : Int) (dir : Option Bool) (q : State), Before s t d.val q → q.pwr.entry = 0 →
    ActiveEdge q d.val ts lv → (q.dom d.val).fastTs.all (fun f => decide (f + 1000 ≤ eclkEdge q ts)) = true → dirMode q d.val = 0 →
    (q.dom d.val).st = .rev → (q.dom d.val).suspect = none → (q.dom d.val).lastEdge = some e →
    gapFails q d.val (stepTooth q d.val (q.dom d.val) (q.dom d.val).pos (q.dom d.val).revn).1 (min (eclkEdge q ts - e) 0xFFFFFFFF) = false →
    (q.dom d.val).pred ≠ 0 → plausible q d.val (min (eclkEdge q ts - e) 0xFFFFFFFF) (q.dom d.val).pred = false →
    Runs (.crankEdge t d ⟨ts, lv⟩ dir) s (fun u => (u.dom d.val).st = .rev ∧
      (u.dom d.val).suspect = some (eclkEdge q ts, min (eclkEdge q ts - e) 0xFFFFFFFF) ∧ (u.dom d.val).lastEdge = some e ∧
      (u.dom d.val).pos = (q.dom d.val).pos ∧ (u.dom d.val).revn = (q.dom d.val).revn)) ∧
  (∀ (s : State) (t ts : Nat) (d : Fin 2) (lv : Int) (dir : Option Bool) (q : State), Before s t d.val q → q.pwr.entry = 0 →
    ActiveEdge q d.val ts lv → (q.dom d.val).fastTs.all (fun f => decide (f + 1000 ≤ eclkEdge q ts)) = true → dirMode q d.val = 1 →
    (dir.map (fun v => v == q.rb (A.dom d.val) 4)).getD (q.dom d.val).lastFwd = false →
    ((q.dom d.val).st = .rev ∨ (q.dom d.val).st = .cycle) →
    Runs (.crankEdge t d ⟨ts, lv⟩ dir) s (fun u => (u.dom d.val).st = .reverse ∧ u.angle d.val = none ∧
      (u.dom d.val).lastAny = some (eclkEdge q ts))) ∧
  (∀ (s : State) (t ts p : Nat) (d : Fin 2) (rest : List Nat) (q : State), Before s t d.val q → (q.dom d.val).pulses = p :: rest →
    eclkEdge q ts + 40 * q.rf (A.dom d.val + 4) 23 20 ≤ q.clk.now → p ≤ eclkEdge q ts →
    eclkEdge q ts < p + 400 * q.rf (A.dom d.val + 4) 31 24 →
    Runs (.crankTrailingEdge t d ts) s (fun u => (u.dom d.val).pulses = rest ∧ (u.dom d.val).lastFwd = true)) ∧
  (∀ (s : State) (t ts p : Nat) (d : Fin 2) (rest : List Nat) (q : State), Before s t d.val q → (q.dom d.val).pulses = p :: rest →
    eclkEdge q ts + 40 * q.rf (A.dom d.val + 4) 23 20 ≤ q.clk.now → p + 400 * q.rf (A.dom d.val + 4) 31 24 ≤ eclkEdge q ts →
    exec (.crankTrailingEdge t d ts) s = .next (q.setDom d.val { q.dom d.val with crkLevel := !q.rb (A.dom d.val + 4) 5 })) ∧
  (∀ (s : State) (t ts : Nat) (d : Fin 2) (q : State), Before s t d.val q →
    q.clk.now < eclkEdge q ts + 40 * q.rf (A.dom d.val + 4) 23 20 → exec (.crankTrailingEdge t d ts) s = .next q) ∧
  (∀ (s : State) (t p : Nat) (d : Fin 2) (rest : List Nat) (q : State), Before s t d.val q → (q.dom d.val).pulses = p :: rest →
    p + 400 * q.rf (A.dom d.val + 4) 31 24 + 40 * q.rf (A.dom d.val + 4) 23 20 ≤ q.clk.now →
    Runs (.widthLimitExpiry t d) s (fun u => (u.dom d.val).pulses = rest ∧ (u.dom d.val).lastFwd = false)) ∧
  (∀ (s : State) (t ts : Nat) (d : Fin 2) (lv : Int) (q : State), Before s t d.val q → domEn q d.val = true →
    q.rb (A.dom d.val + 4) 9 = false ∨ (q.dom d.val).armCam = true → eclkEdge q ts + 40 * q.rf (A.dom d.val + 4) 19 16 ≤ q.clk.now →
    inputLevel (q.rb (A.dom d.val + 4) 9) (q.dom d.val).camLevel lv = !(q.dom d.val).camLevel → (q.dom d.val).camHeld = [] →
    (eclkEdge q ts ∈ (q.dom d.val).pulses ∨ q.clk.now ≤ eclkEdge q ts + 40 * q.rf (A.dom d.val + 4) 23 20) →
    Runs (.camEdge t d ts lv) s (fun u => u.dom d.val = { q.dom d.val with camLevel := !(q.dom d.val).camLevel, armCam := false,
                                                                           camTs := some (eclkEdge q ts),
                                                                           camHeld := [(eclkEdge q ts, !(q.dom d.val).camLevel)] } ∧
      (∀ e, e ≠ d.val → u.dom e = q.dom e) ∧ ChangesOnly [.mech] q u)) ∧
  (∀ (s : State) (t ts i : Nat) (d : Fin 2) (lv : Int) (y : Traj) (q : State), Before s t d.val q → domEn q d.val = true →
    q.rb (A.dom d.val + 4) 9 = false ∨ (q.dom d.val).armCam = true → eclkEdge q ts + 40 * q.rf (A.dom d.val + 4) 19 16 ≤ q.clk.now →
    inputLevel (q.rb (A.dom d.val + 4) 9) (q.dom d.val).camLevel lv = !(q.dom d.val).camLevel → (q.dom d.val).camHeld = [] →
    eclkEdge q ts ∉ (q.dom d.val).pulses → eclkEdge q ts + 40 * q.rf (A.dom d.val + 4) 23 20 < q.clk.now →
    (q.dom d.val).st = .rev → (q.dom d.val).traj = some y →
    camMatches q d.val (trackL q d.val (q.dom d.val)) (angleAtTs q d.val (eclkEdge q ts)) (!(q.dom d.val).camLevel) = [i] →
    q.rf (A.dom d.val + 8) 15 12 ≤
      (if (q.dom d.val).camRun ≠ 0 ∧ (q.dom d.val).camRev = camAng q d.val i / 0x01680000 then (q.dom d.val).camRun + 1 else 1) →
    Runs (.camEdge t d ts lv) s (fun u => (u.dom d.val).st = .cycle ∧ (u.dom d.val).camSeen = [i] ∧
      (u.dom d.val).camTs = some (eclkEdge q ts) ∧ (u.dom d.val).revn =
        (if y.at_ (trackL q d.val (q.dom d.val)) q.clk.now % 0x01680000 < toothAng q d.val (q.dom d.val).pos
         then (camAng q d.val i / 0x01680000 + 1) % 2 else camAng q d.val i / 0x01680000) ∧
      u.angle d.val =
        some (y.at_ (trackL q d.val (q.dom d.val)) q.clk.now % 0x01680000 + camAng q d.val i / 0x01680000 * 0x01680000)))

/-- The time-outs and the resynchronization of a domain: EDGE_TO ends TOOTH, REVERSE and LOST in NONE (R68), the stall time-out
ends REV and CYCLE in STALL (R71), each only where no edge has come in time (R72), RESYNC and EN = 0 lead to NONE (R68, R74),
and EN = 1 holds exactly when the wheel tables pass their checks (R63). Where the spec leaves a point of it open, the clauses
follow the model's choices or readings of log entry 70. -/
def Obligations.DomainsTimeOutResyncAndEnable : Prop :=
  (∀ (s : State) (t e : Nat) (d : Fin 2) (raw : Option Nat), s.Up → (s.dom d.val).lastAny = some e →
    e + edgeTo s d.val ≤ max s.clk.now t → NoEdgeBy s t d.val (e + edgeTo s d.val) raw →
    ((s.dom d.val).prov = false ∨ (s.dom d.val).lastEdge ≠ none) →
    ((s.dom d.val).st = .tooth ∨ (s.dom d.val).st = .reverse ∨ ((s.dom d.val).st = .lost ∧ s.rb (A.dom d.val) 7 = false)) →
    Runs (.edgeTimeout t ⟨d, raw⟩) s (fun u => (u.dom d.val).st = .quiet ∧ u.angle d.val = none ∧ (u.dom d.val).edges = 0 ∧
      (u.dom d.val).lastEdge = none)) ∧
  (∀ (s : State) (t e : Nat) (d : Fin 2) (raw : Option Nat) (q : State), Before s t d.val q → (q.dom d.val).lastEdge = some e →
    e + stallTime q d.val ≤ q.clk.now → NoEdgeBy q t d.val (e + stallTime q d.val) raw →
    ((q.dom d.val).st = .rev ∨ (q.dom d.val).st = .cycle) →
    Runs (.stallTimeout t ⟨d, raw⟩) s (fun u => (u.dom d.val).st = .stall ∧
      (u.dom d.val).heldCycle = decide ((q.dom d.val).st = .cycle) ∧ (u.dom d.val).pos = (q.dom d.val).pos ∧
      (u.dom d.val).traj = none)) ∧
  (∀ (s : State) (t p : Nat) (d : Fin 2) (q : State), Before s t d.val q → p ∈ (q.dom d.val).pulses → (q.dom d.val).camHeld = [] →
    (∀ e, (q.dom d.val).lastEdge = some e → p ≤ e + stallTime q d.val) → exec (.stallTimeout t ⟨d, none⟩) s = .next q) ∧
  (∀ (s : State) (t : Nat) (d : Fin 4), s.Open → Runs (.resync t d) s (fun u => syncOf u d.val = .quiet ∧
    (d.val < 2 → (u.dom d.val).edges = 0 ∧ (u.dom d.val).prov = false))) ∧
  (∀ (s : State) (t : Nat) (d : Fin 2), s.Open → domEn s d.val = false →
    Runs (.domainEnable t ⟨d.val, by omega⟩) s (fun u => (u.rb (A.dom d.val) 0 = true ↔ (u.dom d.val).tableErr = 0) ∧
      (∀ a, a ≠ A.dom d.val → u.reg a = s.reg a) ∧ (∀ e, e ≠ d.val → u.dom e = s.dom e))) ∧
  (∀ (s : State) (t : Nat), s.Open → domEn s 2 = false →
    Runs (.domainEnable t 2) s (fun u => u.rb (A.dom 2) 0 = true ∧ (∀ a, a ≠ A.dom 2 → u.reg a = s.reg a) ∧ u.elec = s.elec)) ∧
  (∀ (s : State) (t : Nat) (d : Fin 4), s.Open → domEn s d.val = true →
    Runs (.domainDisable t d) s (fun u => syncOf u d.val = .quiet)) ∧
  (∀ (s : State) (t : Nat) (d : Fin 2), s.Open → domEn s d.val = true → (s.dom d.val).st = .quiet →
    Runs (.domainDisable t ⟨d.val, by omega⟩) s (fun u => u.rb (A.dom d.val) 0 = false ∧ (∀ a, a ≠ A.dom d.val → u.reg a = s.reg a)))

/-- Tooth and cam tables over BAR2 (R616): a word is stored while EN = 0, and otherwise discarded and counted. Learning (R131,
R134): START arms it with REMAINING from its register, ABORT ends it with ABORTED. CONTRIBUTION_UPDATE: a cycle that is not
accepted is counted (R139); an accepted one gives each cylinder its valid result, with DELTA from its two segments (R138).
ANGLE_UPDATE, after the domains before it (R148), moves the published angle along the trajectory (R119), and electrical
domains move by their own (R86, R87); a domain with no trajectory moves none. Where the spec leaves a point of it open, the
clauses follow the model's choices or readings of log entries 2, 3, 21, 44, 47, 70. -/
def Obligations.ToothTablesContributionsAndAngle : Prop :=
  (∀ (s : State) (t o : Nat) (v : BitVec 64) (d : Fin 2), s.Open → domEn s d.val = false → o < 0x900 → o % 4 = 0 →
    Runs (.toothTableBar2Write t (0x50000 + d.val * 0x4000 + o) 4 v) s (fun u =>
      u.word (0x50000 + d.val * 0x4000 + o) = lo32 v.toNat ∧
      (∀ b, ¬ (0x50000 + d.val * 0x4000 + o ≤ b ∧ b < 0x50000 + d.val * 0x4000 + o + 4) → u.byte b = s.byte b) ∧
      u.glb = { s.glb with first := false, digestDue := true } ∧ ChangesOnly [.clk, .glb, .mem] s u)) ∧
  (∀ (s : State) (t o : Nat) (v : BitVec 64) (d : Fin 2), s.Open → domEn s d.val = true → o < 0x900 → o % 4 = 0 →
    exec (.toothTableBar2Write t (0x50000 + d.val * 0x4000 + o) 4 v) s =
      .next ((s.tick t).unFirst.cntSat (A.dom d.val + 0x30) 31 24)) ∧
  (∀ (s : State) (t : Nat) (d : Fin 2), s.Open → s.rb (A.dom d.val + 0x70) 1 = false →
    Runs (.learnStart t d) s (fun u => u.dom d.val = { s.dom d.val with learnWait := !(s.dom d.val).learning,
                                                                        remaining := s.rf (A.dom d.val + 0x70) 15 8,
                                                                        rejected := 0, aborted := false } ∧
      (∀ e, e ≠ d.val → u.dom e = s.dom e) ∧ (∀ a, u.reg a = s.reg a) ∧ u.mem = s.mem)) ∧
  (∀ (s : State) (t : Nat) (d : Fin 2), s.Open → s.rb (A.dom d.val + 0x70) 0 = false →
    ((s.dom d.val).learning = true ∨ (s.dom d.val).learnWait = true) →
    Runs (.learnAbort t d) s (fun u => u.dom d.val = { s.dom d.val with learning := false, learnWait := false, aborted := true } ∧
      (∀ e, e ≠ d.val → u.dom e = s.dom e) ∧ (∀ a, u.reg a = s.reg a) ∧ u.mem = s.mem)) ∧
  (∀ (s : State) (t : Nat) (d : Fin 2) (l : List CTooth) (whole : Bool), s.Up → (s.dom d.val).cycDone = some (l, whole) →
    (whole = false ∨ (s.dom d.val).cfgErr = true ∨ ncyl s d.val = 0) →
    exec (.contributionUpdate t d) s =
      .next (((s.tick t).setDom d.val { s.dom d.val with cycDone := none }).cntSat (A.dom d.val + 0x80) 31 16)) ∧
  (∀ (s : State) (t c : Nat) (d : Fin 2) (l : List CTooth), s.Up → (s.dom d.val).cycDone = some (l, true) →
    (s.dom d.val).cfgErr = false → c < ncyl s d.val →
    Runs (.contributionUpdate t d) s (fun u => (u.dom d.val).cycDone = none ∧ (u.dom d.val).contribSet = true ∧
      u.word (resultBase d.val c + 4) = ofInt32 (cylDelta s d.val c l) ∧ u.word (resultBase d.val c + 12) = 1)) ∧
  (∀ (s : State) (t : Nat) (d : Fin 4) (y : Traj) (q : State), Before s t d.val q → d.val < 2 → (q.dom d.val).camHeld = [] →
    (q.dom d.val).traj = some y →
    Runs (.angleUpdate t d) s (fun u => u.angle d.val = some (y.at_ (trackL q d.val (q.dom d.val)) q.clk.now) ∧
      (∀ e, e ≠ d.val → u.angle e = q.angle e) ∧ u.elec = q.elec)) ∧
  (∀ (s : State) (t z : Nat) (d : Fin 4) (q : State), Before s t d.val q → 2 ≤ d.val → onLink q d.val = false → (q.el d.val).st = .cycle →
    (q.el d.val).zc = some z →
    Runs (.angleUpdate t d) s (fun u => u.angle d.val =
        some (((q.reg (A.dom d.val + 8)).toNat + min ((q.el d.val).inc * (q.clk.now - z) / 65536) (0x01680000 - 1)) % 0x01680000) ∧
      (∀ e, e ≠ d.val → u.angle e = q.angle e) ∧ u.elec = q.elec ∧ u.mech = q.mech)) ∧
  (∀ (s : State) (t : Nat) (d : Fin 4) (q : State), Before s t d.val q → (d.val < 2 → (q.dom d.val).camHeld = [] ∧ (q.dom d.val).traj = none) →
    (2 ≤ d.val → onLink q d.val = false ∧ (q.el d.val).st ≠ .cycle) → exec (.angleUpdate t d) s = .next q)

/-- Electrical domains (R83 to R88): a crossing becomes the last one with its period and INC, and in NONE, STALL or LOST leads to
TOOTH; no crossing for twice the period leads from CYCLE to STALL, and for 3/FMIN from TOOTH, STALL or LOST to NONE, each
where none has come in time (R72). Where the spec leaves a point of it open, the clauses follow the model's choices or
readings of log entries 3, 46. -/
def Obligations.ElectricalDomainsFollowTheirCrossings : Prop :=
  (∀ (s : State) (t z e : Nat) (d : Fin 2) (rf : Bool) (q : State), Before s t (2 + d.val) q → (q.win (96 + d.val)).crossing = true →
    domEn q (2 + d.val) = true → onLink q (2 + d.val) = false →
    crossingTick q (2 + d.val) (q.win (96 + d.val)).crossAt = some (z, rf) → (q.el (2 + d.val)).zc = some e →
    Runs (.zeroCrossing t d) s (fun u => (u.el (2 + d.val)).zc = some z ∧ (u.el (2 + d.val)).refined = rf ∧
      (u.el (2 + d.val)).period = z - e ∧ (0 < z - e → (u.el (2 + d.val)).inc = 0x01680000 * 65536 / (z - e)))) ∧
  (∀ (s : State) (t z : Nat) (d : Fin 2) (rf : Bool) (q : State), Before s t (2 + d.val) q → (q.win (96 + d.val)).crossing = true →
    domEn q (2 + d.val) = true → onLink q (2 + d.val) = false →
    crossingTick q (2 + d.val) (q.win (96 + d.val)).crossAt = some (z, rf) →
    ((q.el (2 + d.val)).st = .quiet ∨ (q.el (2 + d.val)).st = .stall ∨ (q.el (2 + d.val)).st = .lost) →
    Runs (.zeroCrossing t d) s (fun u => (u.el (2 + d.val)).zc = some z ∧ (u.el (2 + d.val)).st = .tooth ∧
      (u.el (2 + d.val)).lock = 0)) ∧
  (∀ (s : State) (t z : Nat) (d : Fin 2) (q : State), Before s t (2 + d.val) q → onLink q (2 + d.val) = false →
    (q.el (2 + d.val)).st = .cycle → (q.el (2 + d.val)).zc = some z → z + max (2 * (q.el (2 + d.val)).period) 400000 ≤ q.clk.now →
    (q.win (96 + d.val)).crossing = false →
    Runs (.electricalStallTimeout t d) s (fun u => u.el (2 + d.val) = { q.el (2 + d.val) with st := .stall, lock := 0, held := .cycle } ∧
      u.mech = q.mech)) ∧
  (∀ (s : State) (t z : Nat) (d : Fin 2), s.Up → onLink s (2 + d.val) = false →
    ((s.el (2 + d.val)).st = .tooth ∨ (s.el (2 + d.val)).st = .stall ∨ (s.el (2 + d.val)).st = .lost) →
    (s.el (2 + d.val)).zc = some z → 1200000000 ≤ (max s.clk.now t - z) * s.rf (A.dom (2 + d.val) + 4) 7 0 →
    (s.win (96 + d.val)).crossing = false →
    Runs (.electricalNoneTimeout t d) s (fun u => u.el (2 + d.val) = { s.el (2 + d.val) with st := .quiet, lock := 0 } ∧
      u.angle (2 + d.val) = none ∧ u.mech = s.mech))

/-- SLOT_WRITE and SHADOW_DROP (R171, R174, R175): a good set becomes the shadow set, or with IMMEDIATE the active set of a slot
in OFF or out of CYCLE; a set that fails its checks changes no slot and answers with the failing check; SHADOW_DROP discards
the shadow set, and answers 6 when there is none. Each acts after the angle-driven actions of its FCLK cycle (R149, R175).
SLOT_CANCEL, DOMAIN_CANCEL and SLOT_QUERY (R152, R331): an armed or frozen slot waits again, with END_NOW its running event is
closed, the commands answer with the state before; after a DOMAIN_CANCEL no slot of the domain is armed or frozen. Each acts
after the angle-driven actions of its FCLK cycle (R149). EVENT_TABLE_BAR2_WRITE (R145): a word of a slot that is not armed,
frozen or running is written, with the slot's other words kept; a refused one is counted. START_UNIT_FREE (R169): with a unit
free the waiting start is issued with outcome FIRED, or skipped with END_PASSED when its END has passed. Where the spec leaves
a point of it open, the clauses follow the model's choices or readings of log entries 2, 30, 43, 70, 73. -/
def Obligations.SlotsAreSetCancelledAndTabled : Prop :=
  (∀ (s : State) (t : Nat) (r : Fin 64) (c : Fetched) (q : State), Before s t 4 q → Takes q r.val 0x10 c →
    setStatus q (fld (c.w 2) 12 10) ((List.range 7).map (fun i => c.w (3 + i))) = 0 → wbit (c.w 2) 13 = false →
    Applies (.slotWrite t r) s r.val c { r0 := takeWord q (cmdUnit q c) (cmdSlot c) 1 } (fun u =>
      (u.unit (cmdUnit q c)).slot (cmdSlot c) =
        { (q.unit (cmdUnit q c)).slot (cmdSlot c) with shadow := some ((List.range 7).map (fun i => c.w (3 + i))) } ∧
      (∀ k, k ≠ cmdSlot c → (u.unit (cmdUnit q c)).slot k = (q.unit (cmdUnit q c)).slot k) ∧
      (∀ n, n ≠ cmdUnit q c → u.unit n = q.unit n) ∧ u.glb.digestDue = true ∧ u.cells = q.cells ∧ u.mem = q.mem)) ∧
  (∀ (s : State) (t : Nat) (r : Fin 64) (c : Fetched) (q : State), Before s t 4 q → Takes q r.val 0x10 c →
    setStatus q (fld (c.w 2) 12 10) ((List.range 7).map (fun i => c.w (3 + i))) = 0 → wbit (c.w 2) 13 = true →
    immediateOk q ((q.unit (cmdUnit q c)).slot (cmdSlot c)) = true →
    ∃ y : Reply, y.cstat = 0 ∧ y.hstat = 0 ∧ Applies (.slotWrite t r) s r.val c y (fun u =>
      ((u.unit (cmdUnit q c)).slot (cmdSlot c)).shadow = none ∧
      ((u.unit (cmdUnit q c)).slot (cmdSlot c)).take = (((q.unit (cmdUnit q c)).slot (cmdSlot c)).take + 1) % 65536 ∧
      ((u.unit (cmdUnit q c)).slot (cmdSlot c)).occ = ((q.unit (cmdUnit q c)).slot (cmdSlot c)).occ ∧
      ((u.unit (cmdUnit q c)).slot (cmdSlot c)).st = (if wbit (c.w 3) 31 then .wait else .off) ∧
      (∀ i, i < 7 → wordAt ((u.unit (cmdUnit q c)).slot (cmdSlot c)).set i = c.w (3 + i)))) ∧
  (∀ (s : State) (t : Nat) (r : Fin 64) (c : Fetched) (q : State), Before s t 4 q → Takes q r.val 0x10 c →
    setStatus q (fld (c.w 2) 12 10) ((List.range 7).map (fun i => c.w (3 + i))) ≠ 0 →
    Applies (.slotWrite t r) s r.val c { cstat := setStatus q (fld (c.w 2) 12 10) ((List.range 7).map (fun i => c.w (3 + i))),
                                         r0 := takeWord q (cmdUnit q c) (cmdSlot c) 1 } (fun u =>
      (∀ n k, (u.unit n).slot k = (q.unit n).slot k) ∧ u.glb = q.glb ∧ u.cells = q.cells ∧ u.mem = q.mem)) ∧
  (∀ (s : State) (t : Nat) (r : Fin 64) (c : Fetched) (q : State), Before s t 4 q → Takes q r.val 0x11 c →
    ((q.unit (cmdUnit q c)).slot (cmdSlot c)).shadow ≠ none →
    Applies (.shadowDrop t r) s r.val c { r0 := takeWord q (cmdUnit q c) (cmdSlot c) 1 } (fun u =>
      (u.unit (cmdUnit q c)).slot (cmdSlot c) = { (q.unit (cmdUnit q c)).slot (cmdSlot c) with shadow := none } ∧
      (∀ k, k ≠ cmdSlot c → (u.unit (cmdUnit q c)).slot k = (q.unit (cmdUnit q c)).slot k) ∧
      (∀ n, n ≠ cmdUnit q c → u.unit n = q.unit n) ∧ u.cells = q.cells ∧ u.mem = q.mem)) ∧
  (∀ (s : State) (t : Nat) (r : Fin 64) (c : Fetched) (q : State), Before s t 4 q → Takes q r.val 0x11 c →
    ((q.unit (cmdUnit q c)).slot (cmdSlot c)).shadow = none →
    Applies (.shadowDrop t r) s r.val c { cstat := 6, r0 := takeWord q (cmdUnit q c) (cmdSlot c) 1 } (fun u =>
      (∀ n k, (u.unit n).slot k = (q.unit n).slot k) ∧ u.cells = q.cells ∧ u.mem = q.mem)) ∧
  (∀ (s : State) (t : Nat) (r : Fin 64) (c : Fetched) (q : State), Before s t 4 q → Takes q r.val 0x12 c →
    ∃ y : Reply, y.cstat = 0 ∧ y.hstat = 0 ∧ y.r1 = ofNat32 ((q.unit (cmdUnit q c)).slot (cmdSlot c)).st.code ∧
      Applies (.slotCancel t r) s r.val c y (fun u =>
        ((u.unit (cmdUnit q c)).slot (cmdSlot c)).st =
          (match ((q.unit (cmdUnit q c)).slot (cmdSlot c)).st with | .armed | .frozen => .wait | x => x) ∧
        ((u.unit (cmdUnit q c)).slot (cmdSlot c)).set = ((q.unit (cmdUnit q c)).slot (cmdSlot c)).set ∧
        ((u.unit (cmdUnit q c)).slot (cmdSlot c)).shadow = ((q.unit (cmdUnit q c)).slot (cmdSlot c)).shadow ∧
        (wbit (c.w 2) 14 = true → ((u.unit (cmdUnit q c)).slot (cmdSlot c)).running = none))) ∧
  (∀ (s : State) (t : Nat) (r : Fin 64) (c : Fetched) (q : State), Before s t 4 q → Takes q r.val 0x12 c → wbit (c.w 2) 14 = false →
    ((q.unit (cmdUnit q c)).slot (cmdSlot c)).st = .wait →
    exec (.slotCancel t r) s = .next (finish (countCmd q (cmdUnit q c) 0) r.val c
      { r0 := takeWord q (cmdUnit q c) (cmdSlot c) 0, r1 := 1 })) ∧
  (∀ (s : State) (t : Nat) (r : Fin 64) (c : Fetched) (q : State), Before s t 4 q → Takes q r.val 0x13 c →
    ∃ y : Reply, y.cstat = 0 ∧ y.hstat = 0 ∧ Applies (.domainCancel t r) s r.val c y (fun u =>
      ∀ k, slSdom ((u.unit (cmdUnit q c)).slot k).set = fld (c.w 2) 16 15 →
        ((u.unit (cmdUnit q c)).slot k).st ≠ .armed ∧ ((u.unit (cmdUnit q c)).slot k).st ≠ .frozen)) ∧
  (∀ (s : State) (t : Nat) (r : Fin 64) (c : Fetched) (q : State), Before s t 4 q → Takes q r.val 0x14 c →
    exec (.slotQuery t r) s = .next (finish (countCmd q (cmdUnit q c) 0) r.val c
      { r0 := takeWord q (cmdUnit q c) (cmdSlot c) 0,
        r1 := packWord [(b2n ((q.unit (cmdUnit q c)).slot (cmdSlot c)).running.isSome, 4),
                        (b2n ((q.unit (cmdUnit q c)).slot (cmdSlot c)).shadow.isSome, 3),
                        (((q.unit (cmdUnit q c)).slot (cmdSlot c)).st.code, 0)] })) ∧
  (∀ (s : State) (t n k i : Nat) (v : BitVec 64), s.Open → n < 4 → k < 1024 → i < 7 →
    slotRefuses s n ((s.unit (roleUnit s n)).slot k) [(i, lo32 v.toNat)] = false →
    Runs (.eventTableBar2Write t (0x8000 * n + 32 * k + 4 * i) 4 v) s (fun u =>
      wordAt ((u.unit (roleUnit s n)).slot k).set i = lo32 v.toNat ∧
      (∀ j, j < 7 → j ≠ i → wordAt ((u.unit (roleUnit s n)).slot k).set j = wordAt ((s.unit (roleUnit s n)).slot k).set j) ∧
      ((u.unit (roleUnit s n)).slot k).shadow = ((s.unit (roleUnit s n)).slot k).shadow ∧
      (∀ j, j ≠ k → (u.unit (roleUnit s n)).slot j = (s.unit (roleUnit s n)).slot j) ∧
      (∀ m, m ≠ roleUnit s n → u.unit m = s.unit m) ∧ u.glb = { s.glb with first := false, digestDue := true } ∧
      ChangesOnly [.clk, .glb, .units] s u)) ∧
  (∀ (s : State) (t n k i : Nat) (v : BitVec 64), s.Open → n < 4 → k < 1024 → i < 8 →
    slotRefuses s n ((s.unit (roleUnit s n)).slot k) [(i, lo32 v.toNat)] = true →
    exec (.eventTableBar2Write t (0x8000 * n + 32 * k + 4 * i) 4 v) s =
      .next ((s.tick t).unFirst.setUnit (roleUnit s n) ((s.unit (roleUnit s n)).count 0x28 15 0))) ∧
  (∀ (s : State) (t : Nat) (u : Fin 5) (q : Queued), s.Up → unitRuns s u.val = true → (s.unit u.val).queue = [q] →
    (s.unit u.val).freeUnits (max s.clk.now t) ≠ 0 →
    endPassed s q.set (fdist (domL s (slSdom q.set)) (slStart q.set) (s.angleWord (slSdom q.set))) = false →
    exec (.startUnitFree t u) s =
      .next (outcome (issueStart ((s.tick t).setUnit u.val { s.unit u.val with queue := [] }) u.val q.slot q.set q.occ
        (fdist (domL s (slSdom q.set)) (slStart q.set) (s.angleWord (slSdom q.set)))) u.val 1 q.reason
        (slSdom q.set) (slChan q.set) q.slot q.occ (fdist (domL s (slSdom q.set)) (slStart q.set) (s.angleWord (slSdom q.set))))) ∧
  (∀ (s : State) (t : Nat) (u : Fin 5) (q : Queued), s.Up → unitRuns s u.val = true → (s.unit u.val).queue = [q] →
    (s.unit u.val).freeUnits (max s.clk.now t) ≠ 0 →
    endPassed s q.set (fdist (domL s (slSdom q.set)) (slStart q.set) (s.angleWord (slSdom q.set))) = true →
    exec (.startUnitFree t u) s =
      .next (outcome ((s.tick t).setUnit u.val { s.unit u.val with queue := [] }) u.val 2 5
        (slSdom q.set) (slChan q.set) q.slot q.occ (fdist (domL s (slSdom q.set)) (slStart q.set) (s.angleWord (slSdom q.set)))))

/-- In SAFE_HOLD an angle update makes no scheduler act: no slot, cell or bank changes with it, where no cam edge waits to be
judged with it (R571). While the clocks run from FIO an update starts no event (R40): a start passed leaves no running event
of its slot and takes no start unit, and the slot waits for its next occurrence. Where the spec leaves a point of it open, the
clauses follow the model's choices or readings of log entry 42. -/
def Obligations.NoEventInSafeHoldOrOnFio : Prop :=
  (∀ (s u : State) (t : Nat) (d : Fin 4), s.glb.safeHold = true → (∀ e, (s.dom e).camHeld = []) → exec (.angleUpdate t d) s = .next u →
    u.units = s.units ∧ u.cells = s.cells ∧ u.banks = s.banks ∧ u.wdn = s.wdn) ∧
  (∀ (s : State) (n k : Nat) (v : Upd), s.clk.pll = false →
    passStart s n k v = s.setUnit n ((s.unit n).setSlot k { (s.unit n).slot k with st := .wait }))

/-- Window comparators: the input, which each element sees with its own offset, is judged against the thresholds in effect (R291,
R294); a crossing of an enabled, decided window that no blanking covers is presented and counted (R293), during blanking only
the elements move and its end presents them as they stand (R295), the initial decision T_INIT after the window lost its own, 2
µs at the most, is presented without an event (R296), EN of a general or zero-cross window leaves it undecided (R296, R297).
Where the spec leaves a point of it open, the clauses follow the model's choices or readings of log entries 3, 68. -/
def Obligations.WindowsPresentTheirCrossings : Prop :=
  (∀ (s : State) (t : Nat) (w : Fin 98) (uv : Int × Int) (e : Bool × Bool), s.Up → 80 ≤ w.val → s.rb (A.win w.val) 0 = true →
    (s.win w.val).out ≠ 0 → e = winJudge (s.tick t) w.val uv → (s.win w.val).blanking (max s.clk.now t) = false →
    winRaw e.1 e.2 ≠ (s.win w.val).out →
    Runs (.windowCrossing t w uv.1 uv.2) s (fun u => (u.win w.val).out = winRaw e.1 e.2 ∧ (u.win w.val).lo = e.1 ∧ (u.win w.val).hi = e.2 ∧
      (u.win w.val).cross = ((s.win w.val).cross + 1) % 65536 ∧ (∀ v, v ≠ w.val → u.win v = s.win v) ∧ u.cells = s.cells ∧
      u.banks = s.banks ∧ u.mem = s.mem)) ∧
  (∀ (s : State) (t : Nat) (w : Fin 98) (uv : Int × Int), s.Up → 80 ≤ w.val → s.rb (A.win w.val) 0 = true → (s.win w.val).out ≠ 0 →
    (s.win w.val).blanking (max s.clk.now t) = true →
    exec (.windowCrossing t w uv.1 uv.2) s = .next ((s.tick t).setWin w.val
      { s.win w.val with lo := (winJudge (s.tick t) w.val uv).1, hi := (winJudge (s.tick t) w.val uv).2, uv := uv })) ∧
  (∀ (s : State) (t : Nat) (w : Fin 98) (e : Bool × Bool), s.Up → 80 ≤ w.val → s.rb (A.win w.val) 0 = true →
    (s.win w.val).out ≠ 0 → e = winJudge (s.tick t) w.val (s.win w.val).uv → (s.win w.val).blanking (max s.clk.now t) = false →
    Runs (.blankingEnd t w) s (fun u => (u.win w.val).out = winRaw e.1 e.2 ∧ (u.win w.val).lo = e.1 ∧ (u.win w.val).hi = e.2 ∧
      (∀ v, v ≠ w.val → u.win v = s.win v) ∧ u.cells = s.cells ∧ u.banks = s.banks)) ∧
  (∀ (s : State) (t : Nat) (w : Fin 98) (uv : Int × Int) (e : Bool × Bool), s.Up → 80 ≤ w.val → s.rb (A.win w.val) 0 = true →
    (s.win w.val).out = 0 → (s.win w.val).undecAt + 800 ≤ max s.clk.now t → e = winFirst (s.tick t) w.val uv →
    Runs (.initialDecision t w uv.1 uv.2) s (fun u => (u.win w.val).out = winRaw e.1 e.2 ∧ (u.win w.val).cross = (s.win w.val).cross ∧
      (∀ v, v ≠ w.val → u.win v = s.win v) ∧ u.free = s.free + 1 ∧ ChangesOnly [.clk, .wins, .free] s u)) ∧
  (∀ (s : State) (t : Nat) (w : Fin 98), s.Open → 80 ≤ w.val → s.rb (A.win w.val) 0 = false →
    Runs (.windowEnable t w) s (fun u => u.rb (A.win w.val) 0 = true ∧ (u.win w.val).out = 0 ∧
      (∀ v, v ≠ w.val → u.win v = s.win v) ∧ (∀ a, a ≠ A.win w.val → u.reg a = s.reg a) ∧ u.mem = s.mem)) ∧
  (∀ (s : State) (t : Nat) (w : Fin 98), s.Open → 80 ≤ w.val →
    Runs (.windowDisable t w) s (fun u => u.rb (A.win w.val) 0 = false ∧ (u.win w.val).out = 0 ∧
      (∀ v, v ≠ w.val → u.win v = s.win v) ∧ (∀ a, a ≠ A.win w.val → u.reg a = s.reg a) ∧ u.mem = s.mem))

/-- A channel regulates on its window in a PEAK, HOLD or PROPORTIONAL phase: on at BELOW, off at ABOVE, unchanged at INSIDE
(R188). A phase whose timer expires exits to the next one (R190), the END_PH phase of a bounded end completes the profile
(R192), the time cap and the end of a corrected hold enter END_PH (R254), and a cell already there ignores the cap (R191), the
dither offset changes sign (R219), and the SLOW part of a MIXED DECAY phase holds the low side on (R189). Starts that wait
(R206 to R209): past the overlap step a start whose phase 0 needs no boost is admitted, and the first of the others when its
bank's boost window reads ABOVE; after REBOOST_WAIT that one is admitted with WEAK_BOOST while the window still does not read
ABOVE; under PRECEDENCE a start that has waited OVERLAP_MAX is dropped and counted. Where the spec leaves a point of it open,
the clauses follow the model's choices or readings of log entries 2, 35, 37, 72. -/
def Obligations.ChannelsFollowTheirProfiles : Prop :=
  (∀ (s : State) (t : Nat) (c : Fin 64) (x : Shot) (uv : Int × Int) (e : Bool × Bool), s.Up → s.shot c.val = some x → 2 ≤ x.kind →
    x.kind ≤ 4 → phDecay x.entry ≠ 2 → (s.win c.val).out ≠ 0 → (s.win c.val).blanking (max s.clk.now t) = false →
    e = winJudge (s.tick t) c.val uv →
    Runs (.windowCrossing t ⟨c.val, by omega⟩ uv.1 uv.2) s (fun u => (u.win c.val).out = winRaw e.1 e.2 ∧
      (u.shot c.val).map (·.on) = some (if winRaw e.1 e.2 = 1 then true else if winRaw e.1 e.2 = 3 then false else x.on) ∧
      (u.shot c.val).map (·.phase) = some x.phase)) ∧
  (∀ (s : State) (t : Nat) (c : Fin 64) (x : Shot), s.Up → s.shot c.val = some x → phExit x.entry ≠ 2 → phDur x.entry ≠ 0 →
    x.phaseAt + phTicks x.entry ≤ max s.clk.now t → x.phase ≠ x.endPh → x.phase + 1 ≠ pfNph x.words → ¬ (x.phase = 0 ∧ x.kind = 1) →
    Runs (.phaseTimerExpiry t c) s (fun u => (u.shot c.val).map (·.phase) = some (x.phase + 1) ∧
      (u.shot c.val).map (·.phaseAt) = some (max s.clk.now t) ∧
      (u.shot c.val).map (·.cause) = some (if x.phase + 1 = x.endPh then 3 else x.cause))) ∧
  (∀ (s : State) (t : Nat) (c : Fin 64) (x : Shot), s.Up → s.shot c.val = some x → phExit x.entry = 1 → phDur x.entry ≠ 0 →
    x.phaseAt + phTicks x.entry ≤ max s.clk.now t → x.phase = x.endPh →
    Runs (.phaseTimerExpiry t c) s (fun u => u.shot c.val = none ∧ (u.cell c.val).lastSlot = x.cmd.slot ∧
      (u.cell c.val).lastRegion = x.cmd.region ∧ (u.cell c.val).disabled = (s.cell c.val).disabled)) ∧
  (∀ (s : State) (t : Nat) (c : Fin 64) (x : Shot), s.Up → s.shot c.val = some x → x.capAt ≤ max s.clk.now t → x.phase ≠ x.endPh →
    Runs (.timeCapExpiry t c) s (fun u => (u.shot c.val).map (·.phase) = some x.endPh ∧ (u.shot c.val).map (·.cause) = some 1)) ∧
  (∀ (s : State) (t : Nat) (c : Fin 64) (x : Shot), s.Up → s.shot c.val = some x → x.capAt ≤ max s.clk.now t → x.phase = x.endPh →
    Runs (.timeCapExpiry t c) s (fun u => u.cells = s.cells ∧ u.banks = s.banks)) ∧
  (∀ (s : State) (t d : Nat) (c : Fin 64) (x : Shot), s.Up → s.shot c.val = some x → x.hold = some d → d ≤ max s.clk.now t →
    x.phase ≠ x.endPh →
    Runs (.holdExpiry t c) s (fun u => (u.shot c.val).map (·.phase) = some x.endPh ∧ (u.shot c.val).map (·.cause) = some 0 ∧
      (u.shot c.val).map (·.hold) = some none)) ∧
  (∀ (s : State) (t : Nat) (c : Fin 64) (x : Shot), s.Up → s.shot c.val = some x → x.kind = 4 → pfDither x.words ≠ 0 →
    x.dithAt ≤ max s.clk.now t →
    Runs (.ditherHalfPeriod t c) s (fun u =>
      u.shot c.val = some { x with dithPos := !x.dithPos, dithAt := x.dithAt + pfDither x.words } ∧
      ((u.win c.val).thrLo, (u.win c.val).thrHi) = shotThresholds { x with dithPos := !x.dithPos } ∧
      (u.win c.val).loadAt = max s.clk.now t ∧ (∀ d, d ≠ c.val → u.cell d = s.cell d ∧ u.win d = s.win d) ∧
      ChangesOnly [.clk, .cells, .wins] s u)) ∧
  (∀ (s : State) (t : Nat) (c : Fin 64) (x : Shot), s.Up → s.shot c.val = some x → x.kind = 5 → phDecay x.entry = 2 →
    phExit x.entry ≠ 0 → x.on = false → x.withheld = false → bankProp s (c.val / 4) = false →
    (∀ d, d ∈ chansOf (c.val / 4) → d ≠ c.val → s.shot d = none) → x.phaseAt + pfMix x.words ≤ max s.clk.now t →
    Runs (.mixFastExpiry t c) s (fun u => (u.cell c.val).lsg.level = true ∧ (u.shot c.val).map (·.phase) = some x.phase)) ∧
  (∀ (s : State) (t : Nat) (c : Fin 64) (w : Waiting), s.Up → (s.cell c.val).wait = some w → w.cmd.chan = c.val → w.reboost = true →
    chProp s c.val = false →
    (boostSourced (s.tick t) w = false ∨
      (firstWaiter s (boostWaiters (s.tick t) (c.val / 4)) = some c.val ∧ s.level (64 + c.val / 4) = 3)) →
    Runs (.startAdmit t c) s (fun u => (u.cell c.val).wait = none ∧ (u.shot c.val).map (·.cmd) = some w.cmd ∧
      (u.shot c.val).map (·.gate) = some (max s.clk.now t + 16) ∧ (u.shot c.val).map (·.weak) = some false)) ∧
  (∀ (s : State) (t : Nat) (c : Fin 64) (w : Waiting), s.Up → (s.cell c.val).wait = some w → w.cmd.chan = c.val → w.reboost = true →
    boostSourced (s.tick t) w = true → firstWaiter s (boostWaiters (s.tick t) (c.val / 4)) = some c.val → chProp s c.val = false →
    w.stepAt + usTicks (s.rf (A.bank (c.val / 4) + 0x404) 15 8) ≤ max s.clk.now t →
    Runs (.reboostWaitExpiry t c) s (fun u => (u.cell c.val).wait = none ∧ (u.shot c.val).map (·.cmd) = some w.cmd ∧
      (u.shot c.val).map (·.gate) = some (max s.clk.now t + 16) ∧
      (u.shot c.val).map (·.weak) = some (s.level (64 + c.val / 4) != 3))) ∧
  (∀ (s : State) (t : Nat) (c : Fin 64) (w : Waiting), s.Up → (s.cell c.val).wait = some w → w.cmd.chan = c.val → w.reboost = false →
    s.shot c.val = none → s.rf (A.bank (c.val / 4) + 0x400) 1 0 = 0 →
    w.arrived + usTicks (s.rf (A.bank (c.val / 4) + 0x404) 7 0) ≤ max s.clk.now t →
    Runs (.overlapTimeout t c) s (fun u => (u.cell c.val).wait = none ∧ u.shot c.val = none ∧
      u.rf (A.cell c.val + 0x14) 31 16 = min 65535 (s.rf (A.cell c.val + 0x14) 31 16 + 1)))

/-- Faults of channels and banks: LEAK disables its channel and takes the bank to its safe state (R235, R237, R437), where no
profile runs and no start waits (R438), as HS_SHORT and BOOST_COLLAPSE do (R437); RESUME ends it (R439). Where the spec leaves
a point of it open, the clauses follow the model's choices or readings of log entry 38. -/
def Obligations.DriveFaultsTakeBanksSafe : Prop :=
  (∀ (s : State) (t k : Nat) (c : Fin 64), s.Up → (s.cell c.val).idleSince = some k →
    k + usTicks (idleTime s c.val) ≤ max s.clk.now t →
    Runs (.leakTimeout t c) s (fun u => (u.cell c.val).disabled = true ∧ (u.bank (c.val / 4)).safe = true ∧ u.shot c.val = none ∧
      (u.cell c.val).fault = (if (s.cell c.val).fault = 0 then 6 else (s.cell c.val).fault))) ∧
  (∀ (s : State) (t k : Nat) (c : Fin 64), s.Up → (s.bank (c.val / 4)).safe = false →
    cget (fun _ => none) (s.bank (c.val / 4)).hsAbove (c.val % 4) = some k →
    k + usTicks (s.rf (A.bankErr (c.val / 4)) 13 8) ≤ max s.clk.now t →
    Runs (.hsShort t c) s (fun u => (u.bank (c.val / 4)).safe = true ∧ (u.bank (c.val / 4)).boost = none ∧
      u.rf (A.bankErr (c.val / 4) + 8) 7 0 = 1 ∧ ∀ o, o ∈ chansOf (c.val / 4) → u.shot o = none ∧ (u.cell o).wait = none)) ∧
  (∀ (s : State) (t k : Nat) (b : Fin 16), s.Up → (s.bank b.val).safe = false → (s.bank b.val).lowSince = some k →
    k + usTicks (s.rf (A.bankErr b.val) 31 16) ≤ max s.clk.now t →
    Runs (.boostCollapse t b) s (fun u => (u.bank b.val).safe = true ∧ (u.bank b.val).boost = none ∧
      u.rf (A.bankErr b.val + 8) 7 0 = 2 ∧ ∀ o, o ∈ chansOf b.val → u.shot o = none ∧ (u.cell o).wait = none)) ∧
  (∀ (s : State) (t : Nat) (b : Fin 16), s.Open → (s.bank b.val).safe = true →
    Runs (.resume t b) s (fun u => (u.bank b.val).safe = false ∧ (∀ d, d ≠ b.val → u.bank d = s.bank d) ∧ u.mem = s.mem))

/-- Channels (R185, R195, R239, R617): EN = 1 enables a channel with its profiles and header checked, unless another enabled
channel of the bank has the other class; EN = 0 and DISABLE stop its profile and its waiting start; REENABLE clears the fault
of an enabled channel. Profiles (R196, R197): a BAR2 write to a profile of a disabled channel is stored, and to one of an
enabled channel discarded and counted; PROFILE_WRITE stores a good profile whole and sets its PVALID bit, and answers the
failing check of another one. Where the spec leaves a point of it open, the clauses follow the model's choices or readings of
log entry 39. -/
def Obligations.ChannelsAndProfilesAreSetUp : Prop :=
  (∀ (s : State) (t : Nat) (c : Fin 64), s.Open → chEn s c.val = false → classClash s c.val = false →
    Runs (.channelEnable t c) s (fun u => chEn u c.val = true ∧ chProp u c.val = chProp s c.val ∧
      (u.cell c.val).disabled = false ∧ (u.cell c.val).fault = 0 ∧ (u.cell c.val).ptRun = 0 ∧ (u.cell c.val).cfgErr = false ∧
      (u.cell c.val).pvalid = validProfiles s c.val ∧ (u.cell c.val).modelErr = !headerGood (s.header c.val))) ∧
  (∀ (s : State) (t : Nat) (c : Fin 64), s.Open → chEn s c.val = false → classClash s c.val = true →
    Runs (.channelEnable t c) s (fun u => chEn u c.val = false ∧ u.cell c.val = { s.cell c.val with cfgErr := true } ∧
      (∀ d, d ≠ c.val → u.cell d = s.cell d) ∧ (∀ a, u.reg a = s.reg a) ∧ u.banks = s.banks)) ∧
  (∀ (s : State) (t : Nat) (c : Fin 64), s.Open → chEn s c.val = true →
    Runs (.channelEnClear t c) s (fun u => chEn u c.val = false ∧ (u.cell c.val).disabled = true ∧ u.shot c.val = none ∧
      (u.cell c.val).wait = none)) ∧
  (∀ (s : State) (t : Nat) (c : Fin 64), s.Open →
    Runs (.disable t c) s (fun u => chEn u c.val = chEn s c.val ∧ (u.cell c.val).disabled = true ∧ u.shot c.val = none ∧
      (u.cell c.val).wait = none)) ∧
  (∀ (s : State) (t : Nat) (c : Fin 64), s.Open → chEn s c.val = true →
    Runs (.reenable t c) s (fun u => (u.cell c.val).disabled = false ∧ (u.cell c.val).fault = 0 ∧ (u.cell c.val).ptRun = 0 ∧
      (u.cell c.val).wait = (s.cell c.val).wait ∧ (u.shot c.val).map (·.cmd) = (s.shot c.val).map (·.cmd) ∧ u.mem = s.mem)) ∧
  (∀ (s : State) (t o : Nat) (v : BitVec 64) (c : Fin 64), s.Open → chEn s c.val = false → o < 0x400 → o % 4 = 0 →
    Runs (.profileBar2Write t (0x40000 + 0x400 * c.val + o) 4 v) s (fun u =>
      u.word (0x40000 + 0x400 * c.val + o) = lo32 v.toNat ∧
      (∀ b, ¬ (0x40000 + 0x400 * c.val + o ≤ b ∧ b < 0x40000 + 0x400 * c.val + o + 4) → u.byte b = s.byte b) ∧
      u.glb = { s.glb with first := false, digestDue := true } ∧ ChangesOnly [.clk, .glb, .mem] s u)) ∧
  (∀ (s : State) (t o : Nat) (v : BitVec 64) (c : Fin 64), s.Open → chEn s c.val = true → o < 0x400 → o % 4 = 0 →
    exec (.profileBar2Write t (0x40000 + 0x400 * c.val + o) 4 v) s =
      .next ((s.tick t).unFirst.cntSat (A.cell c.val + 0x18) 31 16)) ∧
  (∀ (s : State) (t : Nat) (r : Fin 64) (c : Fetched), Takes s r.val 0x20 c → fld (c.w 3) 5 0 = 0 →
    profStatus (chProp s (fld (c.w 2) 5 0)) ((List.range 16).map (fun i => wordAt c.buf i)) = 0 →
    Applies (.profileWrite t r) s r.val c {} (fun u =>
      (∀ k, k < 16 → u.word (profAddr (fld (c.w 2) 5 0) (fld (c.w 2) 11 8) + 4 * k) = wordAt c.buf k) ∧
      (∀ b, ¬ (profAddr (fld (c.w 2) 5 0) (fld (c.w 2) 11 8) ≤ b ∧ b < profAddr (fld (c.w 2) 5 0) (fld (c.w 2) 11 8) + 64) →
        u.byte b = s.byte b) ∧
      u.cell (fld (c.w 2) 5 0) = { s.cell (fld (c.w 2) 5 0) with
        pvalid := (s.cell (fld (c.w 2) 5 0)).pvalid ||| 2 ^ fld (c.w 2) 11 8 } ∧
      u.glb.digestDue = true ∧ ChangesOnly [.clk, .glb, .mem, .cells, .past] s u)) ∧
  (∀ (s : State) (t : Nat) (r : Fin 64) (c : Fetched), Takes s r.val 0x20 c → fld (c.w 3) 5 0 = 0 →
    profStatus (chProp s (fld (c.w 2) 5 0)) ((List.range 16).map (fun i => wordAt c.buf i)) ≠ 0 →
    exec (.profileWrite t r) s = .next (finish (s.tick t) r.val c
      { cstat := profStatus (chProp s (fld (c.w 2) 5 0)) ((List.range 16).map (fun i => wordAt c.buf i)) })) ∧
  (∀ (s : State) (t : Nat) (r : Fin 64) (c : Fetched), Takes s r.val 0x20 c → fld (c.w 3) 5 0 ≠ 0 →
    exec (.profileWrite t r) s = .next (finish (s.tick t) r.val c { hstat := 4 }))

/-- Models, host pressures and the balance table: the words that BAR2 and MODEL_WRITE write (R243), a device-written word refused
with status 1, a cell's seven device-written words at zero after MODEL_RESET, PRESSURE_SET (R242), and a balance table with EN
= 1 that fails a check discarded and counted (R619). KINK_RESULT (R227 to R230): the oldest complete window of the bank is
judged; with STATUS OK its TCLOSE becomes the closing value of its channel. Where the spec leaves a point of it open, the
clauses follow the model's choices or readings of log entries 2, 47. -/
def Obligations.ModelsBalanceAndKinks : Prop :=
  (∀ (s : State) (t o : Nat) (v : BitVec 64) (c : Fin 64), s.Open → o < 0x440 → o % 4 = 0 →
    Runs (.modelBar2Write t (0x60000 + 0x800 * c.val + o) 4 v) s (fun u =>
      u.word (0x60000 + 0x800 * c.val + o) = lo32 v.toNat ∧
      (∀ b, ¬ (0x60000 + 0x800 * c.val + o ≤ b ∧ b < 0x60000 + 0x800 * c.val + o + 4) → u.byte b = s.byte b) ∧
      u.glb = { s.glb with first := false, digestDue := true } ∧ ChangesOnly [.clk, .glb, .mem, .past] s u)) ∧
  (∀ (s : State) (t n : Nat) (r : Fin 64) (c : Fetched), Takes s r.val 0x21 c → bufWords c = some n →
    (∀ i, i < n → modelDeviceWord (fld (c.w 3) 10 0 / 4 + i) = false) → 64 ≤ fld (c.w 3) 10 0 →
    Applies (.modelWrite t r) s r.val c {} (fun u =>
      (∀ i, i < n → u.word (modelAddr (fld (c.w 2) 5 0) + fld (c.w 3) 10 0 + 4 * i) = wordAt c.buf i) ∧
      (∀ b, ¬ (modelAddr (fld (c.w 2) 5 0) + fld (c.w 3) 10 0 ≤ b ∧ b < modelAddr (fld (c.w 2) 5 0) + fld (c.w 3) 10 0 + 4 * n) →
        u.byte b = s.byte b) ∧ u.glb.digestDue = true ∧ ChangesOnly [.clk, .glb, .mem, .past] s u)) ∧
  (∀ (s : State) (t n : Nat) (r : Fin 64) (c : Fetched), Takes s r.val 0x21 c → bufWords c = some n →
    (∃ i, i < n ∧ modelDeviceWord (fld (c.w 3) 10 0 / 4 + i) = true) →
    exec (.modelWrite t r) s = .next (finish (s.tick t) r.val c { cstat := 1 })) ∧
  (∀ (s : State) (t : Nat) (r : Fin 64) (c : Fetched), Takes s r.val 0x22 c →
    Applies (.modelReset t r) s r.val c {} (fun u =>
      (∀ k i, k < 32 → 1 ≤ i → i < 8 → (wbit (c.w 2) 16 = true ∨ k = fld (c.w 2) 12 8) →
        u.word (modelAddr (fld (c.w 2) 5 0) + 0x40 + 32 * k + 4 * i) = 0) ∧
      (∀ k, k < 32 → u.word (modelAddr (fld (c.w 2) 5 0) + 0x40 + 32 * k) = s.word (modelAddr (fld (c.w 2) 5 0) + 0x40 + 32 * k)) ∧
      (∀ b, ¬ (modelAddr (fld (c.w 2) 5 0) + 0x40 ≤ b ∧ b < modelAddr (fld (c.w 2) 5 0) + 0x440) → u.byte b = s.byte b) ∧
      ChangesOnly [.clk, .mem, .past] s u)) ∧
  (∀ (s : State) (t : Nat) (r : Fin 64) (c : Fetched), Takes s r.val 0x23 c →
    Applies (.pressureSet t r) s r.val c { r0 := ofNat32 (s.rf (0xD020 + 4 * fld (c.w 2) 1 0) 15 0) } (fun u =>
      u.rf (0xD020 + 4 * fld (c.w 2) 1 0) 15 0 = fld (c.w 3) 15 0 ∧
      cget (fun _ => none) u.hostPress (fld (c.w 2) 1 0) = some (max s.clk.now t) ∧
      (∀ a, a ≠ 0xD020 + 4 * fld (c.w 2) 1 0 → u.reg a = s.reg a) ∧ ChangesOnly [.clk, .regs, .hostPress] s u)) ∧
  (∀ (s : State) (t : Nat) (v : BitVec 64) (k : Fin 26), s.Open →
    wbit (wordAt (balEdit s [(0x81000 + 4 * k.val, lo32 v.toNat)]) 0) 31 = true →
    balCheck s (balEdit s [(0x81000 + 4 * k.val, lo32 v.toNat)]) = none →
    Runs (.balanceBar2Write t (0x81000 + 4 * k.val) 4 v) s (fun u => u.word (0x81000 + 4 * k.val) = lo32 v.toNat ∧
      (∀ b, ¬ (0x81000 + 4 * k.val ≤ b ∧ b < 0x81000 + 4 * k.val + 4) → u.byte b = s.byte b) ∧
      u.glb = { s.glb with first := false, digestDue := true } ∧ ChangesOnly [.clk, .glb, .mem] s u)) ∧
  (∀ (s : State) (t : Nat) (v : BitVec 64) (k : Fin 26), s.Open →
    wbit (wordAt (balEdit s [(0x81000 + 4 * k.val, lo32 v.toNat)]) 0) 31 = true →
    balCheck s (balEdit s [(0x81000 + 4 * k.val, lo32 v.toNat)]) ≠ none →
    exec (.balanceBar2Write t (0x81000 + 4 * k.val) 4 v) s =
      .next ((s.tick t).unFirst.cntSat
        (A.dom (fld (wordAt (balEdit s [(0x81000 + 4 * k.val, lo32 v.toNat)]) 0) 30 30) + 0x78) 31 24)) ∧
  (∀ (s : State) (t : Nat) (b : Fin 16) (k : Kink) (rest : List Kink), s.Up → (s.bank b.val).done = k :: rest →
    (kinkJudge (s.tick t) k).status = 0 →
    Runs (.kinkResult t b) s (fun u => (u.bank b.val).done = rest ∧ (u.bank b.val).kink = (s.bank b.val).kink ∧
      u.reg (A.sns k.shot.cmd.chan) = ofNat32 (kinkJudge (s.tick t) k).tclose ∧
      (u.cell k.shot.cmd.chan).closeAt = some (max s.clk.now t) ∧ u.free = s.free + 1)) ∧
  (∀ (s : State) (t : Nat) (b : Fin 16) (k : Kink) (rest : List Kink), s.Up → (s.bank b.val).done = k :: rest →
    (kinkJudge (s.tick t) k).status ≠ 0 →
    Runs (.kinkResult t b) s (fun u => (u.bank b.val).done = rest ∧
      u.reg (A.sns k.shot.cmd.chan) = s.reg (A.sns k.shot.cmd.chan) ∧ u.cells = s.cells ∧ u.mem = s.mem ∧ u.free = s.free + 1))

/-- Converters at work, while their voter has not stopped them: a timer's expiry triggers its TIMER steps and runs on (R272), a
delayed instance becomes pending (R270), a pending one that has waited MAXWAIT is dropped and counted (R275), and a free
converter begins at an ADC clock edge its kink sample, its reference conversion or its lowest pending step, which a due kink
sample preempts (R273, R274); under POWER TEMPERED every second expiry is ignored (R277). The end of a conversion (R262,
R276): 16 ADC clocks after its beginning and no earlier, the result word with the corrected code (R287) and its overrange bits
stands in LAST_i with the hold instant; a kink sample joins its window (R223), a reference code goes to its register (R280).
Where the spec leaves a point of it open, the clauses follow the model's choices or readings of log entries 39, 40, 72. -/
def Obligations.ConversionsBeginAndEnd : Prop :=
  (∀ (s : State) (t n : Nat) (k : Fin 18) (j : Fin 4), s.Up → voterStopped s (22 + k.val) = false → adcEn s k.val = true →
    adcTimer s k.val j.val ≠ 0 → (s.conv k.val).timers.find? (fun p => p.1 == j.val) = some (j.val, n) → n ≤ max s.clk.now t →
    s.glb.tempered = false → (s.conv k.val).stepOld = [] →
    Runs (.converterTimerExpiry t k j) s (fun u =>
      (u.conv k.val).timers = cput (s.conv k.val).timers j.val (cget zeroNat (s.conv k.val).timers j.val + adcTimer s k.val j.val) ∧
      (u.conv k.val).skips = (s.conv k.val).skips.erase j.val ∧
      (∀ st, st < 32 → stTrig (s.reg (A.step k.val st)) = 3 → stSrc (s.reg (A.step k.val st)) = j.val →
        (s.conv k.val).heldInst st = none → (u.conv k.val).heldInst st =
          some { entry := s.reg (A.step k.val st),
                 ready := s.adcEdge (max s.clk.now t + stDelay (s.reg (A.step k.val st))), isPending := false }) ∧
      (∀ i, i ≠ k.val → u.conv i = s.conv i) ∧ ChangesOnly [.clk, .regs, .adc] s u)) ∧
  (∀ (s : State) (t n : Nat) (k : Fin 18) (j : Fin 4), s.Up → voterStopped s (22 + k.val) = false → adcEn s k.val = true →
    adcTimer s k.val j.val ≠ 0 → (s.conv k.val).timers.find? (fun p => p.1 == j.val) = some (j.val, n) → n ≤ max s.clk.now t →
    s.glb.tempered = true → j.val ∈ (s.conv k.val).skips →
    exec (.converterTimerExpiry t k j) s = .next ((s.tick t).setConv k.val { s.conv k.val with
      timers := cput (s.conv k.val).timers j.val (cget zeroNat (s.conv k.val).timers j.val + adcTimer s k.val j.val),
      skips := (s.conv k.val).skips.erase j.val })) ∧
  (∀ (s : State) (t : Nat) (k : Fin 18) (st : Fin 32) (i : Inst), s.Up → voterStopped s (22 + k.val) = false →
    (k.val < 16 → (s.bank k.val).entries = []) → (s.conv k.val).heldInst st.val = some i → i.ready ≤ max s.clk.now t →
    exec (.stepReady t k st) s =
      .next ((s.tick t).setConv k.val ((s.conv k.val).setInst st.val (some { i with isPending := true })))) ∧
  (∀ (s : State) (t : Nat) (k : Fin 18) (st : Fin 32) (i : Inst), s.Up → voterStopped s (22 + k.val) = false →
    (k.val < 16 → (s.bank k.val).entries = []) → (s.conv k.val).heldInst st.val = some i → i.isPending = true → 
    s.rf (A.conv k.val) 15 8 ≠ 0 → i.ready + 400 * s.rf (A.conv k.val) 15 8 ≤ max s.clk.now t →
    exec (.maxwaitExpiry t k st) s =
      .next (((s.tick t).setConv k.val ((s.conv k.val).setInst st.val none)).cntSat (A.conv k.val + 0xC) 31 16)) ∧
  (∀ (s : State) (t n : Nat) (k : Fin 18) (i : Inst), s.Up → voterStopped s (22 + k.val) = false → atAdcEdge (s.tick t) = true →
    (k.val < 16 → (s.bank k.val).entries = []) →
    (s.conv k.val).cur = none → (k.val < 16 → kinkDue (s.tick t) k.val = false) → (s.conv k.val).refDue = [] → adcEn s k.val = true →
    firstPending s k.val = some n → (s.conv k.val).heldInst n = some i →
    Runs (.conversionStart t k) s (fun u =>
      (u.conv k.val).cur = some { kind := .step n, inst := i, start := max s.clk.now t } ∧
      (u.conv k.val).heldInst n = none ∧ (∀ m, m ≠ n → (u.conv k.val).heldInst m = (s.conv k.val).heldInst m) ∧
      (∀ j, j ≠ k.val → u.conv j = s.conv j) ∧ ChangesOnly [.clk, .adc] s u)) ∧
  (∀ (s : State) (t n : Nat) (k : Fin 18) (cv : Conv), s.Up → voterStopped s (22 + k.val) = false → atAdcEdge (s.tick t) = true →
    k.val < 16 → (s.bank k.val).entries = [] → kinkDue (s.tick t) k.val = true → (s.conv k.val).cur = some cv → cv.kind = .step n →
    (s.conv k.val).heldInst n = none →
    Runs (.conversionStart t k) s (fun u =>
      (u.conv k.val).cur.map (·.kind) = some .kink ∧ (u.conv k.val).cur.map (·.start) = some (max s.clk.now t) ∧
      (u.conv k.val).heldInst n = some { cv.inst with isPending := true } ∧
      u.rf (A.conv k.val + 8) 15 0 = min 65535 (s.rf (A.conv k.val + 8) 15 0 + 1) ∧
      (∀ j, j ≠ k.val → u.conv j = s.conv j) ∧ ChangesOnly [.clk, .regs, .adc] s u)) ∧
  (∀ (s : State) (t : Nat) (k : Fin 18), s.Up → (k.val < 16 → (s.bank k.val).entries = []) → atAdcEdge (s.tick t) = false →
    exec (.conversionStart t k) s = .next (s.tick t)) ∧
  (∀ (s : State) (t n : Nat) (k : Fin 18) (code : Fin 4096) (a b : Bool) (cv : Conv), s.Up → voterStopped s (22 + k.val) = false →
    (s.conv k.val).cur = some cv → cv.kind = .step n → cv.start + 16 * s.adcPeriod ≤ max s.clk.now t →
    stQueue cv.inst.entry = false → stChain cv.inst.entry = false → stInput cv.inst.entry < 9 →
    Runs (.conversionEnd t k code a b) s (fun u => (u.conv k.val).cur = none ∧
      u.reg (lastAddr k.val (stInput cv.inst.entry)) =
        resultWord cv.inst.entry (correctCode (calLo s k.val) (calGain s k.val) code.val) a b ∧
      lastHold u k.val (stInput cv.inst.entry) = some (cv.start + 4 * s.adcPeriod) ∧
      (∀ j, j ≠ k.val → u.conv j = s.conv j) ∧ u.banks = s.banks ∧ u.mem = s.mem ∧ u.elec = s.elec)) ∧
  (∀ (s : State) (t : Nat) (k : Fin 18) (code : Fin 4096) (a b : Bool) (cv : Conv), s.Up → (s.conv k.val).cur = some cv →
    max s.clk.now t < cv.start + 16 * s.adcPeriod →
    exec (.conversionEnd t k code a b) s = .next (s.tick t)) ∧
  (∀ (s : State) (t : Nat) (k : Fin 18) (code : Fin 4096) (a b : Bool) (cv : Conv) (w : Kink), s.Up →
    voterStopped s (22 + k.val) = false → (s.conv k.val).cur = some cv → cv.kind = .kink →
    cv.start + 16 * s.adcPeriod ≤ max s.clk.now t → (s.bank k.val).kink = some w →
    (s.bank k.val).entries = [] → w.codes.length + 1 < pfKinkLen w.shot.words →
    exec (.conversionEnd t k code a b) s =
      .next (((s.tick t).setConv k.val { s.conv k.val with cur := none }).setBank k.val { s.bank k.val with
        kink := some { w with codes := w.codes ++ [correctCode (calLo s k.val) (calGain s k.val) code.val], ovr := w.ovr || (a || b) } })) ∧
  (∀ (s : State) (t : Nat) (code : Fin 4096) (a b : Bool) (cv : Conv), s.Up → voterStopped s 38 = false →
    (s.conv 16).cur = some cv → cv.kind = .refHalf → cv.start + 16 * s.adcPeriod ≤ max s.clk.now t → (s.conv 16).refDue ≠ [] →
    exec (.conversionEnd t 16 code a b) s =
      .next (((s.tick t).setConv 16 { s.conv 16 with cur := none }).setRf 0xD008 27 16
        (correctCode (calLo s 16) (calGain s 16) code.val)))

/-- References and gap calibration: every REF_PERIOD ms both general converters have their two conversions due (R280); a converter
switches reference at an ADC clock edge without an open window, with factory coefficients, UNCAL and a calibration due at once
(R282); a calibration falls due (R283), one longer than CAL_SPAN starts over unless its last conversion was held in time
(R285), an accepted one is applied at an edge after its last conversion's end and clears UNCAL (R288). ADC_STEP_WRITE (R269):
an entry that passes its check is written and the digest is due, and a trigger of the same ADC clock cycle still latches what
the entry held before (R270); a failing entry is refused whole with status 1, and a converter above 17 with status 2. Where
the spec leaves a point of it open, the clauses follow the model's choices or readings of log entries 2, 40, 41. -/
def Obligations.ReferencesCalibrationsAndSteps : Prop :=
  (∀ (s : State) (t : Nat), s.Up → voterStopped s 39 = false → s.ref.nextAt ≤ max s.clk.now t →
    Runs (.referenceCheck t) s (fun u =>
      u.ref = { s.ref with nextAt := max s.clk.now t + msTicks (s.rf 0xD000 15 8), open_ := true } ∧
      (∀ k, k = 16 ∨ k = 17 → u.conv k = { s.conv k with refDue := [0, 1] }) ∧
      (∀ k, k ≠ 16 → k ≠ 17 → u.conv k = s.conv k) ∧ ChangesOnly [.clk, .adc, .ref] s u)) ∧
  (∀ (s : State) (t : Nat) (k : Fin 18) (r : Bool), s.Up → voterStopped s (22 + k.val) = false → (s.conv k.val).refWant = some r →
    (k.val < 16 → (s.bank k.val).entries = []) → kinkOpenOn s k.val = false → atAdcEdge (s.tick t) = true →
    Runs (.referenceSwitch t k) s (fun u => adcRefB u k.val = r ∧ (u.conv k.val).refWant = none ∧ (u.conv k.val).calDue = true ∧
      (u.conv k.val).collecting = false ∧ (u.conv k.val).calReady = none ∧
      calLo u k.val = 2048 ∧ calGain u k.val = 16384 ∧ u.rb (A.conv k.val + 4) 5 = true ∧
      (∀ a, a ≠ A.conv k.val + 0x10 → a ≠ A.conv k.val + 4 → u.reg a = s.reg a) ∧ (∀ j, j ≠ k.val → u.conv j = s.conv j) ∧
      ChangesOnly [.clk, .regs, .adc] s u)) ∧
  (∀ (s : State) (t : Nat) (k : Fin 18), s.Up → voterStopped s (22 + k.val) = false → adcCalEn s k.val = true →
    (s.conv k.val).calFrom + msTicks (s.rf (A.adc + 0x14) 31 16) * (if s.glb.tempered then 2 else 1) ≤ max s.clk.now t →
    exec (.calibrationDue t k) s =
      .next ((s.tick t).setConv k.val { s.conv k.val with calDue := true, calFrom := max s.clk.now t })) ∧
  (∀ (s : State) (t : Nat) (k : Fin 18), s.Up → voterStopped s (22 + k.val) = false → (s.conv k.val).collecting = true →
    (s.conv k.val).firstAt + msTicks (s.rf (A.adc + 0x14) 15 8) < max s.clk.now t →
    (∀ cv, (s.conv k.val).cur = some cv → (s.conv k.val).count = 15 →
      (s.conv k.val).firstAt + msTicks (s.rf (A.adc + 0x14) 15 8) < cv.start + 4 * s.adcPeriod) →
    Runs (.calSpanExpiry t k) s (fun u => (u.conv k.val).collecting = false ∧ (u.conv k.val).sumLo = 0 ∧ (u.conv k.val).sumHi = 0 ∧
      (u.conv k.val).count = 0 ∧ (u.conv k.val).calDue = (s.conv k.val).calDue ∧ (∀ j, j ≠ k.val → u.conv j = s.conv j) ∧
      ChangesOnly [.clk, .adc] s u)) ∧
  (∀ (s : State) (t : Nat) (k : Fin 18) (cv : Conv), s.Up → (s.conv k.val).cur = some cv → (s.conv k.val).count = 15 →
    cv.start + 4 * s.adcPeriod ≤ (s.conv k.val).firstAt + msTicks (s.rf (A.adc + 0x14) 15 8) →
    exec (.calSpanExpiry t k) s = .next (s.tick t)) ∧
  (∀ (s : State) (t lo gain : Nat) (k : Fin 18), s.Up → voterStopped s (22 + k.val) = false →
    (s.conv k.val).calReady = some (lo, gain) → lo < 32768 → gain < 65536 → (k.val < 16 → (s.bank k.val).entries = []) →
    (s.conv k.val).calEndAt < max s.clk.now t → kinkOpenOn s k.val = false → atAdcEdge (s.tick t) = true →
    Runs (.calibrationApply t k) s (fun u => calLo u k.val = lo ∧ calGain u k.val = gain ∧ u.rb (A.conv k.val + 4) 5 = false ∧
      (u.conv k.val).calReady = none ∧ (u.conv k.val).failRun = 0 ∧ (u.conv k.val).appliedAt = some (max s.clk.now t) ∧
      (u.conv k.val).calFrom = max s.clk.now t ∧
      (∀ a, a ≠ A.conv k.val + 0x10 → a ≠ A.conv k.val + 4 → u.reg a = s.reg a) ∧ (∀ j, j ≠ k.val → u.conv j = s.conv j) ∧
      ChangesOnly [.clk, .regs, .adc] s u)) ∧
  (∀ (s : State) (t : Nat) (k : Fin 18), s.Up → (k.val < 16 → (s.bank k.val).entries = []) → max s.clk.now t ≤ (s.conv k.val).calEndAt →
    exec (.calibrationApply t k) s = .next (s.tick t)) ∧
  (∀ (s : State) (t : Nat) (r : Fin 64) (c : Fetched), Takes s r.val 0x30 c → fld (c.w 2) 12 8 ≤ 17 →
    stepGood (fld (c.w 2) 12 8) (c.w 3) = true →
    (fld (c.w 2) 12 8 < 16 → (s.bank (fld (c.w 2) 12 8)).entries = []) →
    Applies (.adcStepWrite t r) s r.val c {} (fun u =>
      u.reg (A.step (fld (c.w 2) 12 8) (fld (c.w 2) 4 0)) = c.w 3 ∧
      (∀ a, a ≠ A.step (fld (c.w 2) 12 8) (fld (c.w 2) 4 0) → u.reg a = s.reg a) ∧ u.glb = { s.glb with digestDue := true } ∧
      stepEntry u (fld (c.w 2) 12 8) (fld (c.w 2) 4 0) (max s.clk.now t) =
        stepEntry s (fld (c.w 2) 12 8) (fld (c.w 2) 4 0) (max s.clk.now t) ∧
      (∀ j, j ≠ fld (c.w 2) 12 8 → u.conv j = s.conv j) ∧ ChangesOnly [.clk, .glb, .regs, .adc] s u)) ∧
  (∀ (s : State) (t : Nat) (r : Fin 64) (c : Fetched), Takes s r.val 0x30 c → fld (c.w 2) 12 8 ≤ 17 →
    stepGood (fld (c.w 2) 12 8) (c.w 3) = false →
    exec (.adcStepWrite t r) s = .next (finish (s.tick t) r.val c { cstat := 1 })) ∧
  (∀ (s : State) (t : Nat) (r : Fin 64) (c : Fetched), Takes s r.val 0x30 c → 17 < fld (c.w 2) 12 8 →
    exec (.adcStepWrite t r) s = .next (finish (s.tick t) r.val c { cstat := 2 }))

/-- The host path: its reset returns the HIF registers to their reset values, PERST_MODE kept, with HOST_RESET set and MSI-X
disabled (R310); a change of BME, D-state and link state begins or ends a suspension, whose end writes the completions held
(R306); PME_Turn_Off is answered (R308). RUN = 1 (R312, R314, R315): with every ring check passed the rings start with every
index at 0, with one failed CFG_ERR names the check and the ring, and either way HOST_RESET clears; after the seal, while
HOST_RESET = 0, the write is refused. Where the spec leaves a point of it open, the clauses follow the model's choices or
readings of log entries 6, 48, 65. -/
def Obligations.TheHostPathResetsSuspendsAndStarts : Prop :=
  (∀ s : State, s.Up →
    Runs .hostPathReset s (fun u => u.running = false ∧ u.rb 0x1004 1 = true ∧ u.rf 0x1000 8 8 = s.rf 0x1000 8 8 ∧
      u.hif = { lstate := s.hif.lstate, wakeN := s.hif.wakeN, pci := { lanes := s.hif.pci.lanes, speed := s.hif.pci.speed } } ∧ u.irq = { s.irq with msixEn := false, msixMask := false } ∧
      (∀ a, (a < 0x1000 ∨ 0x2000 ≤ a) → u.reg a = s.reg a) ∧ ChangesOnly [.clk, .regs, .hif, .irq, .pwr] s u)) ∧
  (∀ (s : State) (t d l : Nat) (b : Bool) (cfg : PciCfg), s.pwr.inReset = false → (s.suspended = false ∨ b = false ∨ d ≠ 0 ∨ 1 < l) →
    exec (.suspension t ⟨b, cfg⟩ d l) s =
      .next { s.tick t with hif := { s.hif with bme := b, dstate := d, lstate := l, pci := cfg, wakeN := s.hif.wakeN && l == 2 } }) ∧
  (∀ (s : State) (t l : Nat) (cfg : PciCfg), s.pwr.inReset = false → s.suspended = true → l ≤ 1 → (s.tick t).issued = [] →
    Runs (.suspension t ⟨true, cfg⟩ 0 l) s (fun u => u.suspended = false ∧ u.hif.backlog = [] ∧ u.hif.pci = cfg ∧ u.xfr.late = [] ∧
      s.out.sent.isPrefixOf u.out.sent = true ∧
      (s.hif.backlog = [] → s.xfr.late = [] → (∀ n, n < 32 → (s.xch n).unsent = false) → u.out.sent = s.out.sent))) ∧
  (∀ s : State, s.Up → Latest s s.clk.now .message → exec .pmeTurnOff s =
    .next { s.tick s.clk.now with out := { s.out with sent := s.out.sent ++ [.pmeAck], issuedAt := s.clk.now, ranks := (s.tick s.clk.now).issued ++ [4] } }) ∧
  (∀ (s : State) (t : Nat), s.Open → s.running = false → ringCheck s = none →
    Runs (.runStart t) s (fun u => u.running = true ∧ u.rb 0x1004 1 = false ∧ u.hif.rings = [] ∧ u.hif.awaited = [] ∧
      u.hif.backlog = [] ∧ (∀ r, r < 64 → u.reg (A.ring r + 0xC) = 0) ∧ u.out = s.out)) ∧
  (∀ (s : State) (t k r : Nat), s.Open → s.running = false → ringCheck s = some (k, r) →
    Runs (.runStart t) s (fun u => u.running = false ∧ u.rf 0x1004 11 8 = k ∧ u.rf 0x1004 21 16 = r ∧ u.rb 0x1004 1 = false ∧
      (∀ a, a ≠ 0x1004 → a ≠ 0x1000 → u.reg a = s.reg a) ∧ u.hif = s.hif)) ∧
  (∀ (s : State) (t : Nat), s.Up → s.glb.isSealed = true → hostReset s = false →
    Runs (.runStart t) s (fun u => u.running = s.running ∧ u.rb 0x1004 1 = false ∧
      u.glb = { s.glb with first := false, refused := min 65535 (s.glb.refused + 1), refusedBar2 := false } ∧ u.hif = s.hif))

/-- Polling and fetching (R319 to R324): a due poll reads the 128 bytes of the doorbell block; its data give every enabled command
ring its producer index and set it fetching at most 16 descriptors ahead; a failed poll gives none; the poll goes out ahead of
completions, telemetry and transfers issued in the same FCLK cycle (R31). A descriptor with the right lap bit is taken and DEV
moves on, one with the wrong lap bit is counted, and the first failures of a fetch are tried again. Where the spec leaves a
point of it open, the clauses follow the model's choices or readings of log entries 26, 65. -/
def Obligations.PollsAndDescriptorFetches : Prop :=
  (∀ (s : State) (t : Nat), s.Up → s.running = true → s.suspended = false → s.hif.pollBusy = false →
    (s.hif.polled = false ∨ s.hif.pollAt + pollInterval (s.tick t) ≤ max s.clk.now t) →
    Latest s t .fetch →
    Runs (.doorbellPoll t) s (fun u => u.out.sent = s.out.sent ++ [.read s.doorbellBase 128] ∧ u.hif.pollBusy = true ∧
      u.hif.pollAt = max s.clk.now t ∧ u.hif.rings = s.hif.rings ∧ ChangesOnly [.clk, .out, .hif] s u)) ∧
  (∀ (s : State) (t : Nat) (a b : List Sent), s.Up → s.running = true → s.suspended = false → s.hif.pollBusy = false →
    (s.hif.polled = false ∨ s.hif.pollAt + pollInterval (s.tick t) ≤ max s.clk.now t) →
    (s.tick t).issued.all (fun r => decide (0 < r)) = true → s.out.sent = a ++ b → b.length = (s.tick t).issued.length →
    Runs (.doorbellPoll t) s (fun u => u.out.sent = a ++ [.read s.doorbellBase 128] ++ b ∧
      u.issued = 0 :: (s.tick t).issued)) ∧
  (∀ (s : State) (t : Nat), s.Up → s.hif.pollBusy = true → exec (.doorbellPoll t) s = .next (s.tick t)) ∧
  (∀ (s : State) (t : Nat) (g : Word) (l : List (Nat × Nat)), s.Up → s.hif.pollBusy = true → s.pwr.entry = 0 →
    Runs (.pollDataReturn t true g l) s (fun u => u.hif.pollBusy = false ∧ u.hif.gen = fld g 15 0 ∧
      ∀ r, r ∈ enabledRings s 0 → u.rf (A.ring r + 0xC) 31 16 = prodOf l (ringSlot s r) ∧
        (idxDist (ringDev s r) (prodOf l (ringSlot s r)) ≤ ringN s r →
          (u.ring r).want = min 16 (idxDist (ringDev s r) (prodOf l (ringSlot s r)))))) ∧
  (∀ (s : State) (t : Nat) (g : Word) (l : List (Nat × Nat)), s.Up → s.hif.pollBusy = true →
    exec (.pollDataReturn t false g l) s = .next { s.tick t with hif := { s.hif with pollBusy := false } }) ∧
  (∀ (s : State) (t : Nat) (r : Fin 64) (ws : List Word) (b : Option (List Word)), s.Up → ringOn s r.val = true →
    (s.ring r.val).want ≠ 0 → s.suspended = false → s.pwr.entry = 0 →
    fld (wordAt ws 15) 31 31 = lapBit (ringN s r.val) (ringDev s r.val) → bufWords { idx := 0, words := ws, buf := [] } = none →
    (s.ring r.val).fetched = [] → opKnown (fld (wordAt ws 0) 7 0) = true → Latest s t .completion →
    Runs (.descriptorFetchDone t r (some ws) b) s (fun u =>
      (u.ring r.val).fetched = [{ idx := ringDev s r.val, words := ws, buf := [] }] ∧
      (u.ring r.val).want = (s.ring r.val).want - 1 ∧ ringDev u r.val = (ringDev s r.val + 1) % 65536 ∧
      u.out.sent = s.out.sent ++ [.write (s.echoBase + 2 * r.val) (echoBytes ((ringDev s r.val + 1) % 65536))] ∧
      (∀ j, j ≠ r.val → u.ring j = s.ring j) ∧ ChangesOnly [.clk, .regs, .out, .hif] s u)) ∧
  (∀ (s : State) (t : Nat) (r : Fin 64) (ws : List Word) (b : Option (List Word)), s.Up → ringOn s r.val = true →
    (s.ring r.val).want ≠ 0 → s.suspended = false → s.pwr.entry = 0 →
    fld (wordAt ws 15) 31 31 ≠ lapBit (ringN s r.val) (ringDev s r.val) → (s.ring r.val).lapRun + 1 ≠ 64 →
    exec (.descriptorFetchDone t r (some ws) b) s =
      .next (((s.tick t).setRing r.val { s.ring r.val with want := 0, lapRun := (s.ring r.val).lapRun + 1 }).cntSat
        (A.ring r.val + 0x10) 31 16)) ∧
  (∀ (s : State) (t : Nat) (r : Fin 64) (b : Option (List Word)), s.Up → ringOn s r.val = true →
    (s.ring r.val).want ≠ 0 → s.suspended = false → s.pwr.entry = 0 → (s.ring r.val).fails < 2 →
    exec (.descriptorFetchDone t r none b) s =
      .next ((s.tick t).setRing r.val { s.ring r.val with fails := (s.ring r.val).fails + 1, want := 0 }))

/-- A command completes (R316, R318, R330): NOP alone at the head of its ring writes its completion record to the paired
completion ring in three posted writes, counts as applied, and leaves the ring; the last word of an entry carries the lap bit
of its index, 1 on the first lap; in the chip safe state any other command completes with CSTAT 0xFF (R465), and one with a
reserved bit set with HSTAT 2 (R13). ARM (R333): with the digest in force it sets ARMED and ends SAFE_HOLD, with another one
it answers 1, and it waits while the digest is due. MODE_SET (R39) requests its modes, and an undefined one is refused. Where
the spec leaves a point of it open, the clauses follow the model's choices or readings of log entries 22, 26. -/
def Obligations.CommandsCompleteArmAndSetModes : Prop :=
  (∀ (s : State) (t : Nat) (r : Fin 64) (c : Fetched), Takes s r.val 1 c → (s.ring r.val).fetched = [c] →
    ringOn s (s.rf (A.ring r.val) 13 8) = true → s.suspended = false →
    Latest s t (ringRank s (s.rf (A.ring r.val) 13 8)) →
    Runs (.nop t r) s (fun u =>
      u.out.sent = s.out.sent ++ ringWrites s (s.rf (A.ring r.val) 13 8) (completionWords (s.tick t) r.val 1 0 0 c.tag c.idx 0 0) ∧
      (u.ring r.val).fetched = [] ∧
      ringDev u (s.rf (A.ring r.val) 13 8) = (ringDev s (s.rf (A.ring r.val) 13 8) + 1) % 65536 ∧
      u.rf 0x1028 15 0 = (s.rf 0x1028 15 0 + 1) % 65536 ∧ u.rf 0x1028 31 16 = s.rf 0x1028 31 16 ∧
      ChangesOnly [.clk, .regs, .out, .hif, .irq] s u)) ∧
  (∀ (n i : Nat) (ws : List Word), ws ≠ [] → wbit ((withLap n i ws).getLastD 0) 31 = decide (i / n % 2 = 0) ∧
    (withLap n i ws).length = ws.length ∧ (withLap n i ws).dropLast = ws.dropLast) ∧
  (∀ (s : State) (t : Nat) (r : Fin 64) (c : Fetched) (q : State), Before s t 4 q → headCmd q r.val = some c → c.op = 0x10 →
    q.glb.chipSafe = true → exec (.slotWrite t r) s = .next (finish q r.val c { cstat := 0xFF })) ∧
  (∀ (s : State) (t : Nat) (r : Fin 64) (c : Fetched) (q : State), Before s t 4 q → headCmd q r.val = some c → c.op = 0x10 →
    q.glb.chipSafe = false → reservedGood c = false → exec (.slotWrite t r) s = .next (finish q r.val c { hstat := 2 })) ∧
  (∀ (s : State) (t : Nat) (r : Fin 64) (c : Fetched), Takes s r.val 2 c → s.glb.digestDue = false →
    c.w 2 = lo32 s.glb.digest → c.w 3 = hi32 s.glb.digest →
    Applies (.arm t r) s r.val c { r0 := lo32 s.glb.digest, r1 := hi32 s.glb.digest } (fun u =>
      u.glb = { s.glb with armed := true, safeHold := false } ∧ u.out = s.out ∧ u.units = s.units)) ∧
  (∀ (s : State) (t : Nat) (r : Fin 64) (c : Fetched), Takes s r.val 2 c → s.glb.digestDue = false →
    (c.w 2 ≠ lo32 s.glb.digest ∨ c.w 3 ≠ hi32 s.glb.digest) →
    exec (.arm t r) s = .next (finish (s.tick t) r.val c { cstat := 1, r0 := lo32 s.glb.digest, r1 := hi32 s.glb.digest })) ∧
  (∀ (s : State) (t : Nat) (r : Fin 64) (c : Fetched), Takes s r.val 2 c → s.glb.digestDue = true →
    exec (.arm t r) s = .next (s.tick t)) ∧
  (∀ (s : State) (t : Nat) (r : Fin 64) (c : Fetched), Takes s r.val 3 c → fld (c.w 2) 9 8 ≤ 2 → fld (c.w 2) 1 0 ≤ 1 →
    ∃ y : Reply, y.cstat = 0 ∧ y.hstat = 0 ∧ Applies (.modeSet t r) s r.val c y (fun u =>
      u.reg 8 = plainWrite 8 (s.reg 8) (c.w 2) ∧ y.r0 = modeNowWord u)) ∧
  (∀ (s : State) (t : Nat) (r : Fin 64) (c : Fetched), Takes s r.val 3 c → (fld (c.w 2) 9 8 = 3 ∨ 2 ≤ fld (c.w 2) 1 0) →
    exec (.modeSet t r) s = .next (finish (s.tick t) r.val c { cstat := 1, r0 := modeNowWord s }))

/-- CFG_WRITE (R334, R335) of one entry in the WDN block and TABLE_WRITE (R337) to the producer table: what passes every check is
written whole, and what fails one is refused with its status and writes nothing. MSIX_TABLE_WRITE is accepted before and after
the seal (R303, R311): a word of the table takes its defined bits, and a misaligned access writes nothing. Where the spec
leaves a point of it open, the clauses follow the model's choices or readings of log entries 6, 19, 20, 21. -/
def Obligations.ConfigurationIsCheckedThenWritten : Prop :=
  (∀ (s : State) (t : Nat) (r : Fin 64) (c : Fetched), Takes s r.val 4 c → fld (c.w 2) 1 0 = 0 →
    0x3000 ≤ (c.w 3).toNat → (c.w 3).toNat < 0x4000 → c.w 5 ≠ 0 → cfgCheck s (cfgEntries c) = none →
    Applies (.cfgWrite t r) s r.val c {} (fun u => u.reg (c.w 3).toNat = (s.reg (c.w 3).toNat &&& ~~~ (c.w 5)) ||| c.w 4 ∧
      (∀ a, a ≠ (c.w 3).toNat → u.reg a = s.reg a) ∧
      (u.reg (c.w 3).toNat ≠ s.reg (c.w 3).toNat → u.glb.digestDue = true) ∧ ChangesOnly [.clk, .glb, .regs, .irq] s u)) ∧
  (∀ (s : State) (t i k : Nat) (r : Fin 64) (c : Fetched), Takes s r.val 4 c → cfgCheck s (cfgEntries c) = some (i, k) → k ≠ 4 →
    exec (.cfgWrite t r) s = .next (finish (s.tick t) r.val c { cstat := k, r0 := ofNat32 i })) ∧
  (∀ (s : State) (t i : Nat) (r : Fin 64) (c : Fetched), Takes s r.val 4 c → cfgCheck s (cfgEntries c) = some (i, 4) →
    Applies (.cfgWrite t r) s r.val c { cstat := 4, r0 := ofNat32 i } (fun u => (∀ a, u.reg a = s.reg a) ∧ u.glb = s.glb ∧
      ChangesOnly [.clk, .cells] s u)) ∧
  (∀ (s : State) (t n : Nat) (r : Fin 64) (c : Fetched), Takes s r.val 5 c → bufWords c = some n → n ≤ c.buf.length →
    0x51000 ≤ (c.w 2).toNat → (c.w 2).toNat + 4 * n ≤ 0x51400 →
    Applies (.tableWrite t r) s r.val c {} (fun u =>
      (∀ i, i < n → u.word ((c.w 2).toNat + 4 * i) = wordAt c.buf i) ∧
      (∀ b, ¬ ((c.w 2).toNat ≤ b ∧ b < (c.w 2).toNat + 4 * n) → u.byte b = s.byte b) ∧
      ChangesOnly [.clk, .mem, .hif, .irq, .mech] s u)) ∧
  (∀ (s : State) (t n : Nat) (r : Fin 64) (c : Fetched), Takes s r.val 5 c → bufWords c = some n →
    tableAreaAt (c.w 2).toNat = none →
    exec (.tableWrite t r) s = .next (finish (s.tick t) r.val c { cstat := 1 })) ∧
  (∀ (s : State) (t n : Nat) (r : Fin 64) (c : Fetched), Takes s r.val 5 c → bufWords c = some n → 0x51000 ≤ (c.w 2).toNat →
    (c.w 2).toNat < 0x51400 → 0x51400 < (c.w 2).toNat + 4 * n →
    exec (.tableWrite t r) s = .next (finish (s.tick t) r.val c { cstat := 2 })) ∧
  (∀ (s : State) (t a : Nat) (v : BitVec 64), s.Up → 0x1A00 ≤ a → a < 0x1C00 → a % 4 = 0 →
    Runs (.msixTableWrite t a 4 v) s (fun u => u.reg a = plainWrite a (s.reg a) (lo32 v.toNat) ∧
      (∀ b, b ≠ a → u.reg b = s.reg b) ∧ u.glb = { s.glb with first := false } ∧ ChangesOnly [.clk, .glb, .regs, .irq] s u)) ∧
  (∀ (s : State) (t a size : Nat) (v : BitVec 64), s.Up → ¬ ((size = 4 ∨ size = 8) ∧ a % size = 0) →
    exec (.msixTableWrite t a size v) s = .next { s.tick t with glb := { s.glb with first := false } })

/-- Telemetry (R338, R339): the expiry of a period publishes the latest capture that is newer than the one last published, and at
FRESH_UNTIL a value with no newer capture is published once more as STALE and counted. Where the spec leaves a point of it
open, the clauses follow the model's choices or readings of log entry 2. -/
def Obligations.TelemetryIsFreshOrStale : Prop :=
  (∀ (s : State) (t : Nat) (p : Fin 256) (e : List Word) (c : Capture), s.Up → s.hif.entry p.val = some e → pePeriod e ≠ 0 →
    (s.hif.prod p.val).nextAt ≤ max s.clk.now t → sampledKind (peKind e) = false → (s.hif.prod p.val).latest = some c →
    (s.hif.prod p.val).isNew = true →
    Runs (.telemetryPeriod t p) s (fun u => (u.hif.prod p.val).isNew = false ∧ (u.hif.prod p.val).published = some c ∧ (u.hif.prod p.val).pub = .fresh ∧
      (u.hif.prod p.val).nextAt = (s.hif.prod p.val).nextAt + usTicks (pePeriod e) ∧
      (u.hif.prod p.val).pseq = ((s.hif.prod p.val).pseq + 1) % 65536 ∧ (∀ q, q ≠ p.val → u.hif.prod q = s.hif.prod q))) ∧
  (∀ (s : State) (t : Nat) (p : Fin 256) (e : List Word), s.Up → s.hif.entry p.val = some e → pePeriod e ≠ 0 →
    (s.hif.prod p.val).nextAt ≤ max s.clk.now t → sampledKind (peKind e) = false →
    ((s.hif.prod p.val).latest = none ∨ (s.hif.prod p.val).isNew = false) →
    exec (.telemetryPeriod t p) s =
      .next ((s.tick t).setProd p.val { s.hif.prod p.val with nextAt := (s.hif.prod p.val).nextAt + usTicks (pePeriod e) })) ∧
  (∀ (s : State) (t : Nat) (p : Fin 256) (e : List Word) (c : Capture), s.Up → s.hif.entry p.val = some e →
    (s.hif.prod p.val).published = some c → (s.hif.prod p.val).pub = .fresh → recordKind (peKind e) = false →
    freshUntil e c ≤ (s.tick t).dtime → (s.hif.prod p.val).latest = some c →
    Runs (.freshnessExpiry t p) s (fun u => (u.hif.prod p.val).pub = .stale ∧ (u.hif.prod p.val).published = some c ∧
      u.rf 0x1024 31 16 = min 65535 (s.rf 0x1024 31 16 + 1) ∧ (∀ q, q ≠ p.val → u.hif.prod q = s.hif.prod q) ∧
      ChangesOnly [.clk, .regs, .out, .hif, .irq] s u)) ∧
  (∀ (s : State) (t : Nat) (p : Fin 256), s.Up → s.hif.entry p.val = none → exec (.freshnessExpiry t p) s = .next (s.tick t))

/-- Queue cells (R347 to R358): CLOSE_TO without an item closes the open word, padded and tagged; the word at stage 0 goes to the
cell's transfer channel, even one that a word entering the full chain in the same FCLK cycle has just displaced (R348);
QUE_FLUSH, QUE_ACK and QUE_CLOSE act on their cell, and a cell above 23 is refused; EN = 0 flushes the cell; LEVEL_EVT written
with 1 clears with CROSS_CNT, and a crossing of the cycle of a QUE_ACK comes after it (R353); a flush inside a group leaves
its last items to be discarded (R355); a capture that has waited 1 µs for its pair is written alone. Where the spec leaves a
point of it open, the clauses follow the model's choices or readings of log entries 2, 28. -/
def Obligations.QueueCellsCloseMoveAndFlush : Prop :=
  (∀ (s : State) (t : Nat) (q : Fin 24), s.Up → s.rf (A.queue q.val) 31 24 ≠ 0 → (s.qcell q.val).opened ≠ [] →
    (s.qcell q.val).lastItem + 400 * s.rf (A.queue q.val) 31 24 ≤ max s.clk.now t → (s.qcell q.val).words.length < 16 →
    Runs (.queueCloseTimeout t q) s (fun u => (u.qcell q.val).opened = [] ∧
      (u.qcell q.val).words = (s.qcell q.val).words ++
        [{ bytes := (s.qcell q.val).opened ++ List.replicate (16 - (s.qcell q.val).opened.length) 0,
           valid := (s.qcell q.val).opened.length, entered := max s.clk.now t }] ∧
      (u.qcell q.val).lost = (s.qcell q.val).lost ∧ (∀ p, p ≠ q.val → u.qcell p = s.qcell p))) ∧
  (∀ (s : State) (t n : Nat) (q : Fin 24) (w : QWord), s.Up → s.rb (A.queue q.val) 1 = false → qHead (s.tick t) q.val = some w →
    qReader s q.val = some n → s.suspended = false → voterStopped s 42 = false → shedNow (s.tick t) (s.qcell q.val) = none →
    exec (.queueWordHead t q) s =
      .next (((s.tick t).setQ q.val { s.qcell q.val with words := (s.qcell q.val).words.tail, tookAt := some (max s.clk.now t) }).setX n
        { s.xch n with
            held := (s.xch n).held ++ bytesWords w.bytes, tags := (s.xch n).tags ++ [w.valid], moved := (s.xch n).moved + 1,
            blockLeft := (s.xch n).blockLeft - 1 })) ∧
  (∀ (s : State) (t n l : Nat) (q : Fin 24) (w : QWord), s.Up → s.rb (A.queue q.val) 1 = false →
    shedNow (s.tick t) (s.qcell q.val) = some (w, l) → (s.qcell q.val).tookAt = none → w.entered + s.fclk 15 ≤ max s.clk.now t →
    qReader s q.val = some n → s.suspended = false → voterStopped s 42 = false →
    exec (.queueWordHead t q) s =
      .next (((s.tick t).setQ q.val { s.qcell q.val with shed := none, lost := l, tookAt := some (max s.clk.now t) }).setX n
        { s.xch n with
            held := (s.xch n).held ++ bytesWords w.bytes, tags := (s.xch n).tags ++ [w.valid], moved := (s.xch n).moved + 1,
            blockLeft := (s.xch n).blockLeft - 1 })) ∧
  (∀ (s : State) (t : Nat) (q : Fin 24), s.Up → qHead (s.tick t) q.val = none → exec (.queueWordHead t q) s = .next (s.tick t)) ∧
  (∀ (s : State) (t : Nat) (r : Fin 64) (c : Fetched), Takes s r.val 0x68 c → fld (c.w 2) 4 0 < 24 →
    exec (.queFlush t r) s =
      .next (finish ((s.tick t).setQ (fld (c.w 2) 4 0)
        { s.qcell (fld (c.w 2) 4 0) with
            words := [], opened := [], shed := none,
            flushed := min 65535 ((s.qcell (fld (c.w 2) 4 0)).flushed +
              ((s.qcell (fld (c.w 2) 4 0)).items (qWidth s (fld (c.w 2) 4 0)) - groupLeft (s.tick t) (s.qcell (fld (c.w 2) 4 0)))),
            cut := (s.qcell (fld (c.w 2) 4 0)).cut +
              min (groupLeft (s.tick t) (s.qcell (fld (c.w 2) 4 0))) ((s.qcell (fld (c.w 2) 4 0)).items (qWidth s (fld (c.w 2) 4 0))) })
        r.val c { r0 := ofNat32 ((s.qcell (fld (c.w 2) 4 0)).items (qWidth s (fld (c.w 2) 4 0)) -
          groupLeft (s.tick t) (s.qcell (fld (c.w 2) 4 0))) })) ∧
  (∀ (s : State) (t : Nat) (r : Fin 64) (c : Fetched), Takes s r.val 0x69 c → fld (c.w 2) 4 0 < 24 →
    crossedNow (s.tick t) (fld (c.w 2) 4 0) = false →
    ∃ y : Reply, y.cstat = 0 ∧ y.hstat = 0 ∧
      fld y.r0 8 8 = (if (s.qcell (fld (c.w 2) 4 0)).levelEvt then 1 else 0) ∧
      exec (.queAck t r) s = .next (finish ((s.tick t).setQ (fld (c.w 2) 4 0)
        { s.qcell (fld (c.w 2) 4 0) with levelEvt := false, cross := 0, evtBefore := false, crossBefore := 0 }) r.val c y)) ∧
  (∀ (s : State) (t : Nat) (r : Fin 64) (c : Fetched), Takes s r.val 0x69 c → fld (c.w 2) 4 0 < 24 →
    crossedNow (s.tick t) (fld (c.w 2) 4 0) = true →
    ∃ y : Reply, y.cstat = 0 ∧ y.hstat = 0 ∧
      fld y.r0 8 8 = (if (s.qcell (fld (c.w 2) 4 0)).evtBefore then 1 else 0) ∧
      exec (.queAck t r) s = .next (finish ((s.tick t).setQ (fld (c.w 2) 4 0)
        { s.qcell (fld (c.w 2) 4 0) with levelEvt := true, cross := 1, evtBefore := false, crossBefore := 0 }) r.val c y)) ∧
  (∀ (s : State) (t : Nat) (r : Fin 64) (c : Fetched), Takes s r.val 0x6A c → fld (c.w 2) 4 0 < 24 →
    Applies (.queClose t r) s r.val c { r0 := ofNat32 (s.qcell (fld (c.w 2) 4 0)).opened.length } (fun u =>
      (u.qcell (fld (c.w 2) 4 0)).opened = [] ∧ (∀ p, p ≠ fld (c.w 2) 4 0 → u.qcell p = s.qcell p))) ∧
  (∀ (s : State) (t : Nat) (r : Fin 64) (c : Fetched), Takes s r.val 0x68 c → 24 ≤ fld (c.w 2) 4 0 →
    exec (.queFlush t r) s = .next (finish (s.tick t) r.val c { hstat := 2 })) ∧
  (∀ (s : State) (t : Nat) (q : Fin 24), s.Open → queCfgGood s q.val (queCfgNext s q.val (setFld (s.reg (A.queue q.val)) 0 0 0)) = true →
    Runs (.queueDisable t q) s (fun u => qEnabled u q.val = false ∧ (u.qcell q.val).words = [] ∧ (u.qcell q.val).opened = [] ∧
      (∀ p, p ≠ q.val → u.qcell p = s.qcell p) ∧ (∀ a, a ≠ A.queue q.val → u.reg a = s.reg a))) ∧
  (∀ (s : State) (t : Nat) (q : Fin 24), s.Open → crossedNow (s.tick t) q.val = false →
    exec (.levelEvtClear t q) s =
      .next ((s.tick t).unFirst.setQ q.val { s.qcell q.val with levelEvt := false, cross := 0, evtBefore := false, crossBefore := 0 })) ∧
  (∀ (s : State) (t : Nat) (r : Fin 64), s.Up → (s.ring r.val).first ≠ [] → (s.ring r.val).firstAt + 400 ≤ max s.clk.now t →
    ringOn s r.val = true → s.suspended = false → Latest s t (ringRank s r.val) →
    Runs (.capturePairTimeout t r) s (fun u => (u.ring r.val).first = [] ∧ ringDev u r.val = (ringDev s r.val + 1) % 65536 ∧
      u.out.sent = s.out.sent ++ ringWrites s r.val ((s.ring r.val).first ++ [0] ++ List.replicate 8 0)))

/-- A transfer channel starts, by XFR_START or by CTL.START, with the fetch of its descriptor (R371); XFR_START finds an active
channel busy; XFR_STOP and CTL.STOP leave it IDLE (R367); a transfer timer triggers a block of each waiting channel it paces
(R363, R365). A fetched descriptor, host data, the end of a block and a LINK read (R360 to R371): a read that fails is ERROR
5, a descriptor that fails its check is ERROR with the check's code, one that passes starts its first block or waits for its
trigger; host data goes to the Reel engine's OUT queue; a block from BAR2 is written to host memory; LINK parks the channel,
names a next descriptor that is fetched, or is ERROR 6. Where the spec leaves a point of it open, the clauses follow the
model's choices or readings of log entries 27, 28. -/
def Obligations.TransfersRunAndStop : Prop :=
  (∀ (s : State) (t : Nat) (r : Fin 64) (c : Fetched), Takes s r.val 0x6B c → fld (c.w 3) 5 0 = 0 →
    (s.xch (fld (c.w 2) 4 0)).active = false → s.suspended = false → Latest s t .transfer →
    Applies (.xfrStart t r) s r.val c {} (fun u => (u.xch (fld (c.w 2) 4 0)).st = .run ∧
      (u.xch (fld (c.w 2) 4 0)).reading = .desc ∧ (u.xch (fld (c.w 2) 4 0)).desc = [] ∧
      u.out.sent = s.out.sent ++ [.read ((c.w 3).toNat + 2 ^ 32 * (c.w 4).toNat) 64] ∧
      (∀ n, n ≠ fld (c.w 2) 4 0 → u.xch n = s.xch n) ∧ ChangesOnly [.clk, .out, .xfr] s u)) ∧
  (∀ (s : State) (t : Nat) (r : Fin 64) (c : Fetched), Takes s r.val 0x6B c → fld (c.w 3) 5 0 = 0 →
    (s.xch (fld (c.w 2) 4 0)).active = true →
    exec (.xfrStart t r) s = .next (finish (s.tick t) r.val c { cstat := 1 })) ∧
  (∀ (s : State) (t : Nat) (n : Fin 32), s.Open → (s.xch n.val).active = false → s.suspended = false →
    Latest s t .transfer →
    Runs (.xfrCtlStart t n) s (fun u => (u.xch n.val).st = .run ∧ (u.xch n.val).reading = .desc ∧
      u.out.sent = s.out.sent ++
        [.read ((s.reg (A.xch n.val + 4)).toNat / 64 * 64 + 2 ^ 32 * (s.reg (A.xch n.val + 8)).toNat) 64] ∧
      (∀ m, m ≠ n.val → u.xch m = s.xch m))) ∧
  (∀ (s : State) (t : Nat) (r : Fin 64) (c : Fetched), Takes s r.val 0x6C c →
    Applies (.xfrStop t r) s r.val c { r0 := ofNat32 (s.xch (fld (c.w 2) 4 0)).st.code, r1 := ofNat32 (s.xch (fld (c.w 2) 4 0)).moved }
      (fun u => (u.xch (fld (c.w 2) 4 0)).active = false ∧
        ((s.xch (fld (c.w 2) 4 0)).active = true → (u.xch (fld (c.w 2) 4 0)).st = .idle) ∧
        ((s.xch (fld (c.w 2) 4 0)).active = false → u = s.tick t))) ∧
  (∀ (s : State) (t : Nat) (n : Fin 32), s.Open → (s.xch n.val).active = true →
    Runs (.xfrCtlStop t n) s (fun u => (u.xch n.val).st = .idle ∧ (u.xch n.val).reading = .quiet ∧ (u.xch n.val).held = [])) ∧
  (∀ (s : State) (t : Nat) (k : Fin 4) (n : Fin 32), s.Up → s.rf (0x8010 + 4 * k.val) 15 0 ≠ 0 →
    cget zeroNat s.xfr.timers k.val ≤ max s.clk.now t → (s.xch n.val).st = .wait → (s.xch n.val).desc ≠ [] →
    xdPace (s.xch n.val).desc = 1 → xdPsrc (s.xch n.val).desc = k.val →
    Runs (.xfrTimerExpiry t k) s (fun u => (u.xch n.val).st = .run ∧ (u.xch n.val).blockLeft = xdC0 (s.xch n.val).desc ∧
      (u.xch n.val).moved = (s.xch n.val).moved ∧
      cget zeroNat u.xfr.timers k.val = cget zeroNat s.xfr.timers k.val + 400 * s.rf (0x8010 + 4 * k.val) 15 0)) ∧
  (∀ (s : State) (t : Nat) (n : Fin 32), s.Up → (s.xch n.val).reading = .desc → (s.xch n.val).unsent = false →
    Runs (.xfrDescriptorFetched t n none) s (fun u => (u.xch n.val).st = .error ∧ (u.xch n.val).err = 5)) ∧
  (∀ (s : State) (t : Nat) (n : Fin 32) (d : List Word), s.Up → (s.xch n.val).reading = .desc → (s.xch n.val).unsent = false →
    xdCheck s n.val d ≠ 0 →
    Runs (.xfrDescriptorFetched t n (some d)) s (fun u => (u.xch n.val).st = .error ∧ (u.xch n.val).err = xdCheck s n.val d)) ∧
  (∀ (s : State) (t : Nat) (n : Fin 32) (d : List Word), s.Up → (s.xch n.val).reading = .desc → (s.xch n.val).unsent = false →
    xdCheck s n.val d = 0 → d.length = 16 → (s.xch n.val).trig = false → xdPace d ≠ 3 →
    Runs (.xfrDescriptorFetched t n (some d)) s (fun u => (u.xch n.val).desc = d ∧ (u.xch n.val).moved = 0 ∧
      (u.xch n.val).st = (if xdPace d = 0 then .run else .wait) ∧ (xdPace d = 0 → (u.xch n.val).blockLeft = xdC0 d) ∧
      (∀ m, m ≠ n.val → u.xch m = s.xch m))) ∧
  (∀ (s : State) (t : Nat) (n : Fin 32), s.Up → (s.xch n.val).reading = .data → (s.xch n.val).unsent = false →
    Runs (.xfrReadData t n none) s (fun u => (u.xch n.val).st = .error ∧ (u.xch n.val).err = 5)) ∧
  (∀ (s : State) (t : Nat) (n : Fin 32) (ws : List Word), s.Up → (s.xch n.val).reading = .data → (s.xch n.val).unsent = false →
    (s.xch n.val).st = .run → (s.xch n.val).desc ≠ [] → xdEp (s.xch n.val).desc = 2 → (s.xch n.val).held = [] →
    ws.length = (s.xch n.val).blockLeft → ws ≠ [] → ws.length ≤ reelOutRoom s (xdEpi (s.xch n.val).desc) →
    Runs (.xfrReadData t n (some ws)) s (fun u =>
      (u.reel.eng (xdEpi (s.xch n.val).desc)).outq = (s.reel.eng (xdEpi (s.xch n.val).desc)).outq ++ ws ∧
      (u.xch n.val).moved = (s.xch n.val).moved + ws.length ∧ (u.xch n.val).held = [])) ∧
  (∀ (s : State) (t : Nat) (n : Fin 32), s.Up → (s.xch n.val).st = .run → (s.xch n.val).reading = .quiet → s.suspended = false →
    xdEp (s.xch n.val).desc = 3 → xdDir (s.xch n.val).desc = false → (s.xch n.val).desc ≠ [] → (s.xch n.val).blockLeft ≠ 0 →
    Latest s t .transfer →
    Runs (.xfrBlockEnd t n) s (fun u => (u.xch n.val).moved = (s.xch n.val).moved + (s.xch n.val).blockLeft ∧
      ∃ w, u.out.sent = s.out.sent ++ elemWrites s (s.xch n.val).desc (s.xch n.val).moved (xdEsize (s.xch n.val).desc)
        ((List.range (s.xch n.val).blockLeft).map (fun i => bar2Bytes (s.tick t)
          (xdOffset (s.xch n.val).desc + ((s.xch n.val).moved + i) * xdEsize (s.xch n.val).desc) (xdEsize (s.xch n.val).desc))) ++ w)) ∧
  (∀ (s : State) (t : Nat) (n : Fin 32), s.Up → (s.xch n.val).reading = .link → (s.xch n.val).unsent = false →
    Runs (.xfrLinkRead t n none) s (fun u => (u.xch n.val).st = .error ∧ (u.xch n.val).err = 5)) ∧
  (∀ (s : State) (t v : Nat) (n : Fin 32), s.Up → (s.xch n.val).reading = .link → (s.xch n.val).unsent = false → v % 2 = 1 →
    exec (.xfrLinkRead t n (some v)) s = .next ((s.tick t).setX n.val { s.xch n.val with reading := .quiet, st := .parked })) ∧
  (∀ (s : State) (t v : Nat) (n : Fin 32), s.Up → (s.xch n.val).reading = .link → (s.xch n.val).unsent = false → v % 2 = 0 →
    v / 2 % 32 ≠ 0 →
    Runs (.xfrLinkRead t n (some v)) s (fun u => (u.xch n.val).st = .error ∧ (u.xch n.val).err = 6)) ∧
  (∀ (s : State) (t v : Nat) (n : Fin 32), s.Up → (s.xch n.val).reading = .link → (s.xch n.val).unsent = false → v % 64 = 0 →
    v < 2 ^ 64 → s.suspended = false → Latest s t .transfer →
    Runs (.xfrLinkRead t n (some v)) s (fun u => (u.xch n.val).st = .run ∧ (u.xch n.val).reading = .desc ∧ (u.xch n.val).addr = v ∧
      u.out.sent = s.out.sent ++ [.read v 64] ∧ (∀ m, m ≠ n.val → u.xch m = s.xch m) ∧ ChangesOnly [.clk, .out, .xfr] s u))

/-- The cycle trace (R376 to R380): TRACE_MARK writes a MARK record and sets the mark to it, and writes none while EN = 0;
TRACE_REWIND sets RD to the mark, or answers 1 LOST, or 4 while a channel owns the trace; TRACE_ADVANCE moves RD over whole
records from the RD it names. -/
def Obligations.TraceMarkRewindAdvance : Prop :=
  (∀ (s : State) (t : Nat) (r : Fin 64) (c : Fetched), Takes s r.val 0x6E c → s.rb A.que 0 = true → 16 ≤ s.trace.room →
    Applies (.traceMark t r) s r.val c { r0 := ofNat32 (s.trace.wr % traceSize) } (fun u => u.trace.mark = s.trace.wr ∧
      u.trace.markValid = true ∧ u.trace.wr = s.trace.wr + 16 ∧ u.trace.tseq = (s.trace.tseq + 1) % 16777216 ∧
      u.trace.owner = s.trace.owner)) ∧
  (∀ (s : State) (t : Nat) (r : Fin 64) (c : Fetched), Takes s r.val 0x6E c → s.rb A.que 0 = false →
    exec (.traceMark t r) s = .next (finish (s.tick t) r.val c { r0 := ofNat32 (s.trace.mark % traceSize) })) ∧
  (∀ (s : State) (t : Nat) (r : Fin 64) (c : Fetched), Takes s r.val 0x6F c → s.trace.owner = none → s.trace.markValid = true →
    exec (.traceRewind t r) s =
      .next (finish { s.tick t with trace := { s.trace with rd := s.trace.mark, head := s.trace.mark } } r.val c
        { r0 := ofNat32 (s.trace.mark % traceSize), r1 := ofInt32 ((s.trace.mark : Int) - s.trace.rd) })) ∧
  (∀ (s : State) (t : Nat) (r : Fin 64) (c : Fetched), Takes s r.val 0x6F c → s.trace.owner = none → s.trace.markValid = false →
    exec (.traceRewind t r) s =
      .next (finish { s.tick t with trace := { s.trace with rewindLost := false } } r.val c
        { cstat := 1, r0 := ofNat32 (s.trace.rd % traceSize) })) ∧
  (∀ (s : State) (t : Nat) (r : Fin 64) (c : Fetched), Takes s r.val 0x6F c → s.trace.owner ≠ none →
    exec (.traceRewind t r) s = .next (finish (s.tick t) r.val c { cstat := 4, r0 := ofNat32 (s.trace.rd % traceSize) })) ∧
  (∀ (s : State) (t : Nat) (r : Fin 64) (c : Fetched), Takes s r.val 0x6D c → fld (c.w 3) 20 0 % 8 = 0 → fld (c.w 3) 20 0 ≤ 2 ^ 20 →
    s.trace.owner = none → s.trace.rd % traceSize = fld (c.w 2) 19 0 → s.trace.rd + fld (c.w 3) 20 0 ≤ s.trace.wr →
    s.trace.boundary (fld (c.w 3) 20 0 / 8 + 1) s.trace.rd (s.trace.rd + fld (c.w 3) 20 0) = true →
    exec (.traceAdvance t r) s =
      .next (finish { s.tick t with trace := { s.trace with rd := s.trace.rd + fld (c.w 3) 20 0,
                                                             head := s.trace.rd + fld (c.w 3) 20 0 } } r.val c
        { r0 := ofNat32 ((s.trace.rd + fld (c.w 3) 20 0) % traceSize), r1 := ofNat32 (s.trace.wr % traceSize) })) ∧
  (∀ (s : State) (t : Nat) (r : Fin 64) (c : Fetched), Takes s r.val 0x6D c → fld (c.w 3) 20 0 % 8 = 0 → fld (c.w 3) 20 0 ≤ 2 ^ 20 →
    s.trace.owner = none → s.trace.rd % traceSize ≠ fld (c.w 2) 19 0 →
    exec (.traceAdvance t r) s =
      .next (finish (s.tick t) r.val c { cstat := 1, r0 := ofNat32 (s.trace.rd % traceSize), r1 := ofNat32 (s.trace.wr % traceSize) }))

/-- Delivery (R386 to R388, R402): at the end of its holdoff a target with a presentable source gets its delivery, REQ set and its
message due or, with the vector masked, held in the pending bit array; the message of a delivery is issued with the address
and data of its vector unless the vector has been masked, and waits during a suspension. Writes to the set and clear addresses
(R398, R399, R401): pending, enable, IDLE and ASLEEP bits change one by one where a 1 is written, sources 0 and 511 ignore
every write, an arrival at a pending source counts in REPEAT, and the host marks targets 0 to 13, the Warden 14 and 15. Where
the spec leaves a point of it open, the clauses follow the model's choices or readings of log entries 6, 74. -/
def Obligations.InterruptsAreDeliveredAndSet : Prop :=
  (∀ (s : State) (t src : Nat) (k : Fin 16), s.Up → (s.irq.target k.val).req = false →
    irqChoose s.regs s.irq k.val = some src → (s.irq.target k.val).holdoffUntil ≤ max s.clk.now t →
    Runs (.holdoffExpiry t k) s (fun u => (u.irq.target k.val).req = true ∧
      (u.irq.target k.val).runpri = (s.irq.target k.val).runpri ∧
      (k.val < 14 → msixMasked s.regs s.irq k.val = false → u.irq.due = s.irq.due ++ [k.val]) ∧
      (k.val < 14 → msixMasked s.regs s.irq k.val = true → u.irq.due = s.irq.due ∧ k.val ∈ u.irq.pba) ∧
      u.irq.pending = s.irq.pending ∧ (∀ j, j ≠ k.val → u.irq.target j = s.irq.target j) ∧ ChangesOnly [.clk, .irq] s u)) ∧
  (∀ (s : State) (t : Nat) (k : Fin 16), s.Up → ((s.irq.target k.val).req = true ∨ irqChoose s.regs s.irq k.val = none) →
    exec (.holdoffExpiry t k) s = .next (s.tick t)) ∧
  (∀ (s : State) (t : Nat) (k : Fin 16), s.Up → s.irq.due.contains k.val = true → s.suspended = false →
    msixMasked s.regs s.irq k.val = false → Latest s t .message →
    exec (.msixMessage t k) s =
      .next { s.tick t with
                irq := { s.irq with due := s.irq.due.erase k.val },
                out := { s.out with issuedAt := max s.clk.now t, ranks := (s.tick t).issued ++ [4], sent := s.out.sent ++ [.msix k.val
                  ((s.reg (0x1A00 + 16 * k.val)).toNat + 2 ^ 32 * (s.reg (0x1A04 + 16 * k.val)).toNat)
                  (s.reg (0x1A08 + 16 * k.val)).toNat] } }) ∧
  (∀ (s : State) (t : Nat) (k : Fin 16), s.Up → s.suspended = true → exec (.msixMessage t k) s = .next (s.tick t)) ∧
  (∀ (s : State) (t : Nat) (w : Fin 16) (v : Word), s.Up → (s.glb.isSealed = true ∨ importOpen s = false) →
    Runs (.pendSetWrite t w v) s (fun u =>
      (∀ n, n ∈ u.irq.pending ↔ n ∈ s.irq.pending ∨ n ∈ bitmapSources w.val v) ∧
      (∀ n, u.irq.repeatOf n =
        if n ∈ bitmapSources w.val v ∧ n ∈ s.irq.pending then min 15 (s.irq.repeatOf n + 1) else s.irq.repeatOf n) ∧
      u.irq.inService = s.irq.inService ∧ ChangesOnly [.clk, .glb, .irq] s u)) ∧
  (∀ (s : State) (t : Nat) (w : Fin 16) (v : Word), s.Up → (s.glb.isSealed = true ∨ importOpen s = false) →
    Runs (.pendClrWrite t w v) s (fun u =>
      (∀ n, n ∈ u.irq.pending ↔ n ∈ s.irq.pending ∧ n ∉ bitmapSources w.val v) ∧
      (∀ n, u.irq.repeatOf n = s.irq.repeatOf n) ∧ u.irq.inService = s.irq.inService ∧ ChangesOnly [.clk, .glb, .irq] s u)) ∧
  (∀ (w : Nat) (v : Word) (n : Nat), n ∈ bitmapSources w v ↔ n / 32 = w ∧ wbit v (n % 32) = true ∧ n ≠ 0 ∧ n ≠ 511) ∧
  (∀ (s : State) (t : Nat) (k w : Fin 16) (v : Word), s.Up → (s.glb.isSealed = true ∨ importOpen s = false) →
    Runs (.enSetWrite t k w v) s (fun u =>
      u.reg (0x5800 + 0x40 * k.val + 4 * w.val) = s.reg (0x5800 + 0x40 * k.val + 4 * w.val) ||| (v &&& bitmapMask w.val) ∧
      (∀ a, a ≠ 0x5800 + 0x40 * k.val + 4 * w.val → u.reg a = s.reg a) ∧ u.irq.pending = s.irq.pending ∧
      ChangesOnly [.clk, .glb, .regs, .irq] s u)) ∧
  (∀ (s : State) (t : Nat) (k w : Fin 16) (v : Word), s.Up → (s.glb.isSealed = true ∨ importOpen s = false) →
    Runs (.enClrWrite t k w v) s (fun u =>
      u.reg (0x5800 + 0x40 * k.val + 4 * w.val) = s.reg (0x5800 + 0x40 * k.val + 4 * w.val) &&& ~~~ (v &&& bitmapMask w.val) ∧
      (∀ a, a ≠ 0x5800 + 0x40 * k.val + 4 * w.val → u.reg a = s.reg a) ∧ u.irq.pending = s.irq.pending ∧
      ChangesOnly [.clk, .glb, .regs, .irq] s u)) ∧
  (∀ (s : State) (t n : Nat) (b : Bool) (v : Word), s.Up → (s.glb.isSealed = true ∨ importOpen s = false) → n < 16 →
    (n < 14 ↔ b = false) →
    Runs (.idleSetWrite t b v) s (fun u =>
      (n ∈ u.irq.asleep ↔ n ∈ s.irq.asleep ∨ wbit v (16 + n) = true) ∧
      (s.irq.pending = [] → (n ∈ u.irq.idle ↔ n ∈ s.irq.idle ∨ wbit v n = true)) ∧ ChangesOnly [.clk, .glb, .irq] s u)) ∧
  (∀ (s : State) (t n : Nat) (b : Bool) (v : Word), s.Up → (s.glb.isSealed = true ∨ importOpen s = false) → n < 16 →
    (n < 14 ↔ b = false) →
    Runs (.idleClrWrite t b v) s (fun u =>
      (n ∈ u.irq.asleep ↔ n ∈ s.irq.asleep ∧ wbit v (16 + n) = false) ∧ (wbit v n = true → n ∉ u.irq.idle) ∧
      ChangesOnly [.clk, .glb, .irq] s u))

/-- Claims (R389, R390, R396, R604): the chosen source leaves pending and is in service on the target, whose RUNPRI becomes its
priority, and the claim word is read; with nothing presentable the read gives 511 after a delivery and 0 without one, and REQ
clears; targets 14 and 15 answer the host with 0. Completions (R391, R392, R396): the latest claim of the target exits service
and RUNPRI returns to what it was; another source number is counted in BADCOMP; 0 and 511 do nothing. Where the spec leaves a
point of it open, the clauses follow the model's choices or readings of log entries 62, 74. -/
def Obligations.ClaimsAndCompletions : Prop :=
  (∀ (s : State) (t src : Nat) (k : Fin 16) (b : Bool), s.Up → (k.val < 14 ↔ b = false) →
    irqChoose s.regs s.irq k.val = some src →
    Runs (.irqClaim t k b) s (fun u => u.out.rdata = [claimWord s.regs s.irq src] ∧ u.irq.pending = s.irq.pending.erase src ∧
      u.irq.holder src = some k.val ∧ u.irq.repeatOf src = 0 ∧ (u.irq.target k.val).runpri = irqPrio s.regs src ∧
      (u.irq.target k.val).stack = ((s.irq.target k.val).runpri, src) :: (s.irq.target k.val).stack ∧
      ChangesOnly [.clk, .out, .irq] s u)) ∧
  (∀ (s : State) (t : Nat) (k : Fin 16) (b : Bool), s.Up → (k.val < 14 ↔ b = false) → irqChoose s.regs s.irq k.val = none →
    Runs (.irqClaim t k b) s (fun u =>
      u.out.rdata = [if (s.irq.target k.val).req = true ∧ s.rf 4 1 0 ≠ 1 then 511 else 0] ∧
      (u.irq.target k.val).req = false ∧ (u.irq.target k.val).runpri = (s.irq.target k.val).runpri ∧
      u.irq.pending = s.irq.pending ∧ u.irq.inService = s.irq.inService ∧ ChangesOnly [.clk, .out, .irq] s u)) ∧
  (∀ (s : State) (t : Nat) (k : Fin 16), s.Up → 14 ≤ k.val →
    exec (.irqClaim t k false) s = .next { s.tick t with out := { s.out with rdata := [0] } }) ∧
  (∀ (s : State) (t p : Nat) (k : Fin 16) (v : Word) (rest : List (Nat × Nat)), s.Up →
    (s.glb.isSealed = true ∨ importOpen s = false) → k.val < 14 → fld v 8 0 ≠ 0 → fld v 8 0 ≠ 511 →
    s.irq.holder (fld v 8 0) = some k.val → (s.irq.target k.val).stack = (p, fld v 8 0) :: rest →
    Runs (.irqComplete t k false v) s (fun u => (u.irq.target k.val).runpri = p ∧ (u.irq.target k.val).stack = rest ∧
      u.irq.holder (fld v 8 0) = none ∧ (∀ n, n ≠ fld v 8 0 → u.irq.holder n = s.irq.holder n) ∧
      u.irq.pending = s.irq.pending ∧ ChangesOnly [.clk, .glb, .irq] s u)) ∧
  (∀ (s : State) (t : Nat) (k : Fin 16) (v : Word), s.Up → (s.glb.isSealed = true ∨ importOpen s = false) → k.val < 14 →
    fld v 8 0 ≠ 0 → fld v 8 0 ≠ 511 → irqAccepts s.irq k.val (fld v 8 0) = false →
    Runs (.irqComplete t k false v) s (fun u =>
      u.irq.target k.val = { s.irq.target k.val with badcomp := min 255 ((s.irq.target k.val).badcomp + 1) } ∧
      (∀ j, j ≠ k.val → u.irq.target j = s.irq.target j) ∧ u.irq.pending = s.irq.pending ∧ u.irq.inService = s.irq.inService ∧
      u.glb = { s.glb with first := false } ∧ ChangesOnly [.clk, .glb, .irq] s u)) ∧
  (∀ (s : State) (t : Nat) (k : Fin 16) (v : Word), s.Up → (s.glb.isSealed = true ∨ importOpen s = false) →
    (14 ≤ k.val ∨ fld v 8 0 = 0 ∨ fld v 8 0 = 511) →
    Runs (.irqComplete t k false v) s (fun u => u.irq.targets = s.irq.targets ∧ u.irq.pending = s.irq.pending ∧
      u.irq.inService = s.irq.inService ∧ u.glb = { s.glb with first := false } ∧ ChangesOnly [.clk, .glb, .irq] s u))

/-- What every engine cycle leaves (R422, R423): an executed word takes the pending injection away, starts its delay, and moves
the PC on: to ADDR by a GOTO whose condition holds, not at all by another injected word, to TARGET at TOP, else by one; a
stalled word leaves PC, SR, V, LIM, L and the queues; an idle cycle counts the delay down. GOTO, AWAIT, LOAD, MOVE, FLAG and
ADJUST (tables *Branch conditions*, *Await kinds*, R409, R417, R420): what each leaves in its engine; an AWAIT whose condition
does not hold stalls; a raise asserts the engine's source. Where the spec leaves a point of it open, the clauses follow the
model's choices or readings of log entries 74, 75. -/
def Obligations.EnginesRunAndBranch : Prop :=
  (∀ (s : State) (e w : Nat) (g h : Engine), (afterExec s e g w h).inj = none ∧ (afterExec s e g w h).delay = ifld w 19 15 ∧
    (afterExec s e g w h).cycle = g.cycle + 1 ∧ (afterExec s e g w h).v = h.v ∧ (afterExec s e g w h).sr = h.sr ∧
    (afterExec s e g w h).sc = h.sc ∧ (afterExec s e g w h).l = h.l ∧ (afterExec s e g w h).lim = h.lim ∧
    (afterExec s e g w h).outq = h.outq ∧ (afterExec s e g w h).inq = h.inq ∧
    (afterExec s e g w h).span = min 0xFFFFFFFF (h.span + 1) ∧
    (jumps s e g w = true → (afterExec s e g w h).pc = ifld w 5 0) ∧
    (jumps s e g w = false → g.inj ≠ none → (afterExec s e g w h).pc = h.pc) ∧
    (jumps s e g w = false → g.inj = none → g.pc ≠ g.actTop → (afterExec s e g w h).pc = (g.pc + 1) % 64) ∧
    (jumps s e g w = false → g.inj = none → g.pc = g.actTop → g.wrapPend = true →
      (afterExec s e g w h).pc = s.rf (A.eng e + 0x10) 5 0) ∧
    (jumps s e g w = false → g.inj = none → g.pc = g.actTop → g.wrapPend = false → (afterExec s e g w h).pc = h.actTarget)) ∧
  (∀ (s : State) (e w : Nat) (g : Engine), (afterStall s e g w).pc = g.pc ∧ (afterStall s e g w).sr = g.sr ∧
    (afterStall s e g w).sc = g.sc ∧ (afterStall s e g w).v = g.v ∧ (afterStall s e g w).l = g.l ∧ (afterStall s e g w).lim = g.lim ∧
    (afterStall s e g w).inj = g.inj ∧ (afterStall s e g w).outq = g.outq ∧ (afterStall s e g w).inq = g.inq ∧
    (afterStall s e g w).cycle = g.cycle + 1 ∧ (afterStall s e g w).st = .stall) ∧
  (∀ (s : State) (t : Nat) (e : Fin 16), s.Up → voterStopped s 40 = false → cycleDue (s.tick t) e.val = true →
    ReelInPlace s t e.val → 0 < (s.reel.eng e.val).delay →
    Runs (.reelDelayCycle t e) s (fun u => (u.reel.eng e.val).delay = (s.reel.eng e.val).delay - 1 ∧
      (u.reel.eng e.val).cycle = (s.reel.eng e.val).cycle + 1 ∧ (u.reel.eng e.val).pc = (s.reel.eng e.val).pc ∧
      (∀ f, f ≠ e.val → u.reel.eng f = s.reel.eng f) ∧ u.reel.pins = s.reel.pins ∧ ChangesOnly [.clk, .reel] s u)) ∧
  (∀ (s : State) (t : Nat) (e : Fin 16), ReelFetches s t e.val 0 → ReelInPlace s t e.val →
    exec (.goto t e) s = .next (s.reelRan t e.val (s.reel.eng e.val))) ∧
  (∀ (s : State) (t : Nat) (e : Fin 16), ReelFetches s t e.val 1 → ReelInPlace s t e.val → awaitDone s e.val (s.reel.eng e.val) (fetchWord s e.val) = true →
    exec (.await t e) s = .next (s.reelRan t e.val (s.reel.eng e.val))) ∧
  (∀ (s : State) (t : Nat) (e : Fin 16), ReelFetches s t e.val 1 → ReelInPlace s t e.val → awaitDone s e.val (s.reel.eng e.val) (fetchWord s e.val) = false →
    exec (.await t e) s = .next (s.reelStalled t e.val)) ∧
  (∀ (s : State) (t : Nat) (e : Fin 16), ReelFetches s t e.val 8 → ReelInPlace s t e.val →
    (ifld (fetchWord s e.val) 13 12 = 0 → exec (.load t e) s = .next (s.reelRan t e.val
      { s.reel.eng e.val with v := ofNat32 (ifld (fetchWord s e.val) 11 0) })) ∧
    (ifld (fetchWord s e.val) 13 12 = 1 → exec (.load t e) s = .next (s.reelRan t e.val
      { s.reel.eng e.val with v := ofNat32 ((s.reel.eng e.val).v.toNat * 4096 + ifld (fetchWord s e.val) 11 0) })) ∧
    (ifld (fetchWord s e.val) 13 12 = 2 → exec (.load t e) s = .next (s.reelRan t e.val
      { s.reel.eng e.val with lim := ifld (fetchWord s e.val) 11 0 })) ∧
    (ifld (fetchWord s e.val) 13 12 = 3 → exec (.load t e) s = .next (s.reelRan t e.val
      { s.reel.eng e.val with l := ifld (fetchWord s e.val) 11 0 }))) ∧
  (∀ (s : State) (t : Nat) (e : Fin 16), ReelFetches s t e.val 9 → ReelInPlace s t e.val → ifld (fetchWord s e.val) 2 0 ≠ 2 →
    (ifld (fetchWord s e.val) 10 8 = 0 → exec (.move t e) s = .next (s.reelRan t e.val
      { s.reel.eng e.val with v := moveSource s e.val (s.reel.eng e.val) (ifld (fetchWord s e.val) 2 0) })) ∧
    (ifld (fetchWord s e.val) 10 8 = 1 → exec (.move t e) s = .next (s.reelRan t e.val
      { s.reel.eng e.val with sr := moveSource s e.val (s.reel.eng e.val) (ifld (fetchWord s e.val) 2 0), sc := reelSymW s e.val })) ∧
    (ifld (fetchWord s e.val) 10 8 = 2 → exec (.move t e) s = .next (s.reelRan t e.val
      { s.reel.eng e.val with lim := (moveSource s e.val (s.reel.eng e.val) (ifld (fetchWord s e.val) 2 0)).toNat % 65536 })) ∧
    (ifld (fetchWord s e.val) 10 8 = 3 → exec (.move t e) s = .next (s.reelRan t e.val
      { s.reel.eng e.val with l := (moveSource s e.val (s.reel.eng e.val) (ifld (fetchWord s e.val) 2 0)).toNat % 65536 }))) ∧
  (∀ (s : State) (t : Nat) (e : Fin 16), ReelFetches s t e.val 10 → ReelInPlace s t e.val →
    (ifld (fetchWord s e.val) 6 5 = 0 → exec (.flag t e) s =
      .next { s.reelRan t e.val (s.reel.eng e.val) with
                reel := { (s.reelRan t e.val (s.reel.eng e.val)).reel with
                            flags := insertNat (ifld (fetchWord s e.val) 3 0) s.reel.flags } }) ∧
    (ifld (fetchWord s e.val) 6 5 = 1 → Runs (.flag t e) s (fun u =>
      (∀ i, i ∈ u.reel.flags ↔ i ∈ s.reel.flags ∧ i ≠ ifld (fetchWord s e.val) 3 0) ∧ u.reel.pins = s.reel.pins)) ∧
    (ifld (fetchWord s e.val) 6 5 = 2 → exec (.flag t e) s =
      .next ((s.reelRan t e.val { s.reel.eng e.val with lastRaise := ifld (fetchWord s e.val) 3 0 }).arrive (352 + e.val)))) ∧
  (∀ (s : State) (t : Nat) (e : Fin 16), ReelFetches s t e.val 11 → ReelInPlace s t e.val →
    (ifld (fetchWord s e.val) 13 12 = 0 → exec (.adjust t e) s = .next (s.reelRan t e.val
      { s.reel.eng e.val with l := ((s.reel.eng e.val).l + 65535) % 65536 })) ∧
    (ifld (fetchWord s e.val) 13 12 = 1 → exec (.adjust t e) s = .next (s.reelRan t e.val
      { s.reel.eng e.val with v := (s.reel.eng e.val).v + ofNat32 (ifld (fetchWord s e.val) 11 0) })) ∧
    (ifld (fetchWord s e.val) 13 12 = 2 → exec (.adjust t e) s = .next (s.reelRan t e.val
      { s.reel.eng e.val with v := (s.reel.eng e.val).v - ofNat32 (ifld (fetchWord s e.val) 11 0) })))

/-- BITIN, BITOUT, GROUP, FILL, DRAIN and DRIVE (R414, R416, R418 to R422): one bit in or out by the shift order, the deposit of a
full symbol and the refill of an empty SR, the stall of each on a full or empty queue, an empty group without effect, and a
pin driven only by its owner, at the edge that begins the next cycle. Where the spec leaves a point of it open, the clauses
follow the model's choices or readings of log entries 74, 75. -/
def Obligations.ShiftAndPinInstructions : Prop :=
  (∀ (s : State) (t : Nat) (e : Fin 16) (b : Bool), ReelFetches s t e.val 2 → ReelInPlace s t e.val →
    readPin s e.val (s.reel.eng e.val) (ifld (fetchWord s e.val) 4 0) = b →
    ((reelDeposit s e.val = false ∨ min 32 ((s.reel.eng e.val).sc + 1) < reelSymW s e.val) →
      exec (.bitin t e) s = .next (s.reelRan t e.val
        { s.reel.eng e.val with sr := shiftIn s e.val (s.reel.eng e.val).sr b, sc := min 32 ((s.reel.eng e.val).sc + 1) })) ∧
    (reelDeposit s e.val = true → reelSymW s e.val ≤ min 32 ((s.reel.eng e.val).sc + 1) →
      (s.reel.eng e.val).inq.length < reelInCap s e.val →
      exec (.bitin t e) s = .next (s.reelRan t e.val
        { s.reel.eng e.val with sr := 0, sc := 0,
                                inq := (s.reel.eng e.val).inq ++ [(shiftIn s e.val (s.reel.eng e.val).sr b, false)] })) ∧
    (reelDeposit s e.val = true → reelSymW s e.val ≤ min 32 ((s.reel.eng e.val).sc + 1) →
      reelInCap s e.val ≤ (s.reel.eng e.val).inq.length →
      exec (.bitin t e) s = .next (s.reelStalled t e.val))) ∧
  (∀ (s : State) (t : Nat) (e : Fin 16), ReelFetches s t e.val 3 → ReelInPlace s t e.val → (reelRefill s e.val = false ∨ (s.reel.eng e.val).sc ≠ 0) →
    Runs (.bitout t e) s (fun u => (u.reel.eng e.val).sr = shiftOut s e.val (s.reel.eng e.val).sr ∧
      (u.reel.eng e.val).sc = (s.reel.eng e.val).sc - 1 ∧ (u.reel.eng e.val).outq = (s.reel.eng e.val).outq ∧
      (reelOwns s e.val (ifld (fetchWord s e.val) 4 0) = true →
        u.reel.pin (ifld (fetchWord s e.val) 4 0) = { s.reel.pin (ifld (fetchWord s e.val) 4 0) with
          outLevel := outBit s e.val (s.reel.eng e.val).sr, isOut := true, outAt := nextCycleTick s e.val (s.reel.eng e.val) }) ∧
      (reelOwns s e.val (ifld (fetchWord s e.val) 4 0) = false → u.reel.pins = s.reel.pins))) ∧
  (∀ (s : State) (t : Nat) (e : Fin 16), ReelFetches s t e.val 3 → ReelInPlace s t e.val → reelRefill s e.val = true → (s.reel.eng e.val).sc = 0 →
    (s.reel.eng e.val).outq = [] → exec (.bitout t e) s = .next (s.reelStalled t e.val)) ∧
  (∀ (s : State) (t : Nat) (e : Fin 16), ReelFetches s t e.val 4 → ReelInPlace s t e.val → reelGroup s e.val = [] →
    exec (.group t e) s = .next (s.reelRan t e.val (s.reel.eng e.val))) ∧
  (∀ (s : State) (t : Nat) (e : Fin 16), ReelFetches s t e.val 4 → ReelInPlace s t e.val → reelGroup s e.val ≠ [] → ifld (fetchWord s e.val) 14 14 = 0 →
    reelDeposit s e.val = false →
    exec (.group t e) s = .next (s.reelRan t e.val
      { s.reel.eng e.val with
          sr := ofNat32 ((s.reel.eng e.val).sr.toNat * 2 ^ (reelGroup s e.val).length + groupValue s e.val (s.reel.eng e.val)),
          sc := min 32 ((s.reel.eng e.val).sc + (reelGroup s e.val).length) })) ∧
  (∀ (s : State) (t : Nat) (e : Fin 16), ReelFetches s t e.val 4 → ReelInPlace s t e.val → reelGroup s e.val ≠ [] → ifld (fetchWord s e.val) 14 14 = 1 →
    reelRefill s e.val = false →
    Runs (.group t e) s (fun u =>
      (u.reel.eng e.val).sr = ofNat32 ((s.reel.eng e.val).sr.toNat / 2 ^ (reelGroup s e.val).length) ∧
      (u.reel.eng e.val).sc = (s.reel.eng e.val).sc - (reelGroup s e.val).length ∧
      ∀ p, (p ∉ reelGroup s e.val ∨ reelOwns s e.val p = false) → u.reel.pin p = s.reel.pin p)) ∧
  (∀ (s : State) (t : Nat) (e : Fin 16) (x : Word) (rest : List Word), ReelFetches s t e.val 5 → ReelInPlace s t e.val →
    (s.reel.eng e.val).outq = x :: rest →
    exec (.fill t e) s = .next (s.reelRan t e.val { s.reel.eng e.val with sr := x, sc := reelSymW s e.val, outq := rest })) ∧
  (∀ (s : State) (t : Nat) (e : Fin 16), ReelFetches s t e.val 5 → ReelInPlace s t e.val → (s.reel.eng e.val).outq = [] →
    exec (.fill t e) s = .next (if ifld (fetchWord s e.val) 4 4 = 1 then s.reelStalled t e.val
                                else s.reelRan t e.val (s.reel.eng e.val))) ∧
  (∀ (s : State) (t : Nat) (e : Fin 16), ReelFetches s t e.val 6 → ReelInPlace s t e.val → (s.reel.eng e.val).inq.length < reelInCap s e.val →
    exec (.drain t e) s = .next (s.reelRan t e.val
      { s.reel.eng e.val with sr := 0, sc := 0,
                              inq := (s.reel.eng e.val).inq ++ [((s.reel.eng e.val).sr, ifld (fetchWord s e.val) 5 5 == 1)] })) ∧
  (∀ (s : State) (t : Nat) (e : Fin 16), ReelFetches s t e.val 6 → ReelInPlace s t e.val → reelInCap s e.val ≤ (s.reel.eng e.val).inq.length →
    exec (.drain t e) s = .next (if ifld (fetchWord s e.val) 4 4 = 1 then s.reelStalled t e.val
      else s.reelRan t e.val
        { s.reel.eng e.val with sr := 0, sc := 0, rxDrop := min 65535 ((s.reel.eng e.val).rxDrop + 1) })) ∧
  (∀ (s : State) (t : Nat) (e : Fin 16) (b : Bool), ReelFetches s t e.val 7 → ReelInPlace s t e.val → ifld (fetchWord s e.val) 12 12 = 0 →
    reelOwns s e.val (ifld (fetchWord s e.val) 4 0) = true → ifld (fetchWord s e.val) 14 13 = (if b then 1 else 0) →
    Runs (.drive t e) s (fun u => u.reel.pin (ifld (fetchWord s e.val) 4 0) = { s.reel.pin (ifld (fetchWord s e.val) 4 0) with
        outLevel := b, isOut := true, outAt := nextCycleTick s e.val (s.reel.eng e.val) } ∧
      (∀ p, p ≠ ifld (fetchWord s e.val) 4 0 → u.reel.pin p = s.reel.pin p) ∧ u.reel.flags = s.reel.flags)) ∧
  (∀ (s : State) (t : Nat) (e : Fin 16), ReelFetches s t e.val 7 → ReelInPlace s t e.val → ifld (fetchWord s e.val) 12 12 = 0 →
    reelOwns s e.val (ifld (fetchWord s e.val) 4 0) = false →
    exec (.drive t e) s = .next (s.reelRan t e.val (s.reel.eng e.val)))

/-- Engines start, stop and restart by register writes before the seal (R426 to R430): EN from 0 to 1 starts an engine that is not
held, and only sets EN under the hold; EN = 0 stops it; RESTART acts on a running engine; a pending wrap pair, flags and the
two queues are written; a pin level is taken once it has held for the filter time (R413). Where the spec leaves a point of it
open, the clauses follow the model's choices or readings of log entries 74, 75. -/
def Obligations.EnginesAreControlledByRegisters : Prop :=
  (∀ (s : State) (t : Nat) (e : Fin 16), s.Open → reelEn s e.val = false → s.reel.held = false →
    Runs (.reelEnable t e) s (fun u => reelEn u e.val = true ∧ (u.reel.eng e.val).st = .run ∧
      (u.reel.eng e.val).pc = reelStartAddr s e.val ∧ (u.reel.eng e.val).v = 0 ∧ (u.reel.eng e.val).sr = 0 ∧
      (u.reel.eng e.val).l = 0 ∧ (u.reel.eng e.val).lim = 0 ∧ (u.reel.eng e.val).sc = 0 ∧ (u.reel.eng e.val).delay = 0 ∧
      (u.reel.eng e.val).inj = none ∧ (u.reel.eng e.val).cycle = 0 ∧ (∀ f, f ≠ e.val → u.reel.eng f = s.reel.eng f) ∧
      u.reel.pins = s.reel.pins)) ∧
  (∀ (s : State) (t : Nat) (e : Fin 16), s.Open → reelEn s e.val = false → s.reel.held = true →
    Runs (.reelEnable t e) s (fun u => reelEn u e.val = true ∧
      u.reel = { s.reel with cycAt := u.clk.now, cycRank := 0 })) ∧
  (∀ (s : State) (t : Nat) (e : Fin 16), s.Open → reelEn s e.val = true →
    Runs (.reelDisable t e) s (fun u => reelEn u e.val = false ∧
      u.reel.eng e.val = { s.reel.eng e.val with st := .disabled, delay := 0, inj := none, await := none } ∧
      (∀ f, f ≠ e.val → u.reel.eng f = s.reel.eng f) ∧ u.reel.pins = s.reel.pins)) ∧
  (∀ (s : State) (t : Nat) (e : Fin 16), s.Open → (s.reel.eng e.val).st ≠ .disabled →
    Runs (.reelRestart t e) s (fun u => (u.reel.eng e.val).pc = reelStartAddr s e.val ∧ (u.reel.eng e.val).sr = 0 ∧
      (u.reel.eng e.val).sc = 0 ∧ (u.reel.eng e.val).delay = 0 ∧ (u.reel.eng e.val).inj = none ∧
      (u.reel.eng e.val).v = (s.reel.eng e.val).v ∧ (u.reel.eng e.val).l = (s.reel.eng e.val).l ∧
      (u.reel.eng e.val).lim = (s.reel.eng e.val).lim ∧ (u.reel.eng e.val).span = (s.reel.eng e.val).span ∧
      (u.reel.eng e.val).outq = (s.reel.eng e.val).outq ∧ (u.reel.eng e.val).inq = (s.reel.eng e.val).inq ∧
      (u.reel.eng e.val).cycle = (s.reel.eng e.val).cycle)) ∧
  (∀ (s : State) (t : Nat) (e : Fin 16), s.Open →
    Runs (.reelFlushIn t e) s (fun u => u.reel.eng e.val = { s.reel.eng e.val with inq := [] } ∧ u.reel.pins = s.reel.pins) ∧
    Runs (.reelFlushOut t e) s (fun u => u.reel.eng e.val = { s.reel.eng e.val with outq := [] } ∧ u.reel.pins = s.reel.pins)) ∧
  (∀ (s : State) (t : Nat) (e : Fin 16) (v : Word), s.Open → reelOutRoom s e.val ≠ 0 →
    Runs (.reelTxWrite t e v) s (fun u => u.reel.eng e.val = { s.reel.eng e.val with outq := (s.reel.eng e.val).outq ++ [v] })) ∧
  (∀ (s : State) (t : Nat) (e : Fin 16) (v : Word), s.Open → reelOutRoom s e.val = 0 →
    Runs (.reelTxWrite t e v) s (fun u => u.reel.eng e.val =
      { s.reel.eng e.val with txDrop := min 65535 ((s.reel.eng e.val).txDrop + 1) })) ∧
  (∀ (s : State) (t : Nat) (e : Fin 16) (w : Word) (b : Bool) (rest : List (Word × Bool)), s.Up → reelRegMode s e.val = true →
    (s.reel.eng e.val).inq = (w, b) :: rest →
    Runs (.reelRxRead t e) s (fun u => u.out.rdata = [w] ∧ u.reel.eng e.val = { s.reel.eng e.val with inq := rest } ∧
      ChangesOnly [.clk, .out, .reel] s u)) ∧
  (∀ (s : State) (t : Nat) (e : Fin 16), s.Up → (s.reel.eng e.val).inq = [] →
    exec (.reelRxRead t e) s = .next { s.tick t with out := { s.out with rdata := [0] } }) ∧
  (∀ (s : State) (t : Nat) (e : Fin 16) (v : Word), s.Open → reelWordGood v.toNat = true → reelEn s e.val = true →
    Runs (.reelInjectWrite t e v) s (fun u => u.reel.eng e.val = { s.reel.eng e.val with inj := some v.toNat })) ∧
  (∀ (s : State) (t : Nat) (e : Fin 16) (v : Word), s.Open →
    Runs (.reelWrapWrite t e v) s (fun u => u.rf (A.eng e.val + 0x10) 13 8 = fld v 13 8 ∧
      u.rf (A.eng e.val + 0x10) 5 0 = fld v 5 0 ∧ u.reel.eng e.val = { s.reel.eng e.val with wrapPend := true })) ∧
  (∀ (s : State) (t : Nat) (v : Word), s.Open →
    Runs (.reelFlagsSetWrite t v) s (fun u =>
      (∀ i, i ∈ u.reel.flags ↔ i ∈ s.reel.flags ∨ (i < 16 ∧ wbit v i = true)) ∧ u.reel.engines = s.reel.engines) ∧
    Runs (.reelFlagsClrWrite t v) s (fun u =>
      (∀ i, i ∈ u.reel.flags ↔ i ∈ s.reel.flags ∧ ¬ (i < 16 ∧ wbit v i = true)) ∧ u.reel.engines = s.reel.engines)) ∧
  (∀ (s : State) (t ts : Nat) (p : Fin 32) (b : Bool), s.Up → (s.reel.pin p.val).level ≠ b →
    ts + 16 * s.rf (A.pin p.val) 11 8 ≤ max s.clk.now t →
    Runs (.rpPinChange t p ⟨ts, b⟩) s (fun u =>
      u.reel.pin p.val = { s.reel.pin p.val with
        prev := (s.reel.pin p.val).level, level := b, changed := ts + 16 * s.rf (A.pin p.val) 11 8 } ∧
      (∀ q, q ≠ p.val → u.reel.pin q = s.reel.pin q) ∧ u.reel.engines = s.reel.engines ∧ ChangesOnly [.clk, .reel, .wins] s u)) ∧
  (∀ (s : State) (t ts : Nat) (p : Fin 32) (b : Bool), s.Up → max s.clk.now t < ts + 16 * s.rf (A.pin p.val) 11 8 →
    exec (.rpPinChange t p ⟨ts, b⟩) s = .next (s.tick t))

/-- Reel commands of the rings and instruction memory (R424 to R434): good words are written in one cycle and a bad one refuses
the whole command, BAR2 discards and counts it; the wrap pair, the injection, OUT entries and flags; ENABLE and DISABLE in one
control command are refused; an IN entry in CELL mode leaves the engine. Where the spec leaves a point of it open, the clauses
follow the model's choices or readings of log entries 74, 75. -/
def Obligations.EnginesAreControlledByCommands : Prop :=
  (∀ (s : State) (t a : Nat) (v : BitVec 64), s.Open → 0x84000 ≤ a → a < 0x85000 → a % 4 = 0 → reelWordGood (lo32 v.toNat).toNat = true →
    Runs (.reelImemBar2Write t a 4 v) s (fun u => u.word a = lo32 v.toNat ∧ (∀ b, ¬ (a ≤ b ∧ b < a + 4) → u.byte b = s.byte b) ∧
      u.reel = { s.reel with cycAt := u.clk.now, cycRank := 0 } ∧ u.glb = { s.glb with first := false, digestDue := true })) ∧
  (∀ (s : State) (t a : Nat) (v : BitVec 64), s.Open → 0x84000 ≤ a → a < 0x85000 → a % 4 = 0 → reelWordGood (lo32 v.toNat).toNat = false →
    Runs (.reelImemBar2Write t a 4 v) s (fun u => u.mem = s.mem ∧
      (u.reel.eng ((a - 0x84000) / 0x100)).imemDisc = min 65535 ((s.reel.eng ((a - 0x84000) / 0x100)).imemDisc + 1))) ∧
  (∀ (s : State) (t : Nat) (r : Fin 64) (c : Fetched), Takes s r.val 0x60 c → fld (c.w 2) 13 8 + (reelWords c).length ≤ 64 →
    (reelWords c).all (fun w => reelWordGood w.toNat) = true →
    Applies (.reelImemWrite t r) s r.val c {} (fun u =>
      (∀ i, i < (reelWords c).length →
        u.word (0x84000 + 0x100 * fld (c.w 2) 3 0 + 4 * (fld (c.w 2) 13 8 + i)) = wordAt (reelWords c) i) ∧
      u.glb.digestDue = true ∧ u.reel = { s.reel with cycAt := u.clk.now, cycRank := 0 } ∧ ChangesOnly [.clk, .glb, .mem, .reel] s u)) ∧
  (∀ (s : State) (t : Nat) (r : Fin 64) (c : Fetched), Takes s r.val 0x60 c → fld (c.w 2) 13 8 + (reelWords c).length ≤ 64 →
    (reelWords c).all (fun w => reelWordGood w.toNat) = false →
    ∃ i, i < (reelWords c).length ∧ exec (.reelImemWrite t r) s = .next (finish ((s.tick t).reelTurn 0) r.val c { cstat := 1, r0 := ofNat32 i })) ∧
  (∀ (s : State) (t : Nat) (r : Fin 64) (c : Fetched), Takes s r.val 0x61 c →
    ∃ y : Reply, y.cstat = 0 ∧ y.hstat = 0 ∧ Applies (.reelWrap t r) s r.val c y (fun u =>
      u.rf (A.eng (fld (c.w 2) 3 0) + 0x10) 13 8 = fld (c.w 2) 21 16 ∧
      u.rf (A.eng (fld (c.w 2) 3 0) + 0x10) 5 0 = fld (c.w 2) 13 8 ∧
      u.reel.eng (fld (c.w 2) 3 0) = { s.reel.eng (fld (c.w 2) 3 0) with wrapPend := true })) ∧
  (∀ (s : State) (t : Nat) (r : Fin 64) (c : Fetched), Takes s r.val 0x62 c → wbit (c.w 3) 0 = true → wbit (c.w 3) 1 = true →
    exec (.reelControl t r) s = .next (finish ((s.tick t).reelTurn 0) r.val c { cstat := 1, r0 := ofNat32 (reelRunning s) })) ∧
  (∀ (s : State) (t e : Nat) (r : Fin 64) (c : Fetched), Takes s r.val 0x62 c → wbit (c.w 3) 0 = false → wbit (c.w 3) 1 = true →
    e < 16 → wbit (c.w 2) e = true →
    ∃ y : Reply, y.cstat = 0 ∧ y.hstat = 0 ∧ Applies (.reelControl t r) s r.val c y (fun u => reelEn u e = false ∧
      (u.reel.eng e).st = .disabled ∧ (∀ f, f < 16 → wbit (c.w 2) f = false → u.reel.eng f = s.reel.eng f ∧ reelEn u f = reelEn s f))) ∧
  (∀ (s : State) (t : Nat) (r : Fin 64) (c : Fetched), Takes s r.val 0x63 c → reelWordGood (c.w 3).toNat = true →
    (s.reel.eng (fld (c.w 2) 3 0)).inj = none → reelCode s (fld (c.w 2) 3 0) ≠ 0 →
    Applies (.reelInject t r) s r.val c { r0 := ofNat32 (s.reel.eng (fld (c.w 2) 3 0)).pc } (fun u =>
      u.reel.eng (fld (c.w 2) 3 0) = { s.reel.eng (fld (c.w 2) 3 0) with inj := some (c.w 3).toNat } ∧ ChangesOnly [.clk, .reel] s u)) ∧
  (∀ (s : State) (t : Nat) (r : Fin 64) (c : Fetched), Takes s r.val 0x64 c →
    (reelWords c).length ≤ reelOutRoom s (fld (c.w 2) 3 0) →
    ∃ y : Reply, y.cstat = 0 ∧ y.hstat = 0 ∧ Applies (.reelWrite t r) s r.val c y (fun u =>
      u.reel.eng (fld (c.w 2) 3 0) = { s.reel.eng (fld (c.w 2) 3 0) with
        outq := (s.reel.eng (fld (c.w 2) 3 0)).outq ++ reelWords c } ∧ ChangesOnly [.clk, .reel] s u)) ∧
  (∀ (s : State) (t : Nat) (r : Fin 64) (c : Fetched), Takes s r.val 0x65 c →
    ∃ y : Reply, y.cstat = 0 ∧ y.hstat = 0 ∧ Applies (.reelFlag t r) s r.val c y (fun u =>
      (∀ i, i ∈ u.reel.flags ↔ (i < 16 ∧ wbit (c.w 2) i = true) ∨ (i ∈ s.reel.flags ∧ ¬ (i < 16 ∧ wbit (c.w 3) i = true))) ∧
      u.reel.engines = s.reel.engines ∧ ChangesOnly [.clk, .reel] s u)) ∧
  (∀ (s : State) (t : Nat) (e : Fin 16) (w : Word) (b : Bool) (rest : List (Word × Bool)), s.Up → voterStopped s 40 = false →
    reelRegMode s e.val = false → (s.reel.eng e.val).inq = (w, b) :: rest →
    Runs (.reelInTransfer t e) s (fun u => u.reel.eng e.val = { s.reel.eng e.val with inq := rest, inAt := some u.clk.now } ∧
      (qFor s 2 e.val = none → u.reg 0x9020 = ofNat32 (min 0xFFFFFFFF ((s.reg 0x9020).toNat + 1)))))

/-- A fence (R445 to R447, R452, R453): LOCKSTEP_MISMATCH, HEARTBEAT_TIMEOUT and REGION_TAKEOVER on a SERVING unit of role n make
it FAILED and raise the epochs of the role's banks. With the spare SPARE, role n COVERED and every other role served, a
takeover of role n follows; without the copy its banks take their safe state; with the spare itself SERVING the chip becomes
safe. Where the spec leaves a point of it open, the clauses follow the model's choices or readings of log entry 54. -/
def Obligations.FencesBringATakeoverOrASafeState : Prop :=
  (∀ (s : State) (t n : Nat) (u : Fin 5), s.Up → s.glb.chipSafe = false → unitRole s u.val = n → n < 4 → unitState s u.val = 0 →
    (∀ m, m < 5 → m ≠ n → roleUnit s m ≠ u.val) → takeoverOk s n = true → s.wdn.takeover = none →
    Runs (.lockstepMismatch t u) s (fun v => unitState v u.val = 2 ∧ v.glb.chipSafe = false ∧
      (∀ b, b ∈ banksOf n → (v.bank b).epoch = ((s.bank b).epoch + 1) % 65536) ∧ (v.refl n).covered = false ∧
      v.wdn.takeover.map (fun x => (x.role, x.unit, x.step, x.at_, x.lend)) = some (n, u.val, 0, max s.clk.now t, false))) ∧
  (∀ (s : State) (t n : Nat) (u : Fin 5), s.Up → s.glb.chipSafe = false → unitRole s u.val = n → n < 4 → unitState s u.val = 0 →
    (∀ m, m < 5 → m ≠ n → roleUnit s m ≠ u.val) → takeoverOk s n = true → s.wdn.takeover = none → s.fw.restart = none →
    (s.unit u.val).beatAt + s.rf 0x300C 11 8 * (400 * s.rf 0x300C 7 0) ≤ max s.clk.now t →
    Runs (.heartbeatTimeout t u) s (fun v => unitState v u.val = 2 ∧
      v.wdn.takeover.map (fun x => (x.role, x.unit, x.step, x.at_, x.lend)) = some (n, u.val, 0, max s.clk.now t, false))) ∧
  (∀ (s : State) (t : Nat) (r : Fin 64) (c : Fetched), Takes s r.val 0x40 c → unitState s (roleUnit s (fld (c.w 2) 1 0)) = 0 →
    (∀ m, m < 5 → m ≠ fld (c.w 2) 1 0 → roleUnit s m ≠ roleUnit s (fld (c.w 2) 1 0)) →
    takeoverOk s (fld (c.w 2) 1 0) = true → s.wdn.takeover = none →
    ∃ y : Reply, y.cstat = 0 ∧ y.hstat = 0 ∧ Applies (.regionTakeover t r) s r.val c y (fun v => y.r0 = v.reg 0x3008 ∧
      unitState v (roleUnit s (fld (c.w 2) 1 0)) = 2 ∧
      v.wdn.takeover.map (fun x => (x.role, x.step)) = some (fld (c.w 2) 1 0, 0))) ∧
  (∀ (s : State) (t : Nat) (r : Fin 64) (c : Fetched), Takes s r.val 0x40 c → roleServed s (fld (c.w 2) 1 0) = true →
    takeoverOk s (fld (c.w 2) 1 0) = false →
    exec (.regionTakeover t r) s = .next (finish (s.tick t) r.val c { cstat := 2, r0 := s.reg 0x3008 })) ∧
  (∀ (s : State) (t n : Nat) (u : Fin 5), s.Up → s.glb.chipSafe = false → unitRole s u.val = n → n < 4 → unitState s u.val = 0 →
    (∀ m, m < 5 → m ≠ n → roleUnit s m ≠ u.val) →
    unitState s (spareUnit s) = 1 → othersServed s n = true → (s.refl n).covered = false →
    s.wdn.takeover = none →
    Runs (.lockstepMismatch t u) s (fun v => unitState v u.val = 2 ∧ v.wdn.takeover = none ∧ v.glb.chipSafe = false ∧
      ∀ b, b ∈ banksOf n → (v.bank b).safe = true)) ∧
  (∀ (s : State) (t n : Nat) (u : Fin 5), s.Up → s.glb.chipSafe = false → unitRole s u.val = n → n < 4 → unitState s u.val = 0 →
    spareUnit s ≠ u.val → unitState s (spareUnit s) = 0 →
    Runs (.lockstepMismatch t u) s (fun v => v.glb.chipSafe = true ∧ v.rf 0x3000 31 24 = 0x33 ∧
      ∀ b, b < 16 → (v.bank b).safe = true)) ∧
  (∀ (s : State) (t : Nat) (u : Fin 5), s.Up → unitState s u.val ≠ 0 → unitState s u.val ≠ 1 → unitState s u.val ≠ 7 →
    Runs (.heartbeatTimeout t u) s (fun v => v.units = s.units ∧ v.regs = s.regs ∧ v.wdn = s.wdn ∧ v.banks = s.banks))

/-- Heartbeats, reflection and takeover (R445, R448 to R455, R458, R459): a heartbeat is counted and sets the next one's time, a
FAILED unit that speaks is tested, a checkpoint is taken on the grid, a copy makes its role COVERED and the last load puts HOT
in force, and a takeover passes its steps in order until the spare holds the role's banks. Where the spec leaves a point of it
open, the clauses follow the model's choices or readings of log entries 54, 58. -/
def Obligations.TheSpareTakesARoleInSteps : Prop :=
  (∀ (s : State) (t : Nat) (u : Fin 5), s.Up → unitState s u.val ≠ 2 →
    Runs (.heartbeat t u) s (fun v => (v.unit u.val).beatAt = max s.clk.now t ∧ (v.unit u.val).slots = (s.unit u.val).slots ∧
      fld ((v.unit u.val).cntReg 0x100C) 15 0 = (fld ((s.unit u.val).cntReg 0x100C) 15 0 + 1) % 65536 ∧
      (∀ w, w ≠ u.val → v.unit w = s.unit w) ∧ v.regs = s.regs ∧ v.wdn = s.wdn ∧ v.banks = s.banks ∧ v.mem = s.mem)) ∧
  (∀ (s : State) (t : Nat) (u : Fin 5), s.Up → unitState s u.val = 2 →
    Runs (.reflectionItem t u) s (fun v => unitState v u.val = 4 ∧
      unitTest v u.val = some { step := 1, at_ := max s.clk.now t, role := none } ∧ v.wdn.takeover = s.wdn.takeover ∧
      v.banks = s.banks)) ∧
  (∀ (s : State) (t : Nat) (u : Fin 5), s.Up → unitState s u.val ≠ 2 →
    Runs (.reflectionItem t u) s (fun v => v.units = s.units ∧ v.regs = s.regs ∧ v.wdn = s.wdn ∧ v.mem = s.mem)) ∧
  (∀ (s : State) (t : Nat) (u : Fin 5), s.Up → unitRole s u.val < 4 → unitState s u.val = 0 → spareReflects s = true →
    (max s.clk.now t - s.wdn.grid) % ckptPeriod s = 0 →
    exec (.reflectionCheckpoint t u) s = .next ((s.tick t).setRefl (unitRole s u.val) { s.refl (unitRole s u.val) with
      angles := (List.range 4).map (fun d => s.angle d),
      syncs := (List.range 4).map (syncOf s),
      at_ := some (max s.clk.now t),
      left := [] })) ∧
  (∀ (s : State) (t : Nat) (n : Fin 4), s.Up → spareReflects s = true → copyNext s = some n.val →
    Runs (.reflectionCopyDone t n) s (fun v => (v.refl n.val).covered = true ∧ (∀ m, m ≠ n.val → v.refl m = s.refl m) ∧
      v.wdn.takeover = s.wdn.takeover ∧ v.glb = s.glb ∧ v.units = s.units ∧ v.mem = s.mem)) ∧
  (∀ (s : State) (t : Nat) (n : Fin 4), s.Up → spareReflects s = true → copyNext s = none → s.wdn.hotLoad = [n.val] →
    s.glb.reflect = 1 →
    Runs (.reflectionCopyDone t n) s (fun v => v.glb = { s.glb with reflect := 0 } ∧ v.wdn = { s.wdn with hotLoad := [] } ∧
      v.units = s.units ∧ v.mem = s.mem)) ∧
  (∀ (s : State) (t : Nat) (x : Takeover), s.Up → s.wdn.takeover = some x → x.step = 0 → s.fw.restart = none →
    Runs (.takeoverBegin t) s (fun v => v.wdn = { s.wdn with takeover := some { x with step := 1 } } ∧ v.units = s.units ∧
      v.banks = s.banks ∧ v.mem = s.mem)) ∧
  (∀ (s : State) (x : Takeover), s.Up → s.wdn.takeover = some x → x.step = 1 → x.warm = true →
    exec .sparePowered s = .next ((s.tick s.clk.now).setTakeover (some { x with step := 2 }))) ∧
  (∀ (s : State) (x : Takeover), s.Up → s.wdn.takeover = some x → x.step = (if x.warm then 2 else 1) →
    exec .reflectionVerified s = .next ((s.tick s.clk.now).setTakeover (some { x with step := 3 }))) ∧
  (∀ (s : State) (x : Takeover), s.Up → s.wdn.takeover = some x → x.step = 3 →
    exec .slotsLoaded s = .next (((s.tick s.clk.now).setUnit (spareUnit s)
      { s.unit (spareUnit s) with slots := x.slots, busy := x.busy, queue := [] }).setTakeover (some { x with step := 4 }))) ∧
  (∀ (s : State) (x : Takeover), s.Up → s.wdn.takeover = some x → x.step = 4 →
    (∀ p, p ∈ (s.unit (spareUnit s)).slots → isStray s x.role p = false ∧ p.2 ≠ {}) →
    Runs .reconciliation s (fun v => v.wdn = { s.wdn with takeover := some { x with step := 5, reconciled := 0 } } ∧
      (v.unit (spareUnit s)).slots = (s.unit (spareUnit s)).slots ∧ ChangesOnly [.clk, .units, .wdn] s v)) ∧
  (∀ (s : State) (t : Nat) (x : Takeover), s.Up → s.wdn.takeover = some x → x.step = 5 → x.lend = false → x.changes = [] →
    x.ckpt.angles = [] → x.role < 4 → spareUnit s < 5 →
    Runs (.firstEvaluation t) s (fun v => v.wdn.takeover = none ∧ unitState v (spareUnit s) = 0 ∧ heldRole v = x.role ∧
      (∀ b, b ∈ banksOf x.role → (v.bank b).mirror = true) ∧ (v.unit (spareUnit s)).epoch = (s.bank (4 * x.role)).epoch ∧
      v.wdn.refl = [] ∧ v.rf 0x3044 31 16 = min 65535 x.reconciled ∧ v.glb = s.glb))

/-- Unit tests (R460, R461, R493, R494, R496): REGION_TEST starts the test of a FAILED or RETIRED unit at step 1 and is refused
for another one; a passed step leads to the next; a failed one retires the unit; a unit without a role that passes step 4
becomes the spare. The Round (R488 to R492, R495, R499): it falls due at NEXT_DUE, ROUND_START makes it due and is refused
during one, role 0 has the first turn; the lend at a quiet point, or after QUIET_WAIT, moves the role's banks to the spare and
the unit into its test; the hand-back returns them; ROUND_ABORT and 60 s without the lend conditions end it. Where the spec
leaves a point of it open, the clauses follow the model's choices or readings of log entries 55, 56. -/
def Obligations.UnitsAreTestedAndTheRoundLends : Prop :=
  (∀ (s : State) (t : Nat) (r : Fin 64) (c : Fetched), Takes s r.val 0x41 c → fld (c.w 2) 2 0 ≤ 4 →
    (unitState s (fld (c.w 2) 2 0) = 2 ∨ unitState s (fld (c.w 2) 2 0) = 5) →
    Applies (.regionTest t r) s r.val c {} (fun v => unitState v (fld (c.w 2) 2 0) = 4 ∧
      unitTest v (fld (c.w 2) 2 0) = some { step := 1, at_ := max s.clk.now t, role := none } ∧
      (∀ w, w < 5 → w ≠ fld (c.w 2) 2 0 → unitState v w = unitState s w) ∧ v.banks = s.banks ∧ v.mem = s.mem)) ∧
  (∀ (s : State) (t : Nat) (r : Fin 64) (c : Fetched), Takes s r.val 0x41 c → fld (c.w 2) 2 0 ≤ 4 →
    unitState s (fld (c.w 2) 2 0) ≠ 2 → unitState s (fld (c.w 2) 2 0) ≠ 5 →
    exec (.regionTest t r) s = .next (finish (s.tick t) r.val c { cstat := 1 })) ∧
  (∀ (s : State) (t : Nat) (r : Fin 64) (c : Fetched), Takes s r.val 0x41 c → 5 ≤ fld (c.w 2) 2 0 →
    exec (.regionTest t r) s = .next (finish (s.tick t) r.val c { hstat := 2 })) ∧
  (∀ (s : State) (t : Nat) (u : Fin 5) (x : UTest), s.Up → unitTest s u.val = some x → s.round.phase = 0 → x.step < 4 →
    Runs (.testStepDone t u true) s (fun v => unitTest v u.val = some { x with step := x.step + 1, at_ := max s.clk.now t } ∧
      v.regs = s.regs ∧ v.units = s.units ∧ v.banks = s.banks ∧ v.mem = s.mem ∧ v.round = s.round)) ∧
  (∀ (s : State) (t : Nat) (u : Fin 5) (x : UTest), s.Up → unitTest s u.val = some x → s.round.phase = 0 → x.step < 7 →
    x.role = none →
    Runs (.testStepDone t u false) s (fun v => unitState v u.val = 5 ∧ unitTest v u.val = none ∧ v.banks = s.banks ∧
      v.glb = s.glb)) ∧
  (∀ (s : State) (t : Nat) (u : Fin 5) (x : UTest), s.Up → unitTest s u.val = some x → s.round.phase = 0 → x.step = 4 →
    x.role = none → mirrorBusy s = false → (∀ n, n < 4 → roleServed s n = true) → unitRole s u.val = 4 →
    Runs (.testStepDone t u true) s (fun v => unitState v u.val = 1 ∧ unitTest v u.val = none ∧ v.wdn.refl = [] ∧
      (v.unit u.val).slots = [] ∧ v.banks = s.banks ∧ v.glb = s.glb)) ∧
  (∀ (s : State) (t k : Nat), s.Up → s.rb 0x3200 0 = true → s.round.nextDue = some k → k ≤ max s.clk.now t → s.round.phase = 0 →
    s.glb.safeHold = false → wardenPaused s = false →
    Runs (.roundDue t) s (fun v => v.round.phase = 1 ∧ v.round.role = 0 ∧ v.round.unit = roleUnit s 0 ∧
      v.round.turnAt = max s.clk.now t ∧ v.rf 0x3208 31 16 = (s.rf 0x3208 31 16 + 1) % 65536 ∧ v.wdn = s.wdn ∧ v.units = s.units)) ∧
  (∀ (s : State) (t : Nat) (r : Fin 64) (c : Fetched), Takes s r.val 0x48 c → s.round.phase = 0 → s.glb.safeHold = false →
    ∃ y : Reply, y.cstat = 0 ∧ y.hstat = 0 ∧ Applies (.roundStart t r) s r.val c y (fun v => v.round.phase = 1 ∧ v.round.role = 0 ∧
      v.rf 0x3208 31 16 = (s.rf 0x3208 31 16 + 1) % 65536 ∧ y.r0 = ofNat32 (v.rf 0x3208 31 16))) ∧
  (∀ (s : State) (t : Nat) (r : Fin 64) (c : Fetched), Takes s r.val 0x48 c → s.round.phase ≠ 0 →
    exec (.roundStart t r) s = .next (finish (s.tick t) r.val c { cstat := 1, r0 := ofNat32 (s.rf 0x3208 31 16) })) ∧
  (∀ (s : State) (t : Nat) (r : Fin 64) (c : Fetched), Takes s r.val 0x49 c → (s.round.phase = 2 ∨ s.round.phase = 3) →
    ∃ y : Reply, y.cstat = 0 ∧ y.hstat = 0 ∧
      exec (.roundAbort t r) s = .next (finish ((s.tick t).setRound { s.round with aborting := true }) r.val c y)) ∧
  (∀ (s : State) (t : Nat) (r : Fin 64) (c : Fetched), Takes s r.val 0x49 c → s.round.phase = 1 →
    ∃ y : Reply, y.cstat = 0 ∧ y.hstat = 0 ∧ Applies (.roundAbort t r) s r.val c y (fun v => v.round.phase = 0 ∧
      v.rf 0x3208 5 4 = 2 ∧ v.round.nextDue = some (max s.clk.now t + roundPeriod s))) ∧
  (∀ (s : State) (t : Nat), s.Up → s.round.phase = 1 → lendOk s = false → s.round.turnAt + 60000 * 400000 ≤ max s.clk.now t →
    Runs (.roundPostponed t) s (fun v => v.round.phase = 0 ∧ v.rf 0x3208 5 4 = 3 ∧
      v.round.nextDue = some (max s.clk.now t + roundPeriod s))) ∧
  (∀ s : State, s.Up → s.round.phase = 1 → reqReflect s = 1 → lendOk s = true →
    Runs .spareLoadDone s (fun v => v.round.phase = 1 ∧ v.round.loaded = true ∧ v.round.search.isSome = true ∧ v.wdn = s.wdn ∧
      v.units = s.units)) ∧
  (∀ (s : State) (t k n : Nat), s.Up → s.round.phase = 1 → s.round.role = n → n < 4 → s.round.search = some k → lendOk s = true →
    roleUnit s n < 5 → spareUnit s < 5 → roleUnit s n ≠ spareUnit s → quietPoint (s.tick t) n = true →
    Runs (.roundLend t) s (fun v => v.round.phase = 2 ∧ v.round.unit = roleUnit s n ∧ unitState v (roleUnit s n) = 4 ∧
      unitState v (spareUnit s) = 7 ∧ heldRole v = n ∧ v.glb = { s.glb with reflect := 2 } ∧
      unitTest v (roleUnit s n) = some { step := 1, at_ := max s.clk.now t, role := some n } ∧
      (∀ b, b ∈ banksOf n → v.bank b = { s.bank b with epoch := ((s.bank b).epoch + 1) % 65536, mirror := true }) ∧
      (v.unit (spareUnit s)).slots = (s.unit (roleUnit s n)).slots)) ∧
  (∀ (s : State) (t k n : Nat), s.Up → s.round.phase = 1 → s.round.role = n → n < 4 → s.round.search = some k → lendOk s = true →
    roleUnit s n < 5 → spareUnit s < 5 → roleUnit s n ≠ spareUnit s → k + 400000 * s.rf 0x3204 15 0 ≤ max s.clk.now t →
    Runs (.quietWaitExpiry t) s (fun v => v.round.phase = 2 ∧ v.round.unit = roleUnit s n ∧ unitState v (roleUnit s n) = 4 ∧
      unitState v (spareUnit s) = 7)) ∧
  (∀ (s : State) (t n : Nat), s.Up → s.round.phase = 0 → handBackRole s = some n → n < 4 → roleUnit s n < 5 → spareUnit s < 5 →
    roleUnit s n ≠ spareUnit s → quietPoint (s.tick t) n = true →
    Runs (.roundHandBack t) s (fun v => unitState v (roleUnit s n) = 0 ∧ unitState v (spareUnit s) = 1 ∧
      unitTest v (roleUnit s n) = none ∧ v.wdn.takeover = none ∧ (v.unit (roleUnit s n)).slots = (s.unit (spareUnit s)).slots ∧
      (v.unit (spareUnit s)).slots = [] ∧
      ∀ b, b ∈ banksOf n → v.bank b = { s.bank b with epoch := ((s.bank b).epoch + 1) % 65536, mirror := false }))

/-- The scrubber and the fault log (R468 to R472, R603): every single-bit error is corrected and counted, a word without an error
only moves the scrubber on, an uncorrectable word of a store without an effect of its own is counted, named and recorded, and
FAULT_LOG_CLEAR leaves the log and its count zero. Where the spec leaves a point of it open, the clauses follow the model's
choices or readings of log entry 57. -/
def Obligations.TheScrubberCorrectsAndReports : Prop :=
  (∀ (s : State) (t inst a : Nat) (i : Fin 144), s.Up → s.wdn.scrubAt ≤ max s.clk.now t → s.wdn.scrub < 425983 →
    Runs (.scrubTick t 3 inst a (BitVec.twoPow 144 i.val)) s (fun v =>
      v.rf 0x3014 15 0 = min 65535 (s.rf 0x3014 15 0 + 1) ∧ v.wdn.scrub = s.wdn.scrub + 1 ∧ v.mem = s.mem ∧ v.cells = s.cells ∧
      v.units = s.units)) ∧
  (∀ (s : State) (t store inst a : Nat), s.Up → s.wdn.scrubAt ≤ max s.clk.now t → s.wdn.scrub < 425983 →
    Runs (.scrubTick t store inst a 0) s (fun v => v.wdn.scrub = s.wdn.scrub + 1 ∧
      v.wdn.scrubAt = max s.clk.now t + s.fclk (s.rf 0x3010 15 0) ∧ v.regs = s.regs ∧ v.mem = s.mem ∧ v.units = s.units)) ∧
  (∀ (s : State) (t inst a : Nat) (e : BitVec 144), s.Up → s.wdn.scrubAt ≤ max s.clk.now t → s.wdn.scrub < 425983 →
    eccDecode (syndrome e) = .uncorrectable →
    Runs (.scrubTick t 7 inst a e) s (fun v => v.rf 0x3014 31 16 = min 65535 (s.rf 0x3014 31 16 + 1) ∧
      v.reg 0x3018 = ofNat32 a ∧ v.rf 0x301C 23 16 = 7 ∧ v.rf 0x301C 15 0 = syndrome e % 65536 ∧
      v.rf 0x3020 15 0 = (s.rf 0x3020 15 0 + 1) % 65536 ∧ v.cells = s.cells ∧ v.units = s.units)) ∧
  (∀ (s : State) (t store inst a : Nat) (e : BitVec 144), s.Up → max s.clk.now t < s.wdn.scrubAt →
    Runs (.scrubTick t store inst a e) s (fun v => v.wdn = s.wdn ∧ v.regs = s.regs ∧ v.mem = s.mem)) ∧
  (∀ (s : State) (t : Nat) (r : Fin 64) (c : Fetched), Takes s r.val 0x42 c →
    Applies (.faultLogClear t r) s r.val c { r0 := ofNat32 (s.rf 0x3020 15 0) } (fun v => v.rf 0x3020 15 0 = 0 ∧
      (∀ b, 0xA0000 ≤ b → b < 0xA0800 → v.byte b = 0) ∧ (∀ b, ¬ (0xA0000 ≤ b ∧ b < 0xA0800) → v.byte b = s.byte b) ∧
      ∀ a, a ≠ 0x3020 → v.reg a = s.reg a))

/-- The margin plan (R475, R476, R479 to R483): an evaluation, periodic or by PLAN_EVAL, takes the LEAN step that meets GUARD at
once when it is slower, and with MARGIN LEAN and no power limit the clock with it; a faster step is in force when the PLL has
slewed; a monitor sample gives a unit its largest delay, its age and its temperature. Where the spec leaves a point of it
open, the clauses follow the model's choices or readings of log entries 15, 16, 17. -/
def Obligations.ThePlanFollowsTheMonitors : Prop :=
  (∀ (s : State) (t w : Nat), s.Up → s.plan.nextAt ≤ max s.clk.now t → wardenPaused s = false →
    leanWanted (takeDelays (s.tick t)) = some w → s.plan.lean ≤ w → reqPower s = false → reqMargin s = 0 → s.clk.step ≤ w →
    Runs (.planEvaluation t) s (fun v => v.plan.lean = w ∧ v.clk.step = w ∧ v.plan.slew = none ∧
      v.plan.nextAt = max s.clk.now t + 400000 * s.rf 0x3108 31 16 ∧ v.plan.evals = s.plan.evals + 1 ∧ v.glb.broad = false ∧
      v.glb.tempered = false ∧ v.rf 0x3100 1 0 = w)) ∧
  (∀ (s : State) (t : Nat), s.Up → max s.clk.now t < s.plan.nextAt → exec (.planEvaluation t) s = .next (s.tick t)) ∧
  (∀ (s : State) (t w : Nat) (r : Fin 64) (c : Fetched), Takes s r.val 0x4A c →
    leanWanted (takeDelays (s.tick t)) = some w → s.plan.lean ≤ w → reqPower s = false → reqMargin s = 0 → s.clk.step ≤ w →
    ∃ y : Reply, y.cstat = 0 ∧ y.hstat = 0 ∧ Applies (.planEval t r) s r.val c y (fun v => v.plan.lean = w ∧ v.clk.step = w ∧
      v.plan.nextAt = s.plan.nextAt ∧ y.r0 = planWord v)) ∧
  (∀ (s : State) (w : Nat), s.Up → s.plan.slew = some w →
    exec .fclkSlewDone s =
      .next { s.tick s.clk.now with
                clk := { (s.tick s.clk.now).clk with step := w }
                plan := { s.plan with slew := none } }) ∧
  (∀ (s : State) (t x : Nat) (u : Fin 5) (d f : List Nat), s.Up → d.length = 8 → f.length = 8 →
    Runs (.monitorSample t u (d ++ f ++ [x])) s (fun v => (v.ageUnit u.val).reads.head? = some (max s.clk.now t, maxNat d) ∧
      (v.ageUnit u.val).age = maxNat ((List.range 4).map (fun i => roAge (f.getD i 0) (f.getD (4 + i) 0))) ∧
      (v.ageUnit u.val).temp = sext 16 x ∧ (v.ageUnit u.val).tempAt = some (max s.clk.now t) ∧
      (∀ w, w ≠ u.val → v.ageUnit w = s.ageUnit w) ∧ ChangesOnly [.clk, .plan] s v))

/-- Warden firmware (R500, R501, R503): FW_WRITE programs the inactive slot and clears VERIFIED, FW_VERIFY sets VERIFIED or the
failing check, FW_ACTIVATE and FW_CANCEL set and clear PENDING; the restart at a quiet point makes the other slot active once
it runs, and after 100 ms without a report the previous one is restarted. Where the spec leaves a point of it open, the
clauses follow the model's choices or readings of log entries 4, 59. -/
def Obligations.FirmwareIsWrittenVerifiedAndActivated : Prop :=
  (∀ (s : State) (t n : Nat) (r : Fin 64) (c : Fetched), Takes s r.val 0x44 c → bufWords c = some n → fwBusy s = false →
    Applies (.fwWrite t r) s r.val c { r0 := inactiveSlot s } (fun v =>
      v.fw = { s.fw with prog := some ((c.w 2).toNat, (List.range n).map (fun i => wordAt c.buf i)) } ∧
      v.rb 0x3240 4 = true ∧ v.rb 0x3240 2 = false ∧ v.rb 0x3240 0 = s.rb 0x3240 0 ∧ (∀ a, a ≠ 0x3240 → v.reg a = s.reg a) ∧
      ChangesOnly [.clk, .regs, .fw] s v)) ∧
  (∀ (s : State) (t n : Nat) (r : Fin 64) (c : Fetched), Takes s r.val 0x44 c → bufWords c = some n → fwBusy s = true →
    exec (.fwWrite t r) s = .next (finish (s.tick t) r.val c { cstat := 1, r0 := inactiveSlot s })) ∧
  (∀ (s : State) (o : Nat) (ws : List Word), s.Up → s.fw.prog = some (o, ws) → o % 4 = 0 → o / 4 + ws.length ≤ 131072 →
    Runs .fwProgramDone s (fun v => v.fw.prog = none ∧ v.rb 0x3240 4 = false ∧
      (∀ i, i < ws.length → fwWord v (!fwActive s) (o / 4 + i) = wordAt ws i) ∧
      (∀ i, i < 131072 → fwWord v (fwActive s) i = fwWord s (fwActive s) i) ∧ ChangesOnly [.clk, .regs, .fw] s v)) ∧
  (∀ (s : State) (t : Nat) (r : Fin 64) (c : Fetched), Takes s r.val 0x45 c → fwBusy s = false → s.fw.verifying = false →
    exec (.fwVerify t r) s =
      .next (finish { s.tick t with fw := { s.fw with verifying := true } } r.val c { r0 := inactiveSlot s })) ∧
  (∀ s : State, s.Up → s.fw.verifying = true →
    Runs .fwVerifyDone s (fun v => v.fw = { s.fw with verifying := false } ∧ v.rf 0x3240 11 8 = fwCheck s (!fwActive s) ∧
      v.rb 0x3240 2 = decide (fwCheck s (!fwActive s) = 0) ∧ v.rb 0x3240 0 = s.rb 0x3240 0 ∧
      ∀ a, a ≠ 0x3240 → v.reg a = s.reg a)) ∧
  (∀ (s : State) (t : Nat) (r : Fin 64) (c : Fetched), Takes s r.val 0x46 c → fwBusy s = false → s.fw.verifying = false →
    s.fw.restart = none → s.rb 0x3240 2 = true →
    Applies (.fwActivate t r) s r.val c { r0 := ofNat32 (b2n (fwActive s)) } (fun v => v.rb 0x3240 3 = true ∧
      v.rb 0x3240 0 = s.rb 0x3240 0 ∧ v.rb 0x3240 2 = true ∧ (∀ a, a ≠ 0x3240 → v.reg a = s.reg a) ∧
      ChangesOnly [.clk, .regs, .round] s v)) ∧
  (∀ (s : State) (t : Nat) (r : Fin 64) (c : Fetched), Takes s r.val 0x46 c → fwBusy s = false → s.fw.verifying = false →
    s.fw.restart = none → s.rb 0x3240 2 = false →
    exec (.fwActivate t r) s = .next (finish (s.tick t) r.val c { cstat := 1, r0 := ofNat32 (b2n (fwActive s)) })) ∧
  (∀ (s : State) (t : Nat) (r : Fin 64) (c : Fetched), Takes s r.val 0x47 c →
    Applies (.fwCancel t r) s r.val c { r0 := bar0Word (s.tick t) 0x3240 } (fun v => v.rb 0x3240 3 = false ∧
      v.rb 0x3240 2 = s.rb 0x3240 2 ∧ (∀ a, a ≠ 0x3240 → v.reg a = s.reg a) ∧ ChangesOnly [.clk, .regs, .round] s v)) ∧
  (∀ s : State, s.Up → s.rb 0x3240 3 = true → s.wdn.takeover = none → s.round.phase = 0 → s.wdn.tests = [] →
    unitState s (spareUnit s) = 1 → (∀ n, n < 4 → (s.refl n).covered = true) →
    exec .fwActivation s =
      .next ({ s.tick s.clk.now with fw := { s.fw with restart := some s.clk.now } }.setRf 0x3240 3 3 0)) ∧
  (∀ (s : State) (k : Nat), s.Up → s.fw.restart = some k →
    Runs .fwRunning s (fun v => v.rb 0x3240 0 = !s.rb 0x3240 0 ∧ v.rb 0x3240 2 = false ∧ v.rf 0x3240 7 5 = 1 ∧
      v.fw = { s.fw with restart := none } ∧
      (v.reg 0x324C).toNat = max (s.reg 0x324C).toNat (fwWord s (!fwActive s) 2).toNat)) ∧
  (∀ (s : State) (t k : Nat), s.Up → s.fw.restart = some k → k + 100 * 400000 ≤ max s.clk.now t →
    Runs (.fwRevert t) s (fun v => v.rb 0x3240 0 = s.rb 0x3240 0 ∧ v.rf 0x3240 7 5 = 2 ∧ v.fw = { s.fw with restart := none } ∧
      v.rb 0x3240 2 = s.rb 0x3240 2 ∧ ∀ a, a ≠ 0x3240 → v.reg a = s.reg a))

/-- Ports (R505, R506, R514, R515): symbol lock makes an enabled port UP, BREAK_TO without lock or RFAULT makes it DOWN, counts a
break, sends RFAULT and wraps the part there, SLEEP makes it SLEEPING and wraps, and HEAL_MS of UP ends the wrap. Where the
spec leaves a point of it open, the clauses follow the model's choices or readings of log entry 50. -/
def Obligations.LinkPortsWrapAndHeal : Prop :=
  (∀ (s : State) (t : Nat) (p : Fin 2), s.Up → linkEn s = true → portEn s p.val = true → (s.vlk.port p.val).st ≠ 1 →
    Runs (.portUp t p) s (fun u => u.vlk.port p.val = { s.vlk.port p.val with st := 1, upAt := max s.clk.now t } ∧
      (∀ q, q ≠ p.val → u.vlk.port q = s.vlk.port q) ∧ (s.vlk.dup = false → u.vlk.waiting = []) ∧
      ChangesOnly [.clk, .out, .hif, .irq, .vlk] s u)) ∧
  (∀ (s : State) (t since : Nat) (p : Fin 2) (b : Bool), s.Up → linkEn s = true → (s.vlk.port p.val).st ≠ 0 →
    (s.vlk.port p.val).wrapped = false → since + 400 * s.rf 0xA008 6 0 ≤ max s.clk.now t →
    Runs (.portDown t p ⟨b, since⟩) s (fun u => u.vlk.port p.val = { s.vlk.port p.val with
        st := 0
        breaks := min 65535 ((s.vlk.port p.val).breaks + 1)
        wrapped := true
        trips := []
        req := none } ∧
      (∀ q, q ≠ p.val → u.vlk.port q = s.vlk.port q) ∧ (∃ l, u.out.link = s.out.link ++ [.rfault p.val] ++ l) ∧
      ChangesOnly [.clk, .out, .hif, .irq, .vlk] s u)) ∧
  (∀ (s : State) (t since : Nat) (p : Fin 2) (b : Bool), s.Up → max s.clk.now t < since + 400 * s.rf 0xA008 6 0 →
    exec (.portDown t p ⟨b, since⟩) s = .next (s.tick t)) ∧
  (∀ (s : State) (t : Nat) (p : Fin 2), s.Up → linkEn s = true → (s.vlk.port p.val).st = 1 → (s.vlk.port p.val).wrapped = false →
    Runs (.portSleeping t p) s (fun u => (u.vlk.port p.val).st = 2 ∧ (u.vlk.port p.val).wrapped = true ∧
      (u.vlk.port p.val).breaks = (s.vlk.port p.val).breaks ∧ (∀ q, q ≠ p.val → u.vlk.port q = s.vlk.port q))) ∧
  (∀ (s : State) (t : Nat) (p : Fin 2), s.Up → linkEn s = true → (s.vlk.port p.val).wrapped = true → (s.vlk.port p.val).st = 1 →
    (s.vlk.port p.val).upAt + 400000 * s.rf 0xA008 23 8 ≤ max s.clk.now t →
    Runs (.portUnwrap t p) s (fun u => u.vlk.port p.val = { s.vlk.port p.val with wrapped := false } ∧
      (∀ q, q ≠ p.val → u.vlk.port q = s.vlk.port q) ∧ ChangesOnly [.clk, .out, .vlk] s u)) ∧
  (∀ (s : State) (t : Nat) (p : Fin 2), s.Up → linkEn s = true → max s.clk.now t < (s.vlk.port p.val).upAt + 400000 * s.rf 0xA008 23 8 →
    exec (.portUnwrap t p) s = .next (s.tick t))

/-- Forwarding (R508 to R510): a frame that does not stop here leaves by the port of its direction, or by the other one where that
port is wrapped, with HOPS one higher; one with a bad CRC is counted and leaves with a bad end, one that came with a bad end
leaves with it uncounted; one whose HOPS is at its largest is dropped and counted; a source silent for 1 s is forgotten.
Frames taken (R510 to R513, R517, R532, R534, R537): a BEACON from a neighbour names it, and one of the part's own node ID
with another NONCE sets DUP_ID; a PDELAY_REQ is answered by the port it came in by, a PDELAY_RESP of the request in flight
adds a round trip; a SNAP is kept by every receive slot that follows its stream, a SUPERVISORY frame goes to the log, TOPO
raises VLK_2, and WAKE_REQ wakes the SLEEPING ports that face its target. Where the spec leaves a point of it open, the
clauses follow the model's choices or readings of log entries 50, 51. -/
def Obligations.FramesAreForwardedOrTaken : Prop :=
  (∀ (s : State) (t : Nat) (p : Fin 2) (f : Frame), s.Up → linkEn s = true → f.known = true → f.good = true → f.type ≠ 5 →
    stopsHere s f = false → f.hops < 2046 →
    Runs (.frameForward t p f) s (fun u => u.out = { s.out with link := s.out.link ++
        [.frame (exitPort s.vlk f.dirB).1 (setFld f.w0 26 26 (b2n (exitPort s.vlk f.dirB).2)) (setFld f.w1 31 21 (f.hops + 1))
          f.payload true] } ∧
      (∀ q, u.vlk.port q = s.vlk.port q) ∧ ChangesOnly [.clk, .out, .vlk, .free] s u)) ∧
  (∀ (s : State) (t : Nat) (p : Fin 2) (f : Frame), s.Up → linkEn s = true → f.known = true → f.crcOk = false →
    stopsHere s f = false → f.hops < 2046 →
    Runs (.frameForward t p f) s (fun u => u.out = { s.out with link := s.out.link ++
        [.frame (exitPort s.vlk f.dirB).1 (setFld f.w0 26 26 (b2n (exitPort s.vlk f.dirB).2)) (setFld f.w1 31 21 (f.hops + 1))
          f.payload false] } ∧
      (u.vlk.port p.val).crcErr = min 65535 ((s.vlk.port p.val).crcErr + 1))) ∧
  (∀ (s : State) (t : Nat) (p : Fin 2) (f : Frame), s.Up → linkEn s = true → f.known = true → f.sound = true → f.eof = false →
    f.type ≠ 5 → stopsHere s f = false → f.hops < 2046 →
    Runs (.frameForward t p f) s (fun u => u.out = { s.out with link := s.out.link ++
        [.frame (exitPort s.vlk f.dirB).1 (setFld f.w0 26 26 (b2n (exitPort s.vlk f.dirB).2)) (setFld f.w1 31 21 (f.hops + 1))
          f.payload false] } ∧
      ∀ q, u.vlk.port q = s.vlk.port q)) ∧
  (∀ (s : State) (t : Nat) (p : Fin 2) (f : Frame), s.Up → linkEn s = true → f.good = true → stopsHere s f = false → 2046 ≤ f.hops →
    Runs (.frameForward t p f) s (fun u => u.vlk.orphan = min 255 (s.vlk.orphan + 1) ∧ u.out = s.out)) ∧
  (∀ (s : State) (t : Nat) (p : Fin 2) (f : Frame), s.Up → linkEn s = true → f.good = true → stopsHere s f = true →
    Runs (.frameForward t p f) s (fun u => u.out = s.out ∧ ∀ q, u.vlk.port q = s.vlk.port q)) ∧
  (∀ (s : State) (t n q k : Nat), s.Up → cget (fun _ => none) s.vlk.lastS n = some (q, k) → k + 1000 * 400000 ≤ max s.clk.now t →
    exec (.sourceForget t n) s = .next ((s.tick t).setV { s.vlk with lastS := cdel s.vlk.lastS n })) ∧
  (∀ (s : State) (t ts : Nat) (p : Fin 2) (f : Frame), LinkTakes s 1 f → f.hops = 0 → f.dirB ≠ (p.val == 0) → f.src ≠ linkNode s →
    exec (.beacon t p f ts) s = .next ((s.tick t).setV { (s.vlk.took f (max s.clk.now t)).setPort p.val
      { s.vlk.port p.val with neighbour := f.src } with dup := s.vlk.dup })) ∧
  (∀ (s : State) (t ts : Nat) (p : Fin 2) (f : Frame), LinkTakes s 1 f → f.src = linkNode s → f.pay 0 ≠ s.vlk.nonce →
    Runs (.beacon t p f ts) s (fun u => u.vlk.dup = true)) ∧
  (∀ (s : State) (t ts : Nat) (p : Fin 2) (f : Frame), LinkTakes s 2 f → s.vlk.dup = false →
    Runs (.pdelayReq t p f ts) s (fun u => u.vlk.fseq = (s.vlk.fseq + 1) % 65536 ∧ u.out = { s.out with link := s.out.link ++
        [.frame p.val (ofNat32 (headWord s 3 false (s.vlk.port p.val).neighbour 5 + (1 - p.val) * 2 ^ 26)) (ofNat32 s.vlk.fseq)
          [ofNat32 (fld (f.pay 0) 15 0), lo32 ((s.tick t).dtimeAt ts), hi32 ((s.tick t).dtimeAt ts), lo32 (s.tick t).dtime,
            hi32 (s.tick t).dtime] true] } ∧
      ChangesOnly [.clk, .out, .vlk] s u)) ∧
  (∀ (s : State) (t ts q t1 : Nat) (p : Fin 2) (f : Frame), LinkTakes s 3 f → (s.vlk.port p.val).req = some (q, t1) →
    q = fld (f.pay 0) 15 0 →
    exec (.pdelayResp t p f ts) s = .next ((s.tick t).setV ((s.vlk.took f (max s.clk.now t)).setPort p.val { s.vlk.port p.val with
      req := none
      trips := ((timeDiff ((s.tick t).dtimeAt ts) t1 - timeDiff (f.pay64 3) (f.pay64 1)) :: (s.vlk.port p.val).trips).take 16 }))) ∧
  (∀ (s : State) (t ts : Nat) (p : Fin 2) (f : Frame), LinkTakes s 6 f →
    Runs (.snap t p f ts) s (fun u => ChangesOnly [.clk, .vlk] s u ∧ ∀ k, k < 8 → cget (fun _ => none) u.vlk.rx k =
      if s.rb (A.rxslot k) 31 = true ∧ s.rf (A.rxslot k) 9 0 = f.src ∧ s.rf (A.rxslot k) 30 27 = fld (f.pay 0) 24 21 then
        some { ang := (f.pay 1).toNat, speed := (f.pay 2).toNat, tcap := f.pay64 3, qual := fld (f.pay 0) 26 25,
               state := fld (f.pay 0) 29 27, dom := fld (f.pay 0) 31 30, l360 := wbit (f.pay 0) 20 }
      else cget (fun _ => none) s.vlk.rx k)) ∧
  (∀ (s : State) (t ts : Nat) (p : Fin 2) (f : Frame), LinkTakes s 9 f →
    Runs (.supervisory t p f ts) s (fun u => u.vlk.rseq = (s.vlk.rseq + 1) % 65536 ∧
      u.word (0xA2000 + 64 * (s.vlk.rseq % 64) + 4) = ofNat32 (s.vlk.rseq % 65536) ∧
      (∀ i, i < 8 → u.word (0xA2000 + 64 * (s.vlk.rseq % 64) + 16 + 4 * i) = f.pay (1 + i)) ∧
      (∀ b, ¬ (0xA2000 + 64 * (s.vlk.rseq % 64) ≤ b ∧ b < 0xA2000 + 64 * (s.vlk.rseq % 64) + 52) → u.byte b = s.byte b) ∧
      u.glb = s.glb ∧ u.regs = s.regs)) ∧
  (∀ (s : State) (t ts : Nat) (p : Fin 2) (f : Frame), LinkTakes s 10 f →
    exec (.topo t p f ts) s = .next (((s.tick t).setV (s.vlk.took f (max s.clk.now t))).arrive 370)) ∧
  (∀ (s : State) (t ts : Nat) (p : Fin 2) (f : Frame), LinkTakes s 11 f →
    exec (.wakeReq t p f ts) s = .next (((s.tick t).setV (s.vlk.took f (max s.clk.now t))).linkOut
      ((facing s (fld (f.pay 0) 9 0)).map LinkSent.wake)))

/-- Plant time and its roles (R518 to R526, R530): a SYNC that is not stale names the master and gives the offset, by which DTIME
steps when it exceeds 10 µs; a MAINS names the mains master; an ANNOUNCE of a MASTER is followed and one of a candidate noted;
a newer EPOCH_NOTICE makes the part drop its role; silence makes the best candidate MASTER at the next epoch, the BACKUP
rises, and a silent backup is replaced; without SYNCs the time is no longer PRECISE. Where the spec leaves a point of it open,
the clauses follow the model's choices or readings of log entry 52. -/
def Obligations.RolesAndPlantTimeFollowTheFrames : Prop :=
  (∀ (s : State) (t ts : Nat) (p : Fin 2) (f : Frame), LinkTakes s 5 f → epochNewer s.vlk.time.epoch (fld (f.pay 0) 15 0) = false →
    s.vlk.time.own ≠ 1 →
    Runs (.sync t p f ts) s (fun u => u.vlk.time.master = f.src ∧ u.vlk.time.valid = true ∧
      u.vlk.time.epoch = fld (f.pay 0) 15 0 ∧ u.vlk.syncAt = some (max s.clk.now t) ∧
      u.vlk.offset = clampI (-32768) 32767 (syncOffset (s.tick t) p.val f ts) ∧
      u.dtime = (if 10000 < (syncOffset (s.tick t) p.val f ts).natAbs then
        ((((s.tick t).dtime : Int) - syncOffset (s.tick t) p.val f ts).emod (2 ^ 64)).toNat else (s.tick t).dtime))) ∧
  (∀ (s : State) (t ts : Nat) (p : Fin 2) (f : Frame), LinkTakes s 5 f → epochNewer s.vlk.time.epoch (fld (f.pay 0) 15 0) = true →
    Runs (.sync t p f ts) s (fun u => u.vlk.stale = min 255 (s.vlk.stale + 1) ∧ u.vlk.time.epoch = s.vlk.time.epoch ∧
      u.clk = (s.tick t).clk)) ∧
  (∀ (s : State) (t ts : Nat) (p : Fin 2) (f : Frame), LinkTakes s 7 f → epochNewer s.vlk.mains.epoch (fld (f.pay 5) 15 0) = false →
    s.vlk.mains.own ≠ 1 →
    Runs (.mains t p f ts) s (fun u => u.vlk.mains.master = f.src ∧ u.vlk.mains.valid = true ∧
      u.vlk.mains.epoch = fld (f.pay 5) 15 0 ∧ u.vlk.mains.frameAt = max s.clk.now t ∧ u.clk = (s.tick t).clk)) ∧
  (∀ (s : State) (t ts : Nat) (p : Fin 2) (f : Frame), LinkTakes s 4 f → fld (f.pay 0) 31 30 < 2 → fld (f.pay 0) 29 28 = 0 →
    Runs (.announce t p f ts) s (fun u =>
      (u.role (fld (f.pay 0) 31 30)).cands.head? = some { node := f.src, prio := fld (f.pay 1) 31 24, at_ := max s.clk.now t } ∧
      (u.role (fld (f.pay 0) 31 30)).own = (s.role (fld (f.pay 0) 31 30)).own ∧ u.clk = (s.tick t).clk)) ∧
  (∀ (s : State) (t ts r : Nat) (p : Fin 2) (f : Frame), LinkTakes s 4 f → fld (f.pay 0) 31 30 = r → r < 2 → fld (f.pay 0) 29 28 = 1 →
    epochNewer (s.role r).epoch (fld (f.pay 0) 15 0) = false → (s.role r).own ≠ 1 →
    Runs (.announce t p f ts) s (fun u => (u.role r).master = f.src ∧ (u.role r).valid = true ∧
      (u.role r).epoch = fld (f.pay 0) 15 0 ∧ (u.role r).heardAt = max s.clk.now t ∧
      (u.role r).own = (if wbit (f.pay 1) 22 = true ∧ fld (f.pay 1) 21 12 = linkNode s then 2 else 0))) ∧
  (∀ (s : State) (t ts r : Nat) (p : Fin 2) (f : Frame), LinkTakes s 8 f → fld (f.pay 0) 31 30 = r → r < 2 →
    epochNewer (fld (f.pay 0) 15 0) (s.role r).epoch = true →
    Runs (.epochNotice t p f ts) s (fun u => (u.role r).own = 0 ∧ (u.role r).rejoined = true ∧
      (u.role r).epoch = fld (f.pay 0) 15 0)) ∧
  (∀ (s : State) (t : Nat) (r : Fin 2), s.Up → linkEn s = true → isCandidate s r.val = true → s.vlk.dup = false →
    (s.role r.val).own ≠ 1 → (s.role r.val).heardAt + 3 * annPeriod s ≤ max s.clk.now t → isBest (s.tick t) r.val = true →
    Runs (.masterSilenceTimeout t r) s (fun u => (u.role r.val).own = 1 ∧ (u.role r.val).master = linkNode s ∧
      (u.role r.val).valid = true ∧ (u.role r.val).epoch = ((s.role r.val).highest + 1) % 65536)) ∧
  (∀ (s : State) (t : Nat) (r : Fin 2), s.Up → linkEn s = true → s.glb.chipSafe = false → (s.role r.val).own = 2 →
    (s.role r.val).frameAt + 3 * rolePeriod s r.val ≤ max s.clk.now t →
    Runs (.backupTakeover t r) s (fun u => (u.role r.val).own = 1 ∧ (u.role r.val).master = linkNode s ∧
      (u.role r.val).epoch = ((s.role r.val).epoch + 1) % 65536)) ∧
  (∀ (s : State) (t : Nat) (r : Fin 2), s.Up → linkEn s = true → (s.role r.val).own = 1 → (s.role r.val).bkValid = true →
    (∀ c, c ∈ (s.role r.val).cands → c.node = (s.role r.val).backup → c.at_ + 3 * annPeriod s ≤ max s.clk.now t) →
    Runs (.backupSilence t r) s (fun u => (u.role r.val).own = 1 ∧
      (u.role r.val).bkValid = (bestOther (s.tick t) r.val).isSome ∧
      (u.role r.val).backup = ((bestOther (s.tick t) r.val).map (·.node)).getD 0 ∧ u.clk = (s.tick t).clk)) ∧
  (∀ (s : State) (t : Nat), s.Up → s.clk.qual = 3 → s.vlk.time.own ≠ 1 → s.vlk.syncFrom + 4 * (400 * s.rf 0xA010 15 0) ≤ max s.clk.now t →
    Runs (.timeQualityLoss t) s (fun u => u.clk.qual = 1 ∧ u.dtime = (s.tick t).dtime ∧ u.vlk.good = 0)) ∧
  (∀ (s : State) (t : Nat), s.Up → onLink s 3 = false → exec (.mainsTimeout t) s = .next (s.tick t)) ∧
  (∀ (s : State) (t : Nat), s.Up → onLink s 3 = true → domEn s 3 = true → linkSt (s.tick t) ≠ .cycle →
    Runs (.mainsTimeout t) s (fun u => (u.el 3).st = linkSt (s.tick t) ∧ u.vlk = s.vlk ∧ u.clk = (s.tick t).clk))

/-- What the part sends (R511, R512, R517, R518, R522, R528, R529, R533, R537): a BEACON every ANN_PERIOD with its NONCE and its
wraps, PDELAY_REQ, SYNC, MAINS and SNAP at their periods, SUPERVISORY messages in command order, RESIGNING and WAKE_REQ at
their commands; writing EN = 1 draws a NONCE. Where the spec leaves a point of it open, the clauses follow the model's choices
or readings of log entries 3, 51, 52, 53. -/
def Obligations.TheLinkSendsItsFrames : Prop :=
  (∀ (s : State) (t : Nat), s.Up → linkEn s = true → s.vlk.time.own = 0 → s.vlk.mains.own = 0 → isCandidate s 0 = false →
    isCandidate s 1 = false →
    exec (.announcePeriod t) s = .next (((s.tick t).linkOut [ownFrame s 1 [s.vlk.nonce,
      packWord [(b2n (s.vlk.port 0).wrapped, 0), (b2n (s.vlk.port 1).wrapped, 1)]]]).setV
        { s.vlk with fseq := (s.vlk.fseq + 1) % 65536 })) ∧
  (∀ (s : State) (t : Nat) (p : Fin 2), s.Up → linkEn s = true → (s.vlk.port p.val).st = 1 → s.vlk.dup = false →
    Runs (.pdelayPeriod t p) s (fun u => u.vlk.port p.val = { s.vlk.port p.val with
        req := some ((s.vlk.port p.val).pdseq % 65536, (s.tick t).dtime)
        pdseq := (s.vlk.port p.val).pdseq + 1 } ∧
      (∀ q, q ≠ p.val → u.vlk.port q = s.vlk.port q) ∧ u.out.link.length = s.out.link.length + 1 ∧
      ChangesOnly [.clk, .out, .vlk] s u)) ∧
  (∀ (s : State) (t : Nat), s.Up → linkEn s = true → s.vlk.time.own = 1 → s.vlk.dup = false →
    Runs (.syncPeriod t) s (fun u => u.out = { s.out with link := s.out.link ++ [ownFrame s 5
        [packWord [(s.vlk.time.sseq % 65536, 16), (s.vlk.time.epoch, 0)], lo32 (s.tick t).dtime, hi32 (s.tick t).dtime, 0, 0]] } ∧
      u.vlk = { s.vlk with fseq := (s.vlk.fseq + 1) % 65536, time := { s.vlk.time with sseq := s.vlk.time.sseq + 1 } } ∧
      ChangesOnly [.clk, .out, .vlk] s u)) ∧
  (∀ (s : State) (t : Nat) (q : State), Before s t 4 q → linkEn s = true → s.vlk.mains.own = 1 → s.glb.chipSafe = false →
    q.vlk.dup = false →
    Runs (.mainsPeriod t) s (fun u => u.out = { q.out with link := q.out.link ++ [ownFrame q 7
        [packWord [(3, 30), ((syncOf q 3).code, 27), (q.clk.qual, 25), (b2n (domL q 3 == oneRev), 20), (q.vlk.mains.sseq % 65536, 0)],
          ofNat32 (q.angleWord 3), (atuView q 0x424).getD 0, lo32 q.dtime, hi32 q.dtime, packWord [(q.vlk.mains.epoch, 0)]]] } ∧
      u.vlk.mains = { q.vlk.mains with sseq := q.vlk.mains.sseq + 1 } ∧ ChangesOnly [.out, .vlk] q u)) ∧
  (∀ (s : State) (t : Nat) (k : Fin 4) (q : State), Before s t 4 q → linkEn s = true → s.rb (0xA040 + 4 * k.val) 31 = true →
    s.glb.chipSafe = false → q.vlk.dup = false →
    Runs (.snapPeriod t k) s (fun u => u.out = { q.out with link := q.out.link ++ [ownFrame q 6
        [packWord [(s.rf (0xA040 + 4 * k.val) 30 29, 30), ((syncOf q (s.rf (0xA040 + 4 * k.val) 30 29)).code, 27), (q.clk.qual, 25),
            (s.rf (0xA040 + 4 * k.val) 28 25, 21), (b2n (domL q (s.rf (0xA040 + 4 * k.val) 30 29) == oneRev), 20),
            (cget zeroNat q.vlk.snapSeq k.val % 65536, 0)],
          ofNat32 (q.angleWord (s.rf (0xA040 + 4 * k.val) 30 29)),
          (atuView q (0x124 + 0x100 * s.rf (0xA040 + 4 * k.val) 30 29)).getD 0, lo32 q.dtime, hi32 q.dtime]] } ∧
      cget zeroNat u.vlk.snapSeq k.val = (cget zeroNat q.vlk.snapSeq k.val + 1) % 65536 ∧ ChangesOnly [.out, .vlk] q u)) ∧
  (∀ (s : State) (t : Nat) (v : Word), s.Open → linkEn s = false → onLink s 3 = false → wbit (plainWrite A.vlk (s.reg A.vlk) v) 0 = true →
    Runs (.vlkEnable t v) s (fun u => u.vlk.nonce = Config.nonce s.free ∧ u.vlk.dup = false ∧
      u.reg A.vlk = plainWrite A.vlk (s.reg A.vlk) v ∧ u.free = s.free + 1 ∧ u.vlk.waiting = [] ∧ u.mem = s.mem)) ∧
  (∀ (s : State) (t : Nat) (r : Fin 64) (c : Fetched), Takes s r.val 0x58 c → 1 ≤ fld (c.w 2) 21 16 → fld (c.w 2) 21 16 ≤ 32 →
    linkEn s = true → s.vlk.dup = false → s.vlk.waiting.length < 8 → (s.vlk.port 0).st ≠ 1 → (s.vlk.port 1).st ≠ 1 →
    Applies (.linkSend t r) s r.val c { r0 := ofNat32 s.vlk.fseq } (fun u =>
      u.vlk.waiting.length = s.vlk.waiting.length + 1 ∧ u.vlk.fseq = (s.vlk.fseq + 1) % 65536 ∧ u.out = s.out ∧
      ChangesOnly [.clk, .vlk] s u)) ∧
  (∀ (s : State) (t : Nat) (r : Fin 64) (c : Fetched), Takes s r.val 0x58 c → 1 ≤ fld (c.w 2) 21 16 → fld (c.w 2) 21 16 ≤ 32 →
    (linkEn s = false ∨ s.vlk.dup = true) →
    exec (.linkSend t r) s = .next (finish (s.tick t) r.val c { cstat := 1 })) ∧
  (∀ (s : State) (t : Nat) (r : Fin 64) (c : Fetched), Takes s r.val 0x59 c → (s.role (fld (c.w 2) 0 0)).own = 1 →
    Applies (.linkResign t r) s r.val c { r0 := ofNat32 (s.role (fld (c.w 2) 0 0)).epoch } (fun u =>
      (u.role (fld (c.w 2) 0 0)).own = 0 ∧ (u.role (fld (c.w 2) 0 0)).valid = false)) ∧
  (∀ (s : State) (t : Nat) (r : Fin 64) (c : Fetched), Takes s r.val 0x59 c → (s.role (fld (c.w 2) 0 0)).own ≠ 1 →
    exec (.linkResign t r) s =
      .next (finish (s.tick t) r.val c { cstat := 1, r0 := ofNat32 (s.role (fld (c.w 2) 0 0)).epoch })) ∧
  (∀ (s : State) (t : Nat) (r : Fin 64) (c : Fetched), Takes s r.val 0x5A c → linkEn s = true → s.vlk.dup = false →
    Applies (.linkWake t r) s r.val c { r0 := packWord ((facing s (fld (c.w 2) 9 0)).map (fun p => (1, p))) } (fun u =>
      u.out.link = s.out.link ++ [ownFrame s 11 [packWord [(fld (c.w 2) 9 0, 0)]]] ++
        (facing s (fld (c.w 2) 9 0)).map LinkSent.wake))

/-- Reads over the sideband (R607 to R609): a part that is up answers IDENT with its identity words, READ_BAR0 and READ_BAR2 with
the words as they stand, a claim register and REEL_e_RX as 0, and nothing but the port and its answer changes; a part in Dusk
or in reset answers 0xFF. Export (R610): EXPORT_OPEN opens a stream of the selected slot, EXPORT_READ gives its next bytes and
pads past the end, where the stream closes, EXPORT_STATUS gives what is left and SEQ, and 1 s without a transaction closes it.
Where the spec leaves a point of it open, the clauses follow the model's choices or readings of log entries 13, 60. -/
def Obligations.SidebandReadsAndExports : Prop :=
  (∀ s : State, s.Up → exec .ident s =
    .next { s.tick s.clk.now with
              side := { s.side with lastAt := s.clk.now }
              out := { s.out with
                sideband := wordsBytes [bar0Word s 0, bar0Word s 4, bar0Word s 0x18, bar0Word s 0x38, bar0Word s 0x2030] } }) ∧
  (∀ (s : State) (t o n : Nat), s.Up → o % 4 = 0 → o + 4 * n ≤ 0x100000 →
    exec (.readBar0 t o n) s =
      .next { s.tick t with
                side := { s.side with lastAt := max s.clk.now t }
                out := { s.out with
                  sideband := wordsBytes ((List.range n).map (fun i =>
                    if (0x4100 ≤ o + 4 * i ∧ o + 4 * i < 0x4200 ∧ (o + 4 * i) % 16 = 4) ∨
                      (0xB400 ≤ o + 4 * i ∧ o + 4 * i < 0xB800 ∧ (o + 4 * i) % 64 = 32) then 0
                    else bar0Word (s.tick t) (o + 4 * i))) } }) ∧
  (∀ (s : State) (t o n : Nat), s.Up → o % 4 = 0 → o + 4 * n ≤ 0x800000 →
    exec (.readBar2 t o n) s =
      .next { s.tick t with
                side := { s.side with lastAt := max s.clk.now t }
                out := { s.out with sideband := wordsBytes ((List.range n).map (fun i => bar2Word (s.tick t) (o + 4 * i))) } }) ∧
  (∀ (s : State) (t o n : Nat), s.pwr.asleep = true → exec (.readBar0 t o n) s =
    .next { s.tick t with out := { s.out with sideband := List.replicate (4 * n) 0xFF } }) ∧
  (∀ s : State, s.Up → exec .exportOpen s =
    .next { s.tick s.clk.now with side := { s.side with
      lastAt := s.clk.now
      stream := some (s.jrn.selected.take (72 + slotLen s.jrn.selected))
      seq := s.jrn.seq } }) ∧
  (∀ (s : State) (t n : Nat) (l : List Byte), s.Up → s.side.stream = some l → n < l.length →
    exec (.exportRead t n) s =
      .next { s.tick t with
                side := { s.side with lastAt := max s.clk.now t, stream := some (l.drop n) }
                out := { s.out with sideband := l.take n } }) ∧
  (∀ (s : State) (t n : Nat) (l : List Byte), s.Up → s.side.stream = some l → l.length ≤ n →
    Runs (.exportRead t n) s (fun u => u.out.sideband = l ++ List.replicate (n - l.length) 0xFF ∧ u.side.stream = none ∧
      u.side.seq = 0 ∧ ChangesOnly [.clk, .out, .jrn, .side] s u)) ∧
  (∀ s : State, s.Up → exec .exportStatus s =
    .next { s.tick s.clk.now with
              side := { s.side with lastAt := s.clk.now }
              out := { s.out with sideband := wordsBytes [ofNat32 (s.side.stream.getD []).length, ofNat32 s.side.seq] } }) ∧
  (∀ (s : State) (t : Nat), s.Up → s.side.stream.isSome = true → s.side.lastAt + 1000 * 400000 ≤ max s.clk.now t →
    Runs (.exportTimeout t) s (fun u => u.side.stream = none ∧ u.side.seq = 0 ∧ u.side.imp = s.side.imp ∧
      ChangesOnly [.clk, .jrn, .side] s u)) ∧
  (∀ (s : State) (t : Nat), s.Up → max s.clk.now t < s.side.lastAt + 1000 * 400000 → exec (.exportTimeout t) s = .next (s.tick t))

/-- Import (R611 to R613): IMPORT_OPEN with its key opens an import in SAFE_HOLD before the seal while RUN = 0, and fails with its
code otherwise, IMPORT_DATA appends, IMPORT_FINISH checks the staged slot and begins its write or fails with the check's code,
and IMPORT_STATUS reads DONE once. Where the spec leaves a point of it open, the clauses follow the model's choices or
readings of log entry 60. -/
def Obligations.ImportChecksAndWritesASlot : Prop :=
  (∀ (s : State) (t : Nat), s.Up → s.side.imp ≠ 2 → s.glb.safeHold = true → s.glb.isSealed = false → s.running = false →
    exec (.importOpen t 0x544D5049) s =
      .next { s.tick t with side := { s.side with lastAt := max s.clk.now t, imp := 1, code := 0, staged := [] } }) ∧
  (∀ (s : State) (t : Nat) (k : Word), s.Up → s.side.imp ≠ 2 → k ≠ 0x544D5049 →
    exec (.importOpen t k) s = .next { s.tick t with side := { s.side with lastAt := max s.clk.now t, imp := 4, code := 1 } }) ∧
  (∀ (s : State) (t : Nat), s.Up → s.side.imp ≠ 2 → (s.glb.safeHold = false ∨ s.glb.isSealed = true ∨ s.running = true) →
    exec (.importOpen t 0x544D5049) s =
      .next { s.tick t with side := { s.side with lastAt := max s.clk.now t, imp := 4, code := 2 } }) ∧
  (∀ (s : State) (t : Nat) (l : List Byte), s.Up → s.side.imp = 1 → l.length ≤ 256 →
    exec (.importData t l) s =
      .next { s.tick t with side := { s.side with lastAt := max s.clk.now t, staged := s.side.staged ++ l } }) ∧
  (∀ s : State, s.Up → s.side.imp = 1 → importCheck s.side.staged = 0 →
    exec .importFinish s = .next { s.tick s.clk.now with side := { s.side with lastAt := s.clk.now, imp := 2, code := 0 } }) ∧
  (∀ s : State, s.Up → s.side.imp = 1 → importCheck s.side.staged ≠ 0 →
    exec .importFinish s =
      .next { s.tick s.clk.now with side := { s.side with lastAt := s.clk.now, imp := 4, code := importCheck s.side.staged } }) ∧
  (∀ s : State, s.Up → exec .importStatus s =
    .next { s.tick s.clk.now with
              side := { s.side with lastAt := s.clk.now, imp := if s.side.imp = 3 then 0 else s.side.imp }
              out := { s.out with
                sideband := [BitVec.ofNat 8 s.side.imp, BitVec.ofNat 8 s.side.code, 0, 0] ++
                  wordBytes (ofNat32 s.side.staged.length) } }) ∧
  (∀ (s : State) (t : Nat), s.Up → s.side.imp = 2 → s.jrn.writing = none →
    Runs (.importWriteDone t true) s (fun u => u.side = { imp := 3 } ∧ u.pwr.inReset = true ∧ u.jrn.sel = none ∧
      u.jrn.slotA = (if s.jrn.sel = some false then s.jrn.slotA else importSlot (s.tick t)) ∧
      u.jrn.slotB = (if s.jrn.sel = some false then importSlot (s.tick t) else s.jrn.slotB) ∧ u.glb.safeHold = true)) ∧
  (∀ (s : State) (t : Nat), s.Up → s.side.imp = 2 → s.jrn.writing = none →
    Runs (.importWriteDone t false) s (fun u => u.side = { s.side with imp := 4, code := 7 } ∧ u.jrn.slotA = s.jrn.slotA ∧
      u.jrn.slotB = s.jrn.slotB ∧ ChangesOnly [.clk, .jrn, .side] s u))

/-- The synchronizing check (R90 to R93): ARM arms it for ARM_TO seconds and CANCEL disarms it, an evaluation at a multiple of 10
µs of DTIME shows whether the check is permissive and fires only while it is armed, and an armed check that has not fired in
time sets TIMED_OUT. Where the spec leaves a point of it open, the clauses follow the model's choices or readings of log
entries 3, 70. -/
def Obligations.TheSynchronizingCheckArmsAndTimesOut : Prop :=
  (∀ (s : State) (t : Nat), s.Open → s.rb 0xC500 1 = false →
    Runs (.syncCheckArm t) s (fun u => u.sync.armed = true ∧
      u.sync.until_ = max s.clk.now t + 1000 * (400000 * s.rf 0xC500 15 8) ∧ u.rf 0xC500 15 8 = s.rf 0xC500 15 8 ∧ u.mem = s.mem)) ∧
  (∀ (s : State) (t : Nat), s.Open → s.rb 0xC500 0 = false →
    Runs (.syncCheckCancel t) s (fun u => u.sync = { s.sync with armed := false } ∧ u.rf 0xC500 15 8 = s.rf 0xC500 15 8 ∧
      u.mem = s.mem)) ∧
  (∀ (s : State) (t : Nat), s.Up → s.sync.armed = true → s.sync.until_ ≤ max s.clk.now t →
    exec (.syncCheckTimeout t) s =
      .next ({ s.tick t with sync := { s.sync with armed := false } }.setRf 0xC510 3 3 1)) ∧
  (∀ (s : State) (t : Nat), s.Up → s.sync.armed = false → exec (.syncCheckTimeout t) s = .next (s.tick t)) ∧
  (∀ (s : State) (t : Nat), s.Up → (s.tick t).dtime / 10000 ≠ (s.tick t).dtimeBefore / 10000 → s.sync.armed = false →
    Runs (.syncCheckEval t) s (fun u => u.sync.armed = false ∧ u.sync.evalAt = some (max s.clk.now t) ∧
      u.reg 0xC514 = ofInt32 (syncPhase s) ∧ u.reg 0xC518 = ofInt32 (syncSlip s) ∧
      u.rb 0xC510 0 = syncOk s (syncPhase s) (syncSlip s) (syncVolt s) ∧ u.rb 0xC510 2 = s.rb 0xC510 2 ∧ u.reel = s.reel)) ∧
  (∀ (s : State) (t : Nat), s.Up → (s.tick t).dtime / 10000 = (s.tick t).dtimeBefore / 10000 →
    exec (.syncCheckEval t) s = .next (s.tick t)) ∧
  (∀ (s : State) (p g : Int) (v : Int), syncOk s p g v = true ↔ (s.el 2).st = .cycle ∧ (s.el 3).st = .cycle ∧
    10 * p.natAbs ≤ s.rf 0xC504 7 0 * 65536 ∧ g.natAbs ≤ s.rf 0xC508 15 0 ∧ v.natAbs ≤ s.rf 0xC504 15 8)

/-- A read of the host that never completes is a failed one (R324, R371), and the MSI-X Enable and Function Mask bits hold
messages back or release them (R388). JTAG (R596, R597): a rising edge moves the TAP controller by TMS and shifts in Shift-DR,
a falling edge puts the shifted instruction or the scan cells in force, Test-Logic-Reset selects IDCODE, nothing but the JTAG
port changes, and LSG_c shows its scan cell under EXTEST and CLAMP, nothing under HIGHZ, and its drive cell's level otherwise.
Where the spec leaves a point of it open, the clauses follow the model's choices or readings of log entries 5, 7, 27. -/
def Obligations.LostReadsMasksAndJtag : Prop :=
  (∀ (s : State) (t : Nat), s.Up → s.hif.pollBusy = true →
    exec (.completionTimeout t .poll) s = .next { s.tick t with hif := { s.hif with pollBusy := false } }) ∧
  (∀ (s : State) (t : Nat) (r : Fin 64), s.Up → ringOn s r.val = true → (s.ring r.val).want ≠ 0 → s.suspended = false →
    s.pwr.entry = 0 → (s.ring r.val).fails < 2 →
    exec (.completionTimeout t (.descriptor r)) s =
      .next ((s.tick t).setRing r.val { s.ring r.val with fails := (s.ring r.val).fails + 1, want := 0 })) ∧
  (∀ (s : State) (t : Nat) (n : Fin 32), s.Up → (s.xch n.val).reading = .desc → (s.xch n.val).unsent = false →
    Runs (.completionTimeout t (.xfrDescriptor n)) s (fun u => (u.xch n.val).st = .error ∧
      ∀ m, m ≠ n.val → u.xch m = s.xch m)) ∧
  (∀ (s : State) (t : Nat) (n : Fin 32), s.Up → (s.xch n.val).reading = .data → (s.xch n.val).unsent = false →
    Runs (.completionTimeout t (.xfrData n)) s (fun u => (u.xch n.val).st = .error ∧ ∀ m, m ≠ n.val → u.xch m = s.xch m)) ∧
  (∀ (s : State) (t : Nat) (n : Fin 32), s.Up → (s.xch n.val).reading = .link → (s.xch n.val).unsent = false →
    Runs (.completionTimeout t (.xfrLink n)) s (fun u => (u.xch n.val).st = .error ∧ ∀ m, m ≠ n.val → u.xch m = s.xch m)) ∧
  (∀ (s : State) (t : Nat) (e m : Bool), s.Up →
    Runs (.msixFunctionMaskWrite t e m) s (fun u => u.irq.msixEn = e ∧ u.irq.msixMask = m ∧ ChangesOnly [.clk, .irq] s u)) ∧
  (∀ (s : State) (t : Nat) (m d : Bool),
    Runs (.jtagTckEdge t true m d) s (fun u => u.jtag.tap = s.jtag.tap.next m ∧ u.jtag.ir = s.jtag.ir ∧
      u.jtag.cells = s.jtag.cells ∧ (s.jtag.tap = .shDr → u.jtag.dr = s.jtag.dr.drop 1 ++ [d]) ∧
      (s.jtag.tap = .capDr → s.jtag.ir = 2 → u.jtag.dr = (List.range 32).map (fun i => Nat.testBit 0x26400A3D i)) ∧
      ChangesOnly [.clk, .jtag, .free] s u)) ∧
  (∀ (s : State) (t : Nat) (m d : Bool),
    Runs (.jtagTckEdge t false m d) s (fun u => u.jtag.tap = s.jtag.tap ∧
      u.jtag.ir = (if s.jtag.tap = .reset then 2 else if s.jtag.tap = .upIr then s.jtag.irShift else s.jtag.ir) ∧
      u.jtag.cells = (if s.jtag.tap = .upDr ∧ (s.jtag.ir = 0 ∨ s.jtag.ir = 1) then s.jtag.dr else s.jtag.cells) ∧
      ChangesOnly [.clk, .jtag] s u)) ∧
  (∀ (s : State) (c : Nat), lsgPin s c =
    if s.jtag.ir = 0 ∨ s.jtag.ir = 4 then some (s.jtag.cells.getD (Config.bsLsg c) false)
    else if s.jtag.ir = 5 then none else some ((s.cell c).lsg.levelAt s.clk.now))
end

