-- ==== Sys2Proof/Laws/PerInstr.lean ====
section
/-!
SUPPORT. What holds of every command as syntax, one lemma per constructor: every command takes time and none takes the queue
of waiting commands into its footprint.
-/
namespace Sys2Proof.Laws

/-- The footprint of a command names the clock, and not the queue of waiting commands. -/
def Footprint.Statement (i : Instr) : Prop :=
  ((Machine.footprint i).contains .clk && !(Machine.footprint i).contains .pending) = true

theorem Footprint.registerWrite (t : Nat) (addr size : Nat) (val : BitVec 64) : Footprint.Statement (.registerWrite t addr size val) := rfl
theorem Footprint.lowHalfRead (t : Nat) (addr : ReadAt) : Footprint.Statement (.lowHalfRead t addr) := rfl
theorem Footprint.dtimeLowRead (t : Nat) : Footprint.Statement (.dtimeLowRead t) := rfl
theorem Footprint.sealWrite (t : Nat) (v : Word) : Footprint.Statement (.sealWrite t v) := rfl
theorem Footprint.behLevelWrite (t : Nat) (v : Word) : Footprint.Statement (.behLevelWrite t v) := rfl
theorem Footprint.bar2Write (t : Nat) (addr size : Nat) (val : BitVec 64) : Footprint.Statement (.bar2Write t addr size val) := rfl
theorem Footprint.poisonedRead (t : Nat) (bar : Fin 3) (addr : Nat) : Footprint.Statement (.poisonedRead t bar addr) := rfl
theorem Footprint.fabricGrant (t : Nat) (arrivals : List (Fin 11)) : Footprint.Statement (.fabricGrant t arrivals) := rfl
theorem Footprint.class2Promotion (t : Nat) (k : Fin 11) : Footprint.Statement (.class2Promotion t k) := rfl
theorem Footprint.pllSwitch (t : Nat) (r : Fin 64) : Footprint.Statement (.pllSwitch t r) := rfl
theorem Footprint.pllReq (t : Nat) : Footprint.Statement (.pllReq t) := rfl
theorem Footprint.clockSwitch (t : Nat) : Footprint.Statement (.clockSwitch t) := rfl
theorem Footprint.pllSwitchTimeout (t : Nat) : Footprint.Statement (.pllSwitchTimeout t) := rfl
theorem Footprint.pllLockLoss (t : Nat) : Footprint.Statement (.pllLockLoss t) := rfl
theorem Footprint.crankEdge (t : Nat) (d : Fin 2) (e : InputEdge) (dir : Option Bool) : Footprint.Statement (.crankEdge t d e dir) := rfl
theorem Footprint.vrArm (t : Nat) (d : Fin 2) (cam : Bool) (mv : Int) : Footprint.Statement (.vrArm t d cam mv) := rfl
theorem Footprint.crankTrailingEdge (t : Nat) (d : Fin 2) (ts : Nat) : Footprint.Statement (.crankTrailingEdge t d ts) := rfl
theorem Footprint.widthLimitExpiry (t : Nat) (d : Fin 2) : Footprint.Statement (.widthLimitExpiry t d) := rfl
theorem Footprint.camEdge (t : Nat) (d : Fin 2) (ts : Nat) (lv : Int) : Footprint.Statement (.camEdge t d ts lv) := rfl
theorem Footprint.edgeTimeout (t : Nat) (d : CrankWatch) : Footprint.Statement (.edgeTimeout t d) := rfl
theorem Footprint.stallTimeout (t : Nat) (d : CrankWatch) : Footprint.Statement (.stallTimeout t d) := rfl
theorem Footprint.resync (t : Nat) (d : Fin 4) : Footprint.Statement (.resync t d) := rfl
theorem Footprint.domainEnable (t : Nat) (d : Fin 4) : Footprint.Statement (.domainEnable t d) := rfl
theorem Footprint.domainDisable (t : Nat) (d : Fin 4) : Footprint.Statement (.domainDisable t d) := rfl
theorem Footprint.toothTableBar2Write (t : Nat) (addr size : Nat) (val : BitVec 64) : Footprint.Statement (.toothTableBar2Write t addr size val) := rfl
theorem Footprint.learnStart (t : Nat) (d : Fin 2) : Footprint.Statement (.learnStart t d) := rfl
theorem Footprint.learnAbort (t : Nat) (d : Fin 2) : Footprint.Statement (.learnAbort t d) := rfl
theorem Footprint.contributionUpdate (t : Nat) (d : Fin 2) : Footprint.Statement (.contributionUpdate t d) := rfl
theorem Footprint.zeroCrossing (t : Nat) (d : Fin 2) : Footprint.Statement (.zeroCrossing t d) := rfl
theorem Footprint.electricalStallTimeout (t : Nat) (d : Fin 2) : Footprint.Statement (.electricalStallTimeout t d) := rfl
theorem Footprint.electricalNoneTimeout (t : Nat) (d : Fin 2) : Footprint.Statement (.electricalNoneTimeout t d) := rfl
theorem Footprint.angleUpdate (t : Nat) (d : Fin 4) : Footprint.Statement (.angleUpdate t d) := rfl
theorem Footprint.startUnitFree (t : Nat) (u : Fin 5) : Footprint.Statement (.startUnitFree t u) := rfl
theorem Footprint.eventTableBar2Write (t : Nat) (addr size : Nat) (val : BitVec 64) : Footprint.Statement (.eventTableBar2Write t addr size val) := rfl
theorem Footprint.slotWrite (t : Nat) (r : Fin 64) : Footprint.Statement (.slotWrite t r) := rfl
theorem Footprint.shadowDrop (t : Nat) (r : Fin 64) : Footprint.Statement (.shadowDrop t r) := rfl
theorem Footprint.slotCancel (t : Nat) (r : Fin 64) : Footprint.Statement (.slotCancel t r) := rfl
theorem Footprint.domainCancel (t : Nat) (r : Fin 64) : Footprint.Statement (.domainCancel t r) := rfl
theorem Footprint.slotQuery (t : Nat) (r : Fin 64) : Footprint.Statement (.slotQuery t r) := rfl
theorem Footprint.startAdmit (t : Nat) (c : Fin 64) : Footprint.Statement (.startAdmit t c) := rfl
theorem Footprint.overlapTimeout (t : Nat) (c : Fin 64) : Footprint.Statement (.overlapTimeout t c) := rfl
theorem Footprint.reboostWaitExpiry (t : Nat) (c : Fin 64) : Footprint.Statement (.reboostWaitExpiry t c) := rfl
theorem Footprint.windowCrossing (t : Nat) (w : Fin 98) (lo hi : Int) : Footprint.Statement (.windowCrossing t w lo hi) := rfl
theorem Footprint.phaseTimerExpiry (t : Nat) (c : Fin 64) : Footprint.Statement (.phaseTimerExpiry t c) := rfl
theorem Footprint.timeCapExpiry (t : Nat) (c : Fin 64) : Footprint.Statement (.timeCapExpiry t c) := rfl
theorem Footprint.mixFastExpiry (t : Nat) (c : Fin 64) : Footprint.Statement (.mixFastExpiry t c) := rfl
theorem Footprint.ditherHalfPeriod (t : Nat) (c : Fin 64) : Footprint.Statement (.ditherHalfPeriod t c) := rfl
theorem Footprint.holdExpiry (t : Nat) (c : Fin 64) : Footprint.Statement (.holdExpiry t c) := rfl
theorem Footprint.kinkResult (t : Nat) (b : Fin 16) : Footprint.Statement (.kinkResult t b) := rfl
theorem Footprint.leakTimeout (t : Nat) (c : Fin 64) : Footprint.Statement (.leakTimeout t c) := rfl
theorem Footprint.blankingEnd (t : Nat) (w : Fin 98) : Footprint.Statement (.blankingEnd t w) := rfl
theorem Footprint.initialDecision (t : Nat) (w : Fin 98) (lo hi : Int) : Footprint.Statement (.initialDecision t w lo hi) := rfl
theorem Footprint.windowEnable (t : Nat) (w : Fin 98) : Footprint.Statement (.windowEnable t w) := rfl
theorem Footprint.windowDisable (t : Nat) (w : Fin 98) : Footprint.Statement (.windowDisable t w) := rfl
theorem Footprint.channelEnable (t : Nat) (c : Fin 64) : Footprint.Statement (.channelEnable t c) := rfl
theorem Footprint.channelEnClear (t : Nat) (c : Fin 64) : Footprint.Statement (.channelEnClear t c) := rfl
theorem Footprint.disable (t : Nat) (c : Fin 64) : Footprint.Statement (.disable t c) := rfl
theorem Footprint.reenable (t : Nat) (c : Fin 64) : Footprint.Statement (.reenable t c) := rfl
theorem Footprint.resume (t : Nat) (b : Fin 16) : Footprint.Statement (.resume t b) := rfl
theorem Footprint.profileBar2Write (t : Nat) (addr size : Nat) (val : BitVec 64) : Footprint.Statement (.profileBar2Write t addr size val) := rfl
theorem Footprint.profileWrite (t : Nat) (r : Fin 64) : Footprint.Statement (.profileWrite t r) := rfl
theorem Footprint.modelBar2Write (t : Nat) (addr size : Nat) (val : BitVec 64) : Footprint.Statement (.modelBar2Write t addr size val) := rfl
theorem Footprint.modelWrite (t : Nat) (r : Fin 64) : Footprint.Statement (.modelWrite t r) := rfl
theorem Footprint.modelReset (t : Nat) (r : Fin 64) : Footprint.Statement (.modelReset t r) := rfl
theorem Footprint.pressureSet (t : Nat) (r : Fin 64) : Footprint.Statement (.pressureSet t r) := rfl
theorem Footprint.balanceBar2Write (t : Nat) (addr size : Nat) (val : BitVec 64) : Footprint.Statement (.balanceBar2Write t addr size val) := rfl
theorem Footprint.converterTimerExpiry (t : Nat) (k : Fin 18) (j : Fin 4) : Footprint.Statement (.converterTimerExpiry t k j) := rfl
theorem Footprint.stepReady (t : Nat) (k : Fin 18) (step : Fin 32) : Footprint.Statement (.stepReady t k step) := rfl
theorem Footprint.conversionStart (t : Nat) (k : Fin 18) : Footprint.Statement (.conversionStart t k) := rfl
theorem Footprint.conversionEnd (t : Nat) (k : Fin 18) (code : Fin 4096) (ovrHi ovrLo : Bool) : Footprint.Statement (.conversionEnd t k code ovrHi ovrLo) := rfl
theorem Footprint.maxwaitExpiry (t : Nat) (k : Fin 18) (step : Fin 32) : Footprint.Statement (.maxwaitExpiry t k step) := rfl
theorem Footprint.referenceCheck (t : Nat) : Footprint.Statement (.referenceCheck t) := rfl
theorem Footprint.referenceSwitch (t : Nat) (k : Fin 18) : Footprint.Statement (.referenceSwitch t k) := rfl
theorem Footprint.calibrationDue (t : Nat) (k : Fin 18) : Footprint.Statement (.calibrationDue t k) := rfl
theorem Footprint.calSpanExpiry (t : Nat) (k : Fin 18) : Footprint.Statement (.calSpanExpiry t k) := rfl
theorem Footprint.calibrationApply (t : Nat) (k : Fin 18) : Footprint.Statement (.calibrationApply t k) := rfl
theorem Footprint.adcStepWrite (t : Nat) (r : Fin 64) : Footprint.Statement (.adcStepWrite t r) := rfl
theorem Footprint.pcieFundamentalReset (t : Nat) : Footprint.Statement (.pcieFundamentalReset t) := rfl
theorem Footprint.suspension (t : Nat) (pci : PciSetting) (dstate lstate : Nat) : Footprint.Statement (.suspension t pci dstate lstate) := rfl
theorem Footprint.runStart (t : Nat) : Footprint.Statement (.runStart t) := rfl
theorem Footprint.doorbellPoll (t : Nat) : Footprint.Statement (.doorbellPoll t) := rfl
theorem Footprint.pollDataReturn (t : Nat) (ok : Bool) (gen : Word) (prods : List (Nat × Nat)) : Footprint.Statement (.pollDataReturn t ok gen prods) := rfl
theorem Footprint.descriptorFetchDone (t : Nat) (r : Fin 64) (desc : Option (List Word)) (buf : Option (List Word)) : Footprint.Statement (.descriptorFetchDone t r desc buf) := rfl
theorem Footprint.nop (t : Nat) (r : Fin 64) : Footprint.Statement (.nop t r) := rfl
theorem Footprint.arm (t : Nat) (r : Fin 64) : Footprint.Statement (.arm t r) := rfl
theorem Footprint.modeSet (t : Nat) (r : Fin 64) : Footprint.Statement (.modeSet t r) := rfl
theorem Footprint.cfgWrite (t : Nat) (r : Fin 64) : Footprint.Statement (.cfgWrite t r) := rfl
theorem Footprint.tableWrite (t : Nat) (r : Fin 64) : Footprint.Statement (.tableWrite t r) := rfl
theorem Footprint.msixTableWrite (t : Nat) (addr size : Nat) (val : BitVec 64) : Footprint.Statement (.msixTableWrite t addr size val) := rfl
theorem Footprint.telemetryPeriod (t : Nat) (p : Fin 256) : Footprint.Statement (.telemetryPeriod t p) := rfl
theorem Footprint.freshnessExpiry (t : Nat) (p : Fin 256) : Footprint.Statement (.freshnessExpiry t p) := rfl
theorem Footprint.queueCloseTimeout (t : Nat) (q : Fin 24) : Footprint.Statement (.queueCloseTimeout t q) := rfl
theorem Footprint.queueWordHead (t : Nat) (q : Fin 24) : Footprint.Statement (.queueWordHead t q) := rfl
theorem Footprint.capturePairTimeout (t : Nat) (r : Fin 64) : Footprint.Statement (.capturePairTimeout t r) := rfl
theorem Footprint.queFlush (t : Nat) (r : Fin 64) : Footprint.Statement (.queFlush t r) := rfl
theorem Footprint.queAck (t : Nat) (r : Fin 64) : Footprint.Statement (.queAck t r) := rfl
theorem Footprint.queClose (t : Nat) (r : Fin 64) : Footprint.Statement (.queClose t r) := rfl
theorem Footprint.queueDisable (t : Nat) (q : Fin 24) : Footprint.Statement (.queueDisable t q) := rfl
theorem Footprint.levelEvtClear (t : Nat) (q : Fin 24) : Footprint.Statement (.levelEvtClear t q) := rfl
theorem Footprint.xfrStart (t : Nat) (r : Fin 64) : Footprint.Statement (.xfrStart t r) := rfl
theorem Footprint.xfrStop (t : Nat) (r : Fin 64) : Footprint.Statement (.xfrStop t r) := rfl
theorem Footprint.xfrCtlStart (t : Nat) (n : Fin 32) : Footprint.Statement (.xfrCtlStart t n) := rfl
theorem Footprint.xfrCtlStop (t : Nat) (n : Fin 32) : Footprint.Statement (.xfrCtlStop t n) := rfl
theorem Footprint.xfrDescriptorFetched (t : Nat) (n : Fin 32) (desc : Option (List Word)) : Footprint.Statement (.xfrDescriptorFetched t n desc) := rfl
theorem Footprint.xfrTimerExpiry (t : Nat) (k : Fin 4) : Footprint.Statement (.xfrTimerExpiry t k) := rfl
theorem Footprint.xfrReadData (t : Nat) (n : Fin 32) (data : Option (List Word)) : Footprint.Statement (.xfrReadData t n data) := rfl
theorem Footprint.xfrBlockEnd (t : Nat) (n : Fin 32) : Footprint.Statement (.xfrBlockEnd t n) := rfl
theorem Footprint.xfrLinkRead (t : Nat) (n : Fin 32) (link : Option Nat) : Footprint.Statement (.xfrLinkRead t n link) := rfl
theorem Footprint.traceMark (t : Nat) (r : Fin 64) : Footprint.Statement (.traceMark t r) := rfl
theorem Footprint.traceRewind (t : Nat) (r : Fin 64) : Footprint.Statement (.traceRewind t r) := rfl
theorem Footprint.traceAdvance (t : Nat) (r : Fin 64) : Footprint.Statement (.traceAdvance t r) := rfl
theorem Footprint.holdoffExpiry (t : Nat) (k : Fin 16) : Footprint.Statement (.holdoffExpiry t k) := rfl
theorem Footprint.msixMessage (t : Nat) (k : Fin 16) : Footprint.Statement (.msixMessage t k) := rfl
theorem Footprint.irqClaim (t : Nat) (k : Fin 16) (byWarden : Bool) : Footprint.Statement (.irqClaim t k byWarden) := rfl
theorem Footprint.irqComplete (t : Nat) (k : Fin 16) (byWarden : Bool) (v : Word) : Footprint.Statement (.irqComplete t k byWarden v) := rfl
theorem Footprint.pendSetWrite (t : Nat) (w : Fin 16) (v : Word) : Footprint.Statement (.pendSetWrite t w v) := rfl
theorem Footprint.pendClrWrite (t : Nat) (w : Fin 16) (v : Word) : Footprint.Statement (.pendClrWrite t w v) := rfl
theorem Footprint.enSetWrite (t : Nat) (k w : Fin 16) (v : Word) : Footprint.Statement (.enSetWrite t k w v) := rfl
theorem Footprint.enClrWrite (t : Nat) (k w : Fin 16) (v : Word) : Footprint.Statement (.enClrWrite t k w v) := rfl
theorem Footprint.idleSetWrite (t : Nat) (byWarden : Bool) (v : Word) : Footprint.Statement (.idleSetWrite t byWarden v) := rfl
theorem Footprint.idleClrWrite (t : Nat) (byWarden : Bool) (v : Word) : Footprint.Statement (.idleClrWrite t byWarden v) := rfl
theorem Footprint.goto (t : Nat) (e : Fin 16) : Footprint.Statement (.goto t e) := rfl
theorem Footprint.await (t : Nat) (e : Fin 16) : Footprint.Statement (.await t e) := rfl
theorem Footprint.bitin (t : Nat) (e : Fin 16) : Footprint.Statement (.bitin t e) := rfl
theorem Footprint.bitout (t : Nat) (e : Fin 16) : Footprint.Statement (.bitout t e) := rfl
theorem Footprint.group (t : Nat) (e : Fin 16) : Footprint.Statement (.group t e) := rfl
theorem Footprint.fill (t : Nat) (e : Fin 16) : Footprint.Statement (.fill t e) := rfl
theorem Footprint.drain (t : Nat) (e : Fin 16) : Footprint.Statement (.drain t e) := rfl
theorem Footprint.drive (t : Nat) (e : Fin 16) : Footprint.Statement (.drive t e) := rfl
theorem Footprint.load (t : Nat) (e : Fin 16) : Footprint.Statement (.load t e) := rfl
theorem Footprint.move (t : Nat) (e : Fin 16) : Footprint.Statement (.move t e) := rfl
theorem Footprint.flag (t : Nat) (e : Fin 16) : Footprint.Statement (.flag t e) := rfl
theorem Footprint.adjust (t : Nat) (e : Fin 16) : Footprint.Statement (.adjust t e) := rfl
theorem Footprint.reelDelayCycle (t : Nat) (e : Fin 16) : Footprint.Statement (.reelDelayCycle t e) := rfl
theorem Footprint.reelEnable (t : Nat) (e : Fin 16) : Footprint.Statement (.reelEnable t e) := rfl
theorem Footprint.reelDisable (t : Nat) (e : Fin 16) : Footprint.Statement (.reelDisable t e) := rfl
theorem Footprint.reelRestart (t : Nat) (e : Fin 16) : Footprint.Statement (.reelRestart t e) := rfl
theorem Footprint.reelFlushIn (t : Nat) (e : Fin 16) : Footprint.Statement (.reelFlushIn t e) := rfl
theorem Footprint.reelFlushOut (t : Nat) (e : Fin 16) : Footprint.Statement (.reelFlushOut t e) := rfl
theorem Footprint.reelTxWrite (t : Nat) (e : Fin 16) (v : Word) : Footprint.Statement (.reelTxWrite t e v) := rfl
theorem Footprint.reelRxRead (t : Nat) (e : Fin 16) : Footprint.Statement (.reelRxRead t e) := rfl
theorem Footprint.reelInjectWrite (t : Nat) (e : Fin 16) (v : Word) : Footprint.Statement (.reelInjectWrite t e v) := rfl
theorem Footprint.reelWrapWrite (t : Nat) (e : Fin 16) (v : Word) : Footprint.Statement (.reelWrapWrite t e v) := rfl
theorem Footprint.reelFlagsSetWrite (t : Nat) (v : Word) : Footprint.Statement (.reelFlagsSetWrite t v) := rfl
theorem Footprint.reelFlagsClrWrite (t : Nat) (v : Word) : Footprint.Statement (.reelFlagsClrWrite t v) := rfl
theorem Footprint.reelImemBar2Write (t : Nat) (addr size : Nat) (val : BitVec 64) : Footprint.Statement (.reelImemBar2Write t addr size val) := rfl
theorem Footprint.reelImemWrite (t : Nat) (r : Fin 64) : Footprint.Statement (.reelImemWrite t r) := rfl
theorem Footprint.reelWrap (t : Nat) (r : Fin 64) : Footprint.Statement (.reelWrap t r) := rfl
theorem Footprint.reelControl (t : Nat) (r : Fin 64) : Footprint.Statement (.reelControl t r) := rfl
theorem Footprint.reelInject (t : Nat) (r : Fin 64) : Footprint.Statement (.reelInject t r) := rfl
theorem Footprint.reelWrite (t : Nat) (r : Fin 64) : Footprint.Statement (.reelWrite t r) := rfl
theorem Footprint.reelFlag (t : Nat) (r : Fin 64) : Footprint.Statement (.reelFlag t r) := rfl
theorem Footprint.reelInTransfer (t : Nat) (e : Fin 16) : Footprint.Statement (.reelInTransfer t e) := rfl
theorem Footprint.rpPinChange (t : Nat) (p : Fin 32) (e : PinChange) : Footprint.Statement (.rpPinChange t p e) := rfl
theorem Footprint.hsShort (t : Nat) (c : Fin 64) : Footprint.Statement (.hsShort t c) := rfl
theorem Footprint.boostCollapse (t : Nat) (b : Fin 16) : Footprint.Statement (.boostCollapse t b) := rfl
theorem Footprint.lockstepMismatch (t : Nat) (u : Fin 5) : Footprint.Statement (.lockstepMismatch t u) := rfl
theorem Footprint.heartbeat (t : Nat) (u : Fin 5) : Footprint.Statement (.heartbeat t u) := rfl
theorem Footprint.heartbeatTimeout (t : Nat) (u : Fin 5) : Footprint.Statement (.heartbeatTimeout t u) := rfl
theorem Footprint.reflectionItem (t : Nat) (u : Fin 5) : Footprint.Statement (.reflectionItem t u) := rfl
theorem Footprint.reflectionCheckpoint (t : Nat) (u : Fin 5) : Footprint.Statement (.reflectionCheckpoint t u) := rfl
theorem Footprint.reflectionCopyDone (t : Nat) (n : Fin 4) : Footprint.Statement (.reflectionCopyDone t n) := rfl
theorem Footprint.takeoverBegin (t : Nat) : Footprint.Statement (.takeoverBegin t) := rfl
theorem Footprint.firstEvaluation (t : Nat) : Footprint.Statement (.firstEvaluation t) := rfl
theorem Footprint.scrubTick (t : Nat) (store inst addr : Nat) (err : BitVec 144) : Footprint.Statement (.scrubTick t store inst addr err) := rfl
theorem Footprint.regionTakeover (t : Nat) (r : Fin 64) : Footprint.Statement (.regionTakeover t r) := rfl
theorem Footprint.regionTest (t : Nat) (r : Fin 64) : Footprint.Statement (.regionTest t r) := rfl
theorem Footprint.testStepDone (t : Nat) (u : Fin 5) (pass : Bool) : Footprint.Statement (.testStepDone t u pass) := rfl
theorem Footprint.faultLogClear (t : Nat) (r : Fin 64) : Footprint.Statement (.faultLogClear t r) := rfl
theorem Footprint.chipReset (t : Nat) (r : Fin 64) : Footprint.Statement (.chipReset t r) := rfl
theorem Footprint.planEvaluation (t : Nat) : Footprint.Statement (.planEvaluation t) := rfl
theorem Footprint.planEval (t : Nat) (r : Fin 64) : Footprint.Statement (.planEval t r) := rfl
theorem Footprint.monitorSample (t : Nat) (u : Fin 5) (readings : List Nat) : Footprint.Statement (.monitorSample t u readings) := rfl
theorem Footprint.roundDue (t : Nat) : Footprint.Statement (.roundDue t) := rfl
theorem Footprint.roundStart (t : Nat) (r : Fin 64) : Footprint.Statement (.roundStart t r) := rfl
theorem Footprint.roundAbort (t : Nat) (r : Fin 64) : Footprint.Statement (.roundAbort t r) := rfl
theorem Footprint.roundPostponed (t : Nat) : Footprint.Statement (.roundPostponed t) := rfl
theorem Footprint.roundLend (t : Nat) : Footprint.Statement (.roundLend t) := rfl
theorem Footprint.quietWaitExpiry (t : Nat) : Footprint.Statement (.quietWaitExpiry t) := rfl
theorem Footprint.roundHandBack (t : Nat) : Footprint.Statement (.roundHandBack t) := rfl
theorem Footprint.fwWrite (t : Nat) (r : Fin 64) : Footprint.Statement (.fwWrite t r) := rfl
theorem Footprint.fwVerify (t : Nat) (r : Fin 64) : Footprint.Statement (.fwVerify t r) := rfl
theorem Footprint.fwActivate (t : Nat) (r : Fin 64) : Footprint.Statement (.fwActivate t r) := rfl
theorem Footprint.fwCancel (t : Nat) (r : Fin 64) : Footprint.Statement (.fwCancel t r) := rfl
theorem Footprint.fwRevert (t : Nat) : Footprint.Statement (.fwRevert t) := rfl
theorem Footprint.portUp (t : Nat) (p : Fin 2) : Footprint.Statement (.portUp t p) := rfl
theorem Footprint.portDown (t : Nat) (p : Fin 2) (why : PortLoss) : Footprint.Statement (.portDown t p why) := rfl
theorem Footprint.portSleeping (t : Nat) (p : Fin 2) : Footprint.Statement (.portSleeping t p) := rfl
theorem Footprint.portUnwrap (t : Nat) (p : Fin 2) : Footprint.Statement (.portUnwrap t p) := rfl
theorem Footprint.frameForward (t : Nat) (p : Fin 2) (f : Frame) : Footprint.Statement (.frameForward t p f) := rfl
theorem Footprint.beacon (t : Nat) (p : Fin 2) (f : Frame) (ts : Nat) : Footprint.Statement (.beacon t p f ts) := rfl
theorem Footprint.pdelayReq (t : Nat) (p : Fin 2) (f : Frame) (ts : Nat) : Footprint.Statement (.pdelayReq t p f ts) := rfl
theorem Footprint.pdelayResp (t : Nat) (p : Fin 2) (f : Frame) (ts : Nat) : Footprint.Statement (.pdelayResp t p f ts) := rfl
theorem Footprint.announce (t : Nat) (p : Fin 2) (f : Frame) (ts : Nat) : Footprint.Statement (.announce t p f ts) := rfl
theorem Footprint.sync (t : Nat) (p : Fin 2) (f : Frame) (ts : Nat) : Footprint.Statement (.sync t p f ts) := rfl
theorem Footprint.snap (t : Nat) (p : Fin 2) (f : Frame) (ts : Nat) : Footprint.Statement (.snap t p f ts) := rfl
theorem Footprint.mains (t : Nat) (p : Fin 2) (f : Frame) (ts : Nat) : Footprint.Statement (.mains t p f ts) := rfl
theorem Footprint.epochNotice (t : Nat) (p : Fin 2) (f : Frame) (ts : Nat) : Footprint.Statement (.epochNotice t p f ts) := rfl
theorem Footprint.supervisory (t : Nat) (p : Fin 2) (f : Frame) (ts : Nat) : Footprint.Statement (.supervisory t p f ts) := rfl
theorem Footprint.topo (t : Nat) (p : Fin 2) (f : Frame) (ts : Nat) : Footprint.Statement (.topo t p f ts) := rfl
theorem Footprint.wakeReq (t : Nat) (p : Fin 2) (f : Frame) (ts : Nat) : Footprint.Statement (.wakeReq t p f ts) := rfl
theorem Footprint.announcePeriod (t : Nat) : Footprint.Statement (.announcePeriod t) := rfl
theorem Footprint.pdelayPeriod (t : Nat) (p : Fin 2) : Footprint.Statement (.pdelayPeriod t p) := rfl
theorem Footprint.syncPeriod (t : Nat) : Footprint.Statement (.syncPeriod t) := rfl
theorem Footprint.mainsPeriod (t : Nat) : Footprint.Statement (.mainsPeriod t) := rfl
theorem Footprint.snapPeriod (t : Nat) (k : Fin 4) : Footprint.Statement (.snapPeriod t k) := rfl
theorem Footprint.masterSilenceTimeout (t : Nat) (role : Fin 2) : Footprint.Statement (.masterSilenceTimeout t role) := rfl
theorem Footprint.backupTakeover (t : Nat) (role : Fin 2) : Footprint.Statement (.backupTakeover t role) := rfl
theorem Footprint.backupSilence (t : Nat) (role : Fin 2) : Footprint.Statement (.backupSilence t role) := rfl
theorem Footprint.timeQualityLoss (t : Nat) : Footprint.Statement (.timeQualityLoss t) := rfl
theorem Footprint.mainsTimeout (t : Nat) : Footprint.Statement (.mainsTimeout t) := rfl
theorem Footprint.sourceForget (t : Nat) (src : Nat) : Footprint.Statement (.sourceForget t src) := rfl
theorem Footprint.vlkEnable (t : Nat) (v : Word) : Footprint.Statement (.vlkEnable t v) := rfl
theorem Footprint.linkSend (t : Nat) (r : Fin 64) : Footprint.Statement (.linkSend t r) := rfl
theorem Footprint.linkResign (t : Nat) (r : Fin 64) : Footprint.Statement (.linkResign t r) := rfl
theorem Footprint.linkWake (t : Nat) (r : Fin 64) : Footprint.Statement (.linkWake t r) := rfl
theorem Footprint.duskEnter (t : Nat) (r : Fin 64) : Footprint.Statement (.duskEnter t r) := rfl
theorem Footprint.duskReq (t : Nat) : Footprint.Statement (.duskReq t) := rfl
theorem Footprint.duskCommit (t : Nat) : Footprint.Statement (.duskCommit t) := rfl
theorem Footprint.duskToothEdge (t : Nat) (d : Fin 2) (e : CrankInput) : Footprint.Statement (.duskToothEdge t d e) := rfl
theorem Footprint.wakeLatchEdge (t : Nat) (l : Fin 7) : Footprint.Statement (.wakeLatchEdge t l) := rfl
theorem Footprint.aonTimerExpiry (t : Nat) : Footprint.Statement (.aonTimerExpiry t) := rfl
theorem Footprint.wake (t : Nat) (l : Fin 7) (aonCount : Nat) (eccErr : Bool) : Footprint.Statement (.wake t l aonCount eccErr) := rfl
theorem Footprint.journalCommit (t : Nat) (r : Fin 64) : Footprint.Statement (.journalCommit t r) := rfl
theorem Footprint.commit (t : Nat) : Footprint.Statement (.commit t) := rfl
theorem Footprint.pwrSet (t : Nat) (r : Fin 64) : Footprint.Statement (.pwrSet t r) := rfl
theorem Footprint.powerOnReset (t : Nat) : Footprint.Statement (.powerOnReset t) := rfl
theorem Footprint.supplyMonitorReset (t : Nat) : Footprint.Statement (.supplyMonitorReset t) := rfl
theorem Footprint.pinReset (t : Nat) (width : Nat) : Footprint.Statement (.pinReset t width) := rfl
theorem Footprint.resetRelease (t : Nat) : Footprint.Statement (.resetRelease t) := rfl
theorem Footprint.readBar0 (t : Nat) (off n : Nat) : Footprint.Statement (.readBar0 t off n) := rfl
theorem Footprint.readBar2 (t : Nat) (off n : Nat) : Footprint.Statement (.readBar2 t off n) := rfl
theorem Footprint.exportRead (t : Nat) (n : Nat) : Footprint.Statement (.exportRead t n) := rfl
theorem Footprint.exportTimeout (t : Nat) : Footprint.Statement (.exportTimeout t) := rfl
theorem Footprint.importOpen (t : Nat) (key : Word) : Footprint.Statement (.importOpen t key) := rfl
theorem Footprint.importData (t : Nat) (bytes : List Byte) : Footprint.Statement (.importData t bytes) := rfl
theorem Footprint.importWriteDone (t : Nat) (ok : Bool) : Footprint.Statement (.importWriteDone t ok) := rfl
theorem Footprint.syncCheckEval (t : Nat) : Footprint.Statement (.syncCheckEval t) := rfl
theorem Footprint.syncCheckArm (t : Nat) : Footprint.Statement (.syncCheckArm t) := rfl
theorem Footprint.syncCheckCancel (t : Nat) : Footprint.Statement (.syncCheckCancel t) := rfl
theorem Footprint.syncCheckTimeout (t : Nat) : Footprint.Statement (.syncCheckTimeout t) := rfl
theorem Footprint.completionTimeout (t : Nat) (what : ReadTag) : Footprint.Statement (.completionTimeout t what) := rfl
theorem Footprint.msixFunctionMaskWrite (t : Nat) (en mask : Bool) : Footprint.Statement (.msixFunctionMaskWrite t en mask) := rfl
theorem Footprint.jtagTckEdge (t : Nat) (rising tms tdi : Bool) : Footprint.Statement (.jtagTckEdge t rising tms tdi) := rfl
theorem Footprint.exportOpen : Footprint.Statement (.exportOpen) := rfl
theorem Footprint.exportStatus : Footprint.Statement (.exportStatus) := rfl
theorem Footprint.importFinish : Footprint.Statement (.importFinish) := rfl
theorem Footprint.importStatus : Footprint.Statement (.importStatus) := rfl
theorem Footprint.ident : Footprint.Statement (.ident) := rfl
theorem Footprint.fwProgramDone : Footprint.Statement (.fwProgramDone) := rfl
theorem Footprint.fwVerifyDone : Footprint.Statement (.fwVerifyDone) := rfl
theorem Footprint.fwActivation : Footprint.Statement (.fwActivation) := rfl
theorem Footprint.fwRunning : Footprint.Statement (.fwRunning) := rfl
theorem Footprint.journalWriteDone : Footprint.Statement (.journalWriteDone) := rfl
theorem Footprint.digestDone : Footprint.Statement (.digestDone) := rfl
theorem Footprint.restoreDone : Footprint.Statement (.restoreDone) := rfl
theorem Footprint.sparePowered : Footprint.Statement (.sparePowered) := rfl
theorem Footprint.reflectionVerified : Footprint.Statement (.reflectionVerified) := rfl
theorem Footprint.slotsLoaded : Footprint.Statement (.slotsLoaded) := rfl
theorem Footprint.reconciliation : Footprint.Statement (.reconciliation) := rfl
theorem Footprint.duskVote : Footprint.Statement (.duskVote) := rfl
theorem Footprint.pmeTurnOff : Footprint.Statement (.pmeTurnOff) := rfl
theorem Footprint.aonRcFallback : Footprint.Statement (.aonRcFallback) := rfl
theorem Footprint.wardenLockstep : Footprint.Statement (.wardenLockstep) := rfl
theorem Footprint.pllLock : Footprint.Statement (.pllLock) := rfl
theorem Footprint.hostPathReset : Footprint.Statement (.hostPathReset) := rfl
theorem Footprint.fclkSlewDone : Footprint.Statement (.fclkSlewDone) := rfl
theorem Footprint.spareLoadDone : Footprint.Statement (.spareLoadDone) := rfl

end Sys2Proof.Laws
end

