-- ==== Sys2Proof/Laws/State.lean ====
section
/-!
SUPPORT. What each named update of the state leaves as it was, one lemma per part, and what a read of the part it writes answers.
-/
namespace Sys2Proof.Machine

@[simp] theorem State.tick_glb (s : State) (t : Nat) : (State.tick s t).glb = s.glb := rfl
@[simp] theorem State.tick_regs (s : State) (t : Nat) : (State.tick s t).regs = s.regs := rfl
@[simp] theorem State.tick_mem (s : State) (t : Nat) : (State.tick s t).mem = s.mem := rfl
@[simp] theorem State.tick_out (s : State) (t : Nat) : (State.tick s t).out = s.out := rfl
@[simp] theorem State.tick_hif (s : State) (t : Nat) : (State.tick s t).hif = s.hif := rfl
@[simp] theorem State.tick_que (s : State) (t : Nat) : (State.tick s t).que = s.que := rfl
@[simp] theorem State.tick_xfr (s : State) (t : Nat) : (State.tick s t).xfr = s.xfr := rfl
@[simp] theorem State.tick_trace (s : State) (t : Nat) : (State.tick s t).trace = s.trace := rfl
@[simp] theorem State.tick_irq (s : State) (t : Nat) : (State.tick s t).irq = s.irq := rfl
@[simp] theorem State.tick_reel (s : State) (t : Nat) : (State.tick s t).reel = s.reel := rfl
@[simp] theorem State.tick_cells (s : State) (t : Nat) : (State.tick s t).cells = s.cells := rfl
@[simp] theorem State.tick_banks (s : State) (t : Nat) : (State.tick s t).banks = s.banks := rfl
@[simp] theorem State.tick_units (s : State) (t : Nat) : (State.tick s t).units = s.units := rfl
@[simp] theorem State.tick_cycno (s : State) (t : Nat) : (State.tick s t).cycno = s.cycno := rfl
@[simp] theorem State.tick_mech (s : State) (t : Nat) : (State.tick s t).mech = s.mech := rfl
@[simp] theorem State.tick_elec (s : State) (t : Nat) : (State.tick s t).elec = s.elec := rfl
@[simp] theorem State.tick_sync (s : State) (t : Nat) : (State.tick s t).sync = s.sync := rfl
@[simp] theorem State.tick_adc (s : State) (t : Nat) : (State.tick s t).adc = s.adc := rfl
@[simp] theorem State.tick_ref (s : State) (t : Nat) : (State.tick s t).ref = s.ref := rfl
@[simp] theorem State.tick_wins (s : State) (t : Nat) : (State.tick s t).wins = s.wins := rfl
@[simp] theorem State.tick_hostPress (s : State) (t : Nat) : (State.tick s t).hostPress = s.hostPress := rfl
@[simp] theorem State.tick_angles (s : State) (t : Nat) : (State.tick s t).angles = s.angles := rfl
@[simp] theorem State.tick_angLog (s : State) (t : Nat) : (State.tick s t).angLog = s.angLog := rfl
@[simp] theorem State.tick_balance (s : State) (t : Nat) : (State.tick s t).balance = s.balance := rfl
@[simp] theorem State.tick_wdn (s : State) (t : Nat) : (State.tick s t).wdn = s.wdn := rfl
@[simp] theorem State.tick_plan (s : State) (t : Nat) : (State.tick s t).plan = s.plan := rfl
@[simp] theorem State.tick_round (s : State) (t : Nat) : (State.tick s t).round = s.round := rfl
@[simp] theorem State.tick_vlk (s : State) (t : Nat) : (State.tick s t).vlk = s.vlk := rfl
@[simp] theorem State.tick_fw (s : State) (t : Nat) : (State.tick s t).fw = s.fw := rfl
@[simp] theorem State.tick_jrn (s : State) (t : Nat) : (State.tick s t).jrn = s.jrn := rfl
@[simp] theorem State.tick_pwr (s : State) (t : Nat) : (State.tick s t).pwr = s.pwr := rfl
@[simp] theorem State.tick_side (s : State) (t : Nat) : (State.tick s t).side = s.side := rfl
@[simp] theorem State.tick_jtag (s : State) (t : Nat) : (State.tick s t).jtag = s.jtag := rfl
@[simp] theorem State.tick_fabric (s : State) (t : Nat) : (State.tick s t).fabric = s.fabric := rfl
@[simp] theorem State.tick_past (s : State) (t : Nat) : (State.tick s t).past = s.past := rfl
@[simp] theorem State.tick_free (s : State) (t : Nat) : (State.tick s t).free = s.free := rfl
@[simp] theorem State.tick_pending (s : State) (t : Nat) : (State.tick s t).pending = s.pending := rfl

@[simp] theorem State.setReg_clk (s : State) (a : Nat) (w : Word) : (State.setReg s a w).clk = s.clk := rfl
@[simp] theorem State.setReg_glb (s : State) (a : Nat) (w : Word) : (State.setReg s a w).glb = s.glb := rfl
@[simp] theorem State.setReg_mem (s : State) (a : Nat) (w : Word) : (State.setReg s a w).mem = s.mem := rfl
@[simp] theorem State.setReg_out (s : State) (a : Nat) (w : Word) : (State.setReg s a w).out = s.out := rfl
@[simp] theorem State.setReg_hif (s : State) (a : Nat) (w : Word) : (State.setReg s a w).hif = s.hif := rfl
@[simp] theorem State.setReg_que (s : State) (a : Nat) (w : Word) : (State.setReg s a w).que = s.que := rfl
@[simp] theorem State.setReg_xfr (s : State) (a : Nat) (w : Word) : (State.setReg s a w).xfr = s.xfr := rfl
@[simp] theorem State.setReg_trace (s : State) (a : Nat) (w : Word) : (State.setReg s a w).trace = s.trace := rfl
@[simp] theorem State.setReg_irq (s : State) (a : Nat) (w : Word) : (State.setReg s a w).irq = s.irq := rfl
@[simp] theorem State.setReg_reel (s : State) (a : Nat) (w : Word) : (State.setReg s a w).reel = s.reel := rfl
@[simp] theorem State.setReg_cells (s : State) (a : Nat) (w : Word) : (State.setReg s a w).cells = s.cells := rfl
@[simp] theorem State.setReg_banks (s : State) (a : Nat) (w : Word) : (State.setReg s a w).banks = s.banks := rfl
@[simp] theorem State.setReg_units (s : State) (a : Nat) (w : Word) : (State.setReg s a w).units = s.units := rfl
@[simp] theorem State.setReg_cycno (s : State) (a : Nat) (w : Word) : (State.setReg s a w).cycno = s.cycno := rfl
@[simp] theorem State.setReg_mech (s : State) (a : Nat) (w : Word) : (State.setReg s a w).mech = s.mech := rfl
@[simp] theorem State.setReg_elec (s : State) (a : Nat) (w : Word) : (State.setReg s a w).elec = s.elec := rfl
@[simp] theorem State.setReg_sync (s : State) (a : Nat) (w : Word) : (State.setReg s a w).sync = s.sync := rfl
@[simp] theorem State.setReg_adc (s : State) (a : Nat) (w : Word) : (State.setReg s a w).adc = s.adc := rfl
@[simp] theorem State.setReg_ref (s : State) (a : Nat) (w : Word) : (State.setReg s a w).ref = s.ref := rfl
@[simp] theorem State.setReg_wins (s : State) (a : Nat) (w : Word) : (State.setReg s a w).wins = s.wins := rfl
@[simp] theorem State.setReg_hostPress (s : State) (a : Nat) (w : Word) : (State.setReg s a w).hostPress = s.hostPress := rfl
@[simp] theorem State.setReg_angles (s : State) (a : Nat) (w : Word) : (State.setReg s a w).angles = s.angles := rfl
@[simp] theorem State.setReg_angLog (s : State) (a : Nat) (w : Word) : (State.setReg s a w).angLog = s.angLog := rfl
@[simp] theorem State.setReg_balance (s : State) (a : Nat) (w : Word) : (State.setReg s a w).balance = s.balance := rfl
@[simp] theorem State.setReg_wdn (s : State) (a : Nat) (w : Word) : (State.setReg s a w).wdn = s.wdn := rfl
@[simp] theorem State.setReg_plan (s : State) (a : Nat) (w : Word) : (State.setReg s a w).plan = s.plan := rfl
@[simp] theorem State.setReg_round (s : State) (a : Nat) (w : Word) : (State.setReg s a w).round = s.round := rfl
@[simp] theorem State.setReg_vlk (s : State) (a : Nat) (w : Word) : (State.setReg s a w).vlk = s.vlk := rfl
@[simp] theorem State.setReg_fw (s : State) (a : Nat) (w : Word) : (State.setReg s a w).fw = s.fw := rfl
@[simp] theorem State.setReg_jrn (s : State) (a : Nat) (w : Word) : (State.setReg s a w).jrn = s.jrn := rfl
@[simp] theorem State.setReg_pwr (s : State) (a : Nat) (w : Word) : (State.setReg s a w).pwr = s.pwr := rfl
@[simp] theorem State.setReg_side (s : State) (a : Nat) (w : Word) : (State.setReg s a w).side = s.side := rfl
@[simp] theorem State.setReg_jtag (s : State) (a : Nat) (w : Word) : (State.setReg s a w).jtag = s.jtag := rfl
@[simp] theorem State.setReg_fabric (s : State) (a : Nat) (w : Word) : (State.setReg s a w).fabric = s.fabric := rfl
@[simp] theorem State.setReg_past (s : State) (a : Nat) (w : Word) : (State.setReg s a w).past = s.past := rfl
@[simp] theorem State.setReg_free (s : State) (a : Nat) (w : Word) : (State.setReg s a w).free = s.free := rfl
@[simp] theorem State.setReg_pending (s : State) (a : Nat) (w : Word) : (State.setReg s a w).pending = s.pending := rfl

@[simp] theorem State.setRf_clk (s : State) (a : Nat) (hi : Nat) (lo : Nat) (v : Nat) : (State.setRf s a hi lo v).clk = s.clk := rfl
@[simp] theorem State.setRf_glb (s : State) (a : Nat) (hi : Nat) (lo : Nat) (v : Nat) : (State.setRf s a hi lo v).glb = s.glb := rfl
@[simp] theorem State.setRf_mem (s : State) (a : Nat) (hi : Nat) (lo : Nat) (v : Nat) : (State.setRf s a hi lo v).mem = s.mem := rfl
@[simp] theorem State.setRf_out (s : State) (a : Nat) (hi : Nat) (lo : Nat) (v : Nat) : (State.setRf s a hi lo v).out = s.out := rfl
@[simp] theorem State.setRf_hif (s : State) (a : Nat) (hi : Nat) (lo : Nat) (v : Nat) : (State.setRf s a hi lo v).hif = s.hif := rfl
@[simp] theorem State.setRf_que (s : State) (a : Nat) (hi : Nat) (lo : Nat) (v : Nat) : (State.setRf s a hi lo v).que = s.que := rfl
@[simp] theorem State.setRf_xfr (s : State) (a : Nat) (hi : Nat) (lo : Nat) (v : Nat) : (State.setRf s a hi lo v).xfr = s.xfr := rfl
@[simp] theorem State.setRf_trace (s : State) (a : Nat) (hi : Nat) (lo : Nat) (v : Nat) : (State.setRf s a hi lo v).trace = s.trace := rfl
@[simp] theorem State.setRf_irq (s : State) (a : Nat) (hi : Nat) (lo : Nat) (v : Nat) : (State.setRf s a hi lo v).irq = s.irq := rfl
@[simp] theorem State.setRf_reel (s : State) (a : Nat) (hi : Nat) (lo : Nat) (v : Nat) : (State.setRf s a hi lo v).reel = s.reel := rfl
@[simp] theorem State.setRf_cells (s : State) (a : Nat) (hi : Nat) (lo : Nat) (v : Nat) : (State.setRf s a hi lo v).cells = s.cells := rfl
@[simp] theorem State.setRf_banks (s : State) (a : Nat) (hi : Nat) (lo : Nat) (v : Nat) : (State.setRf s a hi lo v).banks = s.banks := rfl
@[simp] theorem State.setRf_units (s : State) (a : Nat) (hi : Nat) (lo : Nat) (v : Nat) : (State.setRf s a hi lo v).units = s.units := rfl
@[simp] theorem State.setRf_cycno (s : State) (a : Nat) (hi : Nat) (lo : Nat) (v : Nat) : (State.setRf s a hi lo v).cycno = s.cycno := rfl
@[simp] theorem State.setRf_mech (s : State) (a : Nat) (hi : Nat) (lo : Nat) (v : Nat) : (State.setRf s a hi lo v).mech = s.mech := rfl
@[simp] theorem State.setRf_elec (s : State) (a : Nat) (hi : Nat) (lo : Nat) (v : Nat) : (State.setRf s a hi lo v).elec = s.elec := rfl
@[simp] theorem State.setRf_sync (s : State) (a : Nat) (hi : Nat) (lo : Nat) (v : Nat) : (State.setRf s a hi lo v).sync = s.sync := rfl
@[simp] theorem State.setRf_adc (s : State) (a : Nat) (hi : Nat) (lo : Nat) (v : Nat) : (State.setRf s a hi lo v).adc = s.adc := rfl
@[simp] theorem State.setRf_ref (s : State) (a : Nat) (hi : Nat) (lo : Nat) (v : Nat) : (State.setRf s a hi lo v).ref = s.ref := rfl
@[simp] theorem State.setRf_wins (s : State) (a : Nat) (hi : Nat) (lo : Nat) (v : Nat) : (State.setRf s a hi lo v).wins = s.wins := rfl
@[simp] theorem State.setRf_hostPress (s : State) (a : Nat) (hi : Nat) (lo : Nat) (v : Nat) : (State.setRf s a hi lo v).hostPress = s.hostPress := rfl
@[simp] theorem State.setRf_angles (s : State) (a : Nat) (hi : Nat) (lo : Nat) (v : Nat) : (State.setRf s a hi lo v).angles = s.angles := rfl
@[simp] theorem State.setRf_angLog (s : State) (a : Nat) (hi : Nat) (lo : Nat) (v : Nat) : (State.setRf s a hi lo v).angLog = s.angLog := rfl
@[simp] theorem State.setRf_balance (s : State) (a : Nat) (hi : Nat) (lo : Nat) (v : Nat) : (State.setRf s a hi lo v).balance = s.balance := rfl
@[simp] theorem State.setRf_wdn (s : State) (a : Nat) (hi : Nat) (lo : Nat) (v : Nat) : (State.setRf s a hi lo v).wdn = s.wdn := rfl
@[simp] theorem State.setRf_plan (s : State) (a : Nat) (hi : Nat) (lo : Nat) (v : Nat) : (State.setRf s a hi lo v).plan = s.plan := rfl
@[simp] theorem State.setRf_round (s : State) (a : Nat) (hi : Nat) (lo : Nat) (v : Nat) : (State.setRf s a hi lo v).round = s.round := rfl
@[simp] theorem State.setRf_vlk (s : State) (a : Nat) (hi : Nat) (lo : Nat) (v : Nat) : (State.setRf s a hi lo v).vlk = s.vlk := rfl
@[simp] theorem State.setRf_fw (s : State) (a : Nat) (hi : Nat) (lo : Nat) (v : Nat) : (State.setRf s a hi lo v).fw = s.fw := rfl
@[simp] theorem State.setRf_jrn (s : State) (a : Nat) (hi : Nat) (lo : Nat) (v : Nat) : (State.setRf s a hi lo v).jrn = s.jrn := rfl
@[simp] theorem State.setRf_pwr (s : State) (a : Nat) (hi : Nat) (lo : Nat) (v : Nat) : (State.setRf s a hi lo v).pwr = s.pwr := rfl
@[simp] theorem State.setRf_side (s : State) (a : Nat) (hi : Nat) (lo : Nat) (v : Nat) : (State.setRf s a hi lo v).side = s.side := rfl
@[simp] theorem State.setRf_jtag (s : State) (a : Nat) (hi : Nat) (lo : Nat) (v : Nat) : (State.setRf s a hi lo v).jtag = s.jtag := rfl
@[simp] theorem State.setRf_fabric (s : State) (a : Nat) (hi : Nat) (lo : Nat) (v : Nat) : (State.setRf s a hi lo v).fabric = s.fabric := rfl
@[simp] theorem State.setRf_past (s : State) (a : Nat) (hi : Nat) (lo : Nat) (v : Nat) : (State.setRf s a hi lo v).past = s.past := rfl
@[simp] theorem State.setRf_free (s : State) (a : Nat) (hi : Nat) (lo : Nat) (v : Nat) : (State.setRf s a hi lo v).free = s.free := rfl
@[simp] theorem State.setRf_pending (s : State) (a : Nat) (hi : Nat) (lo : Nat) (v : Nat) : (State.setRf s a hi lo v).pending = s.pending := rfl

@[simp] theorem State.cntSat_clk (s : State) (a : Nat) (hi : Nat) (lo : Nat) (n : Nat) : (State.cntSat s a hi lo n).clk = s.clk := rfl
@[simp] theorem State.cntSat_glb (s : State) (a : Nat) (hi : Nat) (lo : Nat) (n : Nat) : (State.cntSat s a hi lo n).glb = s.glb := rfl
@[simp] theorem State.cntSat_mem (s : State) (a : Nat) (hi : Nat) (lo : Nat) (n : Nat) : (State.cntSat s a hi lo n).mem = s.mem := rfl
@[simp] theorem State.cntSat_out (s : State) (a : Nat) (hi : Nat) (lo : Nat) (n : Nat) : (State.cntSat s a hi lo n).out = s.out := rfl
@[simp] theorem State.cntSat_hif (s : State) (a : Nat) (hi : Nat) (lo : Nat) (n : Nat) : (State.cntSat s a hi lo n).hif = s.hif := rfl
@[simp] theorem State.cntSat_que (s : State) (a : Nat) (hi : Nat) (lo : Nat) (n : Nat) : (State.cntSat s a hi lo n).que = s.que := rfl
@[simp] theorem State.cntSat_xfr (s : State) (a : Nat) (hi : Nat) (lo : Nat) (n : Nat) : (State.cntSat s a hi lo n).xfr = s.xfr := rfl
@[simp] theorem State.cntSat_trace (s : State) (a : Nat) (hi : Nat) (lo : Nat) (n : Nat) : (State.cntSat s a hi lo n).trace = s.trace := rfl
@[simp] theorem State.cntSat_irq (s : State) (a : Nat) (hi : Nat) (lo : Nat) (n : Nat) : (State.cntSat s a hi lo n).irq = s.irq := rfl
@[simp] theorem State.cntSat_reel (s : State) (a : Nat) (hi : Nat) (lo : Nat) (n : Nat) : (State.cntSat s a hi lo n).reel = s.reel := rfl
@[simp] theorem State.cntSat_cells (s : State) (a : Nat) (hi : Nat) (lo : Nat) (n : Nat) : (State.cntSat s a hi lo n).cells = s.cells := rfl
@[simp] theorem State.cntSat_banks (s : State) (a : Nat) (hi : Nat) (lo : Nat) (n : Nat) : (State.cntSat s a hi lo n).banks = s.banks := rfl
@[simp] theorem State.cntSat_units (s : State) (a : Nat) (hi : Nat) (lo : Nat) (n : Nat) : (State.cntSat s a hi lo n).units = s.units := rfl
@[simp] theorem State.cntSat_cycno (s : State) (a : Nat) (hi : Nat) (lo : Nat) (n : Nat) : (State.cntSat s a hi lo n).cycno = s.cycno := rfl
@[simp] theorem State.cntSat_mech (s : State) (a : Nat) (hi : Nat) (lo : Nat) (n : Nat) : (State.cntSat s a hi lo n).mech = s.mech := rfl
@[simp] theorem State.cntSat_elec (s : State) (a : Nat) (hi : Nat) (lo : Nat) (n : Nat) : (State.cntSat s a hi lo n).elec = s.elec := rfl
@[simp] theorem State.cntSat_sync (s : State) (a : Nat) (hi : Nat) (lo : Nat) (n : Nat) : (State.cntSat s a hi lo n).sync = s.sync := rfl
@[simp] theorem State.cntSat_adc (s : State) (a : Nat) (hi : Nat) (lo : Nat) (n : Nat) : (State.cntSat s a hi lo n).adc = s.adc := rfl
@[simp] theorem State.cntSat_ref (s : State) (a : Nat) (hi : Nat) (lo : Nat) (n : Nat) : (State.cntSat s a hi lo n).ref = s.ref := rfl
@[simp] theorem State.cntSat_wins (s : State) (a : Nat) (hi : Nat) (lo : Nat) (n : Nat) : (State.cntSat s a hi lo n).wins = s.wins := rfl
@[simp] theorem State.cntSat_hostPress (s : State) (a : Nat) (hi : Nat) (lo : Nat) (n : Nat) : (State.cntSat s a hi lo n).hostPress = s.hostPress := rfl
@[simp] theorem State.cntSat_angles (s : State) (a : Nat) (hi : Nat) (lo : Nat) (n : Nat) : (State.cntSat s a hi lo n).angles = s.angles := rfl
@[simp] theorem State.cntSat_angLog (s : State) (a : Nat) (hi : Nat) (lo : Nat) (n : Nat) : (State.cntSat s a hi lo n).angLog = s.angLog := rfl
@[simp] theorem State.cntSat_balance (s : State) (a : Nat) (hi : Nat) (lo : Nat) (n : Nat) : (State.cntSat s a hi lo n).balance = s.balance := rfl
@[simp] theorem State.cntSat_wdn (s : State) (a : Nat) (hi : Nat) (lo : Nat) (n : Nat) : (State.cntSat s a hi lo n).wdn = s.wdn := rfl
@[simp] theorem State.cntSat_plan (s : State) (a : Nat) (hi : Nat) (lo : Nat) (n : Nat) : (State.cntSat s a hi lo n).plan = s.plan := rfl
@[simp] theorem State.cntSat_round (s : State) (a : Nat) (hi : Nat) (lo : Nat) (n : Nat) : (State.cntSat s a hi lo n).round = s.round := rfl
@[simp] theorem State.cntSat_vlk (s : State) (a : Nat) (hi : Nat) (lo : Nat) (n : Nat) : (State.cntSat s a hi lo n).vlk = s.vlk := rfl
@[simp] theorem State.cntSat_fw (s : State) (a : Nat) (hi : Nat) (lo : Nat) (n : Nat) : (State.cntSat s a hi lo n).fw = s.fw := rfl
@[simp] theorem State.cntSat_jrn (s : State) (a : Nat) (hi : Nat) (lo : Nat) (n : Nat) : (State.cntSat s a hi lo n).jrn = s.jrn := rfl
@[simp] theorem State.cntSat_pwr (s : State) (a : Nat) (hi : Nat) (lo : Nat) (n : Nat) : (State.cntSat s a hi lo n).pwr = s.pwr := rfl
@[simp] theorem State.cntSat_side (s : State) (a : Nat) (hi : Nat) (lo : Nat) (n : Nat) : (State.cntSat s a hi lo n).side = s.side := rfl
@[simp] theorem State.cntSat_jtag (s : State) (a : Nat) (hi : Nat) (lo : Nat) (n : Nat) : (State.cntSat s a hi lo n).jtag = s.jtag := rfl
@[simp] theorem State.cntSat_fabric (s : State) (a : Nat) (hi : Nat) (lo : Nat) (n : Nat) : (State.cntSat s a hi lo n).fabric = s.fabric := rfl
@[simp] theorem State.cntSat_past (s : State) (a : Nat) (hi : Nat) (lo : Nat) (n : Nat) : (State.cntSat s a hi lo n).past = s.past := rfl
@[simp] theorem State.cntSat_free (s : State) (a : Nat) (hi : Nat) (lo : Nat) (n : Nat) : (State.cntSat s a hi lo n).free = s.free := rfl
@[simp] theorem State.cntSat_pending (s : State) (a : Nat) (hi : Nat) (lo : Nat) (n : Nat) : (State.cntSat s a hi lo n).pending = s.pending := rfl

@[simp] theorem State.cntWrap_clk (s : State) (a : Nat) (hi : Nat) (lo : Nat) (n : Nat) : (State.cntWrap s a hi lo n).clk = s.clk := rfl
@[simp] theorem State.cntWrap_glb (s : State) (a : Nat) (hi : Nat) (lo : Nat) (n : Nat) : (State.cntWrap s a hi lo n).glb = s.glb := rfl
@[simp] theorem State.cntWrap_mem (s : State) (a : Nat) (hi : Nat) (lo : Nat) (n : Nat) : (State.cntWrap s a hi lo n).mem = s.mem := rfl
@[simp] theorem State.cntWrap_out (s : State) (a : Nat) (hi : Nat) (lo : Nat) (n : Nat) : (State.cntWrap s a hi lo n).out = s.out := rfl
@[simp] theorem State.cntWrap_hif (s : State) (a : Nat) (hi : Nat) (lo : Nat) (n : Nat) : (State.cntWrap s a hi lo n).hif = s.hif := rfl
@[simp] theorem State.cntWrap_que (s : State) (a : Nat) (hi : Nat) (lo : Nat) (n : Nat) : (State.cntWrap s a hi lo n).que = s.que := rfl
@[simp] theorem State.cntWrap_xfr (s : State) (a : Nat) (hi : Nat) (lo : Nat) (n : Nat) : (State.cntWrap s a hi lo n).xfr = s.xfr := rfl
@[simp] theorem State.cntWrap_trace (s : State) (a : Nat) (hi : Nat) (lo : Nat) (n : Nat) : (State.cntWrap s a hi lo n).trace = s.trace := rfl
@[simp] theorem State.cntWrap_irq (s : State) (a : Nat) (hi : Nat) (lo : Nat) (n : Nat) : (State.cntWrap s a hi lo n).irq = s.irq := rfl
@[simp] theorem State.cntWrap_reel (s : State) (a : Nat) (hi : Nat) (lo : Nat) (n : Nat) : (State.cntWrap s a hi lo n).reel = s.reel := rfl
@[simp] theorem State.cntWrap_cells (s : State) (a : Nat) (hi : Nat) (lo : Nat) (n : Nat) : (State.cntWrap s a hi lo n).cells = s.cells := rfl
@[simp] theorem State.cntWrap_banks (s : State) (a : Nat) (hi : Nat) (lo : Nat) (n : Nat) : (State.cntWrap s a hi lo n).banks = s.banks := rfl
@[simp] theorem State.cntWrap_units (s : State) (a : Nat) (hi : Nat) (lo : Nat) (n : Nat) : (State.cntWrap s a hi lo n).units = s.units := rfl
@[simp] theorem State.cntWrap_cycno (s : State) (a : Nat) (hi : Nat) (lo : Nat) (n : Nat) : (State.cntWrap s a hi lo n).cycno = s.cycno := rfl
@[simp] theorem State.cntWrap_mech (s : State) (a : Nat) (hi : Nat) (lo : Nat) (n : Nat) : (State.cntWrap s a hi lo n).mech = s.mech := rfl
@[simp] theorem State.cntWrap_elec (s : State) (a : Nat) (hi : Nat) (lo : Nat) (n : Nat) : (State.cntWrap s a hi lo n).elec = s.elec := rfl
@[simp] theorem State.cntWrap_sync (s : State) (a : Nat) (hi : Nat) (lo : Nat) (n : Nat) : (State.cntWrap s a hi lo n).sync = s.sync := rfl
@[simp] theorem State.cntWrap_adc (s : State) (a : Nat) (hi : Nat) (lo : Nat) (n : Nat) : (State.cntWrap s a hi lo n).adc = s.adc := rfl
@[simp] theorem State.cntWrap_ref (s : State) (a : Nat) (hi : Nat) (lo : Nat) (n : Nat) : (State.cntWrap s a hi lo n).ref = s.ref := rfl
@[simp] theorem State.cntWrap_wins (s : State) (a : Nat) (hi : Nat) (lo : Nat) (n : Nat) : (State.cntWrap s a hi lo n).wins = s.wins := rfl
@[simp] theorem State.cntWrap_hostPress (s : State) (a : Nat) (hi : Nat) (lo : Nat) (n : Nat) : (State.cntWrap s a hi lo n).hostPress = s.hostPress := rfl
@[simp] theorem State.cntWrap_angles (s : State) (a : Nat) (hi : Nat) (lo : Nat) (n : Nat) : (State.cntWrap s a hi lo n).angles = s.angles := rfl
@[simp] theorem State.cntWrap_angLog (s : State) (a : Nat) (hi : Nat) (lo : Nat) (n : Nat) : (State.cntWrap s a hi lo n).angLog = s.angLog := rfl
@[simp] theorem State.cntWrap_balance (s : State) (a : Nat) (hi : Nat) (lo : Nat) (n : Nat) : (State.cntWrap s a hi lo n).balance = s.balance := rfl
@[simp] theorem State.cntWrap_wdn (s : State) (a : Nat) (hi : Nat) (lo : Nat) (n : Nat) : (State.cntWrap s a hi lo n).wdn = s.wdn := rfl
@[simp] theorem State.cntWrap_plan (s : State) (a : Nat) (hi : Nat) (lo : Nat) (n : Nat) : (State.cntWrap s a hi lo n).plan = s.plan := rfl
@[simp] theorem State.cntWrap_round (s : State) (a : Nat) (hi : Nat) (lo : Nat) (n : Nat) : (State.cntWrap s a hi lo n).round = s.round := rfl
@[simp] theorem State.cntWrap_vlk (s : State) (a : Nat) (hi : Nat) (lo : Nat) (n : Nat) : (State.cntWrap s a hi lo n).vlk = s.vlk := rfl
@[simp] theorem State.cntWrap_fw (s : State) (a : Nat) (hi : Nat) (lo : Nat) (n : Nat) : (State.cntWrap s a hi lo n).fw = s.fw := rfl
@[simp] theorem State.cntWrap_jrn (s : State) (a : Nat) (hi : Nat) (lo : Nat) (n : Nat) : (State.cntWrap s a hi lo n).jrn = s.jrn := rfl
@[simp] theorem State.cntWrap_pwr (s : State) (a : Nat) (hi : Nat) (lo : Nat) (n : Nat) : (State.cntWrap s a hi lo n).pwr = s.pwr := rfl
@[simp] theorem State.cntWrap_side (s : State) (a : Nat) (hi : Nat) (lo : Nat) (n : Nat) : (State.cntWrap s a hi lo n).side = s.side := rfl
@[simp] theorem State.cntWrap_jtag (s : State) (a : Nat) (hi : Nat) (lo : Nat) (n : Nat) : (State.cntWrap s a hi lo n).jtag = s.jtag := rfl
@[simp] theorem State.cntWrap_fabric (s : State) (a : Nat) (hi : Nat) (lo : Nat) (n : Nat) : (State.cntWrap s a hi lo n).fabric = s.fabric := rfl
@[simp] theorem State.cntWrap_past (s : State) (a : Nat) (hi : Nat) (lo : Nat) (n : Nat) : (State.cntWrap s a hi lo n).past = s.past := rfl
@[simp] theorem State.cntWrap_free (s : State) (a : Nat) (hi : Nat) (lo : Nat) (n : Nat) : (State.cntWrap s a hi lo n).free = s.free := rfl
@[simp] theorem State.cntWrap_pending (s : State) (a : Nat) (hi : Nat) (lo : Nat) (n : Nat) : (State.cntWrap s a hi lo n).pending = s.pending := rfl

@[simp] theorem State.putBytes_clk (s : State) (a : Nat) (l : List Byte) : (State.putBytes s a l).clk = s.clk := rfl
@[simp] theorem State.putBytes_glb (s : State) (a : Nat) (l : List Byte) : (State.putBytes s a l).glb = s.glb := rfl
@[simp] theorem State.putBytes_regs (s : State) (a : Nat) (l : List Byte) : (State.putBytes s a l).regs = s.regs := rfl
@[simp] theorem State.putBytes_out (s : State) (a : Nat) (l : List Byte) : (State.putBytes s a l).out = s.out := rfl
@[simp] theorem State.putBytes_hif (s : State) (a : Nat) (l : List Byte) : (State.putBytes s a l).hif = s.hif := rfl
@[simp] theorem State.putBytes_que (s : State) (a : Nat) (l : List Byte) : (State.putBytes s a l).que = s.que := rfl
@[simp] theorem State.putBytes_xfr (s : State) (a : Nat) (l : List Byte) : (State.putBytes s a l).xfr = s.xfr := rfl
@[simp] theorem State.putBytes_trace (s : State) (a : Nat) (l : List Byte) : (State.putBytes s a l).trace = s.trace := rfl
@[simp] theorem State.putBytes_irq (s : State) (a : Nat) (l : List Byte) : (State.putBytes s a l).irq = s.irq := rfl
@[simp] theorem State.putBytes_reel (s : State) (a : Nat) (l : List Byte) : (State.putBytes s a l).reel = s.reel := rfl
@[simp] theorem State.putBytes_cells (s : State) (a : Nat) (l : List Byte) : (State.putBytes s a l).cells = s.cells := rfl
@[simp] theorem State.putBytes_banks (s : State) (a : Nat) (l : List Byte) : (State.putBytes s a l).banks = s.banks := rfl
@[simp] theorem State.putBytes_units (s : State) (a : Nat) (l : List Byte) : (State.putBytes s a l).units = s.units := rfl
@[simp] theorem State.putBytes_cycno (s : State) (a : Nat) (l : List Byte) : (State.putBytes s a l).cycno = s.cycno := rfl
@[simp] theorem State.putBytes_mech (s : State) (a : Nat) (l : List Byte) : (State.putBytes s a l).mech = s.mech := rfl
@[simp] theorem State.putBytes_elec (s : State) (a : Nat) (l : List Byte) : (State.putBytes s a l).elec = s.elec := rfl
@[simp] theorem State.putBytes_sync (s : State) (a : Nat) (l : List Byte) : (State.putBytes s a l).sync = s.sync := rfl
@[simp] theorem State.putBytes_adc (s : State) (a : Nat) (l : List Byte) : (State.putBytes s a l).adc = s.adc := rfl
@[simp] theorem State.putBytes_ref (s : State) (a : Nat) (l : List Byte) : (State.putBytes s a l).ref = s.ref := rfl
@[simp] theorem State.putBytes_wins (s : State) (a : Nat) (l : List Byte) : (State.putBytes s a l).wins = s.wins := rfl
@[simp] theorem State.putBytes_hostPress (s : State) (a : Nat) (l : List Byte) : (State.putBytes s a l).hostPress = s.hostPress := rfl
@[simp] theorem State.putBytes_angles (s : State) (a : Nat) (l : List Byte) : (State.putBytes s a l).angles = s.angles := rfl
@[simp] theorem State.putBytes_angLog (s : State) (a : Nat) (l : List Byte) : (State.putBytes s a l).angLog = s.angLog := rfl
@[simp] theorem State.putBytes_balance (s : State) (a : Nat) (l : List Byte) : (State.putBytes s a l).balance = s.balance := rfl
@[simp] theorem State.putBytes_wdn (s : State) (a : Nat) (l : List Byte) : (State.putBytes s a l).wdn = s.wdn := rfl
@[simp] theorem State.putBytes_plan (s : State) (a : Nat) (l : List Byte) : (State.putBytes s a l).plan = s.plan := rfl
@[simp] theorem State.putBytes_round (s : State) (a : Nat) (l : List Byte) : (State.putBytes s a l).round = s.round := rfl
@[simp] theorem State.putBytes_vlk (s : State) (a : Nat) (l : List Byte) : (State.putBytes s a l).vlk = s.vlk := rfl
@[simp] theorem State.putBytes_fw (s : State) (a : Nat) (l : List Byte) : (State.putBytes s a l).fw = s.fw := rfl
@[simp] theorem State.putBytes_jrn (s : State) (a : Nat) (l : List Byte) : (State.putBytes s a l).jrn = s.jrn := rfl
@[simp] theorem State.putBytes_pwr (s : State) (a : Nat) (l : List Byte) : (State.putBytes s a l).pwr = s.pwr := rfl
@[simp] theorem State.putBytes_side (s : State) (a : Nat) (l : List Byte) : (State.putBytes s a l).side = s.side := rfl
@[simp] theorem State.putBytes_jtag (s : State) (a : Nat) (l : List Byte) : (State.putBytes s a l).jtag = s.jtag := rfl
@[simp] theorem State.putBytes_fabric (s : State) (a : Nat) (l : List Byte) : (State.putBytes s a l).fabric = s.fabric := rfl
@[simp] theorem State.putBytes_past (s : State) (a : Nat) (l : List Byte) : (State.putBytes s a l).past = s.past := rfl
@[simp] theorem State.putBytes_free (s : State) (a : Nat) (l : List Byte) : (State.putBytes s a l).free = s.free := rfl
@[simp] theorem State.putBytes_pending (s : State) (a : Nat) (l : List Byte) : (State.putBytes s a l).pending = s.pending := rfl

@[simp] theorem State.putWords_clk (s : State) (a : Nat) (l : List Word) : (State.putWords s a l).clk = s.clk := rfl
@[simp] theorem State.putWords_glb (s : State) (a : Nat) (l : List Word) : (State.putWords s a l).glb = s.glb := rfl
@[simp] theorem State.putWords_regs (s : State) (a : Nat) (l : List Word) : (State.putWords s a l).regs = s.regs := rfl
@[simp] theorem State.putWords_out (s : State) (a : Nat) (l : List Word) : (State.putWords s a l).out = s.out := rfl
@[simp] theorem State.putWords_hif (s : State) (a : Nat) (l : List Word) : (State.putWords s a l).hif = s.hif := rfl
@[simp] theorem State.putWords_que (s : State) (a : Nat) (l : List Word) : (State.putWords s a l).que = s.que := rfl
@[simp] theorem State.putWords_xfr (s : State) (a : Nat) (l : List Word) : (State.putWords s a l).xfr = s.xfr := rfl
@[simp] theorem State.putWords_trace (s : State) (a : Nat) (l : List Word) : (State.putWords s a l).trace = s.trace := rfl
@[simp] theorem State.putWords_irq (s : State) (a : Nat) (l : List Word) : (State.putWords s a l).irq = s.irq := rfl
@[simp] theorem State.putWords_reel (s : State) (a : Nat) (l : List Word) : (State.putWords s a l).reel = s.reel := rfl
@[simp] theorem State.putWords_cells (s : State) (a : Nat) (l : List Word) : (State.putWords s a l).cells = s.cells := rfl
@[simp] theorem State.putWords_banks (s : State) (a : Nat) (l : List Word) : (State.putWords s a l).banks = s.banks := rfl
@[simp] theorem State.putWords_units (s : State) (a : Nat) (l : List Word) : (State.putWords s a l).units = s.units := rfl
@[simp] theorem State.putWords_cycno (s : State) (a : Nat) (l : List Word) : (State.putWords s a l).cycno = s.cycno := rfl
@[simp] theorem State.putWords_mech (s : State) (a : Nat) (l : List Word) : (State.putWords s a l).mech = s.mech := rfl
@[simp] theorem State.putWords_elec (s : State) (a : Nat) (l : List Word) : (State.putWords s a l).elec = s.elec := rfl
@[simp] theorem State.putWords_sync (s : State) (a : Nat) (l : List Word) : (State.putWords s a l).sync = s.sync := rfl
@[simp] theorem State.putWords_adc (s : State) (a : Nat) (l : List Word) : (State.putWords s a l).adc = s.adc := rfl
@[simp] theorem State.putWords_ref (s : State) (a : Nat) (l : List Word) : (State.putWords s a l).ref = s.ref := rfl
@[simp] theorem State.putWords_wins (s : State) (a : Nat) (l : List Word) : (State.putWords s a l).wins = s.wins := rfl
@[simp] theorem State.putWords_hostPress (s : State) (a : Nat) (l : List Word) : (State.putWords s a l).hostPress = s.hostPress := rfl
@[simp] theorem State.putWords_angles (s : State) (a : Nat) (l : List Word) : (State.putWords s a l).angles = s.angles := rfl
@[simp] theorem State.putWords_angLog (s : State) (a : Nat) (l : List Word) : (State.putWords s a l).angLog = s.angLog := rfl
@[simp] theorem State.putWords_balance (s : State) (a : Nat) (l : List Word) : (State.putWords s a l).balance = s.balance := rfl
@[simp] theorem State.putWords_wdn (s : State) (a : Nat) (l : List Word) : (State.putWords s a l).wdn = s.wdn := rfl
@[simp] theorem State.putWords_plan (s : State) (a : Nat) (l : List Word) : (State.putWords s a l).plan = s.plan := rfl
@[simp] theorem State.putWords_round (s : State) (a : Nat) (l : List Word) : (State.putWords s a l).round = s.round := rfl
@[simp] theorem State.putWords_vlk (s : State) (a : Nat) (l : List Word) : (State.putWords s a l).vlk = s.vlk := rfl
@[simp] theorem State.putWords_fw (s : State) (a : Nat) (l : List Word) : (State.putWords s a l).fw = s.fw := rfl
@[simp] theorem State.putWords_jrn (s : State) (a : Nat) (l : List Word) : (State.putWords s a l).jrn = s.jrn := rfl
@[simp] theorem State.putWords_pwr (s : State) (a : Nat) (l : List Word) : (State.putWords s a l).pwr = s.pwr := rfl
@[simp] theorem State.putWords_side (s : State) (a : Nat) (l : List Word) : (State.putWords s a l).side = s.side := rfl
@[simp] theorem State.putWords_jtag (s : State) (a : Nat) (l : List Word) : (State.putWords s a l).jtag = s.jtag := rfl
@[simp] theorem State.putWords_fabric (s : State) (a : Nat) (l : List Word) : (State.putWords s a l).fabric = s.fabric := rfl
@[simp] theorem State.putWords_past (s : State) (a : Nat) (l : List Word) : (State.putWords s a l).past = s.past := rfl
@[simp] theorem State.putWords_free (s : State) (a : Nat) (l : List Word) : (State.putWords s a l).free = s.free := rfl
@[simp] theorem State.putWords_pending (s : State) (a : Nat) (l : List Word) : (State.putWords s a l).pending = s.pending := rfl

@[simp] theorem State.answer_clk (s : State) (l : List Word) : (State.answer s l).clk = s.clk := rfl
@[simp] theorem State.answer_glb (s : State) (l : List Word) : (State.answer s l).glb = s.glb := rfl
@[simp] theorem State.answer_regs (s : State) (l : List Word) : (State.answer s l).regs = s.regs := rfl
@[simp] theorem State.answer_mem (s : State) (l : List Word) : (State.answer s l).mem = s.mem := rfl
@[simp] theorem State.answer_hif (s : State) (l : List Word) : (State.answer s l).hif = s.hif := rfl
@[simp] theorem State.answer_que (s : State) (l : List Word) : (State.answer s l).que = s.que := rfl
@[simp] theorem State.answer_xfr (s : State) (l : List Word) : (State.answer s l).xfr = s.xfr := rfl
@[simp] theorem State.answer_trace (s : State) (l : List Word) : (State.answer s l).trace = s.trace := rfl
@[simp] theorem State.answer_irq (s : State) (l : List Word) : (State.answer s l).irq = s.irq := rfl
@[simp] theorem State.answer_reel (s : State) (l : List Word) : (State.answer s l).reel = s.reel := rfl
@[simp] theorem State.answer_cells (s : State) (l : List Word) : (State.answer s l).cells = s.cells := rfl
@[simp] theorem State.answer_banks (s : State) (l : List Word) : (State.answer s l).banks = s.banks := rfl
@[simp] theorem State.answer_units (s : State) (l : List Word) : (State.answer s l).units = s.units := rfl
@[simp] theorem State.answer_cycno (s : State) (l : List Word) : (State.answer s l).cycno = s.cycno := rfl
@[simp] theorem State.answer_mech (s : State) (l : List Word) : (State.answer s l).mech = s.mech := rfl
@[simp] theorem State.answer_elec (s : State) (l : List Word) : (State.answer s l).elec = s.elec := rfl
@[simp] theorem State.answer_sync (s : State) (l : List Word) : (State.answer s l).sync = s.sync := rfl
@[simp] theorem State.answer_adc (s : State) (l : List Word) : (State.answer s l).adc = s.adc := rfl
@[simp] theorem State.answer_ref (s : State) (l : List Word) : (State.answer s l).ref = s.ref := rfl
@[simp] theorem State.answer_wins (s : State) (l : List Word) : (State.answer s l).wins = s.wins := rfl
@[simp] theorem State.answer_hostPress (s : State) (l : List Word) : (State.answer s l).hostPress = s.hostPress := rfl
@[simp] theorem State.answer_angles (s : State) (l : List Word) : (State.answer s l).angles = s.angles := rfl
@[simp] theorem State.answer_angLog (s : State) (l : List Word) : (State.answer s l).angLog = s.angLog := rfl
@[simp] theorem State.answer_balance (s : State) (l : List Word) : (State.answer s l).balance = s.balance := rfl
@[simp] theorem State.answer_wdn (s : State) (l : List Word) : (State.answer s l).wdn = s.wdn := rfl
@[simp] theorem State.answer_plan (s : State) (l : List Word) : (State.answer s l).plan = s.plan := rfl
@[simp] theorem State.answer_round (s : State) (l : List Word) : (State.answer s l).round = s.round := rfl
@[simp] theorem State.answer_vlk (s : State) (l : List Word) : (State.answer s l).vlk = s.vlk := rfl
@[simp] theorem State.answer_fw (s : State) (l : List Word) : (State.answer s l).fw = s.fw := rfl
@[simp] theorem State.answer_jrn (s : State) (l : List Word) : (State.answer s l).jrn = s.jrn := rfl
@[simp] theorem State.answer_pwr (s : State) (l : List Word) : (State.answer s l).pwr = s.pwr := rfl
@[simp] theorem State.answer_side (s : State) (l : List Word) : (State.answer s l).side = s.side := rfl
@[simp] theorem State.answer_jtag (s : State) (l : List Word) : (State.answer s l).jtag = s.jtag := rfl
@[simp] theorem State.answer_fabric (s : State) (l : List Word) : (State.answer s l).fabric = s.fabric := rfl
@[simp] theorem State.answer_past (s : State) (l : List Word) : (State.answer s l).past = s.past := rfl
@[simp] theorem State.answer_free (s : State) (l : List Word) : (State.answer s l).free = s.free := rfl
@[simp] theorem State.answer_pending (s : State) (l : List Word) : (State.answer s l).pending = s.pending := rfl

@[simp] theorem State.emit_clk (s : State) (k : Traffic) (l : List Sent) : (State.emit s k l).clk = s.clk := rfl
@[simp] theorem State.emit_glb (s : State) (k : Traffic) (l : List Sent) : (State.emit s k l).glb = s.glb := rfl
@[simp] theorem State.emit_regs (s : State) (k : Traffic) (l : List Sent) : (State.emit s k l).regs = s.regs := rfl
@[simp] theorem State.emit_mem (s : State) (k : Traffic) (l : List Sent) : (State.emit s k l).mem = s.mem := rfl
@[simp] theorem State.emit_hif (s : State) (k : Traffic) (l : List Sent) : (State.emit s k l).hif = s.hif := rfl
@[simp] theorem State.emit_que (s : State) (k : Traffic) (l : List Sent) : (State.emit s k l).que = s.que := rfl
@[simp] theorem State.emit_xfr (s : State) (k : Traffic) (l : List Sent) : (State.emit s k l).xfr = s.xfr := rfl
@[simp] theorem State.emit_trace (s : State) (k : Traffic) (l : List Sent) : (State.emit s k l).trace = s.trace := rfl
@[simp] theorem State.emit_irq (s : State) (k : Traffic) (l : List Sent) : (State.emit s k l).irq = s.irq := rfl
@[simp] theorem State.emit_reel (s : State) (k : Traffic) (l : List Sent) : (State.emit s k l).reel = s.reel := rfl
@[simp] theorem State.emit_cells (s : State) (k : Traffic) (l : List Sent) : (State.emit s k l).cells = s.cells := rfl
@[simp] theorem State.emit_banks (s : State) (k : Traffic) (l : List Sent) : (State.emit s k l).banks = s.banks := rfl
@[simp] theorem State.emit_units (s : State) (k : Traffic) (l : List Sent) : (State.emit s k l).units = s.units := rfl
@[simp] theorem State.emit_cycno (s : State) (k : Traffic) (l : List Sent) : (State.emit s k l).cycno = s.cycno := rfl
@[simp] theorem State.emit_mech (s : State) (k : Traffic) (l : List Sent) : (State.emit s k l).mech = s.mech := rfl
@[simp] theorem State.emit_elec (s : State) (k : Traffic) (l : List Sent) : (State.emit s k l).elec = s.elec := rfl
@[simp] theorem State.emit_sync (s : State) (k : Traffic) (l : List Sent) : (State.emit s k l).sync = s.sync := rfl
@[simp] theorem State.emit_adc (s : State) (k : Traffic) (l : List Sent) : (State.emit s k l).adc = s.adc := rfl
@[simp] theorem State.emit_ref (s : State) (k : Traffic) (l : List Sent) : (State.emit s k l).ref = s.ref := rfl
@[simp] theorem State.emit_wins (s : State) (k : Traffic) (l : List Sent) : (State.emit s k l).wins = s.wins := rfl
@[simp] theorem State.emit_hostPress (s : State) (k : Traffic) (l : List Sent) : (State.emit s k l).hostPress = s.hostPress := rfl
@[simp] theorem State.emit_angles (s : State) (k : Traffic) (l : List Sent) : (State.emit s k l).angles = s.angles := rfl
@[simp] theorem State.emit_angLog (s : State) (k : Traffic) (l : List Sent) : (State.emit s k l).angLog = s.angLog := rfl
@[simp] theorem State.emit_balance (s : State) (k : Traffic) (l : List Sent) : (State.emit s k l).balance = s.balance := rfl
@[simp] theorem State.emit_wdn (s : State) (k : Traffic) (l : List Sent) : (State.emit s k l).wdn = s.wdn := rfl
@[simp] theorem State.emit_plan (s : State) (k : Traffic) (l : List Sent) : (State.emit s k l).plan = s.plan := rfl
@[simp] theorem State.emit_round (s : State) (k : Traffic) (l : List Sent) : (State.emit s k l).round = s.round := rfl
@[simp] theorem State.emit_vlk (s : State) (k : Traffic) (l : List Sent) : (State.emit s k l).vlk = s.vlk := rfl
@[simp] theorem State.emit_fw (s : State) (k : Traffic) (l : List Sent) : (State.emit s k l).fw = s.fw := rfl
@[simp] theorem State.emit_jrn (s : State) (k : Traffic) (l : List Sent) : (State.emit s k l).jrn = s.jrn := rfl
@[simp] theorem State.emit_pwr (s : State) (k : Traffic) (l : List Sent) : (State.emit s k l).pwr = s.pwr := rfl
@[simp] theorem State.emit_side (s : State) (k : Traffic) (l : List Sent) : (State.emit s k l).side = s.side := rfl
@[simp] theorem State.emit_jtag (s : State) (k : Traffic) (l : List Sent) : (State.emit s k l).jtag = s.jtag := rfl
@[simp] theorem State.emit_fabric (s : State) (k : Traffic) (l : List Sent) : (State.emit s k l).fabric = s.fabric := rfl
@[simp] theorem State.emit_past (s : State) (k : Traffic) (l : List Sent) : (State.emit s k l).past = s.past := rfl
@[simp] theorem State.emit_free (s : State) (k : Traffic) (l : List Sent) : (State.emit s k l).free = s.free := rfl
@[simp] theorem State.emit_pending (s : State) (k : Traffic) (l : List Sent) : (State.emit s k l).pending = s.pending := rfl

@[simp] theorem State.unFirst_clk (s : State) : (State.unFirst s).clk = s.clk := rfl
@[simp] theorem State.unFirst_regs (s : State) : (State.unFirst s).regs = s.regs := rfl
@[simp] theorem State.unFirst_mem (s : State) : (State.unFirst s).mem = s.mem := rfl
@[simp] theorem State.unFirst_out (s : State) : (State.unFirst s).out = s.out := rfl
@[simp] theorem State.unFirst_hif (s : State) : (State.unFirst s).hif = s.hif := rfl
@[simp] theorem State.unFirst_que (s : State) : (State.unFirst s).que = s.que := rfl
@[simp] theorem State.unFirst_xfr (s : State) : (State.unFirst s).xfr = s.xfr := rfl
@[simp] theorem State.unFirst_trace (s : State) : (State.unFirst s).trace = s.trace := rfl
@[simp] theorem State.unFirst_irq (s : State) : (State.unFirst s).irq = s.irq := rfl
@[simp] theorem State.unFirst_reel (s : State) : (State.unFirst s).reel = s.reel := rfl
@[simp] theorem State.unFirst_cells (s : State) : (State.unFirst s).cells = s.cells := rfl
@[simp] theorem State.unFirst_banks (s : State) : (State.unFirst s).banks = s.banks := rfl
@[simp] theorem State.unFirst_units (s : State) : (State.unFirst s).units = s.units := rfl
@[simp] theorem State.unFirst_cycno (s : State) : (State.unFirst s).cycno = s.cycno := rfl
@[simp] theorem State.unFirst_mech (s : State) : (State.unFirst s).mech = s.mech := rfl
@[simp] theorem State.unFirst_elec (s : State) : (State.unFirst s).elec = s.elec := rfl
@[simp] theorem State.unFirst_sync (s : State) : (State.unFirst s).sync = s.sync := rfl
@[simp] theorem State.unFirst_adc (s : State) : (State.unFirst s).adc = s.adc := rfl
@[simp] theorem State.unFirst_ref (s : State) : (State.unFirst s).ref = s.ref := rfl
@[simp] theorem State.unFirst_wins (s : State) : (State.unFirst s).wins = s.wins := rfl
@[simp] theorem State.unFirst_hostPress (s : State) : (State.unFirst s).hostPress = s.hostPress := rfl
@[simp] theorem State.unFirst_angles (s : State) : (State.unFirst s).angles = s.angles := rfl
@[simp] theorem State.unFirst_angLog (s : State) : (State.unFirst s).angLog = s.angLog := rfl
@[simp] theorem State.unFirst_balance (s : State) : (State.unFirst s).balance = s.balance := rfl
@[simp] theorem State.unFirst_wdn (s : State) : (State.unFirst s).wdn = s.wdn := rfl
@[simp] theorem State.unFirst_plan (s : State) : (State.unFirst s).plan = s.plan := rfl
@[simp] theorem State.unFirst_round (s : State) : (State.unFirst s).round = s.round := rfl
@[simp] theorem State.unFirst_vlk (s : State) : (State.unFirst s).vlk = s.vlk := rfl
@[simp] theorem State.unFirst_fw (s : State) : (State.unFirst s).fw = s.fw := rfl
@[simp] theorem State.unFirst_jrn (s : State) : (State.unFirst s).jrn = s.jrn := rfl
@[simp] theorem State.unFirst_pwr (s : State) : (State.unFirst s).pwr = s.pwr := rfl
@[simp] theorem State.unFirst_side (s : State) : (State.unFirst s).side = s.side := rfl
@[simp] theorem State.unFirst_jtag (s : State) : (State.unFirst s).jtag = s.jtag := rfl
@[simp] theorem State.unFirst_fabric (s : State) : (State.unFirst s).fabric = s.fabric := rfl
@[simp] theorem State.unFirst_past (s : State) : (State.unFirst s).past = s.past := rfl
@[simp] theorem State.unFirst_free (s : State) : (State.unFirst s).free = s.free := rfl
@[simp] theorem State.unFirst_pending (s : State) : (State.unFirst s).pending = s.pending := rfl

@[simp] theorem State.refuseWrite_clk (s : State) (bar2 : Bool) : (State.refuseWrite s bar2).clk = s.clk := rfl
@[simp] theorem State.refuseWrite_regs (s : State) (bar2 : Bool) : (State.refuseWrite s bar2).regs = s.regs := rfl
@[simp] theorem State.refuseWrite_mem (s : State) (bar2 : Bool) : (State.refuseWrite s bar2).mem = s.mem := rfl
@[simp] theorem State.refuseWrite_out (s : State) (bar2 : Bool) : (State.refuseWrite s bar2).out = s.out := rfl
@[simp] theorem State.refuseWrite_hif (s : State) (bar2 : Bool) : (State.refuseWrite s bar2).hif = s.hif := rfl
@[simp] theorem State.refuseWrite_que (s : State) (bar2 : Bool) : (State.refuseWrite s bar2).que = s.que := rfl
@[simp] theorem State.refuseWrite_xfr (s : State) (bar2 : Bool) : (State.refuseWrite s bar2).xfr = s.xfr := rfl
@[simp] theorem State.refuseWrite_trace (s : State) (bar2 : Bool) : (State.refuseWrite s bar2).trace = s.trace := rfl
@[simp] theorem State.refuseWrite_irq (s : State) (bar2 : Bool) : (State.refuseWrite s bar2).irq = s.irq := rfl
@[simp] theorem State.refuseWrite_reel (s : State) (bar2 : Bool) : (State.refuseWrite s bar2).reel = s.reel := rfl
@[simp] theorem State.refuseWrite_cells (s : State) (bar2 : Bool) : (State.refuseWrite s bar2).cells = s.cells := rfl
@[simp] theorem State.refuseWrite_banks (s : State) (bar2 : Bool) : (State.refuseWrite s bar2).banks = s.banks := rfl
@[simp] theorem State.refuseWrite_units (s : State) (bar2 : Bool) : (State.refuseWrite s bar2).units = s.units := rfl
@[simp] theorem State.refuseWrite_cycno (s : State) (bar2 : Bool) : (State.refuseWrite s bar2).cycno = s.cycno := rfl
@[simp] theorem State.refuseWrite_mech (s : State) (bar2 : Bool) : (State.refuseWrite s bar2).mech = s.mech := rfl
@[simp] theorem State.refuseWrite_elec (s : State) (bar2 : Bool) : (State.refuseWrite s bar2).elec = s.elec := rfl
@[simp] theorem State.refuseWrite_sync (s : State) (bar2 : Bool) : (State.refuseWrite s bar2).sync = s.sync := rfl
@[simp] theorem State.refuseWrite_adc (s : State) (bar2 : Bool) : (State.refuseWrite s bar2).adc = s.adc := rfl
@[simp] theorem State.refuseWrite_ref (s : State) (bar2 : Bool) : (State.refuseWrite s bar2).ref = s.ref := rfl
@[simp] theorem State.refuseWrite_wins (s : State) (bar2 : Bool) : (State.refuseWrite s bar2).wins = s.wins := rfl
@[simp] theorem State.refuseWrite_hostPress (s : State) (bar2 : Bool) : (State.refuseWrite s bar2).hostPress = s.hostPress := rfl
@[simp] theorem State.refuseWrite_angles (s : State) (bar2 : Bool) : (State.refuseWrite s bar2).angles = s.angles := rfl
@[simp] theorem State.refuseWrite_angLog (s : State) (bar2 : Bool) : (State.refuseWrite s bar2).angLog = s.angLog := rfl
@[simp] theorem State.refuseWrite_balance (s : State) (bar2 : Bool) : (State.refuseWrite s bar2).balance = s.balance := rfl
@[simp] theorem State.refuseWrite_wdn (s : State) (bar2 : Bool) : (State.refuseWrite s bar2).wdn = s.wdn := rfl
@[simp] theorem State.refuseWrite_plan (s : State) (bar2 : Bool) : (State.refuseWrite s bar2).plan = s.plan := rfl
@[simp] theorem State.refuseWrite_round (s : State) (bar2 : Bool) : (State.refuseWrite s bar2).round = s.round := rfl
@[simp] theorem State.refuseWrite_vlk (s : State) (bar2 : Bool) : (State.refuseWrite s bar2).vlk = s.vlk := rfl
@[simp] theorem State.refuseWrite_fw (s : State) (bar2 : Bool) : (State.refuseWrite s bar2).fw = s.fw := rfl
@[simp] theorem State.refuseWrite_jrn (s : State) (bar2 : Bool) : (State.refuseWrite s bar2).jrn = s.jrn := rfl
@[simp] theorem State.refuseWrite_pwr (s : State) (bar2 : Bool) : (State.refuseWrite s bar2).pwr = s.pwr := rfl
@[simp] theorem State.refuseWrite_side (s : State) (bar2 : Bool) : (State.refuseWrite s bar2).side = s.side := rfl
@[simp] theorem State.refuseWrite_jtag (s : State) (bar2 : Bool) : (State.refuseWrite s bar2).jtag = s.jtag := rfl
@[simp] theorem State.refuseWrite_fabric (s : State) (bar2 : Bool) : (State.refuseWrite s bar2).fabric = s.fabric := rfl
@[simp] theorem State.refuseWrite_past (s : State) (bar2 : Bool) : (State.refuseWrite s bar2).past = s.past := rfl
@[simp] theorem State.refuseWrite_free (s : State) (bar2 : Bool) : (State.refuseWrite s bar2).free = s.free := rfl
@[simp] theorem State.refuseWrite_pending (s : State) (bar2 : Bool) : (State.refuseWrite s bar2).pending = s.pending := rfl

@[simp] theorem State.configChanged_clk (s : State) : (State.configChanged s).clk = s.clk := rfl
@[simp] theorem State.configChanged_regs (s : State) : (State.configChanged s).regs = s.regs := rfl
@[simp] theorem State.configChanged_mem (s : State) : (State.configChanged s).mem = s.mem := rfl
@[simp] theorem State.configChanged_out (s : State) : (State.configChanged s).out = s.out := rfl
@[simp] theorem State.configChanged_hif (s : State) : (State.configChanged s).hif = s.hif := rfl
@[simp] theorem State.configChanged_que (s : State) : (State.configChanged s).que = s.que := rfl
@[simp] theorem State.configChanged_xfr (s : State) : (State.configChanged s).xfr = s.xfr := rfl
@[simp] theorem State.configChanged_trace (s : State) : (State.configChanged s).trace = s.trace := rfl
@[simp] theorem State.configChanged_irq (s : State) : (State.configChanged s).irq = s.irq := rfl
@[simp] theorem State.configChanged_reel (s : State) : (State.configChanged s).reel = s.reel := rfl
@[simp] theorem State.configChanged_cells (s : State) : (State.configChanged s).cells = s.cells := rfl
@[simp] theorem State.configChanged_banks (s : State) : (State.configChanged s).banks = s.banks := rfl
@[simp] theorem State.configChanged_units (s : State) : (State.configChanged s).units = s.units := rfl
@[simp] theorem State.configChanged_cycno (s : State) : (State.configChanged s).cycno = s.cycno := rfl
@[simp] theorem State.configChanged_mech (s : State) : (State.configChanged s).mech = s.mech := rfl
@[simp] theorem State.configChanged_elec (s : State) : (State.configChanged s).elec = s.elec := rfl
@[simp] theorem State.configChanged_sync (s : State) : (State.configChanged s).sync = s.sync := rfl
@[simp] theorem State.configChanged_adc (s : State) : (State.configChanged s).adc = s.adc := rfl
@[simp] theorem State.configChanged_ref (s : State) : (State.configChanged s).ref = s.ref := rfl
@[simp] theorem State.configChanged_wins (s : State) : (State.configChanged s).wins = s.wins := rfl
@[simp] theorem State.configChanged_hostPress (s : State) : (State.configChanged s).hostPress = s.hostPress := rfl
@[simp] theorem State.configChanged_angles (s : State) : (State.configChanged s).angles = s.angles := rfl
@[simp] theorem State.configChanged_angLog (s : State) : (State.configChanged s).angLog = s.angLog := rfl
@[simp] theorem State.configChanged_balance (s : State) : (State.configChanged s).balance = s.balance := rfl
@[simp] theorem State.configChanged_wdn (s : State) : (State.configChanged s).wdn = s.wdn := rfl
@[simp] theorem State.configChanged_plan (s : State) : (State.configChanged s).plan = s.plan := rfl
@[simp] theorem State.configChanged_round (s : State) : (State.configChanged s).round = s.round := rfl
@[simp] theorem State.configChanged_vlk (s : State) : (State.configChanged s).vlk = s.vlk := rfl
@[simp] theorem State.configChanged_fw (s : State) : (State.configChanged s).fw = s.fw := rfl
@[simp] theorem State.configChanged_jrn (s : State) : (State.configChanged s).jrn = s.jrn := rfl
@[simp] theorem State.configChanged_pwr (s : State) : (State.configChanged s).pwr = s.pwr := rfl
@[simp] theorem State.configChanged_side (s : State) : (State.configChanged s).side = s.side := rfl
@[simp] theorem State.configChanged_jtag (s : State) : (State.configChanged s).jtag = s.jtag := rfl
@[simp] theorem State.configChanged_fabric (s : State) : (State.configChanged s).fabric = s.fabric := rfl
@[simp] theorem State.configChanged_past (s : State) : (State.configChanged s).past = s.past := rfl
@[simp] theorem State.configChanged_free (s : State) : (State.configChanged s).free = s.free := rfl
@[simp] theorem State.configChanged_pending (s : State) : (State.configChanged s).pending = s.pending := rfl

@[simp] theorem State.setDom_clk (s : State) (d : Nat) (x : Mech) : (State.setDom s d x).clk = s.clk := rfl
@[simp] theorem State.setDom_glb (s : State) (d : Nat) (x : Mech) : (State.setDom s d x).glb = s.glb := rfl
@[simp] theorem State.setDom_regs (s : State) (d : Nat) (x : Mech) : (State.setDom s d x).regs = s.regs := rfl
@[simp] theorem State.setDom_mem (s : State) (d : Nat) (x : Mech) : (State.setDom s d x).mem = s.mem := rfl
@[simp] theorem State.setDom_out (s : State) (d : Nat) (x : Mech) : (State.setDom s d x).out = s.out := rfl
@[simp] theorem State.setDom_hif (s : State) (d : Nat) (x : Mech) : (State.setDom s d x).hif = s.hif := rfl
@[simp] theorem State.setDom_que (s : State) (d : Nat) (x : Mech) : (State.setDom s d x).que = s.que := rfl
@[simp] theorem State.setDom_xfr (s : State) (d : Nat) (x : Mech) : (State.setDom s d x).xfr = s.xfr := rfl
@[simp] theorem State.setDom_trace (s : State) (d : Nat) (x : Mech) : (State.setDom s d x).trace = s.trace := rfl
@[simp] theorem State.setDom_irq (s : State) (d : Nat) (x : Mech) : (State.setDom s d x).irq = s.irq := rfl
@[simp] theorem State.setDom_reel (s : State) (d : Nat) (x : Mech) : (State.setDom s d x).reel = s.reel := rfl
@[simp] theorem State.setDom_cells (s : State) (d : Nat) (x : Mech) : (State.setDom s d x).cells = s.cells := rfl
@[simp] theorem State.setDom_banks (s : State) (d : Nat) (x : Mech) : (State.setDom s d x).banks = s.banks := rfl
@[simp] theorem State.setDom_units (s : State) (d : Nat) (x : Mech) : (State.setDom s d x).units = s.units := rfl
@[simp] theorem State.setDom_cycno (s : State) (d : Nat) (x : Mech) : (State.setDom s d x).cycno = s.cycno := rfl
@[simp] theorem State.setDom_elec (s : State) (d : Nat) (x : Mech) : (State.setDom s d x).elec = s.elec := rfl
@[simp] theorem State.setDom_sync (s : State) (d : Nat) (x : Mech) : (State.setDom s d x).sync = s.sync := rfl
@[simp] theorem State.setDom_adc (s : State) (d : Nat) (x : Mech) : (State.setDom s d x).adc = s.adc := rfl
@[simp] theorem State.setDom_ref (s : State) (d : Nat) (x : Mech) : (State.setDom s d x).ref = s.ref := rfl
@[simp] theorem State.setDom_wins (s : State) (d : Nat) (x : Mech) : (State.setDom s d x).wins = s.wins := rfl
@[simp] theorem State.setDom_hostPress (s : State) (d : Nat) (x : Mech) : (State.setDom s d x).hostPress = s.hostPress := rfl
@[simp] theorem State.setDom_angles (s : State) (d : Nat) (x : Mech) : (State.setDom s d x).angles = s.angles := rfl
@[simp] theorem State.setDom_angLog (s : State) (d : Nat) (x : Mech) : (State.setDom s d x).angLog = s.angLog := rfl
@[simp] theorem State.setDom_balance (s : State) (d : Nat) (x : Mech) : (State.setDom s d x).balance = s.balance := rfl
@[simp] theorem State.setDom_wdn (s : State) (d : Nat) (x : Mech) : (State.setDom s d x).wdn = s.wdn := rfl
@[simp] theorem State.setDom_plan (s : State) (d : Nat) (x : Mech) : (State.setDom s d x).plan = s.plan := rfl
@[simp] theorem State.setDom_round (s : State) (d : Nat) (x : Mech) : (State.setDom s d x).round = s.round := rfl
@[simp] theorem State.setDom_vlk (s : State) (d : Nat) (x : Mech) : (State.setDom s d x).vlk = s.vlk := rfl
@[simp] theorem State.setDom_fw (s : State) (d : Nat) (x : Mech) : (State.setDom s d x).fw = s.fw := rfl
@[simp] theorem State.setDom_jrn (s : State) (d : Nat) (x : Mech) : (State.setDom s d x).jrn = s.jrn := rfl
@[simp] theorem State.setDom_pwr (s : State) (d : Nat) (x : Mech) : (State.setDom s d x).pwr = s.pwr := rfl
@[simp] theorem State.setDom_side (s : State) (d : Nat) (x : Mech) : (State.setDom s d x).side = s.side := rfl
@[simp] theorem State.setDom_jtag (s : State) (d : Nat) (x : Mech) : (State.setDom s d x).jtag = s.jtag := rfl
@[simp] theorem State.setDom_fabric (s : State) (d : Nat) (x : Mech) : (State.setDom s d x).fabric = s.fabric := rfl
@[simp] theorem State.setDom_past (s : State) (d : Nat) (x : Mech) : (State.setDom s d x).past = s.past := rfl
@[simp] theorem State.setDom_free (s : State) (d : Nat) (x : Mech) : (State.setDom s d x).free = s.free := rfl
@[simp] theorem State.setDom_pending (s : State) (d : Nat) (x : Mech) : (State.setDom s d x).pending = s.pending := rfl

@[simp] theorem State.setEl_clk (s : State) (d : Nat) (x : Elec) : (State.setEl s d x).clk = s.clk := rfl
@[simp] theorem State.setEl_glb (s : State) (d : Nat) (x : Elec) : (State.setEl s d x).glb = s.glb := rfl
@[simp] theorem State.setEl_regs (s : State) (d : Nat) (x : Elec) : (State.setEl s d x).regs = s.regs := rfl
@[simp] theorem State.setEl_mem (s : State) (d : Nat) (x : Elec) : (State.setEl s d x).mem = s.mem := rfl
@[simp] theorem State.setEl_out (s : State) (d : Nat) (x : Elec) : (State.setEl s d x).out = s.out := rfl
@[simp] theorem State.setEl_hif (s : State) (d : Nat) (x : Elec) : (State.setEl s d x).hif = s.hif := rfl
@[simp] theorem State.setEl_que (s : State) (d : Nat) (x : Elec) : (State.setEl s d x).que = s.que := rfl
@[simp] theorem State.setEl_xfr (s : State) (d : Nat) (x : Elec) : (State.setEl s d x).xfr = s.xfr := rfl
@[simp] theorem State.setEl_trace (s : State) (d : Nat) (x : Elec) : (State.setEl s d x).trace = s.trace := rfl
@[simp] theorem State.setEl_irq (s : State) (d : Nat) (x : Elec) : (State.setEl s d x).irq = s.irq := rfl
@[simp] theorem State.setEl_reel (s : State) (d : Nat) (x : Elec) : (State.setEl s d x).reel = s.reel := rfl
@[simp] theorem State.setEl_cells (s : State) (d : Nat) (x : Elec) : (State.setEl s d x).cells = s.cells := rfl
@[simp] theorem State.setEl_banks (s : State) (d : Nat) (x : Elec) : (State.setEl s d x).banks = s.banks := rfl
@[simp] theorem State.setEl_units (s : State) (d : Nat) (x : Elec) : (State.setEl s d x).units = s.units := rfl
@[simp] theorem State.setEl_cycno (s : State) (d : Nat) (x : Elec) : (State.setEl s d x).cycno = s.cycno := rfl
@[simp] theorem State.setEl_mech (s : State) (d : Nat) (x : Elec) : (State.setEl s d x).mech = s.mech := rfl
@[simp] theorem State.setEl_sync (s : State) (d : Nat) (x : Elec) : (State.setEl s d x).sync = s.sync := rfl
@[simp] theorem State.setEl_adc (s : State) (d : Nat) (x : Elec) : (State.setEl s d x).adc = s.adc := rfl
@[simp] theorem State.setEl_ref (s : State) (d : Nat) (x : Elec) : (State.setEl s d x).ref = s.ref := rfl
@[simp] theorem State.setEl_wins (s : State) (d : Nat) (x : Elec) : (State.setEl s d x).wins = s.wins := rfl
@[simp] theorem State.setEl_hostPress (s : State) (d : Nat) (x : Elec) : (State.setEl s d x).hostPress = s.hostPress := rfl
@[simp] theorem State.setEl_angles (s : State) (d : Nat) (x : Elec) : (State.setEl s d x).angles = s.angles := rfl
@[simp] theorem State.setEl_angLog (s : State) (d : Nat) (x : Elec) : (State.setEl s d x).angLog = s.angLog := rfl
@[simp] theorem State.setEl_balance (s : State) (d : Nat) (x : Elec) : (State.setEl s d x).balance = s.balance := rfl
@[simp] theorem State.setEl_wdn (s : State) (d : Nat) (x : Elec) : (State.setEl s d x).wdn = s.wdn := rfl
@[simp] theorem State.setEl_plan (s : State) (d : Nat) (x : Elec) : (State.setEl s d x).plan = s.plan := rfl
@[simp] theorem State.setEl_round (s : State) (d : Nat) (x : Elec) : (State.setEl s d x).round = s.round := rfl
@[simp] theorem State.setEl_vlk (s : State) (d : Nat) (x : Elec) : (State.setEl s d x).vlk = s.vlk := rfl
@[simp] theorem State.setEl_fw (s : State) (d : Nat) (x : Elec) : (State.setEl s d x).fw = s.fw := rfl
@[simp] theorem State.setEl_jrn (s : State) (d : Nat) (x : Elec) : (State.setEl s d x).jrn = s.jrn := rfl
@[simp] theorem State.setEl_pwr (s : State) (d : Nat) (x : Elec) : (State.setEl s d x).pwr = s.pwr := rfl
@[simp] theorem State.setEl_side (s : State) (d : Nat) (x : Elec) : (State.setEl s d x).side = s.side := rfl
@[simp] theorem State.setEl_jtag (s : State) (d : Nat) (x : Elec) : (State.setEl s d x).jtag = s.jtag := rfl
@[simp] theorem State.setEl_fabric (s : State) (d : Nat) (x : Elec) : (State.setEl s d x).fabric = s.fabric := rfl
@[simp] theorem State.setEl_past (s : State) (d : Nat) (x : Elec) : (State.setEl s d x).past = s.past := rfl
@[simp] theorem State.setEl_free (s : State) (d : Nat) (x : Elec) : (State.setEl s d x).free = s.free := rfl
@[simp] theorem State.setEl_pending (s : State) (d : Nat) (x : Elec) : (State.setEl s d x).pending = s.pending := rfl

@[simp] theorem State.setCell_clk (s : State) (c : Nat) (x : Cell) : (State.setCell s c x).clk = s.clk := rfl
@[simp] theorem State.setCell_glb (s : State) (c : Nat) (x : Cell) : (State.setCell s c x).glb = s.glb := rfl
@[simp] theorem State.setCell_regs (s : State) (c : Nat) (x : Cell) : (State.setCell s c x).regs = s.regs := rfl
@[simp] theorem State.setCell_mem (s : State) (c : Nat) (x : Cell) : (State.setCell s c x).mem = s.mem := rfl
@[simp] theorem State.setCell_out (s : State) (c : Nat) (x : Cell) : (State.setCell s c x).out = s.out := rfl
@[simp] theorem State.setCell_hif (s : State) (c : Nat) (x : Cell) : (State.setCell s c x).hif = s.hif := rfl
@[simp] theorem State.setCell_que (s : State) (c : Nat) (x : Cell) : (State.setCell s c x).que = s.que := rfl
@[simp] theorem State.setCell_xfr (s : State) (c : Nat) (x : Cell) : (State.setCell s c x).xfr = s.xfr := rfl
@[simp] theorem State.setCell_trace (s : State) (c : Nat) (x : Cell) : (State.setCell s c x).trace = s.trace := rfl
@[simp] theorem State.setCell_irq (s : State) (c : Nat) (x : Cell) : (State.setCell s c x).irq = s.irq := rfl
@[simp] theorem State.setCell_reel (s : State) (c : Nat) (x : Cell) : (State.setCell s c x).reel = s.reel := rfl
@[simp] theorem State.setCell_banks (s : State) (c : Nat) (x : Cell) : (State.setCell s c x).banks = s.banks := rfl
@[simp] theorem State.setCell_units (s : State) (c : Nat) (x : Cell) : (State.setCell s c x).units = s.units := rfl
@[simp] theorem State.setCell_cycno (s : State) (c : Nat) (x : Cell) : (State.setCell s c x).cycno = s.cycno := rfl
@[simp] theorem State.setCell_mech (s : State) (c : Nat) (x : Cell) : (State.setCell s c x).mech = s.mech := rfl
@[simp] theorem State.setCell_elec (s : State) (c : Nat) (x : Cell) : (State.setCell s c x).elec = s.elec := rfl
@[simp] theorem State.setCell_sync (s : State) (c : Nat) (x : Cell) : (State.setCell s c x).sync = s.sync := rfl
@[simp] theorem State.setCell_adc (s : State) (c : Nat) (x : Cell) : (State.setCell s c x).adc = s.adc := rfl
@[simp] theorem State.setCell_ref (s : State) (c : Nat) (x : Cell) : (State.setCell s c x).ref = s.ref := rfl
@[simp] theorem State.setCell_wins (s : State) (c : Nat) (x : Cell) : (State.setCell s c x).wins = s.wins := rfl
@[simp] theorem State.setCell_hostPress (s : State) (c : Nat) (x : Cell) : (State.setCell s c x).hostPress = s.hostPress := rfl
@[simp] theorem State.setCell_angles (s : State) (c : Nat) (x : Cell) : (State.setCell s c x).angles = s.angles := rfl
@[simp] theorem State.setCell_angLog (s : State) (c : Nat) (x : Cell) : (State.setCell s c x).angLog = s.angLog := rfl
@[simp] theorem State.setCell_balance (s : State) (c : Nat) (x : Cell) : (State.setCell s c x).balance = s.balance := rfl
@[simp] theorem State.setCell_wdn (s : State) (c : Nat) (x : Cell) : (State.setCell s c x).wdn = s.wdn := rfl
@[simp] theorem State.setCell_plan (s : State) (c : Nat) (x : Cell) : (State.setCell s c x).plan = s.plan := rfl
@[simp] theorem State.setCell_round (s : State) (c : Nat) (x : Cell) : (State.setCell s c x).round = s.round := rfl
@[simp] theorem State.setCell_vlk (s : State) (c : Nat) (x : Cell) : (State.setCell s c x).vlk = s.vlk := rfl
@[simp] theorem State.setCell_fw (s : State) (c : Nat) (x : Cell) : (State.setCell s c x).fw = s.fw := rfl
@[simp] theorem State.setCell_jrn (s : State) (c : Nat) (x : Cell) : (State.setCell s c x).jrn = s.jrn := rfl
@[simp] theorem State.setCell_pwr (s : State) (c : Nat) (x : Cell) : (State.setCell s c x).pwr = s.pwr := rfl
@[simp] theorem State.setCell_side (s : State) (c : Nat) (x : Cell) : (State.setCell s c x).side = s.side := rfl
@[simp] theorem State.setCell_jtag (s : State) (c : Nat) (x : Cell) : (State.setCell s c x).jtag = s.jtag := rfl
@[simp] theorem State.setCell_fabric (s : State) (c : Nat) (x : Cell) : (State.setCell s c x).fabric = s.fabric := rfl
@[simp] theorem State.setCell_past (s : State) (c : Nat) (x : Cell) : (State.setCell s c x).past = s.past := rfl
@[simp] theorem State.setCell_free (s : State) (c : Nat) (x : Cell) : (State.setCell s c x).free = s.free := rfl
@[simp] theorem State.setCell_pending (s : State) (c : Nat) (x : Cell) : (State.setCell s c x).pending = s.pending := rfl

@[simp] theorem State.setBank_clk (s : State) (b : Nat) (x : Bank) : (State.setBank s b x).clk = s.clk := rfl
@[simp] theorem State.setBank_glb (s : State) (b : Nat) (x : Bank) : (State.setBank s b x).glb = s.glb := rfl
@[simp] theorem State.setBank_regs (s : State) (b : Nat) (x : Bank) : (State.setBank s b x).regs = s.regs := rfl
@[simp] theorem State.setBank_mem (s : State) (b : Nat) (x : Bank) : (State.setBank s b x).mem = s.mem := rfl
@[simp] theorem State.setBank_out (s : State) (b : Nat) (x : Bank) : (State.setBank s b x).out = s.out := rfl
@[simp] theorem State.setBank_hif (s : State) (b : Nat) (x : Bank) : (State.setBank s b x).hif = s.hif := rfl
@[simp] theorem State.setBank_que (s : State) (b : Nat) (x : Bank) : (State.setBank s b x).que = s.que := rfl
@[simp] theorem State.setBank_xfr (s : State) (b : Nat) (x : Bank) : (State.setBank s b x).xfr = s.xfr := rfl
@[simp] theorem State.setBank_trace (s : State) (b : Nat) (x : Bank) : (State.setBank s b x).trace = s.trace := rfl
@[simp] theorem State.setBank_irq (s : State) (b : Nat) (x : Bank) : (State.setBank s b x).irq = s.irq := rfl
@[simp] theorem State.setBank_reel (s : State) (b : Nat) (x : Bank) : (State.setBank s b x).reel = s.reel := rfl
@[simp] theorem State.setBank_cells (s : State) (b : Nat) (x : Bank) : (State.setBank s b x).cells = s.cells := rfl
@[simp] theorem State.setBank_units (s : State) (b : Nat) (x : Bank) : (State.setBank s b x).units = s.units := rfl
@[simp] theorem State.setBank_cycno (s : State) (b : Nat) (x : Bank) : (State.setBank s b x).cycno = s.cycno := rfl
@[simp] theorem State.setBank_mech (s : State) (b : Nat) (x : Bank) : (State.setBank s b x).mech = s.mech := rfl
@[simp] theorem State.setBank_elec (s : State) (b : Nat) (x : Bank) : (State.setBank s b x).elec = s.elec := rfl
@[simp] theorem State.setBank_sync (s : State) (b : Nat) (x : Bank) : (State.setBank s b x).sync = s.sync := rfl
@[simp] theorem State.setBank_adc (s : State) (b : Nat) (x : Bank) : (State.setBank s b x).adc = s.adc := rfl
@[simp] theorem State.setBank_ref (s : State) (b : Nat) (x : Bank) : (State.setBank s b x).ref = s.ref := rfl
@[simp] theorem State.setBank_wins (s : State) (b : Nat) (x : Bank) : (State.setBank s b x).wins = s.wins := rfl
@[simp] theorem State.setBank_hostPress (s : State) (b : Nat) (x : Bank) : (State.setBank s b x).hostPress = s.hostPress := rfl
@[simp] theorem State.setBank_angles (s : State) (b : Nat) (x : Bank) : (State.setBank s b x).angles = s.angles := rfl
@[simp] theorem State.setBank_angLog (s : State) (b : Nat) (x : Bank) : (State.setBank s b x).angLog = s.angLog := rfl
@[simp] theorem State.setBank_balance (s : State) (b : Nat) (x : Bank) : (State.setBank s b x).balance = s.balance := rfl
@[simp] theorem State.setBank_wdn (s : State) (b : Nat) (x : Bank) : (State.setBank s b x).wdn = s.wdn := rfl
@[simp] theorem State.setBank_plan (s : State) (b : Nat) (x : Bank) : (State.setBank s b x).plan = s.plan := rfl
@[simp] theorem State.setBank_round (s : State) (b : Nat) (x : Bank) : (State.setBank s b x).round = s.round := rfl
@[simp] theorem State.setBank_vlk (s : State) (b : Nat) (x : Bank) : (State.setBank s b x).vlk = s.vlk := rfl
@[simp] theorem State.setBank_fw (s : State) (b : Nat) (x : Bank) : (State.setBank s b x).fw = s.fw := rfl
@[simp] theorem State.setBank_jrn (s : State) (b : Nat) (x : Bank) : (State.setBank s b x).jrn = s.jrn := rfl
@[simp] theorem State.setBank_pwr (s : State) (b : Nat) (x : Bank) : (State.setBank s b x).pwr = s.pwr := rfl
@[simp] theorem State.setBank_side (s : State) (b : Nat) (x : Bank) : (State.setBank s b x).side = s.side := rfl
@[simp] theorem State.setBank_jtag (s : State) (b : Nat) (x : Bank) : (State.setBank s b x).jtag = s.jtag := rfl
@[simp] theorem State.setBank_fabric (s : State) (b : Nat) (x : Bank) : (State.setBank s b x).fabric = s.fabric := rfl
@[simp] theorem State.setBank_past (s : State) (b : Nat) (x : Bank) : (State.setBank s b x).past = s.past := rfl
@[simp] theorem State.setBank_free (s : State) (b : Nat) (x : Bank) : (State.setBank s b x).free = s.free := rfl
@[simp] theorem State.setBank_pending (s : State) (b : Nat) (x : Bank) : (State.setBank s b x).pending = s.pending := rfl

@[simp] theorem State.setUnit_clk (s : State) (u : Nat) (x : SUnit) : (State.setUnit s u x).clk = s.clk := rfl
@[simp] theorem State.setUnit_glb (s : State) (u : Nat) (x : SUnit) : (State.setUnit s u x).glb = s.glb := rfl
@[simp] theorem State.setUnit_regs (s : State) (u : Nat) (x : SUnit) : (State.setUnit s u x).regs = s.regs := rfl
@[simp] theorem State.setUnit_mem (s : State) (u : Nat) (x : SUnit) : (State.setUnit s u x).mem = s.mem := rfl
@[simp] theorem State.setUnit_out (s : State) (u : Nat) (x : SUnit) : (State.setUnit s u x).out = s.out := rfl
@[simp] theorem State.setUnit_hif (s : State) (u : Nat) (x : SUnit) : (State.setUnit s u x).hif = s.hif := rfl
@[simp] theorem State.setUnit_que (s : State) (u : Nat) (x : SUnit) : (State.setUnit s u x).que = s.que := rfl
@[simp] theorem State.setUnit_xfr (s : State) (u : Nat) (x : SUnit) : (State.setUnit s u x).xfr = s.xfr := rfl
@[simp] theorem State.setUnit_trace (s : State) (u : Nat) (x : SUnit) : (State.setUnit s u x).trace = s.trace := rfl
@[simp] theorem State.setUnit_irq (s : State) (u : Nat) (x : SUnit) : (State.setUnit s u x).irq = s.irq := rfl
@[simp] theorem State.setUnit_reel (s : State) (u : Nat) (x : SUnit) : (State.setUnit s u x).reel = s.reel := rfl
@[simp] theorem State.setUnit_cells (s : State) (u : Nat) (x : SUnit) : (State.setUnit s u x).cells = s.cells := rfl
@[simp] theorem State.setUnit_banks (s : State) (u : Nat) (x : SUnit) : (State.setUnit s u x).banks = s.banks := rfl
@[simp] theorem State.setUnit_cycno (s : State) (u : Nat) (x : SUnit) : (State.setUnit s u x).cycno = s.cycno := rfl
@[simp] theorem State.setUnit_mech (s : State) (u : Nat) (x : SUnit) : (State.setUnit s u x).mech = s.mech := rfl
@[simp] theorem State.setUnit_elec (s : State) (u : Nat) (x : SUnit) : (State.setUnit s u x).elec = s.elec := rfl
@[simp] theorem State.setUnit_sync (s : State) (u : Nat) (x : SUnit) : (State.setUnit s u x).sync = s.sync := rfl
@[simp] theorem State.setUnit_adc (s : State) (u : Nat) (x : SUnit) : (State.setUnit s u x).adc = s.adc := rfl
@[simp] theorem State.setUnit_ref (s : State) (u : Nat) (x : SUnit) : (State.setUnit s u x).ref = s.ref := rfl
@[simp] theorem State.setUnit_wins (s : State) (u : Nat) (x : SUnit) : (State.setUnit s u x).wins = s.wins := rfl
@[simp] theorem State.setUnit_hostPress (s : State) (u : Nat) (x : SUnit) : (State.setUnit s u x).hostPress = s.hostPress := rfl
@[simp] theorem State.setUnit_angles (s : State) (u : Nat) (x : SUnit) : (State.setUnit s u x).angles = s.angles := rfl
@[simp] theorem State.setUnit_angLog (s : State) (u : Nat) (x : SUnit) : (State.setUnit s u x).angLog = s.angLog := rfl
@[simp] theorem State.setUnit_balance (s : State) (u : Nat) (x : SUnit) : (State.setUnit s u x).balance = s.balance := rfl
@[simp] theorem State.setUnit_wdn (s : State) (u : Nat) (x : SUnit) : (State.setUnit s u x).wdn = s.wdn := rfl
@[simp] theorem State.setUnit_plan (s : State) (u : Nat) (x : SUnit) : (State.setUnit s u x).plan = s.plan := rfl
@[simp] theorem State.setUnit_round (s : State) (u : Nat) (x : SUnit) : (State.setUnit s u x).round = s.round := rfl
@[simp] theorem State.setUnit_vlk (s : State) (u : Nat) (x : SUnit) : (State.setUnit s u x).vlk = s.vlk := rfl
@[simp] theorem State.setUnit_fw (s : State) (u : Nat) (x : SUnit) : (State.setUnit s u x).fw = s.fw := rfl
@[simp] theorem State.setUnit_jrn (s : State) (u : Nat) (x : SUnit) : (State.setUnit s u x).jrn = s.jrn := rfl
@[simp] theorem State.setUnit_pwr (s : State) (u : Nat) (x : SUnit) : (State.setUnit s u x).pwr = s.pwr := rfl
@[simp] theorem State.setUnit_side (s : State) (u : Nat) (x : SUnit) : (State.setUnit s u x).side = s.side := rfl
@[simp] theorem State.setUnit_jtag (s : State) (u : Nat) (x : SUnit) : (State.setUnit s u x).jtag = s.jtag := rfl
@[simp] theorem State.setUnit_fabric (s : State) (u : Nat) (x : SUnit) : (State.setUnit s u x).fabric = s.fabric := rfl
@[simp] theorem State.setUnit_past (s : State) (u : Nat) (x : SUnit) : (State.setUnit s u x).past = s.past := rfl
@[simp] theorem State.setUnit_free (s : State) (u : Nat) (x : SUnit) : (State.setUnit s u x).free = s.free := rfl
@[simp] theorem State.setUnit_pending (s : State) (u : Nat) (x : SUnit) : (State.setUnit s u x).pending = s.pending := rfl

@[simp] theorem State.setWin_clk (s : State) (w : Nat) (x : Win) : (State.setWin s w x).clk = s.clk := rfl
@[simp] theorem State.setWin_glb (s : State) (w : Nat) (x : Win) : (State.setWin s w x).glb = s.glb := rfl
@[simp] theorem State.setWin_regs (s : State) (w : Nat) (x : Win) : (State.setWin s w x).regs = s.regs := rfl
@[simp] theorem State.setWin_mem (s : State) (w : Nat) (x : Win) : (State.setWin s w x).mem = s.mem := rfl
@[simp] theorem State.setWin_out (s : State) (w : Nat) (x : Win) : (State.setWin s w x).out = s.out := rfl
@[simp] theorem State.setWin_hif (s : State) (w : Nat) (x : Win) : (State.setWin s w x).hif = s.hif := rfl
@[simp] theorem State.setWin_que (s : State) (w : Nat) (x : Win) : (State.setWin s w x).que = s.que := rfl
@[simp] theorem State.setWin_xfr (s : State) (w : Nat) (x : Win) : (State.setWin s w x).xfr = s.xfr := rfl
@[simp] theorem State.setWin_trace (s : State) (w : Nat) (x : Win) : (State.setWin s w x).trace = s.trace := rfl
@[simp] theorem State.setWin_irq (s : State) (w : Nat) (x : Win) : (State.setWin s w x).irq = s.irq := rfl
@[simp] theorem State.setWin_reel (s : State) (w : Nat) (x : Win) : (State.setWin s w x).reel = s.reel := rfl
@[simp] theorem State.setWin_cells (s : State) (w : Nat) (x : Win) : (State.setWin s w x).cells = s.cells := rfl
@[simp] theorem State.setWin_banks (s : State) (w : Nat) (x : Win) : (State.setWin s w x).banks = s.banks := rfl
@[simp] theorem State.setWin_units (s : State) (w : Nat) (x : Win) : (State.setWin s w x).units = s.units := rfl
@[simp] theorem State.setWin_cycno (s : State) (w : Nat) (x : Win) : (State.setWin s w x).cycno = s.cycno := rfl
@[simp] theorem State.setWin_mech (s : State) (w : Nat) (x : Win) : (State.setWin s w x).mech = s.mech := rfl
@[simp] theorem State.setWin_elec (s : State) (w : Nat) (x : Win) : (State.setWin s w x).elec = s.elec := rfl
@[simp] theorem State.setWin_sync (s : State) (w : Nat) (x : Win) : (State.setWin s w x).sync = s.sync := rfl
@[simp] theorem State.setWin_adc (s : State) (w : Nat) (x : Win) : (State.setWin s w x).adc = s.adc := rfl
@[simp] theorem State.setWin_ref (s : State) (w : Nat) (x : Win) : (State.setWin s w x).ref = s.ref := rfl
@[simp] theorem State.setWin_hostPress (s : State) (w : Nat) (x : Win) : (State.setWin s w x).hostPress = s.hostPress := rfl
@[simp] theorem State.setWin_angles (s : State) (w : Nat) (x : Win) : (State.setWin s w x).angles = s.angles := rfl
@[simp] theorem State.setWin_angLog (s : State) (w : Nat) (x : Win) : (State.setWin s w x).angLog = s.angLog := rfl
@[simp] theorem State.setWin_balance (s : State) (w : Nat) (x : Win) : (State.setWin s w x).balance = s.balance := rfl
@[simp] theorem State.setWin_wdn (s : State) (w : Nat) (x : Win) : (State.setWin s w x).wdn = s.wdn := rfl
@[simp] theorem State.setWin_plan (s : State) (w : Nat) (x : Win) : (State.setWin s w x).plan = s.plan := rfl
@[simp] theorem State.setWin_round (s : State) (w : Nat) (x : Win) : (State.setWin s w x).round = s.round := rfl
@[simp] theorem State.setWin_vlk (s : State) (w : Nat) (x : Win) : (State.setWin s w x).vlk = s.vlk := rfl
@[simp] theorem State.setWin_fw (s : State) (w : Nat) (x : Win) : (State.setWin s w x).fw = s.fw := rfl
@[simp] theorem State.setWin_jrn (s : State) (w : Nat) (x : Win) : (State.setWin s w x).jrn = s.jrn := rfl
@[simp] theorem State.setWin_pwr (s : State) (w : Nat) (x : Win) : (State.setWin s w x).pwr = s.pwr := rfl
@[simp] theorem State.setWin_side (s : State) (w : Nat) (x : Win) : (State.setWin s w x).side = s.side := rfl
@[simp] theorem State.setWin_jtag (s : State) (w : Nat) (x : Win) : (State.setWin s w x).jtag = s.jtag := rfl
@[simp] theorem State.setWin_fabric (s : State) (w : Nat) (x : Win) : (State.setWin s w x).fabric = s.fabric := rfl
@[simp] theorem State.setWin_past (s : State) (w : Nat) (x : Win) : (State.setWin s w x).past = s.past := rfl
@[simp] theorem State.setWin_free (s : State) (w : Nat) (x : Win) : (State.setWin s w x).free = s.free := rfl
@[simp] theorem State.setWin_pending (s : State) (w : Nat) (x : Win) : (State.setWin s w x).pending = s.pending := rfl

@[simp] theorem State.setConv_clk (s : State) (k : Nat) (x : Adc) : (State.setConv s k x).clk = s.clk := rfl
@[simp] theorem State.setConv_glb (s : State) (k : Nat) (x : Adc) : (State.setConv s k x).glb = s.glb := rfl
@[simp] theorem State.setConv_regs (s : State) (k : Nat) (x : Adc) : (State.setConv s k x).regs = s.regs := rfl
@[simp] theorem State.setConv_mem (s : State) (k : Nat) (x : Adc) : (State.setConv s k x).mem = s.mem := rfl
@[simp] theorem State.setConv_out (s : State) (k : Nat) (x : Adc) : (State.setConv s k x).out = s.out := rfl
@[simp] theorem State.setConv_hif (s : State) (k : Nat) (x : Adc) : (State.setConv s k x).hif = s.hif := rfl
@[simp] theorem State.setConv_que (s : State) (k : Nat) (x : Adc) : (State.setConv s k x).que = s.que := rfl
@[simp] theorem State.setConv_xfr (s : State) (k : Nat) (x : Adc) : (State.setConv s k x).xfr = s.xfr := rfl
@[simp] theorem State.setConv_trace (s : State) (k : Nat) (x : Adc) : (State.setConv s k x).trace = s.trace := rfl
@[simp] theorem State.setConv_irq (s : State) (k : Nat) (x : Adc) : (State.setConv s k x).irq = s.irq := rfl
@[simp] theorem State.setConv_reel (s : State) (k : Nat) (x : Adc) : (State.setConv s k x).reel = s.reel := rfl
@[simp] theorem State.setConv_cells (s : State) (k : Nat) (x : Adc) : (State.setConv s k x).cells = s.cells := rfl
@[simp] theorem State.setConv_banks (s : State) (k : Nat) (x : Adc) : (State.setConv s k x).banks = s.banks := rfl
@[simp] theorem State.setConv_units (s : State) (k : Nat) (x : Adc) : (State.setConv s k x).units = s.units := rfl
@[simp] theorem State.setConv_cycno (s : State) (k : Nat) (x : Adc) : (State.setConv s k x).cycno = s.cycno := rfl
@[simp] theorem State.setConv_mech (s : State) (k : Nat) (x : Adc) : (State.setConv s k x).mech = s.mech := rfl
@[simp] theorem State.setConv_elec (s : State) (k : Nat) (x : Adc) : (State.setConv s k x).elec = s.elec := rfl
@[simp] theorem State.setConv_sync (s : State) (k : Nat) (x : Adc) : (State.setConv s k x).sync = s.sync := rfl
@[simp] theorem State.setConv_ref (s : State) (k : Nat) (x : Adc) : (State.setConv s k x).ref = s.ref := rfl
@[simp] theorem State.setConv_wins (s : State) (k : Nat) (x : Adc) : (State.setConv s k x).wins = s.wins := rfl
@[simp] theorem State.setConv_hostPress (s : State) (k : Nat) (x : Adc) : (State.setConv s k x).hostPress = s.hostPress := rfl
@[simp] theorem State.setConv_angles (s : State) (k : Nat) (x : Adc) : (State.setConv s k x).angles = s.angles := rfl
@[simp] theorem State.setConv_angLog (s : State) (k : Nat) (x : Adc) : (State.setConv s k x).angLog = s.angLog := rfl
@[simp] theorem State.setConv_balance (s : State) (k : Nat) (x : Adc) : (State.setConv s k x).balance = s.balance := rfl
@[simp] theorem State.setConv_wdn (s : State) (k : Nat) (x : Adc) : (State.setConv s k x).wdn = s.wdn := rfl
@[simp] theorem State.setConv_plan (s : State) (k : Nat) (x : Adc) : (State.setConv s k x).plan = s.plan := rfl
@[simp] theorem State.setConv_round (s : State) (k : Nat) (x : Adc) : (State.setConv s k x).round = s.round := rfl
@[simp] theorem State.setConv_vlk (s : State) (k : Nat) (x : Adc) : (State.setConv s k x).vlk = s.vlk := rfl
@[simp] theorem State.setConv_fw (s : State) (k : Nat) (x : Adc) : (State.setConv s k x).fw = s.fw := rfl
@[simp] theorem State.setConv_jrn (s : State) (k : Nat) (x : Adc) : (State.setConv s k x).jrn = s.jrn := rfl
@[simp] theorem State.setConv_pwr (s : State) (k : Nat) (x : Adc) : (State.setConv s k x).pwr = s.pwr := rfl
@[simp] theorem State.setConv_side (s : State) (k : Nat) (x : Adc) : (State.setConv s k x).side = s.side := rfl
@[simp] theorem State.setConv_jtag (s : State) (k : Nat) (x : Adc) : (State.setConv s k x).jtag = s.jtag := rfl
@[simp] theorem State.setConv_fabric (s : State) (k : Nat) (x : Adc) : (State.setConv s k x).fabric = s.fabric := rfl
@[simp] theorem State.setConv_past (s : State) (k : Nat) (x : Adc) : (State.setConv s k x).past = s.past := rfl
@[simp] theorem State.setConv_free (s : State) (k : Nat) (x : Adc) : (State.setConv s k x).free = s.free := rfl
@[simp] theorem State.setConv_pending (s : State) (k : Nat) (x : Adc) : (State.setConv s k x).pending = s.pending := rfl

@[simp] theorem State.setX_clk (s : State) (n : Nat) (c : XCh) : (State.setX s n c).clk = s.clk := rfl
@[simp] theorem State.setX_glb (s : State) (n : Nat) (c : XCh) : (State.setX s n c).glb = s.glb := rfl
@[simp] theorem State.setX_regs (s : State) (n : Nat) (c : XCh) : (State.setX s n c).regs = s.regs := rfl
@[simp] theorem State.setX_mem (s : State) (n : Nat) (c : XCh) : (State.setX s n c).mem = s.mem := rfl
@[simp] theorem State.setX_out (s : State) (n : Nat) (c : XCh) : (State.setX s n c).out = s.out := rfl
@[simp] theorem State.setX_hif (s : State) (n : Nat) (c : XCh) : (State.setX s n c).hif = s.hif := rfl
@[simp] theorem State.setX_que (s : State) (n : Nat) (c : XCh) : (State.setX s n c).que = s.que := rfl
@[simp] theorem State.setX_trace (s : State) (n : Nat) (c : XCh) : (State.setX s n c).trace = s.trace := rfl
@[simp] theorem State.setX_irq (s : State) (n : Nat) (c : XCh) : (State.setX s n c).irq = s.irq := rfl
@[simp] theorem State.setX_reel (s : State) (n : Nat) (c : XCh) : (State.setX s n c).reel = s.reel := rfl
@[simp] theorem State.setX_cells (s : State) (n : Nat) (c : XCh) : (State.setX s n c).cells = s.cells := rfl
@[simp] theorem State.setX_banks (s : State) (n : Nat) (c : XCh) : (State.setX s n c).banks = s.banks := rfl
@[simp] theorem State.setX_units (s : State) (n : Nat) (c : XCh) : (State.setX s n c).units = s.units := rfl
@[simp] theorem State.setX_cycno (s : State) (n : Nat) (c : XCh) : (State.setX s n c).cycno = s.cycno := rfl
@[simp] theorem State.setX_mech (s : State) (n : Nat) (c : XCh) : (State.setX s n c).mech = s.mech := rfl
@[simp] theorem State.setX_elec (s : State) (n : Nat) (c : XCh) : (State.setX s n c).elec = s.elec := rfl
@[simp] theorem State.setX_sync (s : State) (n : Nat) (c : XCh) : (State.setX s n c).sync = s.sync := rfl
@[simp] theorem State.setX_adc (s : State) (n : Nat) (c : XCh) : (State.setX s n c).adc = s.adc := rfl
@[simp] theorem State.setX_ref (s : State) (n : Nat) (c : XCh) : (State.setX s n c).ref = s.ref := rfl
@[simp] theorem State.setX_wins (s : State) (n : Nat) (c : XCh) : (State.setX s n c).wins = s.wins := rfl
@[simp] theorem State.setX_hostPress (s : State) (n : Nat) (c : XCh) : (State.setX s n c).hostPress = s.hostPress := rfl
@[simp] theorem State.setX_angles (s : State) (n : Nat) (c : XCh) : (State.setX s n c).angles = s.angles := rfl
@[simp] theorem State.setX_angLog (s : State) (n : Nat) (c : XCh) : (State.setX s n c).angLog = s.angLog := rfl
@[simp] theorem State.setX_balance (s : State) (n : Nat) (c : XCh) : (State.setX s n c).balance = s.balance := rfl
@[simp] theorem State.setX_wdn (s : State) (n : Nat) (c : XCh) : (State.setX s n c).wdn = s.wdn := rfl
@[simp] theorem State.setX_plan (s : State) (n : Nat) (c : XCh) : (State.setX s n c).plan = s.plan := rfl
@[simp] theorem State.setX_round (s : State) (n : Nat) (c : XCh) : (State.setX s n c).round = s.round := rfl
@[simp] theorem State.setX_vlk (s : State) (n : Nat) (c : XCh) : (State.setX s n c).vlk = s.vlk := rfl
@[simp] theorem State.setX_fw (s : State) (n : Nat) (c : XCh) : (State.setX s n c).fw = s.fw := rfl
@[simp] theorem State.setX_jrn (s : State) (n : Nat) (c : XCh) : (State.setX s n c).jrn = s.jrn := rfl
@[simp] theorem State.setX_pwr (s : State) (n : Nat) (c : XCh) : (State.setX s n c).pwr = s.pwr := rfl
@[simp] theorem State.setX_side (s : State) (n : Nat) (c : XCh) : (State.setX s n c).side = s.side := rfl
@[simp] theorem State.setX_jtag (s : State) (n : Nat) (c : XCh) : (State.setX s n c).jtag = s.jtag := rfl
@[simp] theorem State.setX_fabric (s : State) (n : Nat) (c : XCh) : (State.setX s n c).fabric = s.fabric := rfl
@[simp] theorem State.setX_past (s : State) (n : Nat) (c : XCh) : (State.setX s n c).past = s.past := rfl
@[simp] theorem State.setX_free (s : State) (n : Nat) (c : XCh) : (State.setX s n c).free = s.free := rfl
@[simp] theorem State.setX_pending (s : State) (n : Nat) (c : XCh) : (State.setX s n c).pending = s.pending := rfl

@[simp] theorem State.setQ_clk (s : State) (q : Nat) (c : QCell) : (State.setQ s q c).clk = s.clk := rfl
@[simp] theorem State.setQ_glb (s : State) (q : Nat) (c : QCell) : (State.setQ s q c).glb = s.glb := rfl
@[simp] theorem State.setQ_regs (s : State) (q : Nat) (c : QCell) : (State.setQ s q c).regs = s.regs := rfl
@[simp] theorem State.setQ_mem (s : State) (q : Nat) (c : QCell) : (State.setQ s q c).mem = s.mem := rfl
@[simp] theorem State.setQ_out (s : State) (q : Nat) (c : QCell) : (State.setQ s q c).out = s.out := rfl
@[simp] theorem State.setQ_hif (s : State) (q : Nat) (c : QCell) : (State.setQ s q c).hif = s.hif := rfl
@[simp] theorem State.setQ_xfr (s : State) (q : Nat) (c : QCell) : (State.setQ s q c).xfr = s.xfr := rfl
@[simp] theorem State.setQ_trace (s : State) (q : Nat) (c : QCell) : (State.setQ s q c).trace = s.trace := rfl
@[simp] theorem State.setQ_irq (s : State) (q : Nat) (c : QCell) : (State.setQ s q c).irq = s.irq := rfl
@[simp] theorem State.setQ_reel (s : State) (q : Nat) (c : QCell) : (State.setQ s q c).reel = s.reel := rfl
@[simp] theorem State.setQ_cells (s : State) (q : Nat) (c : QCell) : (State.setQ s q c).cells = s.cells := rfl
@[simp] theorem State.setQ_banks (s : State) (q : Nat) (c : QCell) : (State.setQ s q c).banks = s.banks := rfl
@[simp] theorem State.setQ_units (s : State) (q : Nat) (c : QCell) : (State.setQ s q c).units = s.units := rfl
@[simp] theorem State.setQ_cycno (s : State) (q : Nat) (c : QCell) : (State.setQ s q c).cycno = s.cycno := rfl
@[simp] theorem State.setQ_mech (s : State) (q : Nat) (c : QCell) : (State.setQ s q c).mech = s.mech := rfl
@[simp] theorem State.setQ_elec (s : State) (q : Nat) (c : QCell) : (State.setQ s q c).elec = s.elec := rfl
@[simp] theorem State.setQ_sync (s : State) (q : Nat) (c : QCell) : (State.setQ s q c).sync = s.sync := rfl
@[simp] theorem State.setQ_adc (s : State) (q : Nat) (c : QCell) : (State.setQ s q c).adc = s.adc := rfl
@[simp] theorem State.setQ_ref (s : State) (q : Nat) (c : QCell) : (State.setQ s q c).ref = s.ref := rfl
@[simp] theorem State.setQ_wins (s : State) (q : Nat) (c : QCell) : (State.setQ s q c).wins = s.wins := rfl
@[simp] theorem State.setQ_hostPress (s : State) (q : Nat) (c : QCell) : (State.setQ s q c).hostPress = s.hostPress := rfl
@[simp] theorem State.setQ_angles (s : State) (q : Nat) (c : QCell) : (State.setQ s q c).angles = s.angles := rfl
@[simp] theorem State.setQ_angLog (s : State) (q : Nat) (c : QCell) : (State.setQ s q c).angLog = s.angLog := rfl
@[simp] theorem State.setQ_balance (s : State) (q : Nat) (c : QCell) : (State.setQ s q c).balance = s.balance := rfl
@[simp] theorem State.setQ_wdn (s : State) (q : Nat) (c : QCell) : (State.setQ s q c).wdn = s.wdn := rfl
@[simp] theorem State.setQ_plan (s : State) (q : Nat) (c : QCell) : (State.setQ s q c).plan = s.plan := rfl
@[simp] theorem State.setQ_round (s : State) (q : Nat) (c : QCell) : (State.setQ s q c).round = s.round := rfl
@[simp] theorem State.setQ_vlk (s : State) (q : Nat) (c : QCell) : (State.setQ s q c).vlk = s.vlk := rfl
@[simp] theorem State.setQ_fw (s : State) (q : Nat) (c : QCell) : (State.setQ s q c).fw = s.fw := rfl
@[simp] theorem State.setQ_jrn (s : State) (q : Nat) (c : QCell) : (State.setQ s q c).jrn = s.jrn := rfl
@[simp] theorem State.setQ_pwr (s : State) (q : Nat) (c : QCell) : (State.setQ s q c).pwr = s.pwr := rfl
@[simp] theorem State.setQ_side (s : State) (q : Nat) (c : QCell) : (State.setQ s q c).side = s.side := rfl
@[simp] theorem State.setQ_jtag (s : State) (q : Nat) (c : QCell) : (State.setQ s q c).jtag = s.jtag := rfl
@[simp] theorem State.setQ_fabric (s : State) (q : Nat) (c : QCell) : (State.setQ s q c).fabric = s.fabric := rfl
@[simp] theorem State.setQ_past (s : State) (q : Nat) (c : QCell) : (State.setQ s q c).past = s.past := rfl
@[simp] theorem State.setQ_free (s : State) (q : Nat) (c : QCell) : (State.setQ s q c).free = s.free := rfl
@[simp] theorem State.setQ_pending (s : State) (q : Nat) (c : QCell) : (State.setQ s q c).pending = s.pending := rfl

@[simp] theorem State.setRing_clk (s : State) (r : Nat) (x : RingRt) : (State.setRing s r x).clk = s.clk := rfl
@[simp] theorem State.setRing_glb (s : State) (r : Nat) (x : RingRt) : (State.setRing s r x).glb = s.glb := rfl
@[simp] theorem State.setRing_regs (s : State) (r : Nat) (x : RingRt) : (State.setRing s r x).regs = s.regs := rfl
@[simp] theorem State.setRing_mem (s : State) (r : Nat) (x : RingRt) : (State.setRing s r x).mem = s.mem := rfl
@[simp] theorem State.setRing_out (s : State) (r : Nat) (x : RingRt) : (State.setRing s r x).out = s.out := rfl
@[simp] theorem State.setRing_que (s : State) (r : Nat) (x : RingRt) : (State.setRing s r x).que = s.que := rfl
@[simp] theorem State.setRing_xfr (s : State) (r : Nat) (x : RingRt) : (State.setRing s r x).xfr = s.xfr := rfl
@[simp] theorem State.setRing_trace (s : State) (r : Nat) (x : RingRt) : (State.setRing s r x).trace = s.trace := rfl
@[simp] theorem State.setRing_irq (s : State) (r : Nat) (x : RingRt) : (State.setRing s r x).irq = s.irq := rfl
@[simp] theorem State.setRing_reel (s : State) (r : Nat) (x : RingRt) : (State.setRing s r x).reel = s.reel := rfl
@[simp] theorem State.setRing_cells (s : State) (r : Nat) (x : RingRt) : (State.setRing s r x).cells = s.cells := rfl
@[simp] theorem State.setRing_banks (s : State) (r : Nat) (x : RingRt) : (State.setRing s r x).banks = s.banks := rfl
@[simp] theorem State.setRing_units (s : State) (r : Nat) (x : RingRt) : (State.setRing s r x).units = s.units := rfl
@[simp] theorem State.setRing_cycno (s : State) (r : Nat) (x : RingRt) : (State.setRing s r x).cycno = s.cycno := rfl
@[simp] theorem State.setRing_mech (s : State) (r : Nat) (x : RingRt) : (State.setRing s r x).mech = s.mech := rfl
@[simp] theorem State.setRing_elec (s : State) (r : Nat) (x : RingRt) : (State.setRing s r x).elec = s.elec := rfl
@[simp] theorem State.setRing_sync (s : State) (r : Nat) (x : RingRt) : (State.setRing s r x).sync = s.sync := rfl
@[simp] theorem State.setRing_adc (s : State) (r : Nat) (x : RingRt) : (State.setRing s r x).adc = s.adc := rfl
@[simp] theorem State.setRing_ref (s : State) (r : Nat) (x : RingRt) : (State.setRing s r x).ref = s.ref := rfl
@[simp] theorem State.setRing_wins (s : State) (r : Nat) (x : RingRt) : (State.setRing s r x).wins = s.wins := rfl
@[simp] theorem State.setRing_hostPress (s : State) (r : Nat) (x : RingRt) : (State.setRing s r x).hostPress = s.hostPress := rfl
@[simp] theorem State.setRing_angles (s : State) (r : Nat) (x : RingRt) : (State.setRing s r x).angles = s.angles := rfl
@[simp] theorem State.setRing_angLog (s : State) (r : Nat) (x : RingRt) : (State.setRing s r x).angLog = s.angLog := rfl
@[simp] theorem State.setRing_balance (s : State) (r : Nat) (x : RingRt) : (State.setRing s r x).balance = s.balance := rfl
@[simp] theorem State.setRing_wdn (s : State) (r : Nat) (x : RingRt) : (State.setRing s r x).wdn = s.wdn := rfl
@[simp] theorem State.setRing_plan (s : State) (r : Nat) (x : RingRt) : (State.setRing s r x).plan = s.plan := rfl
@[simp] theorem State.setRing_round (s : State) (r : Nat) (x : RingRt) : (State.setRing s r x).round = s.round := rfl
@[simp] theorem State.setRing_vlk (s : State) (r : Nat) (x : RingRt) : (State.setRing s r x).vlk = s.vlk := rfl
@[simp] theorem State.setRing_fw (s : State) (r : Nat) (x : RingRt) : (State.setRing s r x).fw = s.fw := rfl
@[simp] theorem State.setRing_jrn (s : State) (r : Nat) (x : RingRt) : (State.setRing s r x).jrn = s.jrn := rfl
@[simp] theorem State.setRing_pwr (s : State) (r : Nat) (x : RingRt) : (State.setRing s r x).pwr = s.pwr := rfl
@[simp] theorem State.setRing_side (s : State) (r : Nat) (x : RingRt) : (State.setRing s r x).side = s.side := rfl
@[simp] theorem State.setRing_jtag (s : State) (r : Nat) (x : RingRt) : (State.setRing s r x).jtag = s.jtag := rfl
@[simp] theorem State.setRing_fabric (s : State) (r : Nat) (x : RingRt) : (State.setRing s r x).fabric = s.fabric := rfl
@[simp] theorem State.setRing_past (s : State) (r : Nat) (x : RingRt) : (State.setRing s r x).past = s.past := rfl
@[simp] theorem State.setRing_free (s : State) (r : Nat) (x : RingRt) : (State.setRing s r x).free = s.free := rfl
@[simp] theorem State.setRing_pending (s : State) (r : Nat) (x : RingRt) : (State.setRing s r x).pending = s.pending := rfl

@[simp] theorem State.setProd_clk (s : State) (i : Nat) (p : Producer) : (State.setProd s i p).clk = s.clk := rfl
@[simp] theorem State.setProd_glb (s : State) (i : Nat) (p : Producer) : (State.setProd s i p).glb = s.glb := rfl
@[simp] theorem State.setProd_regs (s : State) (i : Nat) (p : Producer) : (State.setProd s i p).regs = s.regs := rfl
@[simp] theorem State.setProd_mem (s : State) (i : Nat) (p : Producer) : (State.setProd s i p).mem = s.mem := rfl
@[simp] theorem State.setProd_out (s : State) (i : Nat) (p : Producer) : (State.setProd s i p).out = s.out := rfl
@[simp] theorem State.setProd_que (s : State) (i : Nat) (p : Producer) : (State.setProd s i p).que = s.que := rfl
@[simp] theorem State.setProd_xfr (s : State) (i : Nat) (p : Producer) : (State.setProd s i p).xfr = s.xfr := rfl
@[simp] theorem State.setProd_trace (s : State) (i : Nat) (p : Producer) : (State.setProd s i p).trace = s.trace := rfl
@[simp] theorem State.setProd_irq (s : State) (i : Nat) (p : Producer) : (State.setProd s i p).irq = s.irq := rfl
@[simp] theorem State.setProd_reel (s : State) (i : Nat) (p : Producer) : (State.setProd s i p).reel = s.reel := rfl
@[simp] theorem State.setProd_cells (s : State) (i : Nat) (p : Producer) : (State.setProd s i p).cells = s.cells := rfl
@[simp] theorem State.setProd_banks (s : State) (i : Nat) (p : Producer) : (State.setProd s i p).banks = s.banks := rfl
@[simp] theorem State.setProd_units (s : State) (i : Nat) (p : Producer) : (State.setProd s i p).units = s.units := rfl
@[simp] theorem State.setProd_cycno (s : State) (i : Nat) (p : Producer) : (State.setProd s i p).cycno = s.cycno := rfl
@[simp] theorem State.setProd_mech (s : State) (i : Nat) (p : Producer) : (State.setProd s i p).mech = s.mech := rfl
@[simp] theorem State.setProd_elec (s : State) (i : Nat) (p : Producer) : (State.setProd s i p).elec = s.elec := rfl
@[simp] theorem State.setProd_sync (s : State) (i : Nat) (p : Producer) : (State.setProd s i p).sync = s.sync := rfl
@[simp] theorem State.setProd_adc (s : State) (i : Nat) (p : Producer) : (State.setProd s i p).adc = s.adc := rfl
@[simp] theorem State.setProd_ref (s : State) (i : Nat) (p : Producer) : (State.setProd s i p).ref = s.ref := rfl
@[simp] theorem State.setProd_wins (s : State) (i : Nat) (p : Producer) : (State.setProd s i p).wins = s.wins := rfl
@[simp] theorem State.setProd_hostPress (s : State) (i : Nat) (p : Producer) : (State.setProd s i p).hostPress = s.hostPress := rfl
@[simp] theorem State.setProd_angles (s : State) (i : Nat) (p : Producer) : (State.setProd s i p).angles = s.angles := rfl
@[simp] theorem State.setProd_angLog (s : State) (i : Nat) (p : Producer) : (State.setProd s i p).angLog = s.angLog := rfl
@[simp] theorem State.setProd_balance (s : State) (i : Nat) (p : Producer) : (State.setProd s i p).balance = s.balance := rfl
@[simp] theorem State.setProd_wdn (s : State) (i : Nat) (p : Producer) : (State.setProd s i p).wdn = s.wdn := rfl
@[simp] theorem State.setProd_plan (s : State) (i : Nat) (p : Producer) : (State.setProd s i p).plan = s.plan := rfl
@[simp] theorem State.setProd_round (s : State) (i : Nat) (p : Producer) : (State.setProd s i p).round = s.round := rfl
@[simp] theorem State.setProd_vlk (s : State) (i : Nat) (p : Producer) : (State.setProd s i p).vlk = s.vlk := rfl
@[simp] theorem State.setProd_fw (s : State) (i : Nat) (p : Producer) : (State.setProd s i p).fw = s.fw := rfl
@[simp] theorem State.setProd_jrn (s : State) (i : Nat) (p : Producer) : (State.setProd s i p).jrn = s.jrn := rfl
@[simp] theorem State.setProd_pwr (s : State) (i : Nat) (p : Producer) : (State.setProd s i p).pwr = s.pwr := rfl
@[simp] theorem State.setProd_side (s : State) (i : Nat) (p : Producer) : (State.setProd s i p).side = s.side := rfl
@[simp] theorem State.setProd_jtag (s : State) (i : Nat) (p : Producer) : (State.setProd s i p).jtag = s.jtag := rfl
@[simp] theorem State.setProd_fabric (s : State) (i : Nat) (p : Producer) : (State.setProd s i p).fabric = s.fabric := rfl
@[simp] theorem State.setProd_past (s : State) (i : Nat) (p : Producer) : (State.setProd s i p).past = s.past := rfl
@[simp] theorem State.setProd_free (s : State) (i : Nat) (p : Producer) : (State.setProd s i p).free = s.free := rfl
@[simp] theorem State.setProd_pending (s : State) (i : Nat) (p : Producer) : (State.setProd s i p).pending = s.pending := rfl

@[simp] theorem State.setRefl_clk (s : State) (n : Nat) (r : Refl) : (State.setRefl s n r).clk = s.clk := rfl
@[simp] theorem State.setRefl_glb (s : State) (n : Nat) (r : Refl) : (State.setRefl s n r).glb = s.glb := rfl
@[simp] theorem State.setRefl_regs (s : State) (n : Nat) (r : Refl) : (State.setRefl s n r).regs = s.regs := rfl
@[simp] theorem State.setRefl_mem (s : State) (n : Nat) (r : Refl) : (State.setRefl s n r).mem = s.mem := rfl
@[simp] theorem State.setRefl_out (s : State) (n : Nat) (r : Refl) : (State.setRefl s n r).out = s.out := rfl
@[simp] theorem State.setRefl_hif (s : State) (n : Nat) (r : Refl) : (State.setRefl s n r).hif = s.hif := rfl
@[simp] theorem State.setRefl_que (s : State) (n : Nat) (r : Refl) : (State.setRefl s n r).que = s.que := rfl
@[simp] theorem State.setRefl_xfr (s : State) (n : Nat) (r : Refl) : (State.setRefl s n r).xfr = s.xfr := rfl
@[simp] theorem State.setRefl_trace (s : State) (n : Nat) (r : Refl) : (State.setRefl s n r).trace = s.trace := rfl
@[simp] theorem State.setRefl_irq (s : State) (n : Nat) (r : Refl) : (State.setRefl s n r).irq = s.irq := rfl
@[simp] theorem State.setRefl_reel (s : State) (n : Nat) (r : Refl) : (State.setRefl s n r).reel = s.reel := rfl
@[simp] theorem State.setRefl_cells (s : State) (n : Nat) (r : Refl) : (State.setRefl s n r).cells = s.cells := rfl
@[simp] theorem State.setRefl_banks (s : State) (n : Nat) (r : Refl) : (State.setRefl s n r).banks = s.banks := rfl
@[simp] theorem State.setRefl_units (s : State) (n : Nat) (r : Refl) : (State.setRefl s n r).units = s.units := rfl
@[simp] theorem State.setRefl_cycno (s : State) (n : Nat) (r : Refl) : (State.setRefl s n r).cycno = s.cycno := rfl
@[simp] theorem State.setRefl_mech (s : State) (n : Nat) (r : Refl) : (State.setRefl s n r).mech = s.mech := rfl
@[simp] theorem State.setRefl_elec (s : State) (n : Nat) (r : Refl) : (State.setRefl s n r).elec = s.elec := rfl
@[simp] theorem State.setRefl_sync (s : State) (n : Nat) (r : Refl) : (State.setRefl s n r).sync = s.sync := rfl
@[simp] theorem State.setRefl_adc (s : State) (n : Nat) (r : Refl) : (State.setRefl s n r).adc = s.adc := rfl
@[simp] theorem State.setRefl_ref (s : State) (n : Nat) (r : Refl) : (State.setRefl s n r).ref = s.ref := rfl
@[simp] theorem State.setRefl_wins (s : State) (n : Nat) (r : Refl) : (State.setRefl s n r).wins = s.wins := rfl
@[simp] theorem State.setRefl_hostPress (s : State) (n : Nat) (r : Refl) : (State.setRefl s n r).hostPress = s.hostPress := rfl
@[simp] theorem State.setRefl_angles (s : State) (n : Nat) (r : Refl) : (State.setRefl s n r).angles = s.angles := rfl
@[simp] theorem State.setRefl_angLog (s : State) (n : Nat) (r : Refl) : (State.setRefl s n r).angLog = s.angLog := rfl
@[simp] theorem State.setRefl_balance (s : State) (n : Nat) (r : Refl) : (State.setRefl s n r).balance = s.balance := rfl
@[simp] theorem State.setRefl_plan (s : State) (n : Nat) (r : Refl) : (State.setRefl s n r).plan = s.plan := rfl
@[simp] theorem State.setRefl_round (s : State) (n : Nat) (r : Refl) : (State.setRefl s n r).round = s.round := rfl
@[simp] theorem State.setRefl_vlk (s : State) (n : Nat) (r : Refl) : (State.setRefl s n r).vlk = s.vlk := rfl
@[simp] theorem State.setRefl_fw (s : State) (n : Nat) (r : Refl) : (State.setRefl s n r).fw = s.fw := rfl
@[simp] theorem State.setRefl_jrn (s : State) (n : Nat) (r : Refl) : (State.setRefl s n r).jrn = s.jrn := rfl
@[simp] theorem State.setRefl_pwr (s : State) (n : Nat) (r : Refl) : (State.setRefl s n r).pwr = s.pwr := rfl
@[simp] theorem State.setRefl_side (s : State) (n : Nat) (r : Refl) : (State.setRefl s n r).side = s.side := rfl
@[simp] theorem State.setRefl_jtag (s : State) (n : Nat) (r : Refl) : (State.setRefl s n r).jtag = s.jtag := rfl
@[simp] theorem State.setRefl_fabric (s : State) (n : Nat) (r : Refl) : (State.setRefl s n r).fabric = s.fabric := rfl
@[simp] theorem State.setRefl_past (s : State) (n : Nat) (r : Refl) : (State.setRefl s n r).past = s.past := rfl
@[simp] theorem State.setRefl_free (s : State) (n : Nat) (r : Refl) : (State.setRefl s n r).free = s.free := rfl
@[simp] theorem State.setRefl_pending (s : State) (n : Nat) (r : Refl) : (State.setRefl s n r).pending = s.pending := rfl

@[simp] theorem State.setTakeover_clk (s : State) (t : Option Takeover) : (State.setTakeover s t).clk = s.clk := rfl
@[simp] theorem State.setTakeover_glb (s : State) (t : Option Takeover) : (State.setTakeover s t).glb = s.glb := rfl
@[simp] theorem State.setTakeover_regs (s : State) (t : Option Takeover) : (State.setTakeover s t).regs = s.regs := rfl
@[simp] theorem State.setTakeover_mem (s : State) (t : Option Takeover) : (State.setTakeover s t).mem = s.mem := rfl
@[simp] theorem State.setTakeover_out (s : State) (t : Option Takeover) : (State.setTakeover s t).out = s.out := rfl
@[simp] theorem State.setTakeover_hif (s : State) (t : Option Takeover) : (State.setTakeover s t).hif = s.hif := rfl
@[simp] theorem State.setTakeover_que (s : State) (t : Option Takeover) : (State.setTakeover s t).que = s.que := rfl
@[simp] theorem State.setTakeover_xfr (s : State) (t : Option Takeover) : (State.setTakeover s t).xfr = s.xfr := rfl
@[simp] theorem State.setTakeover_trace (s : State) (t : Option Takeover) : (State.setTakeover s t).trace = s.trace := rfl
@[simp] theorem State.setTakeover_irq (s : State) (t : Option Takeover) : (State.setTakeover s t).irq = s.irq := rfl
@[simp] theorem State.setTakeover_reel (s : State) (t : Option Takeover) : (State.setTakeover s t).reel = s.reel := rfl
@[simp] theorem State.setTakeover_cells (s : State) (t : Option Takeover) : (State.setTakeover s t).cells = s.cells := rfl
@[simp] theorem State.setTakeover_banks (s : State) (t : Option Takeover) : (State.setTakeover s t).banks = s.banks := rfl
@[simp] theorem State.setTakeover_units (s : State) (t : Option Takeover) : (State.setTakeover s t).units = s.units := rfl
@[simp] theorem State.setTakeover_cycno (s : State) (t : Option Takeover) : (State.setTakeover s t).cycno = s.cycno := rfl
@[simp] theorem State.setTakeover_mech (s : State) (t : Option Takeover) : (State.setTakeover s t).mech = s.mech := rfl
@[simp] theorem State.setTakeover_elec (s : State) (t : Option Takeover) : (State.setTakeover s t).elec = s.elec := rfl
@[simp] theorem State.setTakeover_sync (s : State) (t : Option Takeover) : (State.setTakeover s t).sync = s.sync := rfl
@[simp] theorem State.setTakeover_adc (s : State) (t : Option Takeover) : (State.setTakeover s t).adc = s.adc := rfl
@[simp] theorem State.setTakeover_ref (s : State) (t : Option Takeover) : (State.setTakeover s t).ref = s.ref := rfl
@[simp] theorem State.setTakeover_wins (s : State) (t : Option Takeover) : (State.setTakeover s t).wins = s.wins := rfl
@[simp] theorem State.setTakeover_hostPress (s : State) (t : Option Takeover) : (State.setTakeover s t).hostPress = s.hostPress := rfl
@[simp] theorem State.setTakeover_angles (s : State) (t : Option Takeover) : (State.setTakeover s t).angles = s.angles := rfl
@[simp] theorem State.setTakeover_angLog (s : State) (t : Option Takeover) : (State.setTakeover s t).angLog = s.angLog := rfl
@[simp] theorem State.setTakeover_balance (s : State) (t : Option Takeover) : (State.setTakeover s t).balance = s.balance := rfl
@[simp] theorem State.setTakeover_plan (s : State) (t : Option Takeover) : (State.setTakeover s t).plan = s.plan := rfl
@[simp] theorem State.setTakeover_round (s : State) (t : Option Takeover) : (State.setTakeover s t).round = s.round := rfl
@[simp] theorem State.setTakeover_vlk (s : State) (t : Option Takeover) : (State.setTakeover s t).vlk = s.vlk := rfl
@[simp] theorem State.setTakeover_fw (s : State) (t : Option Takeover) : (State.setTakeover s t).fw = s.fw := rfl
@[simp] theorem State.setTakeover_jrn (s : State) (t : Option Takeover) : (State.setTakeover s t).jrn = s.jrn := rfl
@[simp] theorem State.setTakeover_pwr (s : State) (t : Option Takeover) : (State.setTakeover s t).pwr = s.pwr := rfl
@[simp] theorem State.setTakeover_side (s : State) (t : Option Takeover) : (State.setTakeover s t).side = s.side := rfl
@[simp] theorem State.setTakeover_jtag (s : State) (t : Option Takeover) : (State.setTakeover s t).jtag = s.jtag := rfl
@[simp] theorem State.setTakeover_fabric (s : State) (t : Option Takeover) : (State.setTakeover s t).fabric = s.fabric := rfl
@[simp] theorem State.setTakeover_past (s : State) (t : Option Takeover) : (State.setTakeover s t).past = s.past := rfl
@[simp] theorem State.setTakeover_free (s : State) (t : Option Takeover) : (State.setTakeover s t).free = s.free := rfl
@[simp] theorem State.setTakeover_pending (s : State) (t : Option Takeover) : (State.setTakeover s t).pending = s.pending := rfl

@[simp] theorem State.setRound_clk (s : State) (r : Round) : (State.setRound s r).clk = s.clk := rfl
@[simp] theorem State.setRound_glb (s : State) (r : Round) : (State.setRound s r).glb = s.glb := rfl
@[simp] theorem State.setRound_regs (s : State) (r : Round) : (State.setRound s r).regs = s.regs := rfl
@[simp] theorem State.setRound_mem (s : State) (r : Round) : (State.setRound s r).mem = s.mem := rfl
@[simp] theorem State.setRound_out (s : State) (r : Round) : (State.setRound s r).out = s.out := rfl
@[simp] theorem State.setRound_hif (s : State) (r : Round) : (State.setRound s r).hif = s.hif := rfl
@[simp] theorem State.setRound_que (s : State) (r : Round) : (State.setRound s r).que = s.que := rfl
@[simp] theorem State.setRound_xfr (s : State) (r : Round) : (State.setRound s r).xfr = s.xfr := rfl
@[simp] theorem State.setRound_trace (s : State) (r : Round) : (State.setRound s r).trace = s.trace := rfl
@[simp] theorem State.setRound_irq (s : State) (r : Round) : (State.setRound s r).irq = s.irq := rfl
@[simp] theorem State.setRound_reel (s : State) (r : Round) : (State.setRound s r).reel = s.reel := rfl
@[simp] theorem State.setRound_cells (s : State) (r : Round) : (State.setRound s r).cells = s.cells := rfl
@[simp] theorem State.setRound_banks (s : State) (r : Round) : (State.setRound s r).banks = s.banks := rfl
@[simp] theorem State.setRound_units (s : State) (r : Round) : (State.setRound s r).units = s.units := rfl
@[simp] theorem State.setRound_cycno (s : State) (r : Round) : (State.setRound s r).cycno = s.cycno := rfl
@[simp] theorem State.setRound_mech (s : State) (r : Round) : (State.setRound s r).mech = s.mech := rfl
@[simp] theorem State.setRound_elec (s : State) (r : Round) : (State.setRound s r).elec = s.elec := rfl
@[simp] theorem State.setRound_sync (s : State) (r : Round) : (State.setRound s r).sync = s.sync := rfl
@[simp] theorem State.setRound_adc (s : State) (r : Round) : (State.setRound s r).adc = s.adc := rfl
@[simp] theorem State.setRound_ref (s : State) (r : Round) : (State.setRound s r).ref = s.ref := rfl
@[simp] theorem State.setRound_wins (s : State) (r : Round) : (State.setRound s r).wins = s.wins := rfl
@[simp] theorem State.setRound_hostPress (s : State) (r : Round) : (State.setRound s r).hostPress = s.hostPress := rfl
@[simp] theorem State.setRound_angles (s : State) (r : Round) : (State.setRound s r).angles = s.angles := rfl
@[simp] theorem State.setRound_angLog (s : State) (r : Round) : (State.setRound s r).angLog = s.angLog := rfl
@[simp] theorem State.setRound_balance (s : State) (r : Round) : (State.setRound s r).balance = s.balance := rfl
@[simp] theorem State.setRound_wdn (s : State) (r : Round) : (State.setRound s r).wdn = s.wdn := rfl
@[simp] theorem State.setRound_plan (s : State) (r : Round) : (State.setRound s r).plan = s.plan := rfl
@[simp] theorem State.setRound_vlk (s : State) (r : Round) : (State.setRound s r).vlk = s.vlk := rfl
@[simp] theorem State.setRound_fw (s : State) (r : Round) : (State.setRound s r).fw = s.fw := rfl
@[simp] theorem State.setRound_jrn (s : State) (r : Round) : (State.setRound s r).jrn = s.jrn := rfl
@[simp] theorem State.setRound_pwr (s : State) (r : Round) : (State.setRound s r).pwr = s.pwr := rfl
@[simp] theorem State.setRound_side (s : State) (r : Round) : (State.setRound s r).side = s.side := rfl
@[simp] theorem State.setRound_jtag (s : State) (r : Round) : (State.setRound s r).jtag = s.jtag := rfl
@[simp] theorem State.setRound_fabric (s : State) (r : Round) : (State.setRound s r).fabric = s.fabric := rfl
@[simp] theorem State.setRound_past (s : State) (r : Round) : (State.setRound s r).past = s.past := rfl
@[simp] theorem State.setRound_free (s : State) (r : Round) : (State.setRound s r).free = s.free := rfl
@[simp] theorem State.setRound_pending (s : State) (r : Round) : (State.setRound s r).pending = s.pending := rfl

@[simp] theorem State.setReel_clk (s : State) (r : Reel) : (State.setReel s r).clk = s.clk := rfl
@[simp] theorem State.setReel_glb (s : State) (r : Reel) : (State.setReel s r).glb = s.glb := rfl
@[simp] theorem State.setReel_regs (s : State) (r : Reel) : (State.setReel s r).regs = s.regs := rfl
@[simp] theorem State.setReel_mem (s : State) (r : Reel) : (State.setReel s r).mem = s.mem := rfl
@[simp] theorem State.setReel_out (s : State) (r : Reel) : (State.setReel s r).out = s.out := rfl
@[simp] theorem State.setReel_hif (s : State) (r : Reel) : (State.setReel s r).hif = s.hif := rfl
@[simp] theorem State.setReel_que (s : State) (r : Reel) : (State.setReel s r).que = s.que := rfl
@[simp] theorem State.setReel_xfr (s : State) (r : Reel) : (State.setReel s r).xfr = s.xfr := rfl
@[simp] theorem State.setReel_trace (s : State) (r : Reel) : (State.setReel s r).trace = s.trace := rfl
@[simp] theorem State.setReel_irq (s : State) (r : Reel) : (State.setReel s r).irq = s.irq := rfl
@[simp] theorem State.setReel_cells (s : State) (r : Reel) : (State.setReel s r).cells = s.cells := rfl
@[simp] theorem State.setReel_banks (s : State) (r : Reel) : (State.setReel s r).banks = s.banks := rfl
@[simp] theorem State.setReel_units (s : State) (r : Reel) : (State.setReel s r).units = s.units := rfl
@[simp] theorem State.setReel_cycno (s : State) (r : Reel) : (State.setReel s r).cycno = s.cycno := rfl
@[simp] theorem State.setReel_mech (s : State) (r : Reel) : (State.setReel s r).mech = s.mech := rfl
@[simp] theorem State.setReel_elec (s : State) (r : Reel) : (State.setReel s r).elec = s.elec := rfl
@[simp] theorem State.setReel_sync (s : State) (r : Reel) : (State.setReel s r).sync = s.sync := rfl
@[simp] theorem State.setReel_adc (s : State) (r : Reel) : (State.setReel s r).adc = s.adc := rfl
@[simp] theorem State.setReel_ref (s : State) (r : Reel) : (State.setReel s r).ref = s.ref := rfl
@[simp] theorem State.setReel_wins (s : State) (r : Reel) : (State.setReel s r).wins = s.wins := rfl
@[simp] theorem State.setReel_hostPress (s : State) (r : Reel) : (State.setReel s r).hostPress = s.hostPress := rfl
@[simp] theorem State.setReel_angles (s : State) (r : Reel) : (State.setReel s r).angles = s.angles := rfl
@[simp] theorem State.setReel_angLog (s : State) (r : Reel) : (State.setReel s r).angLog = s.angLog := rfl
@[simp] theorem State.setReel_balance (s : State) (r : Reel) : (State.setReel s r).balance = s.balance := rfl
@[simp] theorem State.setReel_wdn (s : State) (r : Reel) : (State.setReel s r).wdn = s.wdn := rfl
@[simp] theorem State.setReel_plan (s : State) (r : Reel) : (State.setReel s r).plan = s.plan := rfl
@[simp] theorem State.setReel_round (s : State) (r : Reel) : (State.setReel s r).round = s.round := rfl
@[simp] theorem State.setReel_vlk (s : State) (r : Reel) : (State.setReel s r).vlk = s.vlk := rfl
@[simp] theorem State.setReel_fw (s : State) (r : Reel) : (State.setReel s r).fw = s.fw := rfl
@[simp] theorem State.setReel_jrn (s : State) (r : Reel) : (State.setReel s r).jrn = s.jrn := rfl
@[simp] theorem State.setReel_pwr (s : State) (r : Reel) : (State.setReel s r).pwr = s.pwr := rfl
@[simp] theorem State.setReel_side (s : State) (r : Reel) : (State.setReel s r).side = s.side := rfl
@[simp] theorem State.setReel_jtag (s : State) (r : Reel) : (State.setReel s r).jtag = s.jtag := rfl
@[simp] theorem State.setReel_fabric (s : State) (r : Reel) : (State.setReel s r).fabric = s.fabric := rfl
@[simp] theorem State.setReel_past (s : State) (r : Reel) : (State.setReel s r).past = s.past := rfl
@[simp] theorem State.setReel_free (s : State) (r : Reel) : (State.setReel s r).free = s.free := rfl
@[simp] theorem State.setReel_pending (s : State) (r : Reel) : (State.setReel s r).pending = s.pending := rfl

@[simp] theorem State.setSide_clk (s : State) (x : Side) : (State.setSide s x).clk = s.clk := rfl
@[simp] theorem State.setSide_glb (s : State) (x : Side) : (State.setSide s x).glb = s.glb := rfl
@[simp] theorem State.setSide_regs (s : State) (x : Side) : (State.setSide s x).regs = s.regs := rfl
@[simp] theorem State.setSide_mem (s : State) (x : Side) : (State.setSide s x).mem = s.mem := rfl
@[simp] theorem State.setSide_out (s : State) (x : Side) : (State.setSide s x).out = s.out := rfl
@[simp] theorem State.setSide_hif (s : State) (x : Side) : (State.setSide s x).hif = s.hif := rfl
@[simp] theorem State.setSide_que (s : State) (x : Side) : (State.setSide s x).que = s.que := rfl
@[simp] theorem State.setSide_xfr (s : State) (x : Side) : (State.setSide s x).xfr = s.xfr := rfl
@[simp] theorem State.setSide_trace (s : State) (x : Side) : (State.setSide s x).trace = s.trace := rfl
@[simp] theorem State.setSide_irq (s : State) (x : Side) : (State.setSide s x).irq = s.irq := rfl
@[simp] theorem State.setSide_reel (s : State) (x : Side) : (State.setSide s x).reel = s.reel := rfl
@[simp] theorem State.setSide_cells (s : State) (x : Side) : (State.setSide s x).cells = s.cells := rfl
@[simp] theorem State.setSide_banks (s : State) (x : Side) : (State.setSide s x).banks = s.banks := rfl
@[simp] theorem State.setSide_units (s : State) (x : Side) : (State.setSide s x).units = s.units := rfl
@[simp] theorem State.setSide_cycno (s : State) (x : Side) : (State.setSide s x).cycno = s.cycno := rfl
@[simp] theorem State.setSide_mech (s : State) (x : Side) : (State.setSide s x).mech = s.mech := rfl
@[simp] theorem State.setSide_elec (s : State) (x : Side) : (State.setSide s x).elec = s.elec := rfl
@[simp] theorem State.setSide_sync (s : State) (x : Side) : (State.setSide s x).sync = s.sync := rfl
@[simp] theorem State.setSide_adc (s : State) (x : Side) : (State.setSide s x).adc = s.adc := rfl
@[simp] theorem State.setSide_ref (s : State) (x : Side) : (State.setSide s x).ref = s.ref := rfl
@[simp] theorem State.setSide_wins (s : State) (x : Side) : (State.setSide s x).wins = s.wins := rfl
@[simp] theorem State.setSide_hostPress (s : State) (x : Side) : (State.setSide s x).hostPress = s.hostPress := rfl
@[simp] theorem State.setSide_angles (s : State) (x : Side) : (State.setSide s x).angles = s.angles := rfl
@[simp] theorem State.setSide_angLog (s : State) (x : Side) : (State.setSide s x).angLog = s.angLog := rfl
@[simp] theorem State.setSide_balance (s : State) (x : Side) : (State.setSide s x).balance = s.balance := rfl
@[simp] theorem State.setSide_wdn (s : State) (x : Side) : (State.setSide s x).wdn = s.wdn := rfl
@[simp] theorem State.setSide_plan (s : State) (x : Side) : (State.setSide s x).plan = s.plan := rfl
@[simp] theorem State.setSide_round (s : State) (x : Side) : (State.setSide s x).round = s.round := rfl
@[simp] theorem State.setSide_vlk (s : State) (x : Side) : (State.setSide s x).vlk = s.vlk := rfl
@[simp] theorem State.setSide_fw (s : State) (x : Side) : (State.setSide s x).fw = s.fw := rfl
@[simp] theorem State.setSide_jrn (s : State) (x : Side) : (State.setSide s x).jrn = s.jrn := rfl
@[simp] theorem State.setSide_pwr (s : State) (x : Side) : (State.setSide s x).pwr = s.pwr := rfl
@[simp] theorem State.setSide_jtag (s : State) (x : Side) : (State.setSide s x).jtag = s.jtag := rfl
@[simp] theorem State.setSide_fabric (s : State) (x : Side) : (State.setSide s x).fabric = s.fabric := rfl
@[simp] theorem State.setSide_past (s : State) (x : Side) : (State.setSide s x).past = s.past := rfl
@[simp] theorem State.setSide_free (s : State) (x : Side) : (State.setSide s x).free = s.free := rfl
@[simp] theorem State.setSide_pending (s : State) (x : Side) : (State.setSide s x).pending = s.pending := rfl

@[simp] theorem State.setPwr_clk (s : State) (p : Power) : (State.setPwr s p).clk = s.clk := rfl
@[simp] theorem State.setPwr_glb (s : State) (p : Power) : (State.setPwr s p).glb = s.glb := rfl
@[simp] theorem State.setPwr_regs (s : State) (p : Power) : (State.setPwr s p).regs = s.regs := rfl
@[simp] theorem State.setPwr_mem (s : State) (p : Power) : (State.setPwr s p).mem = s.mem := rfl
@[simp] theorem State.setPwr_out (s : State) (p : Power) : (State.setPwr s p).out = s.out := rfl
@[simp] theorem State.setPwr_hif (s : State) (p : Power) : (State.setPwr s p).hif = s.hif := rfl
@[simp] theorem State.setPwr_que (s : State) (p : Power) : (State.setPwr s p).que = s.que := rfl
@[simp] theorem State.setPwr_xfr (s : State) (p : Power) : (State.setPwr s p).xfr = s.xfr := rfl
@[simp] theorem State.setPwr_trace (s : State) (p : Power) : (State.setPwr s p).trace = s.trace := rfl
@[simp] theorem State.setPwr_irq (s : State) (p : Power) : (State.setPwr s p).irq = s.irq := rfl
@[simp] theorem State.setPwr_reel (s : State) (p : Power) : (State.setPwr s p).reel = s.reel := rfl
@[simp] theorem State.setPwr_cells (s : State) (p : Power) : (State.setPwr s p).cells = s.cells := rfl
@[simp] theorem State.setPwr_banks (s : State) (p : Power) : (State.setPwr s p).banks = s.banks := rfl
@[simp] theorem State.setPwr_units (s : State) (p : Power) : (State.setPwr s p).units = s.units := rfl
@[simp] theorem State.setPwr_cycno (s : State) (p : Power) : (State.setPwr s p).cycno = s.cycno := rfl
@[simp] theorem State.setPwr_mech (s : State) (p : Power) : (State.setPwr s p).mech = s.mech := rfl
@[simp] theorem State.setPwr_elec (s : State) (p : Power) : (State.setPwr s p).elec = s.elec := rfl
@[simp] theorem State.setPwr_sync (s : State) (p : Power) : (State.setPwr s p).sync = s.sync := rfl
@[simp] theorem State.setPwr_adc (s : State) (p : Power) : (State.setPwr s p).adc = s.adc := rfl
@[simp] theorem State.setPwr_ref (s : State) (p : Power) : (State.setPwr s p).ref = s.ref := rfl
@[simp] theorem State.setPwr_wins (s : State) (p : Power) : (State.setPwr s p).wins = s.wins := rfl
@[simp] theorem State.setPwr_hostPress (s : State) (p : Power) : (State.setPwr s p).hostPress = s.hostPress := rfl
@[simp] theorem State.setPwr_angles (s : State) (p : Power) : (State.setPwr s p).angles = s.angles := rfl
@[simp] theorem State.setPwr_angLog (s : State) (p : Power) : (State.setPwr s p).angLog = s.angLog := rfl
@[simp] theorem State.setPwr_balance (s : State) (p : Power) : (State.setPwr s p).balance = s.balance := rfl
@[simp] theorem State.setPwr_wdn (s : State) (p : Power) : (State.setPwr s p).wdn = s.wdn := rfl
@[simp] theorem State.setPwr_plan (s : State) (p : Power) : (State.setPwr s p).plan = s.plan := rfl
@[simp] theorem State.setPwr_round (s : State) (p : Power) : (State.setPwr s p).round = s.round := rfl
@[simp] theorem State.setPwr_vlk (s : State) (p : Power) : (State.setPwr s p).vlk = s.vlk := rfl
@[simp] theorem State.setPwr_fw (s : State) (p : Power) : (State.setPwr s p).fw = s.fw := rfl
@[simp] theorem State.setPwr_jrn (s : State) (p : Power) : (State.setPwr s p).jrn = s.jrn := rfl
@[simp] theorem State.setPwr_side (s : State) (p : Power) : (State.setPwr s p).side = s.side := rfl
@[simp] theorem State.setPwr_jtag (s : State) (p : Power) : (State.setPwr s p).jtag = s.jtag := rfl
@[simp] theorem State.setPwr_fabric (s : State) (p : Power) : (State.setPwr s p).fabric = s.fabric := rfl
@[simp] theorem State.setPwr_past (s : State) (p : Power) : (State.setPwr s p).past = s.past := rfl
@[simp] theorem State.setPwr_free (s : State) (p : Power) : (State.setPwr s p).free = s.free := rfl
@[simp] theorem State.setPwr_pending (s : State) (p : Power) : (State.setPwr s p).pending = s.pending := rfl

@[simp] theorem State.setV_clk (s : State) (v : Vlk) : (State.setV s v).clk = s.clk := rfl
@[simp] theorem State.setV_glb (s : State) (v : Vlk) : (State.setV s v).glb = s.glb := rfl
@[simp] theorem State.setV_regs (s : State) (v : Vlk) : (State.setV s v).regs = s.regs := rfl
@[simp] theorem State.setV_mem (s : State) (v : Vlk) : (State.setV s v).mem = s.mem := rfl
@[simp] theorem State.setV_out (s : State) (v : Vlk) : (State.setV s v).out = s.out := rfl
@[simp] theorem State.setV_hif (s : State) (v : Vlk) : (State.setV s v).hif = s.hif := rfl
@[simp] theorem State.setV_que (s : State) (v : Vlk) : (State.setV s v).que = s.que := rfl
@[simp] theorem State.setV_xfr (s : State) (v : Vlk) : (State.setV s v).xfr = s.xfr := rfl
@[simp] theorem State.setV_trace (s : State) (v : Vlk) : (State.setV s v).trace = s.trace := rfl
@[simp] theorem State.setV_irq (s : State) (v : Vlk) : (State.setV s v).irq = s.irq := rfl
@[simp] theorem State.setV_reel (s : State) (v : Vlk) : (State.setV s v).reel = s.reel := rfl
@[simp] theorem State.setV_cells (s : State) (v : Vlk) : (State.setV s v).cells = s.cells := rfl
@[simp] theorem State.setV_banks (s : State) (v : Vlk) : (State.setV s v).banks = s.banks := rfl
@[simp] theorem State.setV_units (s : State) (v : Vlk) : (State.setV s v).units = s.units := rfl
@[simp] theorem State.setV_cycno (s : State) (v : Vlk) : (State.setV s v).cycno = s.cycno := rfl
@[simp] theorem State.setV_mech (s : State) (v : Vlk) : (State.setV s v).mech = s.mech := rfl
@[simp] theorem State.setV_elec (s : State) (v : Vlk) : (State.setV s v).elec = s.elec := rfl
@[simp] theorem State.setV_sync (s : State) (v : Vlk) : (State.setV s v).sync = s.sync := rfl
@[simp] theorem State.setV_adc (s : State) (v : Vlk) : (State.setV s v).adc = s.adc := rfl
@[simp] theorem State.setV_ref (s : State) (v : Vlk) : (State.setV s v).ref = s.ref := rfl
@[simp] theorem State.setV_wins (s : State) (v : Vlk) : (State.setV s v).wins = s.wins := rfl
@[simp] theorem State.setV_hostPress (s : State) (v : Vlk) : (State.setV s v).hostPress = s.hostPress := rfl
@[simp] theorem State.setV_angles (s : State) (v : Vlk) : (State.setV s v).angles = s.angles := rfl
@[simp] theorem State.setV_angLog (s : State) (v : Vlk) : (State.setV s v).angLog = s.angLog := rfl
@[simp] theorem State.setV_balance (s : State) (v : Vlk) : (State.setV s v).balance = s.balance := rfl
@[simp] theorem State.setV_wdn (s : State) (v : Vlk) : (State.setV s v).wdn = s.wdn := rfl
@[simp] theorem State.setV_plan (s : State) (v : Vlk) : (State.setV s v).plan = s.plan := rfl
@[simp] theorem State.setV_round (s : State) (v : Vlk) : (State.setV s v).round = s.round := rfl
@[simp] theorem State.setV_fw (s : State) (v : Vlk) : (State.setV s v).fw = s.fw := rfl
@[simp] theorem State.setV_jrn (s : State) (v : Vlk) : (State.setV s v).jrn = s.jrn := rfl
@[simp] theorem State.setV_pwr (s : State) (v : Vlk) : (State.setV s v).pwr = s.pwr := rfl
@[simp] theorem State.setV_side (s : State) (v : Vlk) : (State.setV s v).side = s.side := rfl
@[simp] theorem State.setV_jtag (s : State) (v : Vlk) : (State.setV s v).jtag = s.jtag := rfl
@[simp] theorem State.setV_fabric (s : State) (v : Vlk) : (State.setV s v).fabric = s.fabric := rfl
@[simp] theorem State.setV_past (s : State) (v : Vlk) : (State.setV s v).past = s.past := rfl
@[simp] theorem State.setV_free (s : State) (v : Vlk) : (State.setV s v).free = s.free := rfl
@[simp] theorem State.setV_pending (s : State) (v : Vlk) : (State.setV s v).pending = s.pending := rfl

@[simp] theorem State.setRole_clk (s : State) (r : Nat) (x : LRole) : (State.setRole s r x).clk = s.clk := rfl
@[simp] theorem State.setRole_glb (s : State) (r : Nat) (x : LRole) : (State.setRole s r x).glb = s.glb := rfl
@[simp] theorem State.setRole_regs (s : State) (r : Nat) (x : LRole) : (State.setRole s r x).regs = s.regs := rfl
@[simp] theorem State.setRole_mem (s : State) (r : Nat) (x : LRole) : (State.setRole s r x).mem = s.mem := rfl
@[simp] theorem State.setRole_out (s : State) (r : Nat) (x : LRole) : (State.setRole s r x).out = s.out := rfl
@[simp] theorem State.setRole_hif (s : State) (r : Nat) (x : LRole) : (State.setRole s r x).hif = s.hif := rfl
@[simp] theorem State.setRole_que (s : State) (r : Nat) (x : LRole) : (State.setRole s r x).que = s.que := rfl
@[simp] theorem State.setRole_xfr (s : State) (r : Nat) (x : LRole) : (State.setRole s r x).xfr = s.xfr := rfl
@[simp] theorem State.setRole_trace (s : State) (r : Nat) (x : LRole) : (State.setRole s r x).trace = s.trace := rfl
@[simp] theorem State.setRole_irq (s : State) (r : Nat) (x : LRole) : (State.setRole s r x).irq = s.irq := rfl
@[simp] theorem State.setRole_reel (s : State) (r : Nat) (x : LRole) : (State.setRole s r x).reel = s.reel := rfl
@[simp] theorem State.setRole_cells (s : State) (r : Nat) (x : LRole) : (State.setRole s r x).cells = s.cells := rfl
@[simp] theorem State.setRole_banks (s : State) (r : Nat) (x : LRole) : (State.setRole s r x).banks = s.banks := rfl
@[simp] theorem State.setRole_units (s : State) (r : Nat) (x : LRole) : (State.setRole s r x).units = s.units := rfl
@[simp] theorem State.setRole_cycno (s : State) (r : Nat) (x : LRole) : (State.setRole s r x).cycno = s.cycno := rfl
@[simp] theorem State.setRole_mech (s : State) (r : Nat) (x : LRole) : (State.setRole s r x).mech = s.mech := rfl
@[simp] theorem State.setRole_elec (s : State) (r : Nat) (x : LRole) : (State.setRole s r x).elec = s.elec := rfl
@[simp] theorem State.setRole_sync (s : State) (r : Nat) (x : LRole) : (State.setRole s r x).sync = s.sync := rfl
@[simp] theorem State.setRole_adc (s : State) (r : Nat) (x : LRole) : (State.setRole s r x).adc = s.adc := rfl
@[simp] theorem State.setRole_ref (s : State) (r : Nat) (x : LRole) : (State.setRole s r x).ref = s.ref := rfl
@[simp] theorem State.setRole_wins (s : State) (r : Nat) (x : LRole) : (State.setRole s r x).wins = s.wins := rfl
@[simp] theorem State.setRole_hostPress (s : State) (r : Nat) (x : LRole) : (State.setRole s r x).hostPress = s.hostPress := rfl
@[simp] theorem State.setRole_angles (s : State) (r : Nat) (x : LRole) : (State.setRole s r x).angles = s.angles := rfl
@[simp] theorem State.setRole_angLog (s : State) (r : Nat) (x : LRole) : (State.setRole s r x).angLog = s.angLog := rfl
@[simp] theorem State.setRole_balance (s : State) (r : Nat) (x : LRole) : (State.setRole s r x).balance = s.balance := rfl
@[simp] theorem State.setRole_wdn (s : State) (r : Nat) (x : LRole) : (State.setRole s r x).wdn = s.wdn := rfl
@[simp] theorem State.setRole_plan (s : State) (r : Nat) (x : LRole) : (State.setRole s r x).plan = s.plan := rfl
@[simp] theorem State.setRole_round (s : State) (r : Nat) (x : LRole) : (State.setRole s r x).round = s.round := rfl
@[simp] theorem State.setRole_fw (s : State) (r : Nat) (x : LRole) : (State.setRole s r x).fw = s.fw := rfl
@[simp] theorem State.setRole_jrn (s : State) (r : Nat) (x : LRole) : (State.setRole s r x).jrn = s.jrn := rfl
@[simp] theorem State.setRole_pwr (s : State) (r : Nat) (x : LRole) : (State.setRole s r x).pwr = s.pwr := rfl
@[simp] theorem State.setRole_side (s : State) (r : Nat) (x : LRole) : (State.setRole s r x).side = s.side := rfl
@[simp] theorem State.setRole_jtag (s : State) (r : Nat) (x : LRole) : (State.setRole s r x).jtag = s.jtag := rfl
@[simp] theorem State.setRole_fabric (s : State) (r : Nat) (x : LRole) : (State.setRole s r x).fabric = s.fabric := rfl
@[simp] theorem State.setRole_past (s : State) (r : Nat) (x : LRole) : (State.setRole s r x).past = s.past := rfl
@[simp] theorem State.setRole_free (s : State) (r : Nat) (x : LRole) : (State.setRole s r x).free = s.free := rfl
@[simp] theorem State.setRole_pending (s : State) (r : Nat) (x : LRole) : (State.setRole s r x).pending = s.pending := rfl

@[simp] theorem State.setAgeUnit_clk (s : State) (u : Nat) (x : AgeUnit) : (State.setAgeUnit s u x).clk = s.clk := rfl
@[simp] theorem State.setAgeUnit_glb (s : State) (u : Nat) (x : AgeUnit) : (State.setAgeUnit s u x).glb = s.glb := rfl
@[simp] theorem State.setAgeUnit_regs (s : State) (u : Nat) (x : AgeUnit) : (State.setAgeUnit s u x).regs = s.regs := rfl
@[simp] theorem State.setAgeUnit_mem (s : State) (u : Nat) (x : AgeUnit) : (State.setAgeUnit s u x).mem = s.mem := rfl
@[simp] theorem State.setAgeUnit_out (s : State) (u : Nat) (x : AgeUnit) : (State.setAgeUnit s u x).out = s.out := rfl
@[simp] theorem State.setAgeUnit_hif (s : State) (u : Nat) (x : AgeUnit) : (State.setAgeUnit s u x).hif = s.hif := rfl
@[simp] theorem State.setAgeUnit_que (s : State) (u : Nat) (x : AgeUnit) : (State.setAgeUnit s u x).que = s.que := rfl
@[simp] theorem State.setAgeUnit_xfr (s : State) (u : Nat) (x : AgeUnit) : (State.setAgeUnit s u x).xfr = s.xfr := rfl
@[simp] theorem State.setAgeUnit_trace (s : State) (u : Nat) (x : AgeUnit) : (State.setAgeUnit s u x).trace = s.trace := rfl
@[simp] theorem State.setAgeUnit_irq (s : State) (u : Nat) (x : AgeUnit) : (State.setAgeUnit s u x).irq = s.irq := rfl
@[simp] theorem State.setAgeUnit_reel (s : State) (u : Nat) (x : AgeUnit) : (State.setAgeUnit s u x).reel = s.reel := rfl
@[simp] theorem State.setAgeUnit_cells (s : State) (u : Nat) (x : AgeUnit) : (State.setAgeUnit s u x).cells = s.cells := rfl
@[simp] theorem State.setAgeUnit_banks (s : State) (u : Nat) (x : AgeUnit) : (State.setAgeUnit s u x).banks = s.banks := rfl
@[simp] theorem State.setAgeUnit_units (s : State) (u : Nat) (x : AgeUnit) : (State.setAgeUnit s u x).units = s.units := rfl
@[simp] theorem State.setAgeUnit_cycno (s : State) (u : Nat) (x : AgeUnit) : (State.setAgeUnit s u x).cycno = s.cycno := rfl
@[simp] theorem State.setAgeUnit_mech (s : State) (u : Nat) (x : AgeUnit) : (State.setAgeUnit s u x).mech = s.mech := rfl
@[simp] theorem State.setAgeUnit_elec (s : State) (u : Nat) (x : AgeUnit) : (State.setAgeUnit s u x).elec = s.elec := rfl
@[simp] theorem State.setAgeUnit_sync (s : State) (u : Nat) (x : AgeUnit) : (State.setAgeUnit s u x).sync = s.sync := rfl
@[simp] theorem State.setAgeUnit_adc (s : State) (u : Nat) (x : AgeUnit) : (State.setAgeUnit s u x).adc = s.adc := rfl
@[simp] theorem State.setAgeUnit_ref (s : State) (u : Nat) (x : AgeUnit) : (State.setAgeUnit s u x).ref = s.ref := rfl
@[simp] theorem State.setAgeUnit_wins (s : State) (u : Nat) (x : AgeUnit) : (State.setAgeUnit s u x).wins = s.wins := rfl
@[simp] theorem State.setAgeUnit_hostPress (s : State) (u : Nat) (x : AgeUnit) : (State.setAgeUnit s u x).hostPress = s.hostPress := rfl
@[simp] theorem State.setAgeUnit_angles (s : State) (u : Nat) (x : AgeUnit) : (State.setAgeUnit s u x).angles = s.angles := rfl
@[simp] theorem State.setAgeUnit_angLog (s : State) (u : Nat) (x : AgeUnit) : (State.setAgeUnit s u x).angLog = s.angLog := rfl
@[simp] theorem State.setAgeUnit_balance (s : State) (u : Nat) (x : AgeUnit) : (State.setAgeUnit s u x).balance = s.balance := rfl
@[simp] theorem State.setAgeUnit_wdn (s : State) (u : Nat) (x : AgeUnit) : (State.setAgeUnit s u x).wdn = s.wdn := rfl
@[simp] theorem State.setAgeUnit_round (s : State) (u : Nat) (x : AgeUnit) : (State.setAgeUnit s u x).round = s.round := rfl
@[simp] theorem State.setAgeUnit_vlk (s : State) (u : Nat) (x : AgeUnit) : (State.setAgeUnit s u x).vlk = s.vlk := rfl
@[simp] theorem State.setAgeUnit_fw (s : State) (u : Nat) (x : AgeUnit) : (State.setAgeUnit s u x).fw = s.fw := rfl
@[simp] theorem State.setAgeUnit_jrn (s : State) (u : Nat) (x : AgeUnit) : (State.setAgeUnit s u x).jrn = s.jrn := rfl
@[simp] theorem State.setAgeUnit_pwr (s : State) (u : Nat) (x : AgeUnit) : (State.setAgeUnit s u x).pwr = s.pwr := rfl
@[simp] theorem State.setAgeUnit_side (s : State) (u : Nat) (x : AgeUnit) : (State.setAgeUnit s u x).side = s.side := rfl
@[simp] theorem State.setAgeUnit_jtag (s : State) (u : Nat) (x : AgeUnit) : (State.setAgeUnit s u x).jtag = s.jtag := rfl
@[simp] theorem State.setAgeUnit_fabric (s : State) (u : Nat) (x : AgeUnit) : (State.setAgeUnit s u x).fabric = s.fabric := rfl
@[simp] theorem State.setAgeUnit_past (s : State) (u : Nat) (x : AgeUnit) : (State.setAgeUnit s u x).past = s.past := rfl
@[simp] theorem State.setAgeUnit_free (s : State) (u : Nat) (x : AgeUnit) : (State.setAgeUnit s u x).free = s.free := rfl
@[simp] theorem State.setAgeUnit_pending (s : State) (u : Nat) (x : AgeUnit) : (State.setAgeUnit s u x).pending = s.pending := rfl

@[simp] theorem State.linkOut_clk (s : State) (l : List LinkSent) : (State.linkOut s l).clk = s.clk := rfl
@[simp] theorem State.linkOut_glb (s : State) (l : List LinkSent) : (State.linkOut s l).glb = s.glb := rfl
@[simp] theorem State.linkOut_regs (s : State) (l : List LinkSent) : (State.linkOut s l).regs = s.regs := rfl
@[simp] theorem State.linkOut_mem (s : State) (l : List LinkSent) : (State.linkOut s l).mem = s.mem := rfl
@[simp] theorem State.linkOut_hif (s : State) (l : List LinkSent) : (State.linkOut s l).hif = s.hif := rfl
@[simp] theorem State.linkOut_que (s : State) (l : List LinkSent) : (State.linkOut s l).que = s.que := rfl
@[simp] theorem State.linkOut_xfr (s : State) (l : List LinkSent) : (State.linkOut s l).xfr = s.xfr := rfl
@[simp] theorem State.linkOut_trace (s : State) (l : List LinkSent) : (State.linkOut s l).trace = s.trace := rfl
@[simp] theorem State.linkOut_irq (s : State) (l : List LinkSent) : (State.linkOut s l).irq = s.irq := rfl
@[simp] theorem State.linkOut_reel (s : State) (l : List LinkSent) : (State.linkOut s l).reel = s.reel := rfl
@[simp] theorem State.linkOut_cells (s : State) (l : List LinkSent) : (State.linkOut s l).cells = s.cells := rfl
@[simp] theorem State.linkOut_banks (s : State) (l : List LinkSent) : (State.linkOut s l).banks = s.banks := rfl
@[simp] theorem State.linkOut_units (s : State) (l : List LinkSent) : (State.linkOut s l).units = s.units := rfl
@[simp] theorem State.linkOut_cycno (s : State) (l : List LinkSent) : (State.linkOut s l).cycno = s.cycno := rfl
@[simp] theorem State.linkOut_mech (s : State) (l : List LinkSent) : (State.linkOut s l).mech = s.mech := rfl
@[simp] theorem State.linkOut_elec (s : State) (l : List LinkSent) : (State.linkOut s l).elec = s.elec := rfl
@[simp] theorem State.linkOut_sync (s : State) (l : List LinkSent) : (State.linkOut s l).sync = s.sync := rfl
@[simp] theorem State.linkOut_adc (s : State) (l : List LinkSent) : (State.linkOut s l).adc = s.adc := rfl
@[simp] theorem State.linkOut_ref (s : State) (l : List LinkSent) : (State.linkOut s l).ref = s.ref := rfl
@[simp] theorem State.linkOut_wins (s : State) (l : List LinkSent) : (State.linkOut s l).wins = s.wins := rfl
@[simp] theorem State.linkOut_hostPress (s : State) (l : List LinkSent) : (State.linkOut s l).hostPress = s.hostPress := rfl
@[simp] theorem State.linkOut_angles (s : State) (l : List LinkSent) : (State.linkOut s l).angles = s.angles := rfl
@[simp] theorem State.linkOut_angLog (s : State) (l : List LinkSent) : (State.linkOut s l).angLog = s.angLog := rfl
@[simp] theorem State.linkOut_balance (s : State) (l : List LinkSent) : (State.linkOut s l).balance = s.balance := rfl
@[simp] theorem State.linkOut_wdn (s : State) (l : List LinkSent) : (State.linkOut s l).wdn = s.wdn := rfl
@[simp] theorem State.linkOut_plan (s : State) (l : List LinkSent) : (State.linkOut s l).plan = s.plan := rfl
@[simp] theorem State.linkOut_round (s : State) (l : List LinkSent) : (State.linkOut s l).round = s.round := rfl
@[simp] theorem State.linkOut_vlk (s : State) (l : List LinkSent) : (State.linkOut s l).vlk = s.vlk := rfl
@[simp] theorem State.linkOut_fw (s : State) (l : List LinkSent) : (State.linkOut s l).fw = s.fw := rfl
@[simp] theorem State.linkOut_jrn (s : State) (l : List LinkSent) : (State.linkOut s l).jrn = s.jrn := rfl
@[simp] theorem State.linkOut_pwr (s : State) (l : List LinkSent) : (State.linkOut s l).pwr = s.pwr := rfl
@[simp] theorem State.linkOut_side (s : State) (l : List LinkSent) : (State.linkOut s l).side = s.side := rfl
@[simp] theorem State.linkOut_jtag (s : State) (l : List LinkSent) : (State.linkOut s l).jtag = s.jtag := rfl
@[simp] theorem State.linkOut_fabric (s : State) (l : List LinkSent) : (State.linkOut s l).fabric = s.fabric := rfl
@[simp] theorem State.linkOut_past (s : State) (l : List LinkSent) : (State.linkOut s l).past = s.past := rfl
@[simp] theorem State.linkOut_free (s : State) (l : List LinkSent) : (State.linkOut s l).free = s.free := rfl
@[simp] theorem State.linkOut_pending (s : State) (l : List LinkSent) : (State.linkOut s l).pending = s.pending := rfl

@[simp] theorem State.setShot_clk (s : State) (c : Nat) (x : Shot) : (State.setShot s c x).clk = s.clk := rfl
@[simp] theorem State.setShot_glb (s : State) (c : Nat) (x : Shot) : (State.setShot s c x).glb = s.glb := rfl
@[simp] theorem State.setShot_regs (s : State) (c : Nat) (x : Shot) : (State.setShot s c x).regs = s.regs := rfl
@[simp] theorem State.setShot_mem (s : State) (c : Nat) (x : Shot) : (State.setShot s c x).mem = s.mem := rfl
@[simp] theorem State.setShot_out (s : State) (c : Nat) (x : Shot) : (State.setShot s c x).out = s.out := rfl
@[simp] theorem State.setShot_hif (s : State) (c : Nat) (x : Shot) : (State.setShot s c x).hif = s.hif := rfl
@[simp] theorem State.setShot_que (s : State) (c : Nat) (x : Shot) : (State.setShot s c x).que = s.que := rfl
@[simp] theorem State.setShot_xfr (s : State) (c : Nat) (x : Shot) : (State.setShot s c x).xfr = s.xfr := rfl
@[simp] theorem State.setShot_trace (s : State) (c : Nat) (x : Shot) : (State.setShot s c x).trace = s.trace := rfl
@[simp] theorem State.setShot_irq (s : State) (c : Nat) (x : Shot) : (State.setShot s c x).irq = s.irq := rfl
@[simp] theorem State.setShot_reel (s : State) (c : Nat) (x : Shot) : (State.setShot s c x).reel = s.reel := rfl
@[simp] theorem State.setShot_banks (s : State) (c : Nat) (x : Shot) : (State.setShot s c x).banks = s.banks := rfl
@[simp] theorem State.setShot_units (s : State) (c : Nat) (x : Shot) : (State.setShot s c x).units = s.units := rfl
@[simp] theorem State.setShot_cycno (s : State) (c : Nat) (x : Shot) : (State.setShot s c x).cycno = s.cycno := rfl
@[simp] theorem State.setShot_mech (s : State) (c : Nat) (x : Shot) : (State.setShot s c x).mech = s.mech := rfl
@[simp] theorem State.setShot_elec (s : State) (c : Nat) (x : Shot) : (State.setShot s c x).elec = s.elec := rfl
@[simp] theorem State.setShot_sync (s : State) (c : Nat) (x : Shot) : (State.setShot s c x).sync = s.sync := rfl
@[simp] theorem State.setShot_adc (s : State) (c : Nat) (x : Shot) : (State.setShot s c x).adc = s.adc := rfl
@[simp] theorem State.setShot_ref (s : State) (c : Nat) (x : Shot) : (State.setShot s c x).ref = s.ref := rfl
@[simp] theorem State.setShot_wins (s : State) (c : Nat) (x : Shot) : (State.setShot s c x).wins = s.wins := rfl
@[simp] theorem State.setShot_hostPress (s : State) (c : Nat) (x : Shot) : (State.setShot s c x).hostPress = s.hostPress := rfl
@[simp] theorem State.setShot_angles (s : State) (c : Nat) (x : Shot) : (State.setShot s c x).angles = s.angles := rfl
@[simp] theorem State.setShot_angLog (s : State) (c : Nat) (x : Shot) : (State.setShot s c x).angLog = s.angLog := rfl
@[simp] theorem State.setShot_balance (s : State) (c : Nat) (x : Shot) : (State.setShot s c x).balance = s.balance := rfl
@[simp] theorem State.setShot_wdn (s : State) (c : Nat) (x : Shot) : (State.setShot s c x).wdn = s.wdn := rfl
@[simp] theorem State.setShot_plan (s : State) (c : Nat) (x : Shot) : (State.setShot s c x).plan = s.plan := rfl
@[simp] theorem State.setShot_round (s : State) (c : Nat) (x : Shot) : (State.setShot s c x).round = s.round := rfl
@[simp] theorem State.setShot_vlk (s : State) (c : Nat) (x : Shot) : (State.setShot s c x).vlk = s.vlk := rfl
@[simp] theorem State.setShot_fw (s : State) (c : Nat) (x : Shot) : (State.setShot s c x).fw = s.fw := rfl
@[simp] theorem State.setShot_jrn (s : State) (c : Nat) (x : Shot) : (State.setShot s c x).jrn = s.jrn := rfl
@[simp] theorem State.setShot_pwr (s : State) (c : Nat) (x : Shot) : (State.setShot s c x).pwr = s.pwr := rfl
@[simp] theorem State.setShot_side (s : State) (c : Nat) (x : Shot) : (State.setShot s c x).side = s.side := rfl
@[simp] theorem State.setShot_jtag (s : State) (c : Nat) (x : Shot) : (State.setShot s c x).jtag = s.jtag := rfl
@[simp] theorem State.setShot_fabric (s : State) (c : Nat) (x : Shot) : (State.setShot s c x).fabric = s.fabric := rfl
@[simp] theorem State.setShot_past (s : State) (c : Nat) (x : Shot) : (State.setShot s c x).past = s.past := rfl
@[simp] theorem State.setShot_free (s : State) (c : Nat) (x : Shot) : (State.setShot s c x).free = s.free := rfl
@[simp] theorem State.setShot_pending (s : State) (c : Nat) (x : Shot) : (State.setShot s c x).pending = s.pending := rfl

@[simp] theorem State.countFrame_clk (s : State) : (State.countFrame s).clk = s.clk := rfl
@[simp] theorem State.countFrame_glb (s : State) : (State.countFrame s).glb = s.glb := rfl
@[simp] theorem State.countFrame_regs (s : State) : (State.countFrame s).regs = s.regs := rfl
@[simp] theorem State.countFrame_mem (s : State) : (State.countFrame s).mem = s.mem := rfl
@[simp] theorem State.countFrame_out (s : State) : (State.countFrame s).out = s.out := rfl
@[simp] theorem State.countFrame_hif (s : State) : (State.countFrame s).hif = s.hif := rfl
@[simp] theorem State.countFrame_que (s : State) : (State.countFrame s).que = s.que := rfl
@[simp] theorem State.countFrame_xfr (s : State) : (State.countFrame s).xfr = s.xfr := rfl
@[simp] theorem State.countFrame_trace (s : State) : (State.countFrame s).trace = s.trace := rfl
@[simp] theorem State.countFrame_irq (s : State) : (State.countFrame s).irq = s.irq := rfl
@[simp] theorem State.countFrame_reel (s : State) : (State.countFrame s).reel = s.reel := rfl
@[simp] theorem State.countFrame_cells (s : State) : (State.countFrame s).cells = s.cells := rfl
@[simp] theorem State.countFrame_banks (s : State) : (State.countFrame s).banks = s.banks := rfl
@[simp] theorem State.countFrame_units (s : State) : (State.countFrame s).units = s.units := rfl
@[simp] theorem State.countFrame_cycno (s : State) : (State.countFrame s).cycno = s.cycno := rfl
@[simp] theorem State.countFrame_mech (s : State) : (State.countFrame s).mech = s.mech := rfl
@[simp] theorem State.countFrame_elec (s : State) : (State.countFrame s).elec = s.elec := rfl
@[simp] theorem State.countFrame_sync (s : State) : (State.countFrame s).sync = s.sync := rfl
@[simp] theorem State.countFrame_adc (s : State) : (State.countFrame s).adc = s.adc := rfl
@[simp] theorem State.countFrame_ref (s : State) : (State.countFrame s).ref = s.ref := rfl
@[simp] theorem State.countFrame_wins (s : State) : (State.countFrame s).wins = s.wins := rfl
@[simp] theorem State.countFrame_hostPress (s : State) : (State.countFrame s).hostPress = s.hostPress := rfl
@[simp] theorem State.countFrame_angles (s : State) : (State.countFrame s).angles = s.angles := rfl
@[simp] theorem State.countFrame_angLog (s : State) : (State.countFrame s).angLog = s.angLog := rfl
@[simp] theorem State.countFrame_balance (s : State) : (State.countFrame s).balance = s.balance := rfl
@[simp] theorem State.countFrame_wdn (s : State) : (State.countFrame s).wdn = s.wdn := rfl
@[simp] theorem State.countFrame_plan (s : State) : (State.countFrame s).plan = s.plan := rfl
@[simp] theorem State.countFrame_round (s : State) : (State.countFrame s).round = s.round := rfl
@[simp] theorem State.countFrame_fw (s : State) : (State.countFrame s).fw = s.fw := rfl
@[simp] theorem State.countFrame_jrn (s : State) : (State.countFrame s).jrn = s.jrn := rfl
@[simp] theorem State.countFrame_pwr (s : State) : (State.countFrame s).pwr = s.pwr := rfl
@[simp] theorem State.countFrame_side (s : State) : (State.countFrame s).side = s.side := rfl
@[simp] theorem State.countFrame_jtag (s : State) : (State.countFrame s).jtag = s.jtag := rfl
@[simp] theorem State.countFrame_fabric (s : State) : (State.countFrame s).fabric = s.fabric := rfl
@[simp] theorem State.countFrame_past (s : State) : (State.countFrame s).past = s.past := rfl
@[simp] theorem State.countFrame_free (s : State) : (State.countFrame s).free = s.free := rfl
@[simp] theorem State.countFrame_pending (s : State) : (State.countFrame s).pending = s.pending := rfl

/-- A read of the table after a write of entry `c`. -/
theorem State.cell_setCell (s : State) (c i : Nat) (x : Cell) : (s.setCell c x).cell i = if c = i then x else s.cell i := cget_cset ..

@[simp] theorem State.cell_setCell_self (s : State) (c : Nat) (x : Cell) : (s.setCell c x).cell c = x := by rw [State.cell_setCell, if_pos rfl]

/-- A read of the table after a write of entry `b`. -/
theorem State.bank_setBank (s : State) (b i : Nat) (x : Bank) : (s.setBank b x).bank i = if b = i then x else s.bank i := cget_cset ..

@[simp] theorem State.bank_setBank_self (s : State) (b : Nat) (x : Bank) : (s.setBank b x).bank b = x := by rw [State.bank_setBank, if_pos rfl]

/-- A read of the table after a write of entry `u`. -/
theorem State.unit_setUnit (s : State) (u i : Nat) (x : SUnit) : (s.setUnit u x).unit i = if u = i then x else s.unit i := cget_cset ..

@[simp] theorem State.unit_setUnit_self (s : State) (u : Nat) (x : SUnit) : (s.setUnit u x).unit u = x := by rw [State.unit_setUnit, if_pos rfl]

/-- A read of the table after a write of entry `w`. -/
theorem State.win_setWin (s : State) (w i : Nat) (x : Win) : (s.setWin w x).win i = if w = i then x else s.win i := cget_cset ..

@[simp] theorem State.win_setWin_self (s : State) (w : Nat) (x : Win) : (s.setWin w x).win w = x := by rw [State.win_setWin, if_pos rfl]

/-- A read of the table after a write of entry `k`. -/
theorem State.conv_setConv (s : State) (k i : Nat) (x : Adc) : (s.setConv k x).conv i = if k = i then x else s.conv i := cget_cset ..

@[simp] theorem State.conv_setConv_self (s : State) (k : Nat) (x : Adc) : (s.setConv k x).conv k = x := by rw [State.conv_setConv, if_pos rfl]

/-- A read of the table after a write of entry `n`. -/
theorem State.xch_setX (s : State) (n i : Nat) (x : XCh) : (s.setX n x).xch i = if n = i then x else s.xch i := cget_cset ..

@[simp] theorem State.xch_setX_self (s : State) (n : Nat) (x : XCh) : (s.setX n x).xch n = x := by rw [State.xch_setX, if_pos rfl]

/-- A read of the table after a write of entry `q`. -/
theorem State.qcell_setQ (s : State) (q i : Nat) (x : QCell) : (s.setQ q x).qcell i = if q = i then x else s.qcell i := cget_cset ..

@[simp] theorem State.qcell_setQ_self (s : State) (q : Nat) (x : QCell) : (s.setQ q x).qcell q = x := by rw [State.qcell_setQ, if_pos rfl]

/-- A read of the table after a write of entry `r`. -/
theorem State.ring_setRing (s : State) (r i : Nat) (x : RingRt) : (s.setRing r x).ring i = if r = i then x else s.ring i := cget_cset ..

@[simp] theorem State.ring_setRing_self (s : State) (r : Nat) (x : RingRt) : (s.setRing r x).ring r = x := by rw [State.ring_setRing, if_pos rfl]

/-- A read of the table after a write of entry `d`. -/
theorem State.dom_setDom (s : State) (d i : Nat) (x : Mech) : (s.setDom d x).dom i = if d = i then x else s.dom i := cget_cset ..

@[simp] theorem State.dom_setDom_self (s : State) (d : Nat) (x : Mech) : (s.setDom d x).dom d = x := by rw [State.dom_setDom, if_pos rfl]

/-- A read of the table after a write of entry `d`. -/
theorem State.el_setEl (s : State) (d i : Nat) (x : Elec) : (s.setEl d x).el i = if d = i then x else s.el i := cget_cset ..

@[simp] theorem State.el_setEl_self (s : State) (d : Nat) (x : Elec) : (s.setEl d x).el d = x := by rw [State.el_setEl, if_pos rfl]

/-- A read of the table after a write of entry `n`. -/
theorem State.refl_setRefl (s : State) (n i : Nat) (x : Refl) : (s.setRefl n x).refl i = if n = i then x else s.refl i := cget_cset ..

@[simp] theorem State.refl_setRefl_self (s : State) (n : Nat) (x : Refl) : (s.setRefl n x).refl n = x := by rw [State.refl_setRefl, if_pos rfl]

/-- A read of a register after a write of one. -/
theorem State.reg_setReg (s : State) (a b : Nat) (w : Word) : (s.setReg a w).reg b = if a = b then w else s.reg b := cget_cset ..

@[simp] theorem State.reg_setReg_self (s : State) (a : Nat) (w : Word) : (s.setReg a w).reg a = w := by
  rw [State.reg_setReg, if_pos rfl]

/-- A write of a field leaves every other register. -/
theorem State.reg_setRf_ne (s : State) {a b : Nat} (hi lo v : Nat) (h : a ≠ b) : (s.setRf a hi lo v).reg b = s.reg b := by
  rw [State.setRf, State.reg_setReg, if_neg h]

/-- A byte outside the bytes stored reads as before. -/
theorem State.byte_putBytes_out (s : State) (a x : Nat) (l : List Byte) (h : x < a ∨ a + l.length ≤ x) :
    (s.putBytes a l).byte x = s.byte x := cget_memPut_out _ _ _ _ h

/-- A byte among those stored reads as stored. -/
theorem State.byte_putBytes_in (s : State) (a i : Nat) (l : List Byte) (h : i < l.length) :
    (s.putBytes a l).byte (a + i) = l[i] := cget_memPut_in _ _ _ _ h

@[simp] theorem State.tick_now (s : State) (t : Nat) : (s.tick t).clk.now = max s.clk.now t := rfl
@[simp] theorem State.tick_clk (s : State) (t : Nat) : (s.tick t).clk = { s.clk with now := max s.clk.now t } := rfl
@[simp] theorem State.answer_rdata (s : State) (l : List Word) : (s.answer l).out.rdata = l := rfl
@[simp] theorem State.unFirst_first (s : State) : s.unFirst.glb.first = false := rfl
@[simp] theorem State.unFirst_isSealed (s : State) : s.unFirst.glb.isSealed = s.glb.isSealed := rfl

end Sys2Proof.Machine
end

