-- ==== Sys2Proof/WellFormed.lean ====
section
/-!
DEFINITION. Which operands a sender of the block can put into a command. The meanings of the commands are total and do not
rest on these checks: they say what the ports can carry.
-/
namespace Sys2Proof

/-- An access of 1, 2, 4 or 8 bytes inside a BAR of `len` bytes (R14, R44). -/
def accessGood (len addr size : Nat) : Bool := (size == 1 || size == 2 || size == 4 || size == 8) && decide (addr + size ≤ len)

/-- A read inside the space it addresses (R302). -/
def readGood (sp : ReadSpace) (addr size : Nat) : Bool :=
  match sp with
  | .bar0 => decide (addr + size ≤ 0x100000)
  | .bar2 => decide (addr + size ≤ 0x800000)
  | .config => decide (addr + size ≤ 0x1000)

/-- Sizes that software can program and a link that can be trained (R300, R301). -/
def PciCfg.good (c : PciCfg) : Bool :=
  (c.mps == 128 || c.mps == 256) && [128, 256, 512, 1024, 2048, 4096].contains c.mrrs && (c.lanes == 1 || c.lanes == 2) &&
  decide (1 ≤ c.speed) && decide (c.speed ≤ 3)

/-- A frame carries at most 16 payload words (table *Frame header*). -/
def frameGood (f : Frame) : Bool := decide (f.payload.length ≤ 16)

/-- Descriptor words are 16 (R316, R359). -/
def descGood (desc : Option (List Word)) (n : Nat) : Bool :=
  match desc with
  | some l => l.length == n
  | none => true

/-- Producer indices of a doorbell block: 64 slots of 16 bits (R319). -/
def prodsGood (l : List (Nat × Nat)) : Bool := l.all (fun p => decide (p.1 < 64) && decide (p.2 < 65536))

/-- The operands of a command are ones its port can carry. -/
def Instr.wf : Instr → Bool
  | .registerWrite _ a n _ | .msixTableWrite _ a n _ => accessGood 0x100000 a n
  | .bar2Write _ a n _ | .toothTableBar2Write _ a n _ | .eventTableBar2Write _ a n _ | .profileBar2Write _ a n _
  | .modelBar2Write _ a n _ | .balanceBar2Write _ a n _ | .reelImemBar2Write _ a n _ => accessGood 0x800000 a n
  | .lowHalfRead _ a => decide (1 ≤ a.size) && readGood a.space a.off a.size
  | .crankTrailingEdge t _ ts | .camEdge t _ ts _ => decide (ts ≤ t)
  | .crankEdge t _ e _ => decide (e.ts ≤ t)
  | .duskToothEdge t _ e => decide (e.ts ≤ t)
  | .rpPinChange t _ e => decide (e.ts ≤ t)
  | .portDown t _ why => decide (why.since ≤ t)
  | .edgeTimeout t d | .stallTimeout t d => decide (d.raw.getD 0 ≤ t)
  | .suspension _ c d l => decide (d < 4) && decide (l < 4) && c.cfg.good
  | .pollDataReturn _ _ _ prods => prodsGood prods
  | .descriptorFetchDone _ _ desc _ => descGood desc 16
  | .xfrDescriptorFetched _ _ desc => descGood desc 16
  | .frameForward _ _ f => frameGood f
  | .beacon t _ f ts | .pdelayReq t _ f ts | .pdelayResp t _ f ts | .announce t _ f ts | .sync t _ f ts | .snap t _ f ts
  | .mains t _ f ts | .epochNotice t _ f ts | .supervisory t _ f ts | .topo t _ f ts | .wakeReq t _ f ts =>
    frameGood f && decide (ts ≤ t)
  | .readBar0 _ off _ | .readBar2 _ off _ => off % 4 == 0
  | .importData _ l => decide (1 ≤ l.length) && decide (l.length ≤ 256)
  | .windowEnable _ w | .windowDisable _ w => decide (80 ≤ w.val)
  | _ => true

/-- A command that a sender can send. -/
def WellFormed (i : Instr) : Prop := i.wf = true

end Sys2Proof
end

