-- ==== Sys2Proof/Tests/Slice0.lean ====
section
/-!
SUPPORT. Tests: ill-formed commands that the check refuses, worked examples of the spec, and witnesses of the statements'
hypotheses.
-/
namespace Sys2Proof.Tests
open Sys2Proof.Machine

/-- A fetched descriptor of opcode `op` with payload words 2 on and a buffer. -/
def fc (op : Nat) (pay buf : List Word) : Fetched := { idx := 0, words := (BitVec.ofNat 32 op :: 0 :: pay ++ List.replicate 14 0).take 16, buf := buf }

/-- State `s` running, with command `c` as the oldest fetched descriptor of command ring 0. -/
def zc (c : Fetched) (s : State) : State :=
  ((s.setRf 0x1000 0 0 1).setRf (A.ring 0) 0 0 1).setRing 0 { fetched := [c] }

/-- The state that a step leads to. -/
def nxs (o : Host.Outcome State Fault Refusal) : State :=
  match o with
  | .next s => s
  | _ => State.reset

/-- A phase entry: KIND, SRC, DECAY, EXIT, HI, LO, DUR. -/
def ent (kind src decay exit hi lo dur : Nat) : Nat :=
  kind * 2 ^ 45 + src * 2 ^ 43 + decay * 2 ^ 41 + exit * 2 ^ 39 + hi * 2 ^ 28 + lo * 2 ^ 18 + dur * 4

/-- The 16 words of a profile: its header as one number, its phase entries. -/
def pw (hdr : Nat) (es : List Nat) : List Word :=
  let n := hdr + (es.foldr (fun e a => e + 2 ^ 48 * a) 0) * 2 ^ 128
  (List.range 16).map (fun k => BitVec.ofNat 32 (n / 2 ^ (32 * k)))

/-- Boost, hold and decay phases. -/
def shotProfile : List Word := pw (3 + 2 * 16 + 5 * 256) [ent 1 2 0 0 100 0 10, ent 3 2 0 1 50 10 100, ent 5 0 2 1 0 0 20]

/-- A start of channel `c`. -/
def start (c : Nat) : StartCmd := { slot := 9, region := c / 16, chan := c, prof := 0, cap := 4000, start := 0, corrected := false }

/-- A shot of channel `c` in phase `p`. -/
def shotOf (c : Nat) (ws : List Word) (p : Nat) : Shot :=
  { cmd := start c, words := ws, hdr := [], modelErr := false, gate := 0, capAt := 100000, phase := p }

/-- A start of channel `c` that waits. -/
def waiter (c : Nat) (reboost : Bool) : Waiting :=
  { cmd := start c, arrived := 0, reboost := reboost, stepAt := 0, seq := 0, flags := 0, press := none }

/-- State `s` running and not suspended. -/
def live (s : State) : State :=
  let u := s.setRf 0x1000 0 0 1
  { u with hif := { u.hif with bme := true } }

/-- Rings 0 (command) and 1 (completion) as a host would set them. -/
def rings (s : State) : State :=
  (((s.setReg 0x1008 0x10000).setReg 0x1010 0x20000).setReg (A.ring 0) 0x00010159).setReg (A.ring 1) 0x00000053

/-- An element of the producer table: KIND, INSTANCE, period and largest age in µs. -/
def prodEntry (kind i period age : Nat) : List Word :=
  [BitVec.ofNat 32 (2 ^ 31 + kind * 2 ^ 16 + i * 2 ^ 8), BitVec.ofNat 32 period, BitVec.ofNat 32 age, 0]

/-- Source `src` pending, of priority 15 and enabled for target `k`. -/
def pendingFor (k src : Nat) (s : State) : State :=
  let u := (s.setReg (0x5800 + 0x40 * k + 4 * (src / 32)) (BitVec.ofNat 32 (2 ^ (src % 32)))).setReg (0x4800 + 4 * (src / 8)) 0xFFFFFFFF
  { u with irq := { u.irq with pending := [src] } }

/-- A transfer descriptor with word 0 `w`: elements of 4 bytes, two in the first loop. -/
def xdOf (w : Word) : List Word := [w, 0x00010002, 1, 0x1000, 0, 4, 0, 0, 0, 0, 0x82000, 0, 0, 0, 0, 0]

/-- Engine 15 about to execute the injected word `w`, and otherwise `g`. -/
def fetching (w : Nat) (g : Engine) (s : State) : State :=
  s.setReel { (s.reel.setEng 15 { g with st := .run, inj := some w }) with held := false }

/-- A state whose engines are not held. -/
def unheld (s : State) : State := s.setReel { s.reel with held := false }

/-- The spare's reflection covers every region. -/
def covered (s : State) : State := (List.range 4).foldl (fun s n => s.setRefl n { s.refl n with covered := true }) s

/-- Unit `u` in state `st`. -/
def unitIn (u st : Nat) (s : State) : State := s.setRf 0x3008 (3 * u + 2) (3 * u) st

/-- The takeover of region 3 at step `n`. -/
def takingOver (n : Nat) (warm : Bool) : Takeover :=
  { role := 3, unit := 3, at_ := 5, step := n, lend := false, warm := warm, slots := [], busy := [], ckpt := {} }

/-- Node 5 on the link, both ports enabled. -/
def linked (s : State) : State := s.setReg A.vlk 0x00050007

/-- A frame of TYPE `ty` to all from node `src`, with SEQ 7. -/
def frame (ty src hops : Nat) (dirB : Bool) (pay : List Word) : Frame :=
  { w0 := BitVec.ofNat 32 (ty * 2 ^ 28 + 2 ^ 27 + (if dirB then 2 ^ 26 else 0) + src * 2 ^ 6 + pay.length),
    w1 := BitVec.ofNat 32 (hops * 2 ^ 21 + 7), payload := pay, crcOk := true }

/-- What a command leads to. -/
def nx (o : Host.Outcome State Fault Refusal) : Option State :=
  match o with
  | .next s => some s
  | _ => none

/-! ### Well-formed operands: the check refuses an ill-formed term, each by the rule its definition cites -/

theorem test_wf_refuses_bar0_past_the_end : (Instr.registerWrite 0 0xFFFFE 4 0).wf = false := by decide
theorem test_wf_refuses_bar0_size_three : (Instr.msixTableWrite 0 0x1A00 3 0).wf = false := by decide
theorem test_wf_refuses_bar2_past_the_end : (Instr.bar2Write 0 0x7FFFFC 8 0).wf = false := by decide
theorem test_wf_refuses_table_size_zero : (Instr.profileBar2Write 0 0x50000 0 0).wf = false := by decide
theorem test_wf_refuses_half_read_past_bar0 : (Instr.lowHalfRead 0 ⟨.bar0, 0xFFFFE, 4⟩).wf = false := by decide
theorem test_wf_refuses_read_of_no_bytes : (Instr.lowHalfRead 0 ⟨.bar2, 0, 0⟩).wf = false := by decide
theorem test_wf_refuses_read_past_bar2 : (Instr.lowHalfRead 0 ⟨.bar2, 0x7FFFFC, 8⟩).wf = false := by decide
theorem test_wf_refuses_read_past_config_space : (Instr.lowHalfRead 0 ⟨.config, 0xFFE, 4⟩).wf = false := by decide
theorem test_wf_refuses_edge_from_the_future : (Instr.crankEdge 5 0 ⟨6, 0⟩ none).wf = false := by decide
theorem test_wf_refuses_cam_edge_from_the_future : (Instr.camEdge 5 0 6 0).wf = false := by decide
theorem test_wf_refuses_trailing_edge_from_the_future : (Instr.crankTrailingEdge 5 0 6).wf = false := by decide
theorem test_wf_refuses_dusk_edge_from_the_future : (Instr.duskToothEdge 5 0 ⟨6, 0, none⟩).wf = false := by decide
theorem test_wf_refuses_pin_level_from_the_future : (Instr.rpPinChange 5 0 ⟨6, true⟩).wf = false := by decide
theorem test_wf_refuses_break_from_the_future : (Instr.portDown 5 0 ⟨false, 6⟩).wf = false := by decide
theorem test_wf_refuses_silence_from_the_future : (Instr.edgeTimeout 5 ⟨0, some 6⟩).wf = false := by decide
theorem test_wf_refuses_stall_from_the_future : (Instr.stallTimeout 5 ⟨0, some 6⟩).wf = false := by decide
theorem test_wf_refuses_payload_size : (Instr.suspension 0 ⟨true, { mps := 512 }⟩ 0 0).wf = false := by decide
theorem test_wf_refuses_request_size : (Instr.suspension 0 ⟨true, { mrrs := 64 }⟩ 0 0).wf = false := by decide
theorem test_wf_refuses_three_lanes : (Instr.suspension 0 ⟨true, { lanes := 3 }⟩ 0 0).wf = false := by decide
theorem test_wf_refuses_speed_four : (Instr.suspension 0 ⟨true, { speed := 4 }⟩ 0 0).wf = false := by decide
theorem test_wf_refuses_dstate_four : (Instr.suspension 0 ⟨true, {}⟩ 4 0).wf = false := by decide
theorem test_wf_refuses_lstate_four : (Instr.suspension 0 ⟨true, {}⟩ 0 4).wf = false := by decide
theorem test_wf_refuses_doorbell_slot_64 : (Instr.pollDataReturn 0 true 0 [(64, 0)]).wf = false := by decide
theorem test_wf_refuses_wide_producer : (Instr.pollDataReturn 0 true 0 [(0, 65536)]).wf = false := by decide
theorem test_wf_refuses_short_descriptor : (Instr.descriptorFetchDone 0 0 (some [0]) none).wf = false := by decide
theorem test_wf_refuses_short_transfer : (Instr.xfrDescriptorFetched 0 0 (some [0])).wf = false := by decide
theorem test_wf_refuses_long_frame : (Instr.frameForward 0 0 (frame 6 9 0 false (List.replicate 17 0))).wf = false := by decide
theorem test_wf_refuses_frame_from_the_future : (Instr.beacon 5 0 (frame 1 9 0 false [0, 0]) 6).wf = false := by decide
theorem test_wf_refuses_unaligned_read : (Instr.readBar0 0 2 1).wf = false := by decide
theorem test_wf_refuses_unaligned_read_of_bar2 : (Instr.readBar2 0 1 1).wf = false := by decide
theorem test_wf_refuses_empty_import : (Instr.importData 0 []).wf = false := by decide
theorem test_wf_refuses_window_79 : (Instr.windowEnable 0 79).wf = false := by decide
theorem test_wf_refuses_disable_of_window_79 : (Instr.windowDisable 0 79).wf = false := by decide

/-! ### Worked examples of the spec -/

/-- 30 °CA is 0x001E_0000 AU (chapter 0, worked conversion). -/
theorem test_degrees_to_au : 30 * 65536 = 0x001E0000 := by decide

/-- The first key word sets FIRST (R48). -/
theorem test_seal_first_key : (nx (exec (.sealWrite 5 0x5EA1) State.reset)).map (fun t => t.glb.first) = some true := by decide

/-- The write of slot 5 of chapter 8, *A slot change on the wire*. -/
def slotFive : State :=
  nxs (exec (.slotWrite 5 0) (zc (fc 0x10 [5, 0xB0050001, 0x00BE0000, 0x00C20000, 0, 0x000C3500, 1] []) State.reset))

/-- It leaves the set as the shadow set of slot 5. -/
theorem test_slot_change_on_the_wire :
    ((slotFive.unit 0).slot 5).shadow = some [0xB0050001, 0x00BE0000, 0x00C20000, 0, 0x000C3500, 1, 0] := by decide

/-- Chapter 6, *Worked example*: raw curvatures of 180, 240 and 210 around the peak give q = +1. -/
theorem test_kink_vertex : kinkVertex (List.replicate 223 0 ++ [180, 240, 210]) 224 240 = 1 := by decide

/-- The fit of that example. -/
def exampleFit : KinkFit := { k := 224, r := 240, r2 := 110, m := 20, q := 1, edge := false }

/-- That example: TCLOSE 1,119 after a delay of 50 µs. -/
theorem test_kink_tclose : kinkTclose 50 exampleFit = 1119 := by decide

/-- That example: STATUS OK and GRADE A. -/
theorem test_kink_grade : kinkGrade exampleFit false = (0, 3) := by decide

/-! ### Witnesses: for every statement with hypotheses, states and operands that meet them, clause by clause -/

theorem reset_inv : State.reset.Inv := ⟨by decide, by decide, by decide, by decide, by decide⟩

theorem witness_AnEmptyQueueLetsOneTickPass :
    ∃ (s : State), s.pending = [] :=
  ⟨State.reset, by decide⟩

theorem witness_EveryCommandGoesOnInTime :
    ∃ (c : Instr) (s : State) (u : State), exec c s = .next u :=
  ⟨(.powerOnReset 5 : Instr), State.reset, (nxs (exec (.powerOnReset 5) (State.reset)) : State), rfl⟩

theorem witness_AHeldDeviceTakesNoCommand :
    ∃ (c : Instr) (s : State), reachesHeld c = false ∧ ¬ s.Up :=
  ⟨(.commit 5 : Instr), ({ State.reset with pwr := { inReset := true } } : State), by decide⟩

theorem witness_EveryCommandChangesOnlyItsFootprint :
    ∃ (c : Instr) (s : State) (u : State), exec c s = .next u :=
  ⟨(.commit 5 : Instr), State.reset, (nxs (exec (.commit 5) (State.reset)) : State), rfl⟩

theorem witness_EveryStepKeepsTheInvariant :
    ∃ (s : State) (u : State), s.Inv ∧ step s = .next u :=
  ⟨State.reset, (nxs (step (State.reset)) : State), reset_inv, rfl⟩

theorem witness_WritesBeforeAndAfterTheSeal :
    (∃ (s : State) (a : Nat) (size : Nat), s.Up ∧ s.glb.isSealed = false ∧ (¬ (0x1A00 ≤ a ∧ a < 0x1C00)) ∧ (¬ (size = 4 ∧ a % 4
      = 0 ∧ a < 0x100000))) ∧
    (∃ (s : State) (a : Nat), s.Open ∧ 0x3000 ≤ a ∧ a < 0x4000 ∧ a % 4 = 0) ∧
    (∃ (s : State) (a : Nat) (size : Nat) (v : BitVec 64), s.Up ∧ s.glb.isSealed = true ∧ (¬ (0x1A00 ≤ a ∧ a < 0x1C00)) ∧ (size
      = 4 → a % 4 = 0 → irqDirect a = false ∧ (hifSeal a = true → hostReset s = false) ∧ (a = 0x1000 → v.toNat % 2 = 0))) ∧
    (∃ (s : State) (a : Nat), s.Open ∧ 0x82000 ≤ a ∧ a < 0x83000 ∧ a % 4 = 0) ∧
    (∃ (s : State) (a : Nat), s.Open ∧ 0x82000 ≤ a ∧ a < 0x83000 ∧ a % 8 = 0) ∧
    (∃ (s : State) (a : Nat) (size : Nat), s.Up ∧ s.glb.isSealed = false ∧ (¬ ((size = 4 ∨ size = 8) ∧ a % size = 0 ∧ a + size ≤
      0x800000))) ∧
    (∃ (s : State), s.Up ∧ s.glb.isSealed = true) :=
  ⟨⟨State.reset, 0x12, 4, by decide⟩,
   ⟨State.reset, 0x3FFC, by decide⟩,
   ⟨({ State.reset with glb := { isSealed := true, refused := 65535 } } : State), 0x1000, 4, 2, by decide⟩,
   ⟨State.reset, 0x82FFC, by decide⟩,
   ⟨State.reset, 0x82FF8, by decide⟩,
   ⟨State.reset, 0x7FFFFC, 8, by decide⟩,
   ⟨({ State.reset with glb := { isSealed := true } } : State), by decide⟩⟩

theorem witness_SealKeySequence :
    (∃ (s : State), s.Open) ∧
    (∃ (s : State), s.Open ∧ s.glb.first = true) ∧
    (∃ (s : State) (v : Word), s.Open ∧ v ≠ 0x5EA1 ∧ (v = 0xFFFFA15E → s.glb.first = false)) ∧
    (∃ (s : State), s.Up ∧ s.glb.isSealed = true) ∧
    (∃ (s : State) (u : State) (t : Nat) (a : Nat) (size : Nat) (v : BitVec 64), s.Up ∧ ((size = 4 ∧ a % 4 = 0 ∧ a ≠ 0x10 ∨
      0x1A00 ≤ a ∧ a < 0x1C00 ∧ a % size = 0) ∧ exec (.registerWrite t a size v) s = .next u ∨ ((size = 4 ∨ size = 8) ∧ a % size
      = 0) ∧ exec (.bar2Write t a size v) s = .next u)) ∧
    (∃ (s : State) (u : State) (t : Nat) (a : Nat) (size : Nat) (v : BitVec 64), s.Up ∧ ((size = 4 ∧ a % 4 = 0 ∧ a ≠ 0x10 ∨
      0x1A00 ≤ a ∧ a < 0x1C00 ∧ a % size = 0) ∧ exec (.registerWrite t a size v) s = .next u ∨ ((size = 4 ∨ size = 8) ∧ a % size
      = 0) ∧ exec (.bar2Write t a size v) s = .next u)) :=
  ⟨⟨State.reset, by decide⟩,
   ⟨({ State.reset with glb := { first := true } } : State), by decide⟩,
   ⟨State.reset, 0xFFFFA15E, by decide⟩,
   ⟨({ State.reset with glb := { isSealed := true } } : State), by decide⟩,
   ⟨({ State.reset with glb := { first := true } } : State), (nxs (exec (.registerWrite 5 0x14 4 1)
     ({ State.reset with glb := { first := true } })) : State), 5, 0x14, 4, 1, by decide, .inl ⟨by decide, rfl⟩⟩,
   ⟨({ State.reset with glb := { first := true } } : State), (nxs (exec (.bar2Write 5 0x7FFFF8 8 1)
     ({ State.reset with glb := { first := true } })) : State), 5, 0x7FFFF8, 8, 1, by decide, .inr ⟨by decide, rfl⟩⟩⟩

theorem witness_TheSealLastsUntilTheNextReset :
    (∃ (c : Instr) (s : State) (u : State), s.glb.isSealed = true ∧ exec c s = .next u) ∧
    (∃ (c : Instr) (s : State) (u : State), s.glb.isSealed = true ∧ exec c s = .next u) ∧
    (∃ (s : State) (u : State) (t : Nat) (a : Nat) (size : Nat) (v : BitVec 64) (w : Word), s.glb.isSealed = true ∧ (exec
      (.registerWrite t a size v) s = .next u ∨ exec (.bar2Write t a size v) s = .next u ∨ exec (.sealWrite t w) s = .next u ∨
      exec (.msixTableWrite t a size v) s = .next u)) :=
  ⟨⟨(.pinReset 5 1000 : Instr), ({ State.reset with glb := { isSealed := true } } : State), (nxs (exec (.pinReset 5 1000)
     ({ State.reset with glb := { isSealed := true } })) : State), by decide, rfl⟩,
   ⟨(.pinReset 5 99 : Instr), ({ State.reset with glb := { isSealed := true } } : State), (nxs (exec (.pinReset 5 99)
     ({ State.reset with glb := { isSealed := true } })) : State), by decide, rfl⟩,
   ⟨({ State.reset with glb := { isSealed := true } } : State), (nxs (exec (.registerWrite 5 0x10 4 1)
     ({ State.reset with glb := { isSealed := true } })) : State), 5, 0x10, 4, 1, 0, by decide, .inl rfl⟩⟩

theorem witness_DeviceTimeReadsDescribeOneInstant :
    (∃ (s : State), s.Up) ∧
    (∃ (s : State) (w : Word), s.Up ∧ s.glb.timeHigh = some w) ∧
    (∃ (s : State), s.Up ∧ s.glb.timeHigh = none) ∧
    (∃ (s : State), s.Up ∧ latched s 0x28 = none) :=
  ⟨⟨State.reset, by decide⟩,
   ⟨({ State.reset with glb := { timeHigh := some 3 } } : State), 3, by decide⟩,
   ⟨State.reset, by decide⟩,
   ⟨State.reset, by decide⟩⟩

theorem witness_LevelsHalfReadsAndTheFabric :
    (∃ (s : State) (v : Word), s.Open ∧ (v = 1 ∨ v = 2)) ∧
    (∃ (s : State) (v : Word), s.Open ∧ v ≠ 1 ∧ v ≠ 2) ∧
    (∃ (s : State) (a : Nat), s.Up ∧ isLowHalf a = true) ∧
    (∃ (s : State) (a : Nat) (n : Nat), s.Up ∧ (¬ (n = 4 ∧ a % 4 = 0)) ∧ (¬ (n = 8 ∧ a % 8 = 0 ∧ 0x1A00 ≤ a ∧ a < 0x1C08))) ∧
    (∃ (s : State) (a : Nat) (n : Nat), s.Up ∧ (¬ ((n = 4 ∨ n = 8) ∧ a % n = 0 ∧ a < 0x800000))) ∧
    (∃ (s : State) (a : Nat), s.Up ∧ a < 0x800000 ∧ a % 4 = 0) ∧
    (∃ (s : State) (a : Nat), s.Up ∧ 0x1A00 ≤ a ∧ a < 0x1C08 ∧ a % 8 = 0) ∧
    (∃ (s : State) (t : Nat), s.Up ∧ Latest s t .message) ∧
    (∃ (s : State) (t : Nat) (l : List (Fin 11)) (k : Nat), s.Up ∧ k < 11 ∧ (fabricArrive (s.tick t) (l.map
      (·.val))).fabric.reqsOf k ≠ [] ∧ s.fabric.promoted.contains k = false) ∧
    (∃ (s : State) (t : Nat) (k : Fin 11) (r : Nat) (rest : List Nat), s.Up ∧ 8 ≤ k.val ∧ s.fabric.reqsOf k.val = r :: rest ∧ r
      + s.fclk 48 ≤ max s.clk.now t) :=
  ⟨⟨State.reset, 2, by decide⟩,
   ⟨State.reset, 5, by decide⟩,
   ⟨State.reset, 0xC520, by decide⟩,
   ⟨State.reset, 6, 2, by decide⟩,
   ⟨State.reset, 0x82001, 1, by decide⟩,
   ⟨State.reset, 0x82FF8, by decide⟩,
   ⟨State.reset, 0x1C00, by decide⟩,
   ⟨State.reset, 1000, by decide⟩,
   ⟨State.reset, 1000, ([3, 9, 5] : List (Fin 11)), 9, by decide⟩,
   ⟨({ State.reset with fabric := { reqs := [(8, [0, 4])] } } : State), 1000, 8, 0, ([4] : List Nat), by decide⟩⟩

theorem witness_ThePllSwitchAndItsTime :
    (∃ (s : State), s.Up) ∧
    (∃ (s : State), s.Open ∧ s.clk.pll = false ∧ s.pwr.ask = none) ∧
    (∃ (s : State) (r : Fin 64) (c : Fetched), Heads s r.val 0x51 c ∧ s.glb.chipSafe = false ∧ s.clk.pll = false ∧ s.pwr.ask =
      none) ∧
    (∃ (s : State) (r : Fin 64) (c : Fetched), Heads s r.val 0x51 c ∧ s.glb.chipSafe = false ∧ s.clk.pll = true) ∧
    (∃ (s : State) (t : Nat) (k : Nat), s.Up ∧ s.pwr.ask = some (k, none) ∧ k + 400000 ≤ max s.clk.now t ∧ s.rb 0x2004 8 =
      false) ∧
    (∃ (s : State) (t : Nat) (k : Nat) (r : Nat) (c : Fetched), Heads s r 0x51 c ∧ s.pwr.ask = some (k, some r) ∧ k + 400000 ≤
      max s.clk.now t ∧ s.rb 0x2004 8 = false) ∧
    (∃ (s : State) (k : Nat) (r : Option Nat), s.Up ∧ s.pwr.ask = some (k, r) ∧ s.rb 0x2004 8 = true ∧ s.clk.pll = false ∧
      s.vlk.time.own ≠ 1) :=
  ⟨⟨State.reset, by decide⟩,
   ⟨State.reset, by decide⟩,
   ⟨(zc (fc 0x51 [] []) (State.reset) : State), 0, (fc 0x51 [] [] : Fetched), by decide⟩,
   ⟨(zc (fc 0x51 [] []) ({ State.reset with clk := { pll := true } }) : State), 0, (fc 0x51 [] [] : Fetched), by decide⟩,
   ⟨({ State.reset with pwr := { ask := some (0, none) } } : State), 400000, 0, by decide⟩,
   ⟨(zc (fc 0x51 [] []) ({ State.reset with pwr := { ask := some (0, some 0) } }) : State), 400000, 0, 0, (fc 0x51 [] [] :
     Fetched), by decide⟩,
   ⟨({ State.reset.setRf 0x2004 8 8 1 with pwr := { ask := some (0, none), bridge := true } } : State), 0, none, by
     decide⟩⟩

theorem witness_FatalConditionsTakeTheChipSafe :
    (∃ (s : State), s.Up ∧ s.glb.chipSafe = false) ∧
    (∃ (s : State), s.Up ∧ s.glb.chipSafe = false) ∧
    (∃ (s : State), s.Up ∧ s.glb.chipSafe = true) :=
  ⟨⟨State.reset, by decide⟩,
   ⟨State.reset, by decide⟩,
   ⟨({ State.reset with glb := { chipSafe := true } } : State), by decide⟩⟩

theorem witness_DuskIsEnteredCountedAndLeft :
    (∃ (s : State) (r : Fin 64) (c : Fetched), Heads s r.val 0x50 c ∧ s.glb.chipSafe = false ∧ s.pwr.ring ≠ some r.val ∧ duskOk
      s = true) ∧
    (∃ (s : State) (r : Fin 64) (c : Fetched), Heads s r.val 0x50 c ∧ s.glb.chipSafe = false ∧ s.pwr.ring ≠ some r.val ∧ duskOk
      s = false) ∧
    (∃ (s : State), s.Open ∧ duskOk s = true) ∧
    (∃ (s : State), s.Up ∧ s.pwr.entry = 1 ∧ voterRefuses s s.pwr.voter = false) ∧
    (∃ (s : State), s.Up ∧ s.pwr.entry = 1 ∧ s.pwr.voter = 0 ∧ s.pwr.ring = none ∧ s.pwr.latches = [] ∧ voterRefuses s 0 = true) ∧
    (∃ (s : State), s.Up ∧ s.pwr.entry = 2) ∧
    (∃ (s : State) (t : Nat) (ts : Nat) (d : Fin 2) (lv : Int), s.pwr.asleep = true ∧ ts + 400 ≤ max s.clk.now t ∧ (s.dom
      d.val).duskOn = true ∧ (s.dom d.val).duskOver = false ∧ -32768 < (s.dom d.val).duskCount ∧ (s.dom d.val).duskCount < 32767
      ∧ crankArmed s d.val = true ∧ (s.dom d.val).crkLevel = !s.rb (A.dom d.val + 4) 5 ∧ inputLevel (s.rb (A.dom d.val + 4) 8)
      (s.dom d.val).crkLevel lv = s.rb (A.dom d.val + 4) 5) ∧
    (∃ (s : State) (t : Nat) (ts : Nat), max s.clk.now t < ts + 400) ∧
    (∃ (s : State) (d : Fin 2) (mv : Int), s.pwr.asleep = true ∧ s.pwr.inReset = false ∧ s.rb (A.dom d.val + 4) 8 = true ∧
      decide (mv < 0) = s.rb (A.dom d.val + 4) 5 ∧ 25 * (s.rf (A.dom d.val + 4) 15 12 + 1) < mv.natAbs) ∧
    (∃ (s : State), s.pwr.asleep = true ∧ s.rb A.irq 0 = false) ∧
    (∃ (s : State), s.pwr.asleep = true ∧ s.rb A.irq 0 = false ∧ s.reg 0x200C ≠ 0) ∧
    (∃ (s : State) (l : Fin 7), s.pwr.asleep = true ∧ s.rb 0x2008 l.val = true) ∧
    (∃ (s : State) (l : Fin 7), s.rb 0x2008 l.val = false) ∧
    (∃ (s : State) (l : Fin 7), s.pwr.asleep = true ∧ s.rb 0x2008 l.val = true) :=
  ⟨⟨(zc (fc 0x50 [] []) (State.reset) : State), 0, (fc 0x50 [] [] : Fetched), by decide⟩,
   ⟨(zc (fc 0x50 [] []) (State.reset.setRf 0x2008 6 0 0) : State), 0, (fc 0x50 [] [] : Fetched), by decide⟩,
   ⟨State.reset, by decide⟩,
   ⟨({ State.reset with pwr := { entry := 1, voter := 45 } } : State), by decide⟩,
   ⟨({ State.reset with round := { phase := 3 }, pwr := { entry := 1, voter := 0 } } : State), by decide⟩,
   ⟨({ State.reset with pwr := { entry := 2 } } : State), by decide⟩,
   ⟨(({ State.reset with pwr := { asleep := true } } : State).setDom 1 { duskOn := true, duskCount := 32766, crkLevel := true }
     : State), 1000, 600, 1, 0, by decide⟩,
   ⟨State.reset, 1000, 601, by decide⟩,
   ⟨(({ State.reset with pwr := { asleep := true } } : State).setRf (A.dom 1 + 4) 8 8 1 : State), 1, 101, by decide⟩,
   ⟨({ State.reset with pwr := { asleep := true } } : State), by decide⟩,
   ⟨(({ State.reset with pwr := { asleep := true } } : State).setReg 0x200C 1 : State), by decide⟩,
   ⟨(({ State.reset with pwr := { asleep := true, sleptAt := 77 } } : State).setRf 0x2008 6 0 127 : State), 6, by
     decide⟩,
   ⟨(({ State.reset with pwr := { asleep := true } } : State).setRf 0x2008 6 0 126 : State), 0, by decide⟩,
   ⟨(({ State.reset with pwr := { asleep := true, sleptAt := 77 } } : State).setRf 0x2008 6 0 127 : State), 0, by
     decide⟩⟩

theorem witness_EveryResetLeavesTheDeviceHeldAndUnsealed :
    (∃ (s : State) (c : Instr) (t : Nat), (c = .powerOnReset t ∨ c = .supplyMonitorReset t ∨ (∃ w, 1000 ≤ w ∧ c = .pinReset t w)
      ∨ (c = .pcieFundamentalReset t ∧ s.rb 0x1000 8 = false) ∨ (∃ (r : Fin 64) (f : Fetched), c = .chipReset t r ∧ Heads s
      r.val 0x43 f ∧ f.w 2 = 0x0000C4E5) ∨ (∃ (l : Fin 7) (n : Nat), c = .wake t l n true ∧ s.pwr.asleep = true ∧ s.rb 0x2008
      l.val = true) ∨ (c = .importWriteDone t true ∧ s.Up ∧ s.side.imp = 2 ∧ s.jrn.writing = none))) ∧
    (∃ (s : State) (c : Instr) (t : Nat), (c = .powerOnReset t ∨ c = .supplyMonitorReset t ∨ (∃ w, 1000 ≤ w ∧ c = .pinReset t w)
      ∨ (c = .pcieFundamentalReset t ∧ s.rb 0x1000 8 = false) ∨ (∃ (r : Fin 64) (f : Fetched), c = .chipReset t r ∧ Heads s
      r.val 0x43 f ∧ f.w 2 = 0x0000C4E5) ∨ (∃ (l : Fin 7) (n : Nat), c = .wake t l n true ∧ s.pwr.asleep = true ∧ s.rb 0x2008
      l.val = true) ∨ (c = .importWriteDone t true ∧ s.Up ∧ s.side.imp = 2 ∧ s.jrn.writing = none))) ∧
    (∃ (s : State) (c : Instr) (t : Nat), (c = .powerOnReset t ∨ c = .supplyMonitorReset t ∨ (∃ w, 1000 ≤ w ∧ c = .pinReset t w)
      ∨ (c = .pcieFundamentalReset t ∧ s.rb 0x1000 8 = false) ∨ (∃ (r : Fin 64) (f : Fetched), c = .chipReset t r ∧ Heads s
      r.val 0x43 f ∧ f.w 2 = 0x0000C4E5) ∨ (∃ (l : Fin 7) (n : Nat), c = .wake t l n true ∧ s.pwr.asleep = true ∧ s.rb 0x2008
      l.val = true) ∨ (c = .importWriteDone t true ∧ s.Up ∧ s.side.imp = 2 ∧ s.jrn.writing = none))) ∧
    (∃ (s : State) (c : Instr) (t : Nat), (c = .powerOnReset t ∨ c = .supplyMonitorReset t ∨ (∃ w, 1000 ≤ w ∧ c = .pinReset t w)
      ∨ (c = .pcieFundamentalReset t ∧ s.rb 0x1000 8 = false) ∨ (∃ (r : Fin 64) (f : Fetched), c = .chipReset t r ∧ Heads s
      r.val 0x43 f ∧ f.w 2 = 0x0000C4E5) ∨ (∃ (l : Fin 7) (n : Nat), c = .wake t l n true ∧ s.pwr.asleep = true ∧ s.rb 0x2008
      l.val = true) ∨ (c = .importWriteDone t true ∧ s.Up ∧ s.side.imp = 2 ∧ s.jrn.writing = none))) ∧
    (∃ (s : State) (c : Instr) (t : Nat), (c = .powerOnReset t ∨ c = .supplyMonitorReset t ∨ (∃ w, 1000 ≤ w ∧ c = .pinReset t w)
      ∨ (c = .pcieFundamentalReset t ∧ s.rb 0x1000 8 = false) ∨ (∃ (r : Fin 64) (f : Fetched), c = .chipReset t r ∧ Heads s
      r.val 0x43 f ∧ f.w 2 = 0x0000C4E5) ∨ (∃ (l : Fin 7) (n : Nat), c = .wake t l n true ∧ s.pwr.asleep = true ∧ s.rb 0x2008
      l.val = true) ∨ (c = .importWriteDone t true ∧ s.Up ∧ s.side.imp = 2 ∧ s.jrn.writing = none))) ∧
    (∃ (s : State) (c : Instr) (t : Nat), (c = .powerOnReset t ∨ c = .supplyMonitorReset t ∨ (∃ w, 1000 ≤ w ∧ c = .pinReset t w)
      ∨ (c = .pcieFundamentalReset t ∧ s.rb 0x1000 8 = false) ∨ (∃ (r : Fin 64) (f : Fetched), c = .chipReset t r ∧ Heads s
      r.val 0x43 f ∧ f.w 2 = 0x0000C4E5) ∨ (∃ (l : Fin 7) (n : Nat), c = .wake t l n true ∧ s.pwr.asleep = true ∧ s.rb 0x2008
      l.val = true) ∨ (c = .importWriteDone t true ∧ s.Up ∧ s.side.imp = 2 ∧ s.jrn.writing = none))) ∧
    (∃ (s : State) (c : Instr) (t : Nat), (c = .powerOnReset t ∨ c = .supplyMonitorReset t ∨ (∃ w, 1000 ≤ w ∧ c = .pinReset t w)
      ∨ (c = .pcieFundamentalReset t ∧ s.rb 0x1000 8 = false) ∨ (∃ (r : Fin 64) (f : Fetched), c = .chipReset t r ∧ Heads s
      r.val 0x43 f ∧ f.w 2 = 0x0000C4E5) ∨ (∃ (l : Fin 7) (n : Nat), c = .wake t l n true ∧ s.pwr.asleep = true ∧ s.rb 0x2008
      l.val = true) ∨ (c = .importWriteDone t true ∧ s.Up ∧ s.side.imp = 2 ∧ s.jrn.writing = none))) :=
  ⟨⟨State.reset, (.powerOnReset 1000 : Instr), 1000, .inl rfl⟩,
   ⟨State.reset, (.supplyMonitorReset 1000 : Instr), 1000, .inr (.inl rfl)⟩,
   ⟨State.reset, (.pinReset 1000 1000 : Instr), 1000, .inr (.inr (.inl ⟨1000, by decide, rfl⟩))⟩,
   ⟨State.reset, (.pcieFundamentalReset 1000 : Instr), 1000, .inr (.inr (.inr (.inl ⟨rfl, by decide⟩)))⟩,
   ⟨(zc (fc 0x43 [0xC4E5] []) State.reset : State), (.chipReset 1000 0 : Instr), 1000, .inr (.inr (.inr (.inr (.inl ⟨0, fc 0x43
     [0xC4E5] [], rfl, by decide, by decide⟩))))⟩,
   ⟨(({ State.reset with pwr := { asleep := true } } : State).setRf 0x2008 6 0 127 : State), (.wake 1000 6 3 true : Instr),
     1000, .inr (.inr (.inr (.inr (.inr (.inl ⟨6, 3, rfl, by decide, by decide⟩)))))⟩,
   ⟨(State.reset.setSide { imp := 2 } : State), (.importWriteDone 1000 true : Instr), 1000, .inr (.inr (.inr (.inr (.inr (.inr
     ⟨rfl, by decide, by decide, by decide⟩)))))⟩⟩

theorem witness_ResetCauseAndRelease :
    (∃ (s : State), s.pwr.inReset = true) ∧
    (∃ (s : State), s.pwr.inReset = false) ∧
    (∃ (w : Nat), 1000 ≤ w) ∧
    (∃ (w : Nat), w < 100) ∧
    (∃ (s : State), s.rb 0x1000 8 = false) ∧
    (∃ (s : State), s.rb 0x1000 8 = true) ∧
    (∃ (s : State) (r : Fin 64) (f : Fetched), Heads s r.val 0x43 f ∧ f.w 2 = 0x0000C4E5) :=
  ⟨⟨({ State.reset with pwr := { inReset := true } } : State), by decide⟩,
   ⟨State.reset, by decide⟩,
   ⟨1000, by decide⟩,
   ⟨99, by decide⟩,
   ⟨State.reset, by decide⟩,
   ⟨(State.reset.setRf 0x1000 8 8 1 : State), by decide⟩,
   ⟨(zc (fc 0x43 [0xC4E5] []) (State.reset) : State), 0, (fc 0x43 [0xC4E5] [] : Fetched), by decide⟩⟩

theorem witness_JournalAndRestore :
    (∃ (s : State) (r : Fin 64) (c : Fetched), Takes s r.val 0x52 c ∧ s.jrn.writing = none ∧ s.journalHeld = false) ∧
    (∃ (s : State), s.Open ∧ s.jrn.writing = none ∧ s.journalHeld = false) ∧
    (∃ (s : State) (l : List Byte), s.Up ∧ s.jrn.writing = some l ∧ s.jrn.queued = none) ∧
    (∃ (s : State), s.Up ∧ s.glb.digestDue = true) ∧
    (∃ (s : State) (r : Fin 64) (c : Fetched), Takes s r.val 0x53 c ∧ 0x08 ≤ fld (c.w 4) 6 0 ∧ fld (c.w 4) 6 0 ≤ 0x77) ∧
    (∃ (s : State) (r : Fin 64) (c : Fetched), Takes s r.val 0x53 c ∧ (fld (c.w 4) 6 0 < 0x08 ∨ 0x77 < fld (c.w 4) 6 0)) ∧
    (∃ (s : State), s.regs = [] ∧ slotSelect s.jrn = none ∧ s.jrn.copyA = none ∧ s.jrn.copyB = none) ∧
    (∃ (s : State), s.rb 0x2004 9 = true) :=
  ⟨⟨(zc (fc 0x52 [] []) (State.reset) : State), 0, (fc 0x52 [] [] : Fetched), by decide⟩,
   ⟨State.reset, by decide⟩,
   ⟨({ State.reset with jrn := { writing := some [1, 2, 3, 4, 5, 6, 7, 8, 9, 10, 11, 12, 13, 14, 15, 16, 17, 18, 19, 20] } } :
     State), ([1, 2, 3, 4, 5, 6, 7, 8, 9, 10, 11, 12, 13, 14, 15, 16, 17, 18, 19, 20] : List Byte), by decide⟩,
   ⟨({ State.reset with glb := { digestDue := true } } : State), by decide⟩,
   ⟨(zc (fc 0x53 [127, 5, 0x77] []) (State.reset) : State), 0, (fc 0x53 [127, 5, 0x77] [] : Fetched), by decide⟩,
   ⟨(zc (fc 0x53 [127, 5, 7] []) (State.reset) : State), 0, (fc 0x53 [127, 5, 7] [] : Fetched), by decide⟩,
   ⟨State.reset, by decide⟩,
   ⟨(State.reset.setRf 0x2004 9 9 1 : State), by decide⟩⟩

theorem witness_CrankAndCamEdgesMoveTheDomain :
    (∃ (s : State) (t : Nat) (ts : Nat) (d : Fin 2) (lv : Int) (q : State), Before s t d.val q ∧ (q.clk.now < eclkEdge q ts + 40
      * q.rf (A.dom d.val + 4) 23 20 ∨ inputLevel (q.rb (A.dom d.val + 4) 8) (q.dom d.val).crkLevel lv = (q.dom d.val).crkLevel)
      ∧ (eclkEdge q ts + 40 * q.rf (A.dom 1 + 4) 23 20 = 1080)) ∧
    (∃ (s : State) (t : Nat) (ts : Nat) (d : Fin 2) (lv : Int) (q : State), Before s t d.val q ∧ eclkEdge q ts + 40 * q.rf
      (A.dom d.val + 4) 23 20 ≤ q.clk.now ∧ (q.dom d.val).crkLevel = q.rb (A.dom d.val + 4) 5 ∧ inputLevel (q.rb (A.dom d.val +
      4) 8) (q.dom d.val).crkLevel lv = !q.rb (A.dom d.val + 4) 5) ∧
    (∃ (s : State) (t : Nat) (ts : Nat) (f : Nat) (d : Fin 2) (lv : Int) (q : State), Before s t d.val q ∧ q.pwr.entry = 0 ∧
      ActiveEdge q d.val ts lv ∧ (q.dom d.val).fastTs = some f ∧ eclkEdge q ts < f + 1000) ∧
    (∃ (s : State) (t : Nat) (ts : Nat) (d : Fin 2) (lv : Int) (q : State), Before s t d.val q ∧ q.pwr.entry = 0 ∧ ActiveEdge q
      d.val ts lv ∧ (q.dom d.val).fastTs.all (fun f => decide (f + 1000 ≤ eclkEdge q ts)) = true ∧ dirMode q d.val = 2) ∧
    (∃ (s : State) (t : Nat) (d : Fin 2) (mv : Int), s.Up ∧ s.rb (A.dom d.val + 4) 8 = true ∧ decide (mv < 0) = s.rb (A.dom
      d.val + 4) 5 ∧ vArm8 s d.val (if longerThan (s.tick t) (s.dom d.val).lastAny (edgeTo s d.val) then 0 else (s.dom
      d.val).vpkCrank) < 8 * mv.natAbs) ∧
    (∃ (s : State) (t : Nat) (d : Fin 2) (mv : Int), s.Up ∧ s.rb (A.dom d.val + 4) 9 = true ∧ vArm8 s d.val (if longerThan
      (s.tick t) (s.dom d.val).camTs (edgeTo s d.val) then 0 else (s.dom d.val).vpkCam) < 8 * mv.natAbs) ∧
    (∃ (s : State) (t : Nat) (d : Fin 2) (mv : Int), s.Up ∧ s.rb (A.dom d.val + 4) 8 = true ∧ (decide (mv < 0) ≠ s.rb (A.dom
      d.val + 4) 5 ∨ 8 * mv.natAbs ≤ vArm8 s d.val (if longerThan (s.tick t) (s.dom d.val).lastAny (edgeTo s d.val) then 0 else
      (s.dom d.val).vpkCrank))) ∧
    (∃ (s : State) (t : Nat) (ts : Nat) (e : Nat) (d : Fin 2) (lv : Int) (q : State), Before s t d.val q ∧ q.pwr.entry = 0 ∧
      ActiveEdge q d.val ts lv ∧ (q.dom d.val).fastTs.all (fun f => decide (f + 1000 ≤ eclkEdge q ts)) = true ∧ dirMode q d.val
      = 0 ∧ (q.dom d.val).st = .quiet ∧ (q.dom d.val).traj = none ∧ (q.dom d.val).edges ≠ 0 ∧ (q.dom d.val).lastEdge = some e ∧
      eclkEdge q ts - e ≤ edgeTo q d.val ∧ q.rf (A.dom d.val + 8) 11 8 ≤ (q.dom d.val).edges + 1) ∧
    (∃ (s : State) (t : Nat) (ts : Nat) (e : Nat) (d : Fin 2) (lv : Int) (q : State), Before s t d.val q ∧ q.pwr.entry = 0 ∧
      ActiveEdge q d.val ts lv ∧ (q.dom d.val).fastTs.all (fun f => decide (f + 1000 ≤ eclkEdge q ts)) = true ∧ dirMode q d.val
      = 0 ∧ (q.dom d.val).st = .rev ∧ (q.dom d.val).suspect = none ∧ (q.dom d.val).lastEdge = some e ∧ gapFails q d.val
      (stepTooth q d.val (q.dom d.val) (q.dom d.val).pos (q.dom d.val).revn).1 (min (eclkEdge q ts - e) 0xFFFFFFFF) = false ∧
      ((q.dom d.val).pred = 0 ∨ plausible q d.val (min (eclkEdge q ts - e) 0xFFFFFFFF) (q.dom d.val).pred = true)) ∧
    (∃ (s : State) (t : Nat) (ts : Nat) (e : Nat) (d : Fin 2) (lv : Int) (q : State), Before s t d.val q ∧ q.pwr.entry = 0 ∧
      ActiveEdge q d.val ts lv ∧ (q.dom d.val).fastTs.all (fun f => decide (f + 1000 ≤ eclkEdge q ts)) = true ∧ dirMode q d.val
      = 0 ∧ (q.dom d.val).st = .rev ∧ (q.dom d.val).suspect = none ∧ (q.dom d.val).lastEdge = some e ∧ gapFails q d.val
      (stepTooth q d.val (q.dom d.val) (q.dom d.val).pos (q.dom d.val).revn).1 (min (eclkEdge q ts - e) 0xFFFFFFFF) = false ∧
      (q.dom d.val).pred ≠ 0 ∧ plausible q d.val (min (eclkEdge q ts - e) 0xFFFFFFFF) (q.dom d.val).pred = false) ∧
    (∃ (s : State) (t : Nat) (ts : Nat) (d : Fin 2) (lv : Int) (dir : Option Bool) (q : State), Before s t d.val q ∧ q.pwr.entry
      = 0 ∧ ActiveEdge q d.val ts lv ∧ (q.dom d.val).fastTs.all (fun f => decide (f + 1000 ≤ eclkEdge q ts)) = true ∧ dirMode q
      d.val = 1 ∧ (dir.map (fun v => v == q.rb (A.dom d.val) 4)).getD (q.dom d.val).lastFwd = false ∧ ((q.dom d.val).st = .rev ∨
      (q.dom d.val).st = .cycle)) ∧
    (∃ (s : State) (t : Nat) (ts : Nat) (p : Nat) (d : Fin 2) (rest : List Nat) (q : State), Before s t d.val q ∧ (q.dom
      d.val).pulses = p :: rest ∧ eclkEdge q ts + 40 * q.rf (A.dom d.val + 4) 23 20 ≤ q.clk.now ∧ p ≤ eclkEdge q ts ∧ eclkEdge q
      ts < p + 400 * q.rf (A.dom d.val + 4) 31 24) ∧
    (∃ (s : State) (t : Nat) (ts : Nat) (p : Nat) (d : Fin 2) (rest : List Nat) (q : State), Before s t d.val q ∧ (q.dom
      d.val).pulses = p :: rest ∧ eclkEdge q ts + 40 * q.rf (A.dom d.val + 4) 23 20 ≤ q.clk.now ∧ p + 400 * q.rf (A.dom d.val +
      4) 31 24 ≤ eclkEdge q ts) ∧
    (∃ (s : State) (t : Nat) (ts : Nat) (d : Fin 2) (q : State), Before s t d.val q ∧ q.clk.now < eclkEdge q ts + 40 * q.rf
      (A.dom d.val + 4) 23 20) ∧
    (∃ (s : State) (t : Nat) (p : Nat) (d : Fin 2) (rest : List Nat) (q : State), Before s t d.val q ∧ (q.dom d.val).pulses = p
      :: rest ∧ p + 400 * q.rf (A.dom d.val + 4) 31 24 + 40 * q.rf (A.dom d.val + 4) 23 20 ≤ q.clk.now) ∧
    (∃ (s : State) (t : Nat) (ts : Nat) (d : Fin 2) (lv : Int) (q : State), Before s t d.val q ∧ domEn q d.val = true ∧ (q.rb
      (A.dom d.val + 4) 9 = false ∨ (q.dom d.val).armCam = true) ∧ eclkEdge q ts + 40 * q.rf (A.dom d.val + 4) 19 16 ≤ q.clk.now
      ∧ inputLevel (q.rb (A.dom d.val + 4) 9) (q.dom d.val).camLevel lv = !(q.dom d.val).camLevel ∧ (q.dom d.val).camHeld = [] ∧
      (eclkEdge q ts ∈ (q.dom d.val).pulses ∨ q.clk.now ≤ eclkEdge q ts + 40 * q.rf (A.dom d.val + 4) 23 20)) ∧
    (∃ (s : State) (t : Nat) (ts : Nat) (d : Fin 2) (lv : Int) (q : State), Before s t d.val q ∧ domEn q d.val = true ∧ (q.rb
      (A.dom d.val + 4) 9 = false ∨ (q.dom d.val).armCam = true) ∧ eclkEdge q ts + 40 * q.rf (A.dom d.val + 4) 19 16 ≤ q.clk.now
      ∧ inputLevel (q.rb (A.dom d.val + 4) 9) (q.dom d.val).camLevel lv = !(q.dom d.val).camLevel ∧ (q.dom d.val).camHeld = [] ∧
      (eclkEdge q ts ∈ (q.dom d.val).pulses ∨ q.clk.now ≤ eclkEdge q ts + 40 * q.rf (A.dom d.val + 4) 23 20)) ∧
    (∃ (s : State) (t : Nat) (ts : Nat) (i : Nat) (d : Fin 2) (lv : Int) (y : Traj) (q : State), Before s t d.val q ∧ domEn q
      d.val = true ∧ (q.rb (A.dom d.val + 4) 9 = false ∨ (q.dom d.val).armCam = true) ∧ eclkEdge q ts + 40 * q.rf (A.dom d.val +
      4) 19 16 ≤ q.clk.now ∧ inputLevel (q.rb (A.dom d.val + 4) 9) (q.dom d.val).camLevel lv = !(q.dom d.val).camLevel ∧ (q.dom
      d.val).camHeld = [] ∧ eclkEdge q ts ∉ (q.dom d.val).pulses ∧ eclkEdge q ts + 40 * q.rf (A.dom d.val + 4) 23 20 < q.clk.now
      ∧ (q.dom d.val).st = .rev ∧ (q.dom d.val).traj = some y ∧ camMatches q d.val (trackL q d.val (q.dom d.val)) (angleAtTs q
      d.val (eclkEdge q ts)) (!(q.dom d.val).camLevel) = [i] ∧ (q.rf (A.dom d.val + 8) 15 12 ≤ (if (q.dom d.val).camRun ≠ 0 ∧
      (q.dom d.val).camRev = camAng q d.val i / 0x01680000 then (q.dom d.val).camRun + 1 else 1))) :=
  ⟨⟨(State.reset.setRf (A.dom 1) 0 0 1 : State), 1079, 1000, 1, 20000, (anglesTo ((State.reset.setRf (A.dom 1) 0 0 1).tick 1079)
     1 : State), ⟨by decide, rfl⟩, by decide, by decide⟩,
   ⟨(State.reset.setRf (A.dom 1) 0 0 1 : State), 1000, 920, 1, 16001, (anglesTo ((State.reset.setRf (A.dom 1) 0 0 1).tick 1000)
     1 : State), ⟨by decide, rfl⟩, by decide, by decide, by decide⟩,
   ⟨((State.reset.setRf (A.dom 1) 0 0 1).setDom 1 { fastTs := some 4, crkLevel := true } : State), 2000, 1000, 4, 1, 0,
     (anglesTo (((State.reset.setRf (A.dom 1) 0 0 1).setDom 1 { fastTs := some 4, crkLevel := true }).tick 2000) 1 : State), ⟨by
     decide, rfl⟩, by decide, by decide, by decide, by decide⟩,
   ⟨((State.reset.setRf (A.dom 1) 6 0 65).setDom 1 { fastTs := some 4, crkLevel := true } : State), 2000, 1004, 1, 0, (anglesTo
     (((State.reset.setRf (A.dom 1) 6 0 65).setDom 1 { fastTs := some 4, crkLevel := true }).tick 2000) 1 : State), ⟨by
     decide, rfl⟩, by decide, by decide, by decide, by decide⟩,
   ⟨(State.reset.setRf (A.dom 0 + 4) 8 8 1 : State), 1000, 0, 101, by decide⟩,
   ⟨(State.reset.setRf (A.dom 1 + 4) 9 9 1 : State), 1000, 1, (-101 : Int), by decide⟩,
   ⟨(State.reset.setRf (A.dom 0 + 4) 8 8 1 : State), 1000, 0, 100, by decide⟩,
   ⟨((State.reset.setRf (A.dom 1) 0 0 1).setDom 1 { edges := 2, lastEdge := some 4, crkLevel := true } : State), 80001000,
     80000004, 4, 1, 0, (anglesTo (((State.reset.setRf (A.dom 1) 0 0 1).setDom 1
     { edges := 2, lastEdge := some 4, crkLevel := true }).tick (80001000)) 1 : State), ⟨by decide, rfl⟩, by
     decide, by decide, by decide, by decide, by decide, by decide, by
     decide, by decide, by decide, by decide⟩,
   ⟨((State.reset.setRf (A.dom 0) 0 0 1).setDom 0 { st := .rev, lastEdge := some 4, crkLevel := true } : State), 200000, 100000,
     4, 0, 0, (anglesTo (((State.reset.setRf (A.dom 0) 0 0 1).setDom 0
     { st := .rev, lastEdge := some 4, crkLevel := true }).tick (200000)) 0 : State), ⟨by decide, rfl⟩, by
     decide, by decide, by decide, by decide, by decide, by decide, by
     decide, by decide, by decide⟩,
   ⟨((State.reset.setRf (A.dom 0) 0 0 1).setDom 0 { st := .rev, lastEdge := some 3, pred := 100, crkLevel := true } : State),
     200000, 100000, 3, 0, 0, (anglesTo (((State.reset.setRf (A.dom 0) 0 0 1).setDom 0
     { st := .rev, lastEdge := some 3, pred := 100, crkLevel := true }).tick (200000)) 0 : State), ⟨by decide, rfl⟩, by
     decide, by decide, by decide, by decide, by decide, by decide, by
     decide, by decide, by decide, by decide⟩,
   ⟨((State.reset.setRf (A.dom 1) 6 0 33).setDom 1 { st := .cycle, crkLevel := true, lastFwd := false } : State), 1000, 4, 1, 0,
     none, (anglesTo (((State.reset.setRf (A.dom 1) 6 0 33).setDom 1 { st := .cycle, crkLevel := true, lastFwd := false }).tick
     (1000)) 1 : State), ⟨by decide, rfl⟩, by decide, by decide, by decide, by decide,
     by decide, by decide⟩,
   ⟨(State.reset.setDom 0 { pulses := [8] } : State), 30000, 27204, 8, 0, [], (anglesTo ((State.reset.setDom 0
     { pulses := [8] }).tick (30000)) 0 : State), ⟨by decide, rfl⟩, by decide, by decide, by
     decide, by decide⟩,
   ⟨(State.reset.setDom 0 { pulses := [8] } : State), 30000, 27208, 8, 0, [], (anglesTo ((State.reset.setDom 0
     { pulses := [8] }).tick (30000)) 0 : State), ⟨by decide, rfl⟩, by decide, by decide, by
     decide⟩,
   ⟨(State.reset.setDom 0 { pulses := [8] } : State), 27204, 27204, 0, (anglesTo ((State.reset.setDom 0 { pulses := [8] }).tick
     (27204)) 0 : State), ⟨by decide, rfl⟩, by decide⟩,
   ⟨(State.reset.setDom 0 { pulses := [7] } : State), 27287, 7, 0, [], (anglesTo ((State.reset.setDom 0 { pulses := [7] }).tick
     (27287)) 0 : State), ⟨by decide, rfl⟩, by decide, by decide⟩,
   ⟨((State.reset.setRf (A.dom 1) 0 0 1).setDom 1 { pulses := [4] } : State), 1000, 5, 1, 20000, (anglesTo (((State.reset.setRf
     (A.dom 1) 0 0 1).setDom 1 { pulses := [4] }).tick (1000)) 1 : State), ⟨by decide, rfl⟩, by decide, by
     decide, by decide, by decide, by decide, by decide⟩,
   ⟨((State.reset.setRf (A.dom 1) 0 0 1).setRf (A.dom 1 + 4) 23 20 15 : State), 1000, 700, 1, 20000, (anglesTo
     (((State.reset.setRf (A.dom 1) 0 0 1).setRf (A.dom 1 + 4) 23 20 15).tick (1000)) 1 : State), ⟨by decide, rfl⟩, by
     decide, by decide, by decide, by decide, by decide, by decide⟩,
   ⟨(((State.reset.setRf (A.dom 0) 0 0 1).setRf (A.dom 0 + 0x10) 6 0 1).setDom 0
     { st := .rev, camLevel := true, traj := some { ang := 0, ts := 0, span := 1, inc := 0 } } : State), 1000, 4, 0, 0, 0,
     ({ ang := 0, ts := 0, span := 1, inc := 0 } : Traj), (anglesTo ((((State.reset.setRf (A.dom 0) 0 0 1).setRf (A.dom 0 +
     0x10) 6 0 1).setDom 0 { st := .rev, camLevel := true, traj := some { ang := 0, ts := 0, span := 1, inc := 0 } }).tick
     (1000)) 0 : State), ⟨by decide, rfl⟩, by decide, by decide, by decide, by decide,
     by decide, by decide, by decide, by decide, by decide, by decide, by
     decide⟩⟩

theorem witness_DomainsTimeOutResyncAndEnable :
    (∃ (s : State) (t : Nat) (e : Nat) (d : Fin 2) (raw : Option Nat), s.Up ∧ (s.dom d.val).lastAny = some e ∧ e + edgeTo s
      d.val ≤ max s.clk.now t ∧ NoEdgeBy s t d.val (e + edgeTo s d.val) raw ∧ ((s.dom d.val).prov = false ∨ (s.dom
      d.val).lastEdge ≠ none) ∧ ((s.dom d.val).st = .tooth ∨ (s.dom d.val).st = .reverse ∨ ((s.dom d.val).st = .lost ∧ s.rb
      (A.dom d.val) 7 = false))) ∧
    (∃ (s : State) (t : Nat) (e : Nat) (d : Fin 2) (raw : Option Nat) (q : State), Before s t d.val q ∧ (q.dom d.val).lastEdge =
      some e ∧ e + stallTime q d.val ≤ q.clk.now ∧ NoEdgeBy q t d.val (e + stallTime q d.val) raw ∧ ((q.dom d.val).st = .rev ∨
      (q.dom d.val).st = .cycle)) ∧
    (∃ (s : State) (t : Nat) (p : Nat) (d : Fin 2) (q : State), Before s t d.val q ∧ p ∈ (q.dom d.val).pulses ∧ (q.dom
      d.val).camHeld = [] ∧ (∀ e, (q.dom d.val).lastEdge = some e → p ≤ e + stallTime q d.val)) ∧
    (∃ (s : State), s.Open) ∧
    (∃ (s : State) (d : Fin 2), s.Open ∧ domEn s d.val = false) ∧
    (∃ (s : State), s.Open ∧ domEn s 2 = false) ∧
    (∃ (s : State) (d : Fin 4), s.Open ∧ domEn s d.val = true) ∧
    (∃ (s : State) (d : Fin 2), s.Open ∧ domEn s d.val = true ∧ (s.dom d.val).st = .quiet) :=
  ⟨⟨(State.reset.setDom 1 { st := .tooth, lastAny := some 3, pulses := [80000004] } : State), 80000003, 3, 1, (some 80000004 :
     Option Nat), by decide⟩,
   ⟨(State.reset.setDom 1 { st := .cycle, lastEdge := some 3 } : State), 400003, 3, 1, none, (anglesTo ((State.reset.setDom 1
     { st := .cycle, lastEdge := some 3 }).tick (400003)) 1 : State), ⟨by decide, rfl⟩, by decide, by
     decide, by decide, by decide⟩,
   ⟨(State.reset.setDom 1 { st := .cycle, lastEdge := some 3, pulses := [400003] } : State), 500000, 400003, 1, (anglesTo
     ((State.reset.setDom 1 { st := .cycle, lastEdge := some 3, pulses := [400003] }).tick (500000)) 1 : State), ⟨by
     decide, rfl⟩, by decide, by decide, by decide⟩,
   ⟨State.reset, by decide⟩,
   ⟨State.reset, 1, by decide⟩,
   ⟨State.reset, by decide⟩,
   ⟨(State.reset.setRf (A.dom 3) 0 0 1 : State), 3, by decide⟩,
   ⟨(State.reset.setRf (A.dom 1) 0 0 1 : State), 1, by decide⟩⟩

theorem witness_ToothTablesContributionsAndAngle :
    (∃ (s : State) (o : Nat) (d : Fin 2), s.Open ∧ domEn s d.val = false ∧ o < 0x900 ∧ o % 4 = 0) ∧
    (∃ (s : State) (o : Nat) (d : Fin 2), s.Open ∧ domEn s d.val = true ∧ o < 0x900 ∧ o % 4 = 0) ∧
    (∃ (s : State) (d : Fin 2), s.Open ∧ s.rb (A.dom d.val + 0x70) 1 = false) ∧
    (∃ (s : State) (d : Fin 2), s.Open ∧ s.rb (A.dom d.val + 0x70) 0 = false ∧ ((s.dom d.val).learning = true ∨ (s.dom
      d.val).learnWait = true)) ∧
    (∃ (s : State) (d : Fin 2) (l : List CTooth) (whole : Bool), s.Up ∧ (s.dom d.val).cycDone = some (l, whole) ∧ (whole = false
      ∨ (s.dom d.val).cfgErr = true ∨ ncyl s d.val = 0)) ∧
    (∃ (s : State) (c : Nat) (d : Fin 2) (l : List CTooth), s.Up ∧ (s.dom d.val).cycDone = some (l, true) ∧ (s.dom d.val).cfgErr
      = false ∧ c < ncyl s d.val) ∧
    (∃ (s : State) (t : Nat) (d : Fin 4) (y : Traj) (q : State), Before s t d.val q ∧ d.val < 2 ∧ (q.dom d.val).camHeld = [] ∧
      (q.dom d.val).traj = some y) ∧
    (∃ (s : State) (t : Nat) (z : Nat) (d : Fin 4) (q : State), Before s t d.val q ∧ 2 ≤ d.val ∧ onLink q d.val = false ∧ (q.el
      d.val).st = .cycle ∧ (q.el d.val).zc = some z) ∧
    (∃ (s : State) (t : Nat) (d : Fin 4) (q : State), Before s t d.val q ∧ (d.val < 2 → (q.dom d.val).camHeld = [] ∧ (q.dom
      d.val).traj = none) ∧ (2 ≤ d.val → onLink q d.val = false ∧ (q.el d.val).st ≠ .cycle)) :=
  ⟨⟨State.reset, 0x8FC, 1, by decide⟩,
   ⟨(State.reset.setRf (A.dom 1) 0 0 1 : State), 0x8FC, 1, by decide⟩,
   ⟨State.reset, 1, by decide⟩,
   ⟨(State.reset.setDom 1 { learning := true } : State), 1, by decide⟩,
   ⟨(State.reset.setDom 1 { cycDone := some ([], false) } : State), 1, [], false, by decide⟩,
   ⟨((State.reset.setRf (A.dom 1 + 0x78) 4 0 1).setDom 1 { cycDone := some ([], true) } : State), 0, 1, [], by decide⟩,
   ⟨(State.reset.setDom 1 { traj := some { ang := 5, ts := 0, span := 0x3C0000, inc := 1000000 } } : State), 1000, 1,
     ({ ang := 5, ts := 0, span := 0x3C0000, inc := 1000000 } : Traj), (anglesTo ((State.reset.setDom 1
     { traj := some { ang := 5, ts := 0, span := 0x3C0000, inc := 1000000 } }).tick (1000)) 1 : State), ⟨by decide,
     rfl⟩, by decide, by decide, by decide⟩,
   ⟨(State.reset.setEl 3 { st := .cycle, zc := some 5, inc := 300000 } : State), 1000, 5, 3, (anglesTo ((State.reset.setEl 3
     { st := .cycle, zc := some 5, inc := 300000 }).tick (1000)) 3 : State), ⟨by decide, rfl⟩, by decide, by
     decide, by decide, by decide⟩,
   ⟨State.reset, 1000, 2, (anglesTo ((State.reset).tick (1000)) 2 : State), ⟨by decide, rfl⟩, by decide, by
     decide⟩⟩

theorem witness_ElectricalDomainsFollowTheirCrossings :
    (∃ (s : State) (t : Nat) (z : Nat) (e : Nat) (d : Fin 2) (rf : Bool) (q : State), Before s t (2 + d.val) q ∧ (q.win (96 +
      d.val)).crossing = true ∧ domEn q (2 + d.val) = true ∧ onLink q (2 + d.val) = false ∧ crossingTick q (2 + d.val) (q.win
      (96 + d.val)).crossAt = some (z, rf) ∧ (q.el (2 + d.val)).zc = some e) ∧
    (∃ (s : State) (t : Nat) (z : Nat) (d : Fin 2) (rf : Bool) (q : State), Before s t (2 + d.val) q ∧ (q.win (96 +
      d.val)).crossing = true ∧ domEn q (2 + d.val) = true ∧ onLink q (2 + d.val) = false ∧ crossingTick q (2 + d.val) (q.win
      (96 + d.val)).crossAt = some (z, rf) ∧ ((q.el (2 + d.val)).st = .quiet ∨ (q.el (2 + d.val)).st = .stall ∨ (q.el (2 +
      d.val)).st = .lost)) ∧
    (∃ (s : State) (t : Nat) (z : Nat) (d : Fin 2) (q : State), Before s t (2 + d.val) q ∧ onLink q (2 + d.val) = false ∧ (q.el
      (2 + d.val)).st = .cycle ∧ (q.el (2 + d.val)).zc = some z ∧ z + max (2 * (q.el (2 + d.val)).period) 400000 ≤ q.clk.now ∧
      (q.win (96 + d.val)).crossing = false) ∧
    (∃ (s : State) (t : Nat) (z : Nat) (d : Fin 2), s.Up ∧ onLink s (2 + d.val) = false ∧ ((s.el (2 + d.val)).st = .tooth ∨
      (s.el (2 + d.val)).st = .stall ∨ (s.el (2 + d.val)).st = .lost) ∧ (s.el (2 + d.val)).zc = some z ∧ 1200000000 ≤ (max
      s.clk.now t - z) * s.rf (A.dom (2 + d.val) + 4) 7 0 ∧ (s.win (96 + d.val)).crossing = false) :=
  ⟨⟨(((State.reset.setRf (A.dom 2) 0 0 1).setWin 96 { crossing := true, crossAt := 900 }).setEl 2
     { st := .tooth, zc := some 10 } : State), 1000, 900, 10, 0, false, (anglesTo ((((State.reset.setRf (A.dom 2) 0 0 1).setWin
     96 { crossing := true, crossAt := 900 }).setEl 2 { st := .tooth, zc := some 10 }).tick (1000)) 2 : State), ⟨by
     decide, rfl⟩, by decide, by decide, by decide, by decide, by decide⟩,
   ⟨(((State.reset.setRf (A.dom 3) 0 0 1).setWin 97 { crossing := true, crossAt := 900 }).setEl 3 { st := .lost } : State),
     1000, 900, 1, false, (anglesTo ((((State.reset.setRf (A.dom 3) 0 0 1).setWin 97 { crossing := true, crossAt := 900 }).setEl
     3 { st := .lost }).tick (1000)) 3 : State), ⟨by decide, rfl⟩, by decide, by decide, by
     decide, by decide, by decide⟩,
   ⟨(State.reset.setEl 3 { st := .cycle, zc := some 5 } : State), 400005, 5, 1, (anglesTo ((State.reset.setEl 3
     { st := .cycle, zc := some 5 }).tick (400005)) 3 : State), ⟨by decide, rfl⟩, by decide, by decide,
     by decide, by decide, by decide⟩,
   ⟨(State.reset.setEl 3 { st := .lost, zc := some 5 } : State), 30000005, 5, 1, by decide⟩⟩

theorem witness_SlotsAreSetCancelledAndTabled :
    (∃ (s : State) (t : Nat) (r : Fin 64) (c : Fetched) (q : State), Before s t 4 q ∧ Takes q r.val 0x10 c ∧ setStatus q (fld
      (c.w 2) 12 10) ((List.range 7).map (fun i => c.w (3 + i))) = 0 ∧ wbit (c.w 2) 13 = false) ∧
    (∃ (s : State) (t : Nat) (r : Fin 64) (c : Fetched) (q : State), Before s t 4 q ∧ Takes q r.val 0x10 c ∧ setStatus q (fld
      (c.w 2) 12 10) ((List.range 7).map (fun i => c.w (3 + i))) = 0 ∧ wbit (c.w 2) 13 = true ∧ immediateOk q ((q.unit (cmdUnit
      q c)).slot (cmdSlot c)) = true) ∧
    (∃ (s : State) (t : Nat) (r : Fin 64) (c : Fetched) (q : State), Before s t 4 q ∧ Takes q r.val 0x10 c ∧ setStatus q (fld
      (c.w 2) 12 10) ((List.range 7).map (fun i => c.w (3 + i))) ≠ 0) ∧
    (∃ (s : State) (t : Nat) (r : Fin 64) (c : Fetched) (q : State), Before s t 4 q ∧ Takes q r.val 0x11 c ∧ ((q.unit (cmdUnit q
      c)).slot (cmdSlot c)).shadow ≠ none) ∧
    (∃ (s : State) (t : Nat) (r : Fin 64) (c : Fetched) (q : State), Before s t 4 q ∧ Takes q r.val 0x11 c ∧ ((q.unit (cmdUnit q
      c)).slot (cmdSlot c)).shadow = none) ∧
    (∃ (s : State) (t : Nat) (r : Fin 64) (c : Fetched) (q : State), Before s t 4 q ∧ Takes q r.val 0x12 c) ∧
    (∃ (s : State) (t : Nat) (r : Fin 64) (c : Fetched) (q : State), Before s t 4 q ∧ Takes q r.val 0x12 c ∧ wbit (c.w 2) 14 =
      false ∧ ((q.unit (cmdUnit q c)).slot (cmdSlot c)).st = .wait) ∧
    (∃ (s : State) (t : Nat) (r : Fin 64) (c : Fetched) (q : State), Before s t 4 q ∧ Takes q r.val 0x13 c) ∧
    (∃ (s : State) (t : Nat) (r : Fin 64) (c : Fetched) (q : State), Before s t 4 q ∧ Takes q r.val 0x14 c) ∧
    (∃ (s : State) (n : Nat) (k : Nat) (i : Nat) (v : BitVec 64), s.Open ∧ n < 4 ∧ k < 1024 ∧ i < 7 ∧ slotRefuses s n ((s.unit
      (roleUnit s n)).slot k) [(i, lo32 v.toNat)] = false) ∧
    (∃ (s : State) (n : Nat) (k : Nat) (i : Nat) (v : BitVec 64), s.Open ∧ n < 4 ∧ k < 1024 ∧ i < 8 ∧ slotRefuses s n ((s.unit
      (roleUnit s n)).slot k) [(i, lo32 v.toNat)] = true) ∧
    (∃ (s : State) (t : Nat) (u : Fin 5) (q : Queued), s.Up ∧ unitRuns s u.val = true ∧ (s.unit u.val).queue = [q] ∧ (s.unit
      u.val).freeUnits (max s.clk.now t) ≠ 0 ∧ endPassed s q.set (fdist (domL s (slSdom q.set)) (slStart q.set) (s.angleWord
      (slSdom q.set))) = false) ∧
    (∃ (s : State) (t : Nat) (u : Fin 5) (q : Queued), s.Up ∧ unitRuns s u.val = true ∧ (s.unit u.val).queue = [q] ∧ (s.unit
      u.val).freeUnits (max s.clk.now t) ≠ 0 ∧ endPassed s q.set (fdist (domL s (slSdom q.set)) (slStart q.set) (s.angleWord
      (slSdom q.set))) = true) :=
  ⟨⟨(zc (fc 0x10 [1023, 0x80000000, 0x10000, 0, 0, 400, 1, 0] []) (State.reset) : State), 1000, 0, (fc 0x10 [1023, 0x80000000,
     0x10000, 0, 0, 400, 1, 0] [] : Fetched), (anglesTo ((zc (fc 0x10 [1023, 0x80000000, 0x10000, 0, 0, 400, 1, 0] [])
     (State.reset)).tick (1000)) (4) : State), ⟨by decide, rfl⟩, by decide, by decide, by
     decide⟩,
   ⟨(zc (fc 0x10 [0x2000 + 1023, 0x80000000, 0x10000, 0, 0, 400, 1, 0] []) (State.reset) : State), 1000, 0, (fc 0x10 [0x2000 +
     1023, 0x80000000, 0x10000, 0, 0, 400, 1, 0] [] : Fetched), (anglesTo ((zc (fc 0x10 [0x2000 + 1023, 0x80000000, 0x10000, 0,
     0, 400, 1, 0] []) (State.reset)).tick (1000)) (4) : State), ⟨by decide, rfl⟩, by decide, by decide,
     by decide, by decide⟩,
   ⟨(zc (fc 0x10 [0, 0x80000000, 0xFFFFFFFF] []) (State.reset) : State), 1000, 0, (fc 0x10 [0, 0x80000000, 0xFFFFFFFF] [] :
     Fetched), (anglesTo ((zc (fc 0x10 [0, 0x80000000, 0xFFFFFFFF] []) (State.reset)).tick (1000)) (4) : State), ⟨by
     decide, rfl⟩, by decide, by decide⟩,
   ⟨(zc (fc 0x11 [] []) (State.reset.setUnit 0 (noUnit 0 |>.setSlot 0 { shadow := some [0, 1] })) : State), 1000, 0, (fc 0x11 []
     [] : Fetched), (anglesTo ((zc (fc 0x11 [] []) (State.reset.setUnit 0 (noUnit 0 |>.setSlot 0
     { shadow := some [0, 1] }))).tick (1000)) (4) : State), ⟨by decide, rfl⟩, by decide, by decide⟩,
   ⟨(zc (fc 0x11 [] []) (State.reset) : State), 1000, 0, (fc 0x11 [] [] : Fetched), (anglesTo ((zc (fc 0x11 [] [])
     (State.reset)).tick (1000)) (4) : State), ⟨by decide, rfl⟩, by decide, by decide⟩,
   ⟨(zc (fc 0x12 [0xC00 + 0x4000 + 1023] []) (State.reset.setUnit 3 (noUnit 0 |>.setSlot 1023 { st := .armed })) : State), 1000,
     0, (fc 0x12 [0xC00 + 0x4000 + 1023] [] : Fetched), (anglesTo ((zc (fc 0x12 [0xC00 + 0x4000 + 1023] []) (State.reset.setUnit
     3 (noUnit 0 |>.setSlot 1023 { st := .armed }))).tick (1000)) (4) : State), ⟨by decide, rfl⟩, by decide⟩,
   ⟨(zc (fc 0x12 [0xC00 + 1023] []) (State.reset.setUnit 3 (noUnit 0 |>.setSlot 1023 { st := .wait })) : State), 1000, 0, (fc
     0x12 [0xC00 + 1023] [] : Fetched), (anglesTo ((zc (fc 0x12 [0xC00 + 1023] []) (State.reset.setUnit 3 (noUnit 0 |>.setSlot
     1023 { st := .wait }))).tick (1000)) (4) : State), ⟨by decide, rfl⟩, by decide, by decide, by
     decide⟩,
   ⟨(zc (fc 0x13 [] []) (State.reset.setUnit 0 (noUnit 0 |>.setSlot 5 { st := .armed })) : State), 1000, 0, (fc 0x13 [] [] :
     Fetched), (anglesTo ((zc (fc 0x13 [] []) (State.reset.setUnit 0 (noUnit 0 |>.setSlot 5 { st := .armed }))).tick (1000)) (4)
     : State), ⟨by decide, rfl⟩, by decide⟩,
   ⟨(zc (fc 0x14 [0xC00 + 1023] []) (State.reset) : State), 1000, 0, (fc 0x14 [0xC00 + 1023] [] : Fetched), (anglesTo ((zc (fc
     0x14 [0xC00 + 1023] []) (State.reset)).tick (1000)) (4) : State), ⟨by decide, rfl⟩, by decide⟩,
   ⟨State.reset, 3, 1023, 5, 1, by decide⟩,
   ⟨State.reset, 3, 1023, 7, 1, by decide⟩,
   ⟨(({ State.reset with glb := { safeHold := false } } : State).setUnit 3
     { queue := [{ slot := 1023, start := 5, reason := 1, set := [], occ := 3 }] } : State), 1000, 3,
     ({ slot := 1023, start := 5, reason := 1, set := [], occ := 3 } : Queued), by decide⟩,
   ⟨(({ State.reset with glb := { safeHold := false } } : State).setUnit 0
     { queue := [{ slot := 1023, start := 5, reason := 1, set := [0x20000000], occ := 3 }] } : State), 1000, 0,
     ({ slot := 1023, start := 5, reason := 1, set := [0x20000000], occ := 3 } : Queued), by decide⟩⟩

theorem witness_NoEventInSafeHoldOrOnFio :
    (∃ (s : State) (u : State) (t : Nat) (d : Fin 4), s.glb.safeHold = true ∧ (∀ e, (s.dom e).camHeld = []) ∧ exec (.angleUpdate
      t d) s = .next u) ∧
    (∃ (s : State), s.clk.pll = false) :=
  ⟨⟨State.reset, (nxs (exec (.angleUpdate 1000 0) (State.reset)) : State), 1000, 0, by decide, fun _ => rfl, rfl⟩,
   ⟨State.reset, by decide⟩⟩

theorem witness_WindowsPresentTheirCrossings :
    (∃ (s : State) (t : Nat) (w : Fin 98) (uv : Int × Int) (e : Bool × Bool), s.Up ∧ 80 ≤ w.val ∧ s.rb (A.win w.val) 0 = true ∧
      (s.win w.val).out ≠ 0 ∧ e = winJudge (s.tick t) w.val uv ∧ (s.win w.val).blanking (max s.clk.now t) = false ∧ winRaw e.1
      e.2 ≠ (s.win w.val).out) ∧
    (∃ (s : State) (t : Nat) (w : Fin 98), s.Up ∧ 80 ≤ w.val ∧ s.rb (A.win w.val) 0 = true ∧ (s.win w.val).out ≠ 0 ∧ (s.win
      w.val).blanking (max s.clk.now t) = true) ∧
    (∃ (s : State) (t : Nat) (w : Fin 98) (e : Bool × Bool), s.Up ∧ 80 ≤ w.val ∧ s.rb (A.win w.val) 0 = true ∧ (s.win w.val).out
      ≠ 0 ∧ e = winJudge (s.tick t) w.val (s.win w.val).uv ∧ (s.win w.val).blanking (max s.clk.now t) = false) ∧
    (∃ (s : State) (t : Nat) (w : Fin 98) (uv : Int × Int) (e : Bool × Bool), s.Up ∧ 80 ≤ w.val ∧ s.rb (A.win w.val) 0 = true ∧
      (s.win w.val).out = 0 ∧ (s.win w.val).undecAt + 800 ≤ max s.clk.now t ∧ e = winFirst (s.tick t) w.val uv) ∧
    (∃ (s : State) (w : Fin 98), s.Open ∧ 80 ≤ w.val ∧ s.rb (A.win w.val) 0 = false) ∧
    (∃ (s : State) (w : Fin 98), s.Open ∧ 80 ≤ w.val) :=
  ⟨⟨((State.reset.setRf (A.win 80) 0 0 1).setWin 80 { out := 1, blankFrom := 0, blankUntil := 1000 } : State), 1000, 80,
     ((2500000, 2500000) : Int × Int), (winJudge (((State.reset.setRf (A.win 80) 0 0 1).setWin 80
     { out := 1, blankFrom := 0, blankUntil := 1000 }).tick (1000)) 80 (2500000, 2500000) : Bool × Bool), by decide⟩,
   ⟨((State.reset.setRf (A.win 97) 0 0 1).setWin 97 { out := 1, blankFrom := 1000, blankUntil := 1001 } : State), 1000, 97, by
     decide⟩,
   ⟨((State.reset.setRf (A.win 80) 0 0 1).setWin 80 { out := 1, lo := true, hi := true, uv := (2500000, 2500000) } : State),
     1000, 80, (winJudge (((State.reset.setRf (A.win 80) 0 0 1).setWin 80
     { out := 1, lo := true, hi := true, uv := (2500000, 2500000) }).tick (1000)) 80 (((State.reset.setRf (A.win 80) 0 0
     1).setWin 80 { out := 1, lo := true, hi := true, uv := (2500000, 2500000) }).win 80).uv : Bool × Bool), by decide⟩,
   ⟨((State.reset.setRf (A.win 80) 0 0 1).setWin 80 { undecAt := 200 } : State), 1000, 80, ((5, 5) : Int × Int), (winFirst
     (((State.reset.setRf (A.win 80) 0 0 1).setWin 80 { undecAt := 200 }).tick (1000)) 80 (5, 5) : Bool × Bool), by
     decide⟩,
   ⟨State.reset, 97, by decide⟩,
   ⟨State.reset, 97, by decide⟩⟩

theorem witness_ChannelsFollowTheirProfiles :
    (∃ (s : State) (t : Nat) (c : Fin 64) (x : Shot) (uv : Int × Int) (e : Bool × Bool), s.Up ∧ s.shot c.val = some x ∧ 2 ≤
      x.kind ∧ x.kind ≤ 4 ∧ phDecay x.entry ≠ 2 ∧ (s.win c.val).out ≠ 0 ∧ (s.win c.val).blanking (max s.clk.now t) = false ∧ e =
      winJudge (s.tick t) c.val uv) ∧
    (∃ (s : State) (t : Nat) (c : Fin 64) (x : Shot), s.Up ∧ s.shot c.val = some x ∧ phExit x.entry ≠ 2 ∧ phDur x.entry ≠ 0 ∧
      x.phaseAt + phTicks x.entry ≤ max s.clk.now t ∧ x.phase ≠ x.endPh ∧ x.phase + 1 ≠ pfNph x.words ∧ (¬ (x.phase = 0 ∧ x.kind
      = 1))) ∧
    (∃ (s : State) (t : Nat) (c : Fin 64) (x : Shot), s.Up ∧ s.shot c.val = some x ∧ phExit x.entry = 1 ∧ phDur x.entry ≠ 0 ∧
      x.phaseAt + phTicks x.entry ≤ max s.clk.now t ∧ x.phase = x.endPh) ∧
    (∃ (s : State) (t : Nat) (c : Fin 64) (x : Shot), s.Up ∧ s.shot c.val = some x ∧ x.capAt ≤ max s.clk.now t ∧ x.phase ≠
      x.endPh) ∧
    (∃ (s : State) (t : Nat) (c : Fin 64) (x : Shot), s.Up ∧ s.shot c.val = some x ∧ x.capAt ≤ max s.clk.now t ∧ x.phase =
      x.endPh) ∧
    (∃ (s : State) (t : Nat) (d : Nat) (c : Fin 64) (x : Shot), s.Up ∧ s.shot c.val = some x ∧ x.hold = some d ∧ d ≤ max
      s.clk.now t ∧ x.phase ≠ x.endPh) ∧
    (∃ (s : State) (t : Nat) (c : Fin 64) (x : Shot), s.Up ∧ s.shot c.val = some x ∧ x.kind = 4 ∧ pfDither x.words ≠ 0 ∧
      x.dithAt ≤ max s.clk.now t) ∧
    (∃ (s : State) (t : Nat) (c : Fin 64) (x : Shot), s.Up ∧ s.shot c.val = some x ∧ x.kind = 5 ∧ phDecay x.entry = 2 ∧ phExit
      x.entry ≠ 0 ∧ x.on = false ∧ x.withheld = false ∧ bankProp s (c.val / 4) = false ∧ (∀ d, d ∈ chansOf (c.val / 4) → d ≠
      c.val → s.shot d = none) ∧ x.phaseAt + pfMix x.words ≤ max s.clk.now t) ∧
    (∃ (s : State) (t : Nat) (c : Fin 64) (w : Waiting), s.Up ∧ (s.cell c.val).wait = some w ∧ w.cmd.chan = c.val ∧ w.reboost =
      true ∧ chProp s c.val = false ∧ (boostSourced (s.tick t) w = false ∨ (firstWaiter s (boostWaiters (s.tick t) (c.val / 4))
      = some c.val ∧ s.level (64 + c.val / 4) = 3))) ∧
    (∃ (s : State) (t : Nat) (c : Fin 64) (w : Waiting), s.Up ∧ (s.cell c.val).wait = some w ∧ w.cmd.chan = c.val ∧ w.reboost =
      true ∧ boostSourced (s.tick t) w = true ∧ firstWaiter s (boostWaiters (s.tick t) (c.val / 4)) = some c.val ∧ chProp s
      c.val = false ∧ w.stepAt + usTicks (s.rf (A.bank (c.val / 4) + 0x404) 15 8) ≤ max s.clk.now t) ∧
    (∃ (s : State) (t : Nat) (c : Fin 64) (w : Waiting), s.Up ∧ (s.cell c.val).wait = some w ∧ w.cmd.chan = c.val ∧ w.reboost =
      false ∧ s.shot c.val = none ∧ s.rf (A.bank (c.val / 4) + 0x400) 1 0 = 0 ∧ w.arrived + usTicks (s.rf (A.bank (c.val / 4) +
      0x404) 7 0) ≤ max s.clk.now t) :=
  ⟨⟨((State.reset.setShot 63 (shotOf 63 shotProfile 1)).setWin 63 { out := 2 } : State), 1000, 63, (shotOf 63 shotProfile 1 :
     Shot), ((0, 0) : Int × Int), (winJudge (((State.reset.setShot 63 (shotOf 63 shotProfile 1)).setWin 63 { out := 2 }).tick
     (1000)) 63 (0, 0) : Bool × Bool), by decide⟩,
   ⟨(State.reset.setShot 63 (shotOf 63 shotProfile 1) : State), 4000, 63, (shotOf 63 shotProfile 1 : Shot), by decide⟩,
   ⟨(State.reset.setShot 63 (shotOf 63 shotProfile 2) : State), 800, 63, (shotOf 63 shotProfile 2 : Shot), by decide⟩,
   ⟨(State.reset.setShot 63 (shotOf 63 shotProfile 1) : State), 100000, 63, (shotOf 63 shotProfile 1 : Shot), by decide⟩,
   ⟨({ State.reset with cells := (State.reset.setShot 63 (shotOf 63 shotProfile 2)).cells } : State), 100000, 63, (shotOf 63
     shotProfile 2 : Shot), by decide⟩,
   ⟨(State.reset.setShot 0 { shotOf 0 shotProfile 1 with hold := some 1000 } : State), 1000, 1000, 0,
     ({ shotOf 0 shotProfile 1 with hold := some 1000 } : Shot), by decide⟩,
   ⟨(State.reset.setShot 0 (shotOf 0 (pw (1 + 5 * 2 ^ 80) [ent 4 2 0 1 100 10 100]) 0) : State), 1000, 0, (shotOf 0 (pw (1 + 5 *
     2 ^ 80) [ent 4 2 0 1 100 10 100]) 0 : Shot), by decide⟩,
   ⟨(State.reset.setShot 63 { shotOf 63 shotProfile 2 with on := false } : State), 200, 63,
     ({ shotOf 63 shotProfile 2 with on := false } : Shot), by decide⟩,
   ⟨(setWait State.reset 63 (some (waiter 63 true)) : State), 1000, 63, (waiter 63 true : Waiting), by decide⟩,
   ⟨(setWait (State.reset.putWords (profAddr 63 0) (pw 1 [ent 1 1 0 0 100 0 10])) 63 (some (waiter 63 true)) : State), 400000,
     63, (waiter 63 true : Waiting), by decide⟩,
   ⟨(setWait (State.reset.setRf (A.bank 15 + 0x400) 1 0 0) 63 (some (waiter 63 false)) : State), 400000, 63, (waiter 63 false :
     Waiting), by decide⟩⟩

theorem witness_DriveFaultsTakeBanksSafe :
    (∃ (s : State) (t : Nat) (k : Nat) (c : Fin 64), s.Up ∧ (s.cell c.val).idleSince = some k ∧ k + usTicks (idleTime s c.val) ≤
      max s.clk.now t) ∧
    (∃ (s : State) (t : Nat) (k : Nat) (c : Fin 64), s.Up ∧ (s.bank (c.val / 4)).safe = false ∧ cget (fun _ => none) (s.bank
      (c.val / 4)).hsAbove (c.val % 4) = some k ∧ k + usTicks (s.rf (A.bankErr (c.val / 4)) 13 8) ≤ max s.clk.now t) ∧
    (∃ (s : State) (t : Nat) (k : Nat) (b : Fin 16), s.Up ∧ (s.bank b.val).safe = false ∧ (s.bank b.val).lowSince = some k ∧ k +
      usTicks (s.rf (A.bankErr b.val) 31 16) ≤ max s.clk.now t) ∧
    (∃ (s : State) (b : Fin 16), s.Open ∧ (s.bank b.val).safe = true) :=
  ⟨⟨(State.reset.setCell 63 { idleSince := some 5 } : State), 400000, 5, 63, by decide⟩,
   ⟨(State.reset.setBank 15 { hsAbove := [(3, some 5)] } : State), 400000, 5, 63, by decide⟩,
   ⟨(State.reset.setBank 15 { lowSince := some 5 } : State), 400000, 5, 15, by decide⟩,
   ⟨(State.reset.setBank 15 { safe := true } : State), 15, by decide⟩⟩

theorem witness_ChannelsAndProfilesAreSetUp :
    (∃ (s : State) (c : Fin 64), s.Open ∧ chEn s c.val = false ∧ classClash s c.val = false) ∧
    (∃ (s : State) (c : Fin 64), s.Open ∧ chEn s c.val = false ∧ classClash s c.val = true) ∧
    (∃ (s : State) (c : Fin 64), s.Open ∧ chEn s c.val = true) ∧
    (∃ (s : State), s.Open) ∧
    (∃ (s : State) (c : Fin 64), s.Open ∧ chEn s c.val = true) ∧
    (∃ (s : State) (o : Nat) (c : Fin 64), s.Open ∧ chEn s c.val = false ∧ o < 0x400 ∧ o % 4 = 0) ∧
    (∃ (s : State) (o : Nat) (c : Fin 64), s.Open ∧ chEn s c.val = true ∧ o < 0x400 ∧ o % 4 = 0) ∧
    (∃ (s : State) (r : Fin 64) (c : Fetched), Takes s r.val 0x20 c ∧ fld (c.w 3) 5 0 = 0 ∧ profStatus (chProp s (fld (c.w 2) 5
      0)) ((List.range 16).map (fun i => wordAt c.buf i)) = 0) ∧
    (∃ (s : State) (r : Fin 64) (c : Fetched), Takes s r.val 0x20 c ∧ fld (c.w 3) 5 0 = 0 ∧ profStatus (chProp s (fld (c.w 2) 5
      0)) ((List.range 16).map (fun i => wordAt c.buf i)) ≠ 0) ∧
    (∃ (s : State) (r : Fin 64) (c : Fetched), Takes s r.val 0x20 c ∧ fld (c.w 3) 5 0 ≠ 0) :=
  ⟨⟨State.reset, 63, by decide⟩,
   ⟨(State.reset.setRf (A.cell 62) 1 0 3 : State), 63, by decide⟩,
   ⟨(State.reset.setRf (A.cell 63) 0 0 1 : State), 63, by decide⟩,
   ⟨State.reset, by decide⟩,
   ⟨(State.reset.setRf (A.cell 63) 0 0 1 : State), 63, by decide⟩,
   ⟨State.reset, 0x3FC, 63, by decide⟩,
   ⟨(State.reset.setRf (A.cell 63) 0 0 1 : State), 0x3FC, 63, by decide⟩,
   ⟨(zc (fc 0x20 [0xF3F, 0] shotProfile) (State.reset) : State), 0, (fc 0x20 [0xF3F, 0] shotProfile : Fetched), by
     decide⟩,
   ⟨(zc (fc 0x20 [0xF3F, 0] []) (State.reset) : State), 0, (fc 0x20 [0xF3F, 0] [] : Fetched), by decide⟩,
   ⟨(zc (fc 0x20 [0xF3F, 32] []) (State.reset) : State), 0, (fc 0x20 [0xF3F, 32] [] : Fetched), by decide⟩⟩

theorem witness_ModelsBalanceAndKinks :
    (∃ (s : State) (o : Nat), s.Open ∧ o < 0x440 ∧ o % 4 = 0) ∧
    (∃ (s : State) (n : Nat) (r : Fin 64) (c : Fetched), Takes s r.val 0x21 c ∧ bufWords c = some n ∧ (∀ i, i < n →
      modelDeviceWord (fld (c.w 3) 10 0 / 4 + i) = false) ∧ 64 ≤ fld (c.w 3) 10 0) ∧
    (∃ (s : State) (n : Nat) (r : Fin 64) (c : Fetched), Takes s r.val 0x21 c ∧ bufWords c = some n ∧ (∃ i, i < n ∧
      modelDeviceWord (fld (c.w 3) 10 0 / 4 + i) = true)) ∧
    (∃ (s : State) (r : Fin 64) (c : Fetched), Takes s r.val 0x22 c) ∧
    (∃ (s : State) (r : Fin 64) (c : Fetched), Takes s r.val 0x23 c) ∧
    (∃ (s : State) (v : BitVec 64) (k : Fin 26), s.Open ∧ wbit (wordAt (balEdit s [(0x81000 + 4 * k.val, lo32 v.toNat)]) 0) 31 =
      true ∧ balCheck s (balEdit s [(0x81000 + 4 * k.val, lo32 v.toNat)]) = none) ∧
    (∃ (s : State) (v : BitVec 64) (k : Fin 26), s.Open ∧ wbit (wordAt (balEdit s [(0x81000 + 4 * k.val, lo32 v.toNat)]) 0) 31 =
      true ∧ balCheck s (balEdit s [(0x81000 + 4 * k.val, lo32 v.toNat)]) ≠ none) ∧
    (∃ (s : State) (t : Nat) (b : Fin 16) (k : Kink) (rest : List Kink), s.Up ∧ (s.bank b.val).done = k :: rest ∧ (kinkJudge
      (s.tick t) k).status = 0) ∧
    (∃ (s : State) (t : Nat) (b : Fin 16) (k : Kink) (rest : List Kink), s.Up ∧ (s.bank b.val).done = k :: rest ∧ (kinkJudge
      (s.tick t) k).status ≠ 0) :=
  ⟨⟨State.reset, 0x43C, by decide⟩,
   ⟨(zc (fc 0x21 [63, 0x420, 4] [7]) (State.reset) : State), 1, 0, (fc 0x21 [63, 0x420, 4] [7] : Fetched), by decide⟩,
   ⟨(zc (fc 0x21 [63, 0x43C, 4] [7]) (State.reset) : State), 1, 0, (fc 0x21 [63, 0x43C, 4] [7] : Fetched), by decide⟩,
   ⟨(zc (fc 0x22 [0x1F3F] []) ({ State.reset with mem := [(0x7FC44, 1)] }) : State), 0, (fc 0x22 [0x1F3F] [] : Fetched), by
     decide⟩,
   ⟨(zc (fc 0x23 [3, 0xFFFF] []) (State.reset) : State), 0, (fc 0x23 [3, 0xFFFF] [] : Fetched), by decide⟩,
   ⟨State.reset, 0x80000000, 0, by decide⟩,
   ⟨State.reset, 0x81000000, 0, by decide⟩,
   ⟨(State.reset.setBank 15
     { done := [{ shot := shotOf 63 shotProfile 2, te := 0, codes := (List.range 30).map (fun i => 3000 - 60 * i) ++ (List.range 30).map (fun i => 1200 - 10 * i) }] }
     : State), 1000, 15,
     ({ shot := shotOf 63 shotProfile 2, te := 0, codes := (List.range 30).map (fun i => 3000 - 60 * i) ++ (List.range 30).map (fun i => 1200 - 10 * i) }
     : Kink), [], by decide +kernel⟩,
   ⟨(State.reset.setBank 15 { done := [{ shot := shotOf 63 shotProfile 2, te := 0 }] } : State), 1000, 15,
     ({ shot := shotOf 63 shotProfile 2, te := 0 } : Kink), [], by decide⟩⟩

theorem witness_ConversionsBeginAndEnd :
    (∃ (s : State) (t : Nat) (n : Nat) (k : Fin 18) (j : Fin 4), s.Up ∧ voterStopped s (22 + k.val) = false ∧ adcEn s k.val =
      true ∧ adcTimer s k.val j.val ≠ 0 ∧ (s.conv k.val).timers.find? (fun p => p.1 == j.val) = some (j.val, n) ∧ n ≤ max
      s.clk.now t ∧ s.glb.tempered = false ∧ (s.conv k.val).stepOld = []) ∧
    (∃ (s : State) (t : Nat) (n : Nat) (k : Fin 18) (j : Fin 4), s.Up ∧ voterStopped s (22 + k.val) = false ∧ adcEn s k.val =
      true ∧ adcTimer s k.val j.val ≠ 0 ∧ (s.conv k.val).timers.find? (fun p => p.1 == j.val) = some (j.val, n) ∧ n ≤ max
      s.clk.now t ∧ s.glb.tempered = true ∧ j.val ∈ (s.conv k.val).skips) ∧
    (∃ (s : State) (t : Nat) (k : Fin 18) (st : Fin 32) (i : Inst), s.Up ∧ voterStopped s (22 + k.val) = false ∧ (k.val < 16 →
      (s.bank k.val).entries = []) ∧ (s.conv k.val).heldInst st.val = some i ∧ i.ready ≤ max s.clk.now t) ∧
    (∃ (s : State) (t : Nat) (k : Fin 18) (st : Fin 32) (i : Inst), s.Up ∧ voterStopped s (22 + k.val) = false ∧ (k.val < 16 →
      (s.bank k.val).entries = []) ∧ (s.conv k.val).heldInst st.val = some i ∧ i.isPending = true ∧ s.rf (A.conv k.val) 15 8 ≠ 0
      ∧ i.ready + 400 * s.rf (A.conv k.val) 15 8 ≤ max s.clk.now t) ∧
    (∃ (s : State) (t : Nat) (n : Nat) (k : Fin 18) (i : Inst), s.Up ∧ voterStopped s (22 + k.val) = false ∧ atAdcEdge (s.tick
      t) = true ∧ (k.val < 16 → (s.bank k.val).entries = []) ∧ (s.conv k.val).cur = none ∧ (k.val < 16 → kinkDue (s.tick t)
      k.val = false) ∧ (s.conv k.val).refDue = [] ∧ adcEn s k.val = true ∧ firstPending s k.val = some n ∧ (s.conv
      k.val).heldInst n = some i) ∧
    (∃ (s : State) (t : Nat) (n : Nat) (k : Fin 18) (cv : Conv), s.Up ∧ voterStopped s (22 + k.val) = false ∧ atAdcEdge (s.tick
      t) = true ∧ k.val < 16 ∧ (s.bank k.val).entries = [] ∧ kinkDue (s.tick t) k.val = true ∧ (s.conv k.val).cur = some cv ∧
      cv.kind = .step n ∧ (s.conv k.val).heldInst n = none) ∧
    (∃ (s : State) (t : Nat) (k : Fin 18), s.Up ∧ (k.val < 16 → (s.bank k.val).entries = []) ∧ atAdcEdge (s.tick t) = false) ∧
    (∃ (s : State) (t : Nat) (n : Nat) (k : Fin 18) (cv : Conv), s.Up ∧ voterStopped s (22 + k.val) = false ∧ (s.conv k.val).cur
      = some cv ∧ cv.kind = .step n ∧ cv.start + 16 * s.adcPeriod ≤ max s.clk.now t ∧ stQueue cv.inst.entry = false ∧ stChain
      cv.inst.entry = false ∧ stInput cv.inst.entry < 9) ∧
    (∃ (s : State) (t : Nat) (k : Fin 18) (cv : Conv), s.Up ∧ (s.conv k.val).cur = some cv ∧ max s.clk.now t < cv.start + 16 *
      s.adcPeriod) ∧
    (∃ (s : State) (t : Nat) (k : Fin 18) (cv : Conv) (w : Kink), s.Up ∧ voterStopped s (22 + k.val) = false ∧ (s.conv
      k.val).cur = some cv ∧ cv.kind = .kink ∧ cv.start + 16 * s.adcPeriod ≤ max s.clk.now t ∧ (s.bank k.val).kink = some w ∧
      (s.bank k.val).entries = [] ∧ w.codes.length + 1 < pfKinkLen w.shot.words) ∧
    (∃ (s : State) (t : Nat) (cv : Conv), s.Up ∧ voterStopped s 38 = false ∧ (s.conv 16).cur = some cv ∧ cv.kind = .refHalf ∧
      cv.start + 16 * s.adcPeriod ≤ max s.clk.now t ∧ (s.conv 16).refDue ≠ []) :=
  ⟨⟨((((State.reset.setRf (A.conv 17) 0 0 1).setReg (A.conv 17 + 0x2C) 4).setReg (A.step 17 31) 0x63000000).setConv 17
     { timers := [(3, 1000)] } : State), 1000, 1000, 17, 3, by decide⟩,
   ⟨(({ State.reset with glb := { State.reset.glb with tempered := true } }.setRf (A.conv 17) 0 0 1).setReg (A.conv 17 + 0x2C) 4
     |>.setConv 17 { timers := [(3, 1000)], skips := [3] } : State), 1000, 1000, 17, 3, by decide⟩,
   ⟨(State.reset.setConv 17 { insts := [(31, some { entry := 5, ready := 1000, isPending := false })] } : State), 1000, 17, 31,
     ({ entry := 5, ready := 1000, isPending := false } : Inst), by decide⟩,
   ⟨((State.reset.setRf (A.conv 17) 15 8 1).setConv 17 { insts := [(31, some { entry := 5, ready := 600, isPending := true })] }
     : State), 1000, 17, 31, ({ entry := 5, ready := 600, isPending := true } : Inst), by decide⟩,
   ⟨((State.reset.setRf (A.conv 17) 0 0 1).setConv 17 { insts := [(31, some { entry := 5, ready := 600, isPending := true })] }
     : State), 1000, 31, 17, ({ entry := 5, ready := 600, isPending := true } : Inst), by decide⟩,
   ⟨((State.reset.setConv 15
     { cur := some { kind := .step 31, inst := { entry := 5, ready := 600, isPending := true }, start := 700 } }).setBank 15
     { kink := some { shot := shotOf 63 shotProfile 2, te := 1000 } } : State), 1000, 31, 15,
     ({ kind := .step 31, inst := { entry := 5, ready := 600, isPending := true }, start := 700 } : Conv), by decide⟩,
   ⟨State.reset, 1001, 17, by decide⟩,
   ⟨(State.reset.setConv 17
     { cur := some { kind := .step 31, inst := { entry := 256, ready := 0, isPending := true }, start := 0 } } : State), 1600,
     31, 17, ({ kind := .step 31, inst := { entry := 256, ready := 0, isPending := true }, start := 0 } : Conv), by
     decide⟩,
   ⟨(State.reset.setConv 17
     { cur := some { kind := .step 31, inst := { entry := 256, ready := 0, isPending := true }, start := 0 } } : State), 1599,
     17, ({ kind := .step 31, inst := { entry := 256, ready := 0, isPending := true }, start := 0 } : Conv), by decide⟩,
   ⟨((State.reset.setConv 15 { cur := some { kind := .kink, inst := noInst, start := 0 } }).setBank 15
     { kink := some { shot := shotOf 63 (pw (2 ^ 127 + 3 * 2 ^ 112) []) 2, te := 0, codes := [7] } } : State), 1600, 15,
     ({ kind := .kink, inst := noInst, start := 0 } : Conv),
     ({ shot := shotOf 63 (pw (2 ^ 127 + 3 * 2 ^ 112) []) 2, te := 0, codes := [7] } : Kink), by decide⟩,
   ⟨(State.reset.setConv 16 { cur := some { kind := .refHalf, inst := noInst, start := 0 }, refDue := [1] } : State), 1600,
     ({ kind := .refHalf, inst := noInst, start := 0 } : Conv), by decide⟩⟩

theorem witness_ReferencesCalibrationsAndSteps :
    (∃ (s : State) (t : Nat), s.Up ∧ voterStopped s 39 = false ∧ s.ref.nextAt ≤ max s.clk.now t) ∧
    (∃ (s : State) (t : Nat) (k : Fin 18) (r : Bool), s.Up ∧ voterStopped s (22 + k.val) = false ∧ (s.conv k.val).refWant = some
      r ∧ (k.val < 16 → (s.bank k.val).entries = []) ∧ kinkOpenOn s k.val = false ∧ atAdcEdge (s.tick t) = true) ∧
    (∃ (s : State) (t : Nat) (k : Fin 18), s.Up ∧ voterStopped s (22 + k.val) = false ∧ adcCalEn s k.val = true ∧ (s.conv
      k.val).calFrom + msTicks (s.rf (A.adc + 0x14) 31 16) * (if s.glb.tempered then 2 else 1) ≤ max s.clk.now t) ∧
    (∃ (s : State) (t : Nat) (k : Fin 18), s.Up ∧ voterStopped s (22 + k.val) = false ∧ (s.conv k.val).collecting = true ∧
      (s.conv k.val).firstAt + msTicks (s.rf (A.adc + 0x14) 15 8) < max s.clk.now t ∧ (∀ cv, (s.conv k.val).cur = some cv →
      (s.conv k.val).count = 15 → (s.conv k.val).firstAt + msTicks (s.rf (A.adc + 0x14) 15 8) < cv.start + 4 * s.adcPeriod)) ∧
    (∃ (s : State) (k : Fin 18) (cv : Conv), s.Up ∧ (s.conv k.val).cur = some cv ∧ (s.conv k.val).count = 15 ∧ cv.start + 4 *
      s.adcPeriod ≤ (s.conv k.val).firstAt + msTicks (s.rf (A.adc + 0x14) 15 8)) ∧
    (∃ (s : State) (t : Nat) (lo : Nat) (gain : Nat) (k : Fin 18), s.Up ∧ voterStopped s (22 + k.val) = false ∧ (s.conv
      k.val).calReady = some (lo, gain) ∧ lo < 32768 ∧ gain < 65536 ∧ (k.val < 16 → (s.bank k.val).entries = []) ∧ (s.conv
      k.val).calEndAt < max s.clk.now t ∧ kinkOpenOn s k.val = false ∧ atAdcEdge (s.tick t) = true) ∧
    (∃ (s : State) (t : Nat) (k : Fin 18), s.Up ∧ (k.val < 16 → (s.bank k.val).entries = []) ∧ max s.clk.now t ≤ (s.conv
      k.val).calEndAt) ∧
    (∃ (s : State) (r : Fin 64) (c : Fetched), Takes s r.val 0x30 c ∧ fld (c.w 2) 12 8 ≤ 17 ∧ stepGood (fld (c.w 2) 12 8) (c.w
      3) = true ∧ (fld (c.w 2) 12 8 < 16 → (s.bank (fld (c.w 2) 12 8)).entries = [])) ∧
    (∃ (s : State) (r : Fin 64) (c : Fetched), Takes s r.val 0x30 c ∧ fld (c.w 2) 12 8 ≤ 17 ∧ stepGood (fld (c.w 2) 12 8) (c.w
      3) = false) ∧
    (∃ (s : State) (r : Fin 64) (c : Fetched), Takes s r.val 0x30 c ∧ 17 < fld (c.w 2) 12 8) :=
  ⟨⟨({ State.reset with ref := { nextAt := 1000 } } : State), 1000, by decide⟩,
   ⟨(State.reset.setConv 17
     { refWant := some true, collecting := true, calReady := some (5, 6), cur := some { kind := .cal true, inst := noInst, start := 900 } }
     : State), 1000, 17, true, by decide⟩,
   ⟨((State.reset.setRf (A.conv 17) 2 2 1).setConv 17 { calDue := false } : State), 4000000000, 17, by decide⟩,
   ⟨(State.reset.setConv 17
     { collecting := true, firstAt := 5, sumLo := 7, count := 3, cur := some { kind := .cal true, inst := noInst, start := 900 } }
     : State), 200000000, 17, by decide⟩,
   ⟨(State.reset.setConv 17 { collecting := true, count := 15, cur := some { kind := .cal true, inst := noInst, start := 900 } }
     : State), 17, ({ kind := .cal true, inst := noInst, start := 900 } : Conv), by decide⟩,
   ⟨(State.reset.setConv 17 { calReady := some (32767, 65535) } : State), 1000, 32767, 65535, 17, by decide⟩,
   ⟨(State.reset.setConv 17 { calReady := some (32767, 65535), calEndAt := 1000 } : State), 1000, 17, by decide⟩,
   ⟨(zc (fc 0x30 [0x111F, 0x63000000] []) (State.reset) : State), 0, (fc 0x30 [0x111F, 0x63000000] [] : Fetched), by
     decide⟩,
   ⟨(zc (fc 0x30 [0x111F, 1] []) (State.reset) : State), 0, (fc 0x30 [0x111F, 1] [] : Fetched), by decide⟩,
   ⟨(zc (fc 0x30 [0x1200, 0] []) (State.reset) : State), 0, (fc 0x30 [0x1200, 0] [] : Fetched), by decide⟩⟩

theorem witness_TheHostPathResetsSuspendsAndStarts :
    (∃ (s : State), s.Up) ∧
    (∃ (s : State) (d : Nat) (l : Nat) (b : Bool), s.pwr.inReset = false ∧ (s.suspended = false ∨ b = false ∨ d ≠ 0 ∨ 1 < l)) ∧
    (∃ (s : State) (t : Nat) (l : Nat), s.pwr.inReset = false ∧ s.suspended = true ∧ l ≤ 1 ∧ (s.tick t).issued = []) ∧
    (∃ (s : State), s.Up ∧ Latest s s.clk.now .message) ∧
    (∃ (s : State), s.Open ∧ s.running = false ∧ ringCheck s = none) ∧
    (∃ (s : State) (k : Nat) (r : Nat), s.Open ∧ s.running = false ∧ ringCheck s = some (k, r)) ∧
    (∃ (s : State), s.Up ∧ s.glb.isSealed = true ∧ hostReset s = false) :=
  ⟨⟨(live State.reset : State), by decide⟩,
   ⟨State.reset, 3, 3, false, by decide⟩,
   ⟨({ State.reset with hif := { backlog := [(1, [1, 2, 3, 4, 5, 6, 7, 8])] } } : State), 1000, 1, by decide⟩,
   ⟨State.reset, by decide⟩,
   ⟨(rings State.reset : State), by decide⟩,
   ⟨State.reset, 2, 0, by decide⟩,
   ⟨({ State.reset.setRf 0x1004 1 1 0 with glb := { isSealed := true } } : State), by decide⟩⟩

theorem witness_PollsAndDescriptorFetches :
    (∃ (s : State) (t : Nat), s.Up ∧ s.running = true ∧ s.suspended = false ∧ s.hif.pollBusy = false ∧ (s.hif.polled = false ∨
      s.hif.pollAt + pollInterval (s.tick t) ≤ max s.clk.now t) ∧ Latest s t .fetch) ∧
    (∃ (s : State) (t : Nat) (a : List Sent) (b : List Sent), s.Up ∧ s.running = true ∧ s.suspended = false ∧ s.hif.pollBusy =
      false ∧ (s.hif.polled = false ∨ s.hif.pollAt + pollInterval (s.tick t) ≤ max s.clk.now t) ∧ (s.tick t).issued.all (fun r
      => decide (0 < r)) = true ∧ s.out.sent = a ++ b ∧ b.length = (s.tick t).issued.length) ∧
    (∃ (s : State), s.Up ∧ s.hif.pollBusy = true) ∧
    (∃ (s : State), s.Up ∧ s.hif.pollBusy = true ∧ s.pwr.entry = 0) ∧
    (∃ (s : State), s.Up ∧ s.hif.pollBusy = true) ∧
    (∃ (s : State) (t : Nat) (r : Fin 64) (ws : List Word), s.Up ∧ ringOn s r.val = true ∧ (s.ring r.val).want ≠ 0 ∧ s.suspended
      = false ∧ s.pwr.entry = 0 ∧ fld (wordAt ws 15) 31 31 = lapBit (ringN s r.val) (ringDev s r.val) ∧ bufWords
      { idx := 0, words := ws, buf := [] } = none ∧ (s.ring r.val).fetched = [] ∧ opKnown (fld (wordAt ws 0) 7 0) = true ∧
      Latest s t .completion) ∧
    (∃ (s : State) (r : Fin 64) (ws : List Word), s.Up ∧ ringOn s r.val = true ∧ (s.ring r.val).want ≠ 0 ∧ s.suspended = false ∧
      s.pwr.entry = 0 ∧ fld (wordAt ws 15) 31 31 ≠ lapBit (ringN s r.val) (ringDev s r.val) ∧ (s.ring r.val).lapRun + 1 ≠ 64) ∧
    (∃ (s : State) (r : Fin 64), s.Up ∧ ringOn s r.val = true ∧ (s.ring r.val).want ≠ 0 ∧ s.suspended = false ∧ s.pwr.entry = 0
      ∧ (s.ring r.val).fails < 2) :=
  ⟨⟨(live State.reset : State), 1000, by decide⟩,
   ⟨((live State.reset).emit .transfer [.pmeAck, .pmeAck] : State), 0, [], ([.pmeAck, .pmeAck] : List Sent), by decide⟩,
   ⟨({ State.reset with hif := { pollBusy := true } } : State), by decide⟩,
   ⟨(let u := live (rings State.reset); { u with hif := { u.hif with pollBusy := true } } : State), by decide⟩,
   ⟨({ State.reset with hif := { pollBusy := true } } : State), by decide⟩,
   ⟨((live (rings State.reset)).setRing 0 { want := 16 } : State), 1000, 0, ([1, 5, 0, 0, 0, 0, 0, 0, 0, 0, 0, 0, 0, 0, 0,
     0x80000000] : List Word), by decide⟩,
   ⟨((live (rings State.reset)).setRing 0 { want := 16, lapRun := 62 } : State), 0, ([1, 5, 0, 0, 0, 0, 0, 0, 0, 0, 0, 0, 0, 0,
     0, 0] : List Word), by decide⟩,
   ⟨((live (rings State.reset)).setRing 0 { want := 16, fails := 1 } : State), 0, by decide⟩⟩

theorem witness_CommandsCompleteArmAndSetModes :
    (∃ (s : State) (t : Nat) (r : Fin 64) (c : Fetched), Takes s r.val 1 c ∧ (s.ring r.val).fetched = [c] ∧ ringOn s (s.rf
      (A.ring r.val) 13 8) = true ∧ s.suspended = false ∧ Latest s t (ringRank s (s.rf (A.ring r.val) 13 8))) ∧
    (∃ (ws : List Word), ws ≠ []) ∧
    (∃ (s : State) (t : Nat) (r : Fin 64) (c : Fetched) (q : State), Before s t 4 q ∧ headCmd q r.val = some c ∧ c.op = 0x10 ∧
      q.glb.chipSafe = true) ∧
    (∃ (s : State) (t : Nat) (r : Fin 64) (c : Fetched) (q : State), Before s t 4 q ∧ headCmd q r.val = some c ∧ c.op = 0x10 ∧
      q.glb.chipSafe = false ∧ reservedGood c = false) ∧
    (∃ (s : State) (r : Fin 64) (c : Fetched), Takes s r.val 2 c ∧ s.glb.digestDue = false ∧ c.w 2 = lo32 s.glb.digest ∧ c.w 3 =
      hi32 s.glb.digest) ∧
    (∃ (s : State) (r : Fin 64) (c : Fetched), Takes s r.val 2 c ∧ s.glb.digestDue = false ∧ (c.w 2 ≠ lo32 s.glb.digest ∨ c.w 3
      ≠ hi32 s.glb.digest)) ∧
    (∃ (s : State) (r : Fin 64) (c : Fetched), Takes s r.val 2 c ∧ s.glb.digestDue = true) ∧
    (∃ (s : State) (r : Fin 64) (c : Fetched), Takes s r.val 3 c ∧ fld (c.w 2) 9 8 ≤ 2 ∧ fld (c.w 2) 1 0 ≤ 1) ∧
    (∃ (s : State) (r : Fin 64) (c : Fetched), Takes s r.val 3 c ∧ (fld (c.w 2) 9 8 = 3 ∨ 2 ≤ fld (c.w 2) 1 0)) :=
  ⟨⟨((live (rings State.reset)).setRing 0 { fetched := [fc 1 [] []] } : State), 1000, 0, (fc 1 [] [] : Fetched), by
     decide⟩,
   ⟨([0, 0xFFFFFFFF] : List Word), by decide⟩,
   ⟨(zc (fc 0x10 [] []) { State.reset with glb := { chipSafe := true } } : State), 1000, 0, (fc 0x10 [] [] : Fetched), (anglesTo
     ((zc (fc 0x10 [] []) { State.reset with glb := { chipSafe := true } }).tick (1000)) (4) : State), ⟨by decide, rfl⟩,
     by decide, by decide, by decide⟩,
   ⟨(zc (fc 0x10 [0xFFFF] []) State.reset : State), 1000, 0, (fc 0x10 [0xFFFF] [] : Fetched), (anglesTo ((zc (fc 0x10 [0xFFFF]
     []) State.reset).tick (1000)) (4) : State), ⟨by decide, rfl⟩, by decide, by decide, by
     decide, by decide⟩,
   ⟨(zc (fc 2 [0x9ABCDEF0, 0x12345678] []) ({ State.reset with glb := { digest := 0x123456789ABCDEF0 } }) : State), 0, (fc 2
     [0x9ABCDEF0, 0x12345678] [] : Fetched), by decide⟩,
   ⟨(zc (fc 2 [0, 1] []) (State.reset) : State), 0, (fc 2 [0, 1] [] : Fetched), by decide⟩,
   ⟨(zc (fc 2 [] []) ({ State.reset with glb := { digestDue := true } }) : State), 0, (fc 2 [] [] : Fetched), by decide⟩,
   ⟨(zc (fc 3 [0x0201] []) (State.reset) : State), 0, (fc 3 [0x0201] [] : Fetched), by decide⟩,
   ⟨(zc (fc 3 [0x0002] []) (State.reset) : State), 0, (fc 3 [0x0002] [] : Fetched), by decide⟩⟩

theorem witness_ConfigurationIsCheckedThenWritten :
    (∃ (s : State) (r : Fin 64) (c : Fetched), Takes s r.val 4 c ∧ fld (c.w 2) 1 0 = 0 ∧ 0x3000 ≤ (c.w 3).toNat ∧ (c.w 3).toNat
      < 0x4000 ∧ c.w 5 ≠ 0 ∧ cfgCheck s (cfgEntries c) = none) ∧
    (∃ (s : State) (i : Nat) (k : Nat) (r : Fin 64) (c : Fetched), Takes s r.val 4 c ∧ cfgCheck s (cfgEntries c) = some (i, k) ∧
      k ≠ 4) ∧
    (∃ (s : State) (i : Nat) (r : Fin 64) (c : Fetched), Takes s r.val 4 c ∧ cfgCheck s (cfgEntries c) = some (i, 4)) ∧
    (∃ (s : State) (n : Nat) (r : Fin 64) (c : Fetched), Takes s r.val 5 c ∧ bufWords c = some n ∧ n ≤ c.buf.length ∧ 0x51000 ≤
      (c.w 2).toNat ∧ (c.w 2).toNat + 4 * n ≤ 0x51400) ∧
    (∃ (s : State) (n : Nat) (r : Fin 64) (c : Fetched), Takes s r.val 5 c ∧ bufWords c = some n ∧ tableAreaAt (c.w 2).toNat =
      none) ∧
    (∃ (s : State) (n : Nat) (r : Fin 64) (c : Fetched), Takes s r.val 5 c ∧ bufWords c = some n ∧ 0x51000 ≤ (c.w 2).toNat ∧
      (c.w 2).toNat < 0x51400 ∧ 0x51400 < (c.w 2).toNat + 4 * n) ∧
    (∃ (s : State) (a : Nat), s.Up ∧ 0x1A00 ≤ a ∧ a < 0x1C00 ∧ a % 4 = 0) ∧
    (∃ (s : State) (a : Nat) (size : Nat), s.Up ∧ (¬ ((size = 4 ∨ size = 8) ∧ a % size = 0))) :=
  ⟨⟨(zc (fc 4 [0, 0x3208 - 4, 5, 0xFFFF] []) (State.reset) : State), 0, (fc 4 [0, 0x3208 - 4, 5, 0xFFFF] [] : Fetched), by
     decide⟩,
   ⟨(zc (fc 4 [0, 0x0, 5, 0xFFFFFFFF] []) (State.reset) : State), 0, 1, 0, (fc 4 [0, 0x0, 5, 0xFFFFFFFF] [] : Fetched), by
     decide⟩,
   ⟨(zc (fc 4 [0, BitVec.ofNat 32 (A.cell 63), 1, 1] []) (State.reset.setRf (A.cell 62) 1 0 3) : State), 0, 0, (fc 4 [0,
     BitVec.ofNat 32 (A.cell 63), 1, 1] [] : Fetched), by decide⟩,
   ⟨(zc (fc 5 [0x513FC, 4, 64] [7]) (State.reset) : State), 1, 0, (fc 5 [0x513FC, 4, 64] [7] : Fetched), by decide⟩,
   ⟨(zc (fc 5 [0x7FFFFC, 4, 64] [7]) (State.reset) : State), 1, 0, (fc 5 [0x7FFFFC, 4, 64] [7] : Fetched), by decide⟩,
   ⟨(zc (fc 5 [0x513FC, 8, 64] [7, 8]) (State.reset) : State), 2, 0, (fc 5 [0x513FC, 8, 64] [7, 8] : Fetched), by
     decide⟩,
   ⟨State.reset, 0x1BFC, by decide⟩,
   ⟨State.reset, 0x1A02, 4, by decide⟩⟩

theorem witness_TelemetryIsFreshOrStale :
    (∃ (s : State) (t : Nat) (p : Fin 256) (e : List Word) (c : Capture), s.Up ∧ s.hif.entry p.val = some e ∧ pePeriod e ≠ 0 ∧
      (s.hif.prod p.val).nextAt ≤ max s.clk.now t ∧ sampledKind (peKind e) = false ∧ (s.hif.prod p.val).latest = some c ∧
      (s.hif.prod p.val).isNew = true) ∧
    (∃ (s : State) (t : Nat) (p : Fin 256) (e : List Word), s.Up ∧ s.hif.entry p.val = some e ∧ pePeriod e ≠ 0 ∧ (s.hif.prod
      p.val).nextAt ≤ max s.clk.now t ∧ sampledKind (peKind e) = false ∧ ((s.hif.prod p.val).latest = none ∨ (s.hif.prod
      p.val).isNew = false)) ∧
    (∃ (s : State) (t : Nat) (p : Fin 256) (e : List Word) (c : Capture), s.Up ∧ s.hif.entry p.val = some e ∧ (s.hif.prod
      p.val).published = some c ∧ (s.hif.prod p.val).pub = .fresh ∧ recordKind (peKind e) = false ∧ freshUntil e c ≤ (s.tick
      t).dtime ∧ (s.hif.prod p.val).latest = some c) ∧
    (∃ (s : State) (p : Fin 256), s.Up ∧ s.hif.entry p.val = none) :=
  ⟨⟨(({ State.reset with hif := { taken := [(255, prodEntry 0x12 3 10 20)] } } : State).setProd 255
     { latest := some { dtime := 1, qual := 0, dom := 0, angle := 5, value := [9] }, nextAt := 1000, isNew := true } : State),
     1000, 255, (prodEntry 0x12 3 10 20 : List Word), ({ dtime := 1, qual := 0, dom := 0, angle := 5, value := [9] } : Capture),
     by decide⟩,
   ⟨(({ State.reset with hif := { taken := [(255, prodEntry 0x12 3 10 20)] } } : State).setProd 255 { nextAt := 1000 } : State),
     1000, 255, (prodEntry 0x12 3 10 20 : List Word), by decide⟩,
   ⟨(({ State.reset with hif := { taken := [(255, prodEntry 0x12 3 10 20)] } } : State).setProd 255
     { latest := some { dtime := 1, qual := 0, dom := 0, angle := 5, value := [9] }, published := some { dtime := 1, qual := 0, dom := 0, angle := 5, value := [9] }, pub := .fresh }
     : State), 10000, 255, (prodEntry 0x12 3 10 20 : List Word), ({ dtime := 1, qual := 0, dom := 0, angle := 5, value := [9] }
     : Capture), by decide⟩,
   ⟨State.reset, 255, by decide⟩⟩

theorem witness_QueueCellsCloseMoveAndFlush :
    (∃ (s : State) (t : Nat) (q : Fin 24), s.Up ∧ s.rf (A.queue q.val) 31 24 ≠ 0 ∧ (s.qcell q.val).opened ≠ [] ∧ (s.qcell
      q.val).lastItem + 400 * s.rf (A.queue q.val) 31 24 ≤ max s.clk.now t ∧ (s.qcell q.val).words.length < 16) ∧
    (∃ (s : State) (t : Nat) (n : Nat) (q : Fin 24) (w : QWord), s.Up ∧ s.rb (A.queue q.val) 1 = false ∧ qHead (s.tick t) q.val
      = some w ∧ qReader s q.val = some n ∧ s.suspended = false ∧ voterStopped s 42 = false ∧ shedNow (s.tick t) (s.qcell q.val)
      = none) ∧
    (∃ (s : State) (t : Nat) (n : Nat) (l : Nat) (q : Fin 24) (w : QWord), s.Up ∧ s.rb (A.queue q.val) 1 = false ∧ shedNow
      (s.tick t) (s.qcell q.val) = some (w, l) ∧ (s.qcell q.val).tookAt = none ∧ w.entered + s.fclk 15 ≤ max s.clk.now t ∧
      qReader s q.val = some n ∧ s.suspended = false ∧ voterStopped s 42 = false) ∧
    (∃ (s : State) (t : Nat) (q : Fin 24), s.Up ∧ qHead (s.tick t) q.val = none) ∧
    (∃ (s : State) (r : Fin 64) (c : Fetched), Takes s r.val 0x68 c ∧ fld (c.w 2) 4 0 < 24) ∧
    (∃ (s : State) (t : Nat) (r : Fin 64) (c : Fetched), Takes s r.val 0x69 c ∧ fld (c.w 2) 4 0 < 24 ∧ crossedNow (s.tick t)
      (fld (c.w 2) 4 0) = false) ∧
    (∃ (s : State) (t : Nat) (r : Fin 64) (c : Fetched), Takes s r.val 0x69 c ∧ fld (c.w 2) 4 0 < 24 ∧ crossedNow (s.tick t)
      (fld (c.w 2) 4 0) = true) ∧
    (∃ (s : State) (r : Fin 64) (c : Fetched), Takes s r.val 0x6A c ∧ fld (c.w 2) 4 0 < 24) ∧
    (∃ (s : State) (r : Fin 64) (c : Fetched), Takes s r.val 0x68 c ∧ 24 ≤ fld (c.w 2) 4 0) ∧
    (∃ (s : State) (q : Fin 24), s.Open ∧ queCfgGood s q.val (queCfgNext s q.val (setFld (s.reg (A.queue q.val)) 0 0 0)) = true) ∧
    (∃ (s : State) (t : Nat) (q : Fin 24), s.Open ∧ crossedNow (s.tick t) q.val = false) ∧
    (∃ (s : State) (t : Nat) (r : Fin 64), s.Up ∧ (s.ring r.val).first ≠ [] ∧ (s.ring r.val).firstAt + 400 ≤ max s.clk.now t ∧
      ringOn s r.val = true ∧ s.suspended = false ∧ Latest s t (ringRank s r.val)) :=
  ⟨⟨((State.reset.setRf (A.queue 23) 31 24 2).setQ 23 { opened := [1, 2], lastItem := 200 } : State), 1000, 23, by
     decide⟩,
   ⟨(let u := live (State.reset.setQ 23 { words := [{ bytes := List.replicate 16 3, valid := 16, entered := 0 }] }); u.setX 31
     { st := .run, desc := xdOf 23, blockLeft := 2 } : State), 1000, 31, 23,
     ({ bytes := List.replicate 16 3, valid := 16, entered := 0 } : QWord), by decide⟩,
   ⟨(let u := live (State.reset.setQ 23
     { words := [], shed := some ({ bytes := List.replicate 16 3, valid := 16, entered := 0 }, 4), shedAt := 1000, lost := 20 });
     u.setX 31 { st := .run, desc := xdOf 23, blockLeft := 2 } : State), 1000, 31, 4, 23,
     ({ bytes := List.replicate 16 3, valid := 16, entered := 0 } : QWord), by decide⟩,
   ⟨(State.reset.setQ 23 { words := [{ bytes := List.replicate 16 3, valid := 16, entered := 999 }] } : State), 1000, 23, by
     decide⟩,
   ⟨(zc (fc 0x68 [23] []) (State.reset.setQ 23
     { words := [{ bytes := List.replicate 16 3, valid := 16, entered := 999 }], opened := [1], groupAt := 998, groupN := 5 }) :
     State), 0, (fc 0x68 [23] [] : Fetched), by decide⟩,
   ⟨(zc (fc 0x69 [23] []) (State.reset.setQ 23 { levelEvt := true, cross := 3 }) : State), 1000, 0, (fc 0x69 [23] [] : Fetched),
     by decide⟩,
   ⟨(zc (fc 0x69 [23] []) (State.reset.setQ 23
     { levelEvt := true, cross := 3, crossAt := some 1000, evtBefore := true, crossBefore := 2 }) : State), 1000, 0, (fc 0x69
     [23] [] : Fetched), by decide⟩,
   ⟨(zc (fc 0x6A [23] []) (State.reset.setQ 23 { opened := [1, 2] }) : State), 0, (fc 0x6A [23] [] : Fetched), by
     decide⟩,
   ⟨(zc (fc 0x68 [24] []) (State.reset) : State), 0, (fc 0x68 [24] [] : Fetched), by decide⟩,
   ⟨((State.reset.setRf (A.queue 23) 0 0 1).setQ 23 { opened := [1, 2] } : State), 23, by decide⟩,
   ⟨(State.reset.setQ 23 { levelEvt := true, cross := 3 } : State), 1000, 23, by decide⟩,
   ⟨((live (State.reset.setReg (A.ring 63) 0x00000057)).setRing 63 { first := [1, 2, 3, 4, 5, 6, 7], firstAt := 600 } : State),
     1000, 63, by decide⟩⟩

theorem witness_TransfersRunAndStop :
    (∃ (s : State) (t : Nat) (r : Fin 64) (c : Fetched), Takes s r.val 0x6B c ∧ fld (c.w 3) 5 0 = 0 ∧ (s.xch (fld (c.w 2) 4
      0)).active = false ∧ s.suspended = false ∧ Latest s t .transfer) ∧
    (∃ (s : State) (r : Fin 64) (c : Fetched), Takes s r.val 0x6B c ∧ fld (c.w 3) 5 0 = 0 ∧ (s.xch (fld (c.w 2) 4 0)).active =
      true) ∧
    (∃ (s : State) (t : Nat) (n : Fin 32), s.Open ∧ (s.xch n.val).active = false ∧ s.suspended = false ∧ Latest s t .transfer) ∧
    (∃ (s : State) (r : Fin 64) (c : Fetched), Takes s r.val 0x6C c) ∧
    (∃ (s : State) (n : Fin 32), s.Open ∧ (s.xch n.val).active = true) ∧
    (∃ (s : State) (t : Nat) (k : Fin 4) (n : Fin 32), s.Up ∧ s.rf (0x8010 + 4 * k.val) 15 0 ≠ 0 ∧ cget zeroNat s.xfr.timers
      k.val ≤ max s.clk.now t ∧ (s.xch n.val).st = .wait ∧ (s.xch n.val).desc ≠ [] ∧ xdPace (s.xch n.val).desc = 1 ∧ xdPsrc
      (s.xch n.val).desc = k.val) ∧
    (∃ (s : State) (n : Fin 32), s.Up ∧ (s.xch n.val).reading = .desc ∧ (s.xch n.val).unsent = false) ∧
    (∃ (s : State) (n : Fin 32) (d : List Word), s.Up ∧ (s.xch n.val).reading = .desc ∧ (s.xch n.val).unsent = false ∧ xdCheck s
      n.val d ≠ 0) ∧
    (∃ (s : State) (n : Fin 32) (d : List Word), s.Up ∧ (s.xch n.val).reading = .desc ∧ (s.xch n.val).unsent = false ∧ xdCheck s
      n.val d = 0 ∧ d.length = 16 ∧ (s.xch n.val).trig = false ∧ xdPace d ≠ 3) ∧
    (∃ (s : State) (n : Fin 32), s.Up ∧ (s.xch n.val).reading = .data ∧ (s.xch n.val).unsent = false) ∧
    (∃ (s : State) (n : Fin 32) (ws : List Word), s.Up ∧ (s.xch n.val).reading = .data ∧ (s.xch n.val).unsent = false ∧ (s.xch
      n.val).st = .run ∧ (s.xch n.val).desc ≠ [] ∧ xdEp (s.xch n.val).desc = 2 ∧ (s.xch n.val).held = [] ∧ ws.length = (s.xch
      n.val).blockLeft ∧ ws ≠ [] ∧ ws.length ≤ reelOutRoom s (xdEpi (s.xch n.val).desc)) ∧
    (∃ (s : State) (t : Nat) (n : Fin 32), s.Up ∧ (s.xch n.val).st = .run ∧ (s.xch n.val).reading = .quiet ∧ s.suspended = false
      ∧ xdEp (s.xch n.val).desc = 3 ∧ xdDir (s.xch n.val).desc = false ∧ (s.xch n.val).desc ≠ [] ∧ (s.xch n.val).blockLeft ≠ 0 ∧
      Latest s t .transfer) ∧
    (∃ (s : State) (n : Fin 32), s.Up ∧ (s.xch n.val).reading = .link ∧ (s.xch n.val).unsent = false) ∧
    (∃ (s : State) (v : Nat) (n : Fin 32), s.Up ∧ (s.xch n.val).reading = .link ∧ (s.xch n.val).unsent = false ∧ v % 2 = 1) ∧
    (∃ (s : State) (v : Nat) (n : Fin 32), s.Up ∧ (s.xch n.val).reading = .link ∧ (s.xch n.val).unsent = false ∧ v % 2 = 0 ∧ v /
      2 % 32 ≠ 0) ∧
    (∃ (s : State) (t : Nat) (v : Nat) (n : Fin 32), s.Up ∧ (s.xch n.val).reading = .link ∧ (s.xch n.val).unsent = false ∧ v %
      64 = 0 ∧ v < 2 ^ 64 ∧ s.suspended = false ∧ Latest s t .transfer) :=
  ⟨⟨(zc (fc 0x6B [31, 0xFFFFFFC0, 1] []) (live State.reset) : State), 1000, 0, (fc 0x6B [31, 0xFFFFFFC0, 1] [] : Fetched), by
     decide⟩,
   ⟨(zc (fc 0x6B [31, 0x40] []) (State.reset.setX 31 { st := .parked }) : State), 0, (fc 0x6B [31, 0x40] [] : Fetched), by
     decide⟩,
   ⟨(live State.reset : State), 1000, 31, by decide⟩,
   ⟨(zc (fc 0x6C [31] []) (State.reset.setX 31 { st := .run, moved := 7 }) : State), 0, (fc 0x6C [31] [] : Fetched), by
     decide⟩,
   ⟨(State.reset.setX 31 { st := .wait, held := [1] } : State), 31, by decide⟩,
   ⟨((State.reset.setRf (0x8010 + 4 * 3) 15 0 2).setX 31 { st := .wait, desc := xdOf 0x04233000, moved := 4 } : State), 1000, 3,
     31, by decide⟩,
   ⟨(State.reset.setX 31 { st := .run, reading := .desc } : State), 31, by decide⟩,
   ⟨(State.reset.setX 31 { st := .run, reading := .desc } : State), 31, (xdOf 0x0E003000 : List Word), by decide⟩,
   ⟨(State.reset.setX 31 { st := .run, reading := .desc } : State), 31, (xdOf 0x04003000 : List Word), by decide⟩,
   ⟨(State.reset.setX 31 { st := .run, reading := .data } : State), 31, by decide⟩,
   ⟨(({ State.reset with reel := { State.reset.reel with held := false } } : State).setX 31
     { st := .run, reading := .data, desc := xdOf 0x84002003, blockLeft := 2 } : State), 31, ([5, 6] : List Word), by
     decide⟩,
   ⟨((live State.reset).setX 31 { st := .run, desc := xdOf 0x04003000, blockLeft := 2 } : State), 1000, 31, by decide⟩,
   ⟨(State.reset.setX 31 { st := .run, reading := .link } : State), 31, by decide⟩,
   ⟨(State.reset.setX 31 { st := .run, reading := .link } : State), 1, 31, by decide⟩,
   ⟨(State.reset.setX 31 { st := .run, reading := .link } : State), 32, 31, by decide⟩,
   ⟨((live State.reset).setX 31 { st := .run, reading := .link } : State), 1000, 0xFFFFFFFFFFFFFFC0, 31, by decide⟩⟩

theorem witness_TraceMarkRewindAdvance :
    (∃ (s : State) (r : Fin 64) (c : Fetched), Takes s r.val 0x6E c ∧ s.rb A.que 0 = true ∧ 16 ≤ s.trace.room) ∧
    (∃ (s : State) (r : Fin 64) (c : Fetched), Takes s r.val 0x6E c ∧ s.rb A.que 0 = false) ∧
    (∃ (s : State) (r : Fin 64) (c : Fetched), Takes s r.val 0x6F c ∧ s.trace.owner = none ∧ s.trace.markValid = true) ∧
    (∃ (s : State) (r : Fin 64) (c : Fetched), Takes s r.val 0x6F c ∧ s.trace.owner = none ∧ s.trace.markValid = false) ∧
    (∃ (s : State) (r : Fin 64) (c : Fetched), Takes s r.val 0x6F c ∧ s.trace.owner ≠ none) ∧
    (∃ (s : State) (r : Fin 64) (c : Fetched), Takes s r.val 0x6D c ∧ fld (c.w 3) 20 0 % 8 = 0 ∧ fld (c.w 3) 20 0 ≤ 2 ^ 20 ∧
      s.trace.owner = none ∧ s.trace.rd % traceSize = fld (c.w 2) 19 0 ∧ s.trace.rd + fld (c.w 3) 20 0 ≤ s.trace.wr ∧
      s.trace.boundary (fld (c.w 3) 20 0 / 8 + 1) s.trace.rd (s.trace.rd + fld (c.w 3) 20 0) = true) ∧
    (∃ (s : State) (r : Fin 64) (c : Fetched), Takes s r.val 0x6D c ∧ fld (c.w 3) 20 0 % 8 = 0 ∧ fld (c.w 3) 20 0 ≤ 2 ^ 20 ∧
      s.trace.owner = none ∧ s.trace.rd % traceSize ≠ fld (c.w 2) 19 0) :=
  ⟨⟨(zc (fc 0x6E [] []) (State.reset.setRf A.que 0 0 1) : State), 0, (fc 0x6E [] [] : Fetched), by decide⟩,
   ⟨(zc (fc 0x6E [] []) ({ State.reset.setRf A.que 0 0 0 with trace := { mark := 16 } }) : State), 0, (fc 0x6E [] [] : Fetched),
     by decide⟩,
   ⟨(zc (fc 0x6F [] []) ({ State.reset with trace := { mark := 16, rd := 32, wr := 32, markValid := true } }) : State), 0, (fc
     0x6F [] [] : Fetched), by decide⟩,
   ⟨(zc (fc 0x6F [] []) ({ State.reset with trace := { rewindLost := true } }) : State), 0, (fc 0x6F [] [] : Fetched), by
     decide⟩,
   ⟨(zc (fc 0x6F [] []) ({ State.reset with trace := { owner := some 31, markValid := true } }) : State), 0, (fc 0x6F [] [] :
     Fetched), by decide⟩,
   ⟨(zc (fc 0x6D [0, 16] []) ({ State.reset with trace := { buf := [(0, 0x02000000)], wr := 16 } }) : State), 0, (fc 0x6D [0,
     16] [] : Fetched), by decide⟩,
   ⟨(zc (fc 0x6D [8, 0x100000] []) (State.reset) : State), 0, (fc 0x6D [8, 0x100000] [] : Fetched), by decide⟩⟩

theorem witness_InterruptsAreDeliveredAndSet :
    (∃ (s : State) (t : Nat) (src : Nat) (k : Fin 16), s.Up ∧ (s.irq.target k.val).req = false ∧ irqChoose s.regs s.irq k.val =
      some src ∧ (s.irq.target k.val).holdoffUntil ≤ max s.clk.now t) ∧
    (∃ (s : State) (k : Fin 16), s.Up ∧ ((s.irq.target k.val).req = true ∨ irqChoose s.regs s.irq k.val = none)) ∧
    (∃ (s : State) (t : Nat) (k : Fin 16), s.Up ∧ s.irq.due.contains k.val = true ∧ s.suspended = false ∧ msixMasked s.regs
      s.irq k.val = false ∧ Latest s t .message) ∧
    (∃ (s : State), s.Up ∧ s.suspended = true) ∧
    (∃ (s : State), s.Up ∧ (s.glb.isSealed = true ∨ importOpen s = false)) ∧
    (∃ (s : State), s.Up ∧ (s.glb.isSealed = true ∨ importOpen s = false)) ∧
    (∃ (s : State), s.Up ∧ (s.glb.isSealed = true ∨ importOpen s = false)) ∧
    (∃ (s : State), s.Up ∧ (s.glb.isSealed = true ∨ importOpen s = false)) ∧
    (∃ (s : State) (n : Nat) (b : Bool), s.Up ∧ (s.glb.isSealed = true ∨ importOpen s = false) ∧ n < 16 ∧ (n < 14 ↔ b = false)) ∧
    (∃ (s : State) (n : Nat) (b : Bool), s.Up ∧ (s.glb.isSealed = true ∨ importOpen s = false) ∧ n < 16 ∧ (n < 14 ↔ b = false)) :=
  ⟨⟨(let u := pendingFor 13 510 State.reset;
     { u with irq := { u.irq.setTarget 13 { holdoffUntil := 1000 } with msixEn := true } } : State), 1000, 510, 13, by
     decide⟩,
   ⟨State.reset, 15, by decide⟩,
   ⟨(let u := live (State.reset.setReg (0x1A0C + 16 * 13) 0); { u with irq := { due := [13], msixEn := true } } : State), 1000,
     13, by decide⟩,
   ⟨State.reset, by decide⟩,
   ⟨({ State.reset with irq := { pending := [509, 510] } } : State), by decide⟩,
   ⟨({ State.reset with irq := { pending := [509, 510], rep := [(510, 3)] } } : State), by decide⟩,
   ⟨State.reset, by decide⟩,
   ⟨(State.reset.setReg 0x5BFC 0xF : State), by decide⟩,
   ⟨State.reset, 13, false, by decide⟩,
   ⟨({ State.reset with irq := { asleep := [15], idle := [15] } } : State), 15, true, by decide⟩⟩

theorem witness_ClaimsAndCompletions :
    (∃ (s : State) (src : Nat) (k : Fin 16) (b : Bool), s.Up ∧ (k.val < 14 ↔ b = false) ∧ irqChoose s.regs s.irq k.val = some
      src) ∧
    (∃ (s : State) (k : Fin 16) (b : Bool), s.Up ∧ (k.val < 14 ↔ b = false) ∧ irqChoose s.regs s.irq k.val = none) ∧
    (∃ (s : State) (k : Fin 16), s.Up ∧ 14 ≤ k.val) ∧
    (∃ (s : State) (p : Nat) (k : Fin 16) (v : Word) (rest : List (Nat × Nat)), s.Up ∧ (s.glb.isSealed = true ∨ importOpen s =
      false) ∧ k.val < 14 ∧ fld v 8 0 ≠ 0 ∧ fld v 8 0 ≠ 511 ∧ s.irq.holder (fld v 8 0) = some k.val ∧ (s.irq.target k.val).stack
      = (p, fld v 8 0) :: rest) ∧
    (∃ (s : State) (k : Fin 16) (v : Word), s.Up ∧ (s.glb.isSealed = true ∨ importOpen s = false) ∧ k.val < 14 ∧ fld v 8 0 ≠ 0 ∧
      fld v 8 0 ≠ 511 ∧ irqAccepts s.irq k.val (fld v 8 0) = false) ∧
    (∃ (s : State) (k : Fin 16) (v : Word), s.Up ∧ (s.glb.isSealed = true ∨ importOpen s = false) ∧ (14 ≤ k.val ∨ fld v 8 0 = 0
      ∨ fld v 8 0 = 511)) :=
  ⟨⟨(pendingFor 15 510 State.reset : State), 510, 15, true, by decide⟩,
   ⟨({ State.reset with irq := (State.reset.irq).setTarget 13 { req := true } } : State), 13, false, by decide⟩,
   ⟨State.reset, 14, by decide⟩,
   ⟨({ State.reset with irq := { (State.reset.irq).setTarget 13 { runpri := 15, stack := [(3, 510)] } with inService := [(510, 13)] } }
     : State), 3, 13, 510, [], by decide⟩,
   ⟨({ State.reset with irq := (State.reset.irq).setTarget 13 { badcomp := 255 } } : State), 13, 510, by decide⟩,
   ⟨State.reset, 0, 511, by decide⟩⟩

theorem witness_EnginesRunAndBranch :
    (∃ (s : State) (e : Nat) (w : Nat) (g : Engine), (jumps s e g w = false ∧ g.inj = none)) ∧
    (∃ (s : State) (e : Nat) (w : Nat) (g : Engine), jumps s e g w = true) ∧
    (∃ (s : State) (e : Nat) (w : Nat) (g : Engine), (jumps s e g w = false ∧ g.inj ≠ none)) ∧
    (∃ (s : State) (e : Nat) (w : Nat) (g : Engine), (jumps s e g w = false ∧ g.inj = none ∧ g.pc = g.actTop ∧ g.wrapPend =
      false)) ∧
    (∃ (s : State) (e : Nat) (w : Nat) (g : Engine), (jumps s e g w = false ∧ g.inj = none ∧ g.pc = g.actTop ∧ g.wrapPend =
      true)) ∧
    (∃ (s : State) (t : Nat) (e : Fin 16), s.Up ∧ voterStopped s 40 = false ∧ cycleDue (s.tick t) e.val = true ∧ ReelInPlace s t
      e.val ∧ 0 < (s.reel.eng e.val).delay) ∧
    (∃ (s : State) (t : Nat) (e : Fin 16), ReelFetches s t e.val 0 ∧ ReelInPlace s t e.val) ∧
    (∃ (s : State) (t : Nat) (e : Fin 16), ReelFetches s t e.val 1 ∧ ReelInPlace s t e.val ∧ awaitDone s e.val (s.reel.eng
      e.val) (fetchWord s e.val) = true) ∧
    (∃ (s : State) (t : Nat) (e : Fin 16), ReelFetches s t e.val 1 ∧ ReelInPlace s t e.val ∧ awaitDone s e.val (s.reel.eng
      e.val) (fetchWord s e.val) = false) ∧
    (∃ (s : State) (t : Nat) (e : Fin 16), ReelFetches s t e.val 8 ∧ ReelInPlace s t e.val ∧ ifld (fetchWord s e.val) 13 12 = 0) ∧
    (∃ (s : State) (t : Nat) (e : Fin 16), ReelFetches s t e.val 8 ∧ ReelInPlace s t e.val ∧ ifld (fetchWord s e.val) 13 12 = 1) ∧
    (∃ (s : State) (t : Nat) (e : Fin 16), ReelFetches s t e.val 8 ∧ ReelInPlace s t e.val ∧ ifld (fetchWord s e.val) 13 12 = 2) ∧
    (∃ (s : State) (t : Nat) (e : Fin 16), ReelFetches s t e.val 8 ∧ ReelInPlace s t e.val ∧ ifld (fetchWord s e.val) 13 12 = 3) ∧
    (∃ (s : State) (t : Nat) (e : Fin 16), ReelFetches s t e.val 9 ∧ ReelInPlace s t e.val ∧ ifld (fetchWord s e.val) 2 0 ≠ 2 ∧
      ifld (fetchWord s e.val) 10 8 = 0) ∧
    (∃ (s : State) (t : Nat) (e : Fin 16), ReelFetches s t e.val 9 ∧ ReelInPlace s t e.val ∧ ifld (fetchWord s e.val) 2 0 ≠ 2 ∧
      ifld (fetchWord s e.val) 10 8 = 1) ∧
    (∃ (s : State) (t : Nat) (e : Fin 16), ReelFetches s t e.val 9 ∧ ReelInPlace s t e.val ∧ ifld (fetchWord s e.val) 2 0 ≠ 2 ∧
      ifld (fetchWord s e.val) 10 8 = 2) ∧
    (∃ (s : State) (t : Nat) (e : Fin 16), ReelFetches s t e.val 9 ∧ ReelInPlace s t e.val ∧ ifld (fetchWord s e.val) 2 0 ≠ 2 ∧
      ifld (fetchWord s e.val) 10 8 = 3) ∧
    (∃ (s : State) (t : Nat) (e : Fin 16), ReelFetches s t e.val 10 ∧ ReelInPlace s t e.val ∧ ifld (fetchWord s e.val) 6 5 = 0) ∧
    (∃ (s : State) (t : Nat) (e : Fin 16), ReelFetches s t e.val 10 ∧ ReelInPlace s t e.val ∧ ifld (fetchWord s e.val) 6 5 = 1) ∧
    (∃ (s : State) (t : Nat) (e : Fin 16), ReelFetches s t e.val 10 ∧ ReelInPlace s t e.val ∧ ifld (fetchWord s e.val) 6 5 = 2) ∧
    (∃ (s : State) (t : Nat) (e : Fin 16), ReelFetches s t e.val 11 ∧ ReelInPlace s t e.val ∧ ifld (fetchWord s e.val) 13 12 =
      0) ∧
    (∃ (s : State) (t : Nat) (e : Fin 16), ReelFetches s t e.val 11 ∧ ReelInPlace s t e.val ∧ ifld (fetchWord s e.val) 13 12 =
      1) ∧
    (∃ (s : State) (t : Nat) (e : Fin 16), ReelFetches s t e.val 11 ∧ ReelInPlace s t e.val ∧ ifld (fetchWord s e.val) 13 12 =
      2) :=
  ⟨⟨State.reset, 0, 0x4B, ({ pc := 63 } : Engine), by decide⟩,
   ⟨State.reset, 0, 5, ({ pc := 63 } : Engine), by decide⟩,
   ⟨State.reset, 0, 0x4B, ({ pc := 63, inj := some 5 } : Engine), by decide⟩,
   ⟨State.reset, 0, 0x4B, ({ pc := 63, actTop := 63 } : Engine), by decide⟩,
   ⟨State.reset, 0, 0x4B, ({ pc := 63, actTop := 63, wrapPend := true } : Engine), by decide⟩,
   ⟨(unheld (State.reset.setReel (State.reset.reel.setEng 15 { st := .delay, delay := 1 })) : State), 1000, 15, by
     decide⟩,
   ⟨(fetching 0x0F803F {} State.reset : State), 1000, 15, by decide⟩,
   ⟨(fetching 0x101005 {} State.reset : State), 1000, 15, by decide⟩,
   ⟨(fetching 0x100005 {} State.reset : State), 1000, 15, by decide⟩,
   ⟨(fetching 0x800FFF { v := 5 } State.reset : State), 1000, 15, by decide⟩,
   ⟨(fetching 0x801FFF { v := 0xFFFFFFFF } State.reset : State), 1000, 15, by decide⟩,
   ⟨(fetching 0x802FFF { v := 5 } State.reset : State), 1000, 15, by decide⟩,
   ⟨(fetching 0x803FFF { v := 5 } State.reset : State), 1000, 15, by decide⟩,
   ⟨(fetching 0x900001 { v := 5, sr := 9 } State.reset : State), 1000, 15, by decide⟩,
   ⟨(fetching 0x900100 { v := 5, sr := 9 } State.reset : State), 1000, 15, by decide⟩,
   ⟨(fetching 0x900200 { v := 0x12345, sr := 9 } State.reset : State), 1000, 15, by decide⟩,
   ⟨(fetching 0x900300 { v := 0x12345, sr := 9 } State.reset : State), 1000, 15, by decide⟩,
   ⟨(fetching 0xA0000F {} State.reset : State), 1000, 15, by decide⟩,
   ⟨(fetching 0xA0002F {} (State.reset.setReel { State.reset.reel with flags := [3, 15] }) : State), 1000, 15, by
     decide⟩,
   ⟨(fetching 0xA0004F {} State.reset : State), 1000, 15, by decide⟩,
   ⟨(fetching 0xB00000 { l := 0 } State.reset : State), 1000, 15, by decide⟩,
   ⟨(fetching 0xB01FFF { v := 0xFFFFFFFF } State.reset : State), 1000, 15, by decide⟩,
   ⟨(fetching 0xB02FFF { v := 0 } State.reset : State), 1000, 15, by decide⟩⟩

theorem witness_ShiftAndPinInstructions :
    (∃ (s : State) (t : Nat) (e : Fin 16) (b : Bool), ReelFetches s t e.val 2 ∧ ReelInPlace s t e.val ∧ readPin s e.val
      (s.reel.eng e.val) (ifld (fetchWord s e.val) 4 0) = b ∧ reelDeposit s e.val = false) ∧
    (∃ (s : State) (t : Nat) (e : Fin 16) (b : Bool), ReelFetches s t e.val 2 ∧ ReelInPlace s t e.val ∧ readPin s e.val
      (s.reel.eng e.val) (ifld (fetchWord s e.val) 4 0) = b ∧ (reelDeposit s e.val = true ∧ reelSymW s e.val ≤ min 32
      ((s.reel.eng e.val).sc + 1) ∧ (s.reel.eng e.val).inq.length < reelInCap s e.val)) ∧
    (∃ (s : State) (t : Nat) (e : Fin 16) (b : Bool), ReelFetches s t e.val 2 ∧ ReelInPlace s t e.val ∧ readPin s e.val
      (s.reel.eng e.val) (ifld (fetchWord s e.val) 4 0) = b ∧ (reelDeposit s e.val = true ∧ reelSymW s e.val ≤ min 32
      ((s.reel.eng e.val).sc + 1) ∧ reelInCap s e.val ≤ (s.reel.eng e.val).inq.length)) ∧
    (∃ (s : State) (t : Nat) (e : Fin 16), ReelFetches s t e.val 3 ∧ ReelInPlace s t e.val ∧ (reelRefill s e.val = false ∨
      (s.reel.eng e.val).sc ≠ 0) ∧ reelOwns s e.val (ifld (fetchWord s e.val) 4 0) = true) ∧
    (∃ (s : State) (t : Nat) (e : Fin 16), ReelFetches s t e.val 3 ∧ ReelInPlace s t e.val ∧ (reelRefill s e.val = false ∨
      (s.reel.eng e.val).sc ≠ 0) ∧ reelOwns s e.val (ifld (fetchWord s e.val) 4 0) = false) ∧
    (∃ (s : State) (t : Nat) (e : Fin 16), ReelFetches s t e.val 3 ∧ ReelInPlace s t e.val ∧ reelRefill s e.val = true ∧
      (s.reel.eng e.val).sc = 0 ∧ (s.reel.eng e.val).outq = []) ∧
    (∃ (s : State) (t : Nat) (e : Fin 16), ReelFetches s t e.val 4 ∧ ReelInPlace s t e.val ∧ reelGroup s e.val = []) ∧
    (∃ (s : State) (t : Nat) (e : Fin 16), ReelFetches s t e.val 4 ∧ ReelInPlace s t e.val ∧ reelGroup s e.val ≠ [] ∧ ifld
      (fetchWord s e.val) 14 14 = 0 ∧ reelDeposit s e.val = false) ∧
    (∃ (s : State) (t : Nat) (e : Fin 16), ReelFetches s t e.val 4 ∧ ReelInPlace s t e.val ∧ reelGroup s e.val ≠ [] ∧ ifld
      (fetchWord s e.val) 14 14 = 1 ∧ reelRefill s e.val = false) ∧
    (∃ (s : State) (t : Nat) (e : Fin 16) (x : Word) (rest : List Word), ReelFetches s t e.val 5 ∧ ReelInPlace s t e.val ∧
      (s.reel.eng e.val).outq = x :: rest) ∧
    (∃ (s : State) (t : Nat) (e : Fin 16), ReelFetches s t e.val 5 ∧ ReelInPlace s t e.val ∧ (s.reel.eng e.val).outq = []) ∧
    (∃ (s : State) (t : Nat) (e : Fin 16), ReelFetches s t e.val 5 ∧ ReelInPlace s t e.val ∧ (s.reel.eng e.val).outq = []) ∧
    (∃ (s : State) (t : Nat) (e : Fin 16), ReelFetches s t e.val 6 ∧ ReelInPlace s t e.val ∧ (s.reel.eng e.val).inq.length <
      reelInCap s e.val) ∧
    (∃ (s : State) (t : Nat) (e : Fin 16), ReelFetches s t e.val 6 ∧ ReelInPlace s t e.val ∧ reelInCap s e.val ≤ (s.reel.eng
      e.val).inq.length) ∧
    (∃ (s : State) (t : Nat) (e : Fin 16), ReelFetches s t e.val 6 ∧ ReelInPlace s t e.val ∧ reelInCap s e.val ≤ (s.reel.eng
      e.val).inq.length) ∧
    (∃ (s : State) (t : Nat) (e : Fin 16) (b : Bool), ReelFetches s t e.val 7 ∧ ReelInPlace s t e.val ∧ ifld (fetchWord s e.val)
      12 12 = 0 ∧ reelOwns s e.val (ifld (fetchWord s e.val) 4 0) = true ∧ ifld (fetchWord s e.val) 14 13 = (if b then 1 else
      0)) ∧
    (∃ (s : State) (t : Nat) (e : Fin 16), ReelFetches s t e.val 7 ∧ ReelInPlace s t e.val ∧ ifld (fetchWord s e.val) 12 12 = 0
      ∧ reelOwns s e.val (ifld (fetchWord s e.val) 4 0) = false) :=
  ⟨⟨(fetching 0x20001F { sr := 5, sc := 32 } State.reset : State), 1000, 15, false, by decide⟩,
   ⟨(fetching 0x20001F { sr := 5, sc := 7 } ((State.reset.setRf (A.eng 15 + 0xC) 10 10 1).setRf (A.eng 15 + 0xC) 4 0 8) :
     State), 1000, 15, false, by decide⟩,
   ⟨(fetching 0x20001F { sr := 5, sc := 7, inq := [(1, false), (1, false), (1, false), (1, false)] } ((State.reset.setRf (A.eng
     15 + 0xC) 10 10 1).setRf (A.eng 15 + 0xC) 4 0 8) : State), 1000, 15, false, by decide⟩,
   ⟨(fetching 0x30001F { sr := 0x80000000, sc := 1 } (State.reset.setReg (A.pin 31) 0x1F) : State), 1000, 15, by decide⟩,
   ⟨(fetching 0x30001F { sr := 0x80000000, sc := 1 } State.reset : State), 1000, 15, by decide⟩,
   ⟨(fetching 0x30001F { sr := 5 } (State.reset.setRf (A.eng 15 + 0xC) 9 9 1) : State), 1000, 15, by decide⟩,
   ⟨(fetching 0x400000 { sr := 5 } State.reset : State), 1000, 15, by decide⟩,
   ⟨(fetching 0x400000 { sr := 5, sc := 31 } (State.reset.setReg (A.eng 15 + 8) 0x80000005) : State), 1000, 15, by
     decide⟩,
   ⟨(fetching 0x404000 { sr := 5, sc := 31 } ((State.reset.setReg (A.eng 15 + 8) 0x80000005).setReg (A.pin 31) 0x1F) : State),
     1000, 15, by decide⟩,
   ⟨(fetching 0x500000 { outq := [7, 8] } State.reset : State), 1000, 15, 7, ([8] : List Word), by decide⟩,
   ⟨(fetching 0x500000 {} State.reset : State), 1000, 15, by decide⟩,
   ⟨(fetching 0x500010 {} State.reset : State), 1000, 15, by decide⟩,
   ⟨(fetching 0x600020 { sr := 3, sc := 5 } State.reset : State), 1000, 15, by decide⟩,
   ⟨(fetching 0x600010 { inq := [(1, false), (1, false), (1, false), (1, false)] } State.reset : State), 1000, 15, by
     decide⟩,
   ⟨(fetching 0x600000 { inq := [(1, false), (1, false), (1, false), (1, false)], rxDrop := 65535 } State.reset : State), 1000,
     15, by decide⟩,
   ⟨(fetching 0x70201F {} (State.reset.setReg (A.pin 31) 0x1F) : State), 1000, 15, true, by decide⟩,
   ⟨(fetching 0x70201F {} State.reset : State), 1000, 15, by decide⟩⟩

theorem witness_EnginesAreControlledByRegisters :
    (∃ (s : State) (e : Fin 16), s.Open ∧ reelEn s e.val = false ∧ s.reel.held = false) ∧
    (∃ (s : State) (e : Fin 16), s.Open ∧ reelEn s e.val = false ∧ s.reel.held = true) ∧
    (∃ (s : State) (e : Fin 16), s.Open ∧ reelEn s e.val = true) ∧
    (∃ (s : State) (e : Fin 16), s.Open ∧ (s.reel.eng e.val).st ≠ .disabled) ∧
    (∃ (s : State), s.Open) ∧
    (∃ (s : State) (e : Fin 16), s.Open ∧ reelOutRoom s e.val ≠ 0) ∧
    (∃ (s : State) (e : Fin 16), s.Open ∧ reelOutRoom s e.val = 0) ∧
    (∃ (s : State) (e : Fin 16) (w : Word) (b : Bool) (rest : List (Word × Bool)), s.Up ∧ reelRegMode s e.val = true ∧
      (s.reel.eng e.val).inq = (w, b) :: rest) ∧
    (∃ (s : State) (e : Fin 16), s.Up ∧ (s.reel.eng e.val).inq = []) ∧
    (∃ (s : State) (e : Fin 16) (v : Word), s.Open ∧ reelWordGood v.toNat = true ∧ reelEn s e.val = true) ∧
    (∃ (s : State), s.Open) ∧
    (∃ (s : State), s.Open) ∧
    (∃ (s : State) (t : Nat) (ts : Nat) (p : Fin 32) (b : Bool), s.Up ∧ (s.reel.pin p.val).level ≠ b ∧ ts + 16 * s.rf (A.pin
      p.val) 11 8 ≤ max s.clk.now t) ∧
    (∃ (s : State) (t : Nat) (ts : Nat) (p : Fin 32), s.Up ∧ max s.clk.now t < ts + 16 * s.rf (A.pin p.val) 11 8) :=
  ⟨⟨(unheld (State.reset.setRf (A.eng 15) 13 8 63) : State), 15, by decide⟩,
   ⟨State.reset, 15, by decide⟩,
   ⟨(unheld ((State.reset.setRf (A.eng 15) 0 0 1).setReel (State.reset.reel.setEng 15 { st := .stall, pc := 9, delay := 3 })) :
     State), 15, by decide⟩,
   ⟨(unheld (State.reset.setReel (State.reset.reel.setEng 15 { st := .stall, pc := 9, delay := 3, v := 4 })) : State), 15, by
     decide⟩,
   ⟨(unheld (State.reset.setReel (State.reset.reel.setEng 15 { outq := [1], inq := [(2, true)] })) : State), by decide⟩,
   ⟨(unheld State.reset : State), 15, by decide⟩,
   ⟨(unheld (State.reset.setReel (State.reset.reel.setEng 15 { outq := [1, 2, 3, 4] })) : State), 15, by decide⟩,
   ⟨((State.reset.setRf (A.eng 15) 1 1 1).setReel (State.reset.reel.setEng 15 { inq := [(2, true), (3, false)] }) : State), 15,
     2, true, ([(3, false)] : List (Word × Bool)), by decide⟩,
   ⟨State.reset, 15, by decide⟩,
   ⟨(State.reset.setRf (A.eng 15) 0 0 1 : State), 15, 0x0F803F, by decide⟩,
   ⟨State.reset, by decide⟩,
   ⟨State.reset, by decide⟩,
   ⟨State.reset, 1000, 1000, 31, true, by decide⟩,
   ⟨(State.reset.setReg (A.pin 31) 0x100 : State), 1000, 1000, 31, by decide⟩⟩

theorem witness_EnginesAreControlledByCommands :
    (∃ (s : State) (a : Nat) (v : BitVec 64), s.Open ∧ 0x84000 ≤ a ∧ a < 0x85000 ∧ a % 4 = 0 ∧ reelWordGood (lo32 v.toNat).toNat
      = true) ∧
    (∃ (s : State) (a : Nat) (v : BitVec 64), s.Open ∧ 0x84000 ≤ a ∧ a < 0x85000 ∧ a % 4 = 0 ∧ reelWordGood (lo32 v.toNat).toNat
      = false) ∧
    (∃ (s : State) (r : Fin 64) (c : Fetched), Takes s r.val 0x60 c ∧ fld (c.w 2) 13 8 + (reelWords c).length ≤ 64 ∧ (reelWords
      c).all (fun w => reelWordGood w.toNat) = true) ∧
    (∃ (s : State) (r : Fin 64) (c : Fetched), Takes s r.val 0x60 c ∧ fld (c.w 2) 13 8 + (reelWords c).length ≤ 64 ∧ (reelWords
      c).all (fun w => reelWordGood w.toNat) = false) ∧
    (∃ (s : State) (r : Fin 64) (c : Fetched), Takes s r.val 0x61 c) ∧
    (∃ (s : State) (r : Fin 64) (c : Fetched), Takes s r.val 0x62 c ∧ wbit (c.w 3) 0 = true ∧ wbit (c.w 3) 1 = true) ∧
    (∃ (s : State) (e : Nat) (r : Fin 64) (c : Fetched), Takes s r.val 0x62 c ∧ wbit (c.w 3) 0 = false ∧ wbit (c.w 3) 1 = true ∧
      e < 16 ∧ wbit (c.w 2) e = true) ∧
    (∃ (s : State) (r : Fin 64) (c : Fetched), Takes s r.val 0x63 c ∧ reelWordGood (c.w 3).toNat = true ∧ (s.reel.eng (fld (c.w
      2) 3 0)).inj = none ∧ reelCode s (fld (c.w 2) 3 0) ≠ 0) ∧
    (∃ (s : State) (r : Fin 64) (c : Fetched), Takes s r.val 0x64 c ∧ (reelWords c).length ≤ reelOutRoom s (fld (c.w 2) 3 0)) ∧
    (∃ (s : State) (r : Fin 64) (c : Fetched), Takes s r.val 0x65 c) ∧
    (∃ (s : State) (e : Fin 16) (w : Word) (b : Bool) (rest : List (Word × Bool)), s.Up ∧ voterStopped s 40 = false ∧
      reelRegMode s e.val = false ∧ (s.reel.eng e.val).inq = (w, b) :: rest) :=
  ⟨⟨State.reset, 0x84FFC, 0xB00000, by decide⟩,
   ⟨State.reset, 0x84FFC, 0xC00000, by decide⟩,
   ⟨(zc (fc 0x60 [0x3F0F, 0xB00000] []) (State.reset) : State), 0, (fc 0x60 [0x3F0F, 0xB00000] [] : Fetched), by decide⟩,
   ⟨(zc (fc 0x60 [0x3F0F, 0xC00000] []) (State.reset) : State), 0, (fc 0x60 [0x3F0F, 0xC00000] [] : Fetched), by decide⟩,
   ⟨(zc (fc 0x61 [0x003F050F] []) (State.reset) : State), 0, (fc 0x61 [0x003F050F] [] : Fetched), by decide⟩,
   ⟨(zc (fc 0x62 [1, 3] []) (State.reset) : State), 0, (fc 0x62 [1, 3] [] : Fetched), by decide⟩,
   ⟨(zc (fc 0x62 [0x8000, 2] []) (State.reset.setRf (A.eng 15) 0 0 1) : State), 15, 0, (fc 0x62 [0x8000, 2] [] : Fetched), by
     decide⟩,
   ⟨(zc (fc 0x63 [15, 0xB00000] []) (State.reset.setRf (A.eng 15) 0 0 1) : State), 0, (fc 0x63 [15, 0xB00000] [] : Fetched), by
     decide⟩,
   ⟨(zc (fc 0x64 [0x1000F, 5, 6] []) (unheld State.reset) : State), 0, (fc 0x64 [0x1000F, 5, 6] [] : Fetched), by
     decide⟩,
   ⟨(zc (fc 0x65 [0x8001, 0x8002] []) (State.reset) : State), 0, (fc 0x65 [0x8001, 0x8002] [] : Fetched), by decide⟩,
   ⟨(State.reset.setReel (State.reset.reel.setEng 15 { inq := [(2, true), (3, false)] }) : State), 15, 2, true, ([(3, false)] :
     List (Word × Bool)), by decide⟩⟩

theorem witness_FencesBringATakeoverOrASafeState :
    (∃ (s : State) (n : Nat) (u : Fin 5), s.Up ∧ s.glb.chipSafe = false ∧ unitRole s u.val = n ∧ n < 4 ∧ unitState s u.val = 0 ∧
      (∀ m, m < 5 → m ≠ n → roleUnit s m ≠ u.val) ∧ takeoverOk s n = true ∧ s.wdn.takeover = none) ∧
    (∃ (s : State) (t : Nat) (n : Nat) (u : Fin 5), s.Up ∧ s.glb.chipSafe = false ∧ unitRole s u.val = n ∧ n < 4 ∧ unitState s
      u.val = 0 ∧ (∀ m, m < 5 → m ≠ n → roleUnit s m ≠ u.val) ∧ takeoverOk s n = true ∧ s.wdn.takeover = none ∧ s.fw.restart =
      none ∧ (s.unit u.val).beatAt + s.rf 0x300C 11 8 * (400 * s.rf 0x300C 7 0) ≤ max s.clk.now t) ∧
    (∃ (s : State) (r : Fin 64) (c : Fetched), Takes s r.val 0x40 c ∧ unitState s (roleUnit s (fld (c.w 2) 1 0)) = 0 ∧ (∀ m, m <
      5 → m ≠ fld (c.w 2) 1 0 → roleUnit s m ≠ roleUnit s (fld (c.w 2) 1 0)) ∧ takeoverOk s (fld (c.w 2) 1 0) = true ∧
      s.wdn.takeover = none) ∧
    (∃ (s : State) (r : Fin 64) (c : Fetched), Takes s r.val 0x40 c ∧ roleServed s (fld (c.w 2) 1 0) = true ∧ takeoverOk s (fld
      (c.w 2) 1 0) = false) ∧
    (∃ (s : State) (n : Nat) (u : Fin 5), s.Up ∧ s.glb.chipSafe = false ∧ unitRole s u.val = n ∧ n < 4 ∧ unitState s u.val = 0 ∧
      (∀ m, m < 5 → m ≠ n → roleUnit s m ≠ u.val) ∧ unitState s (spareUnit s) = 1 ∧ othersServed s n = true ∧ (s.refl n).covered
      = false ∧ s.wdn.takeover = none) ∧
    (∃ (s : State) (n : Nat) (u : Fin 5), s.Up ∧ s.glb.chipSafe = false ∧ unitRole s u.val = n ∧ n < 4 ∧ unitState s u.val = 0 ∧
      spareUnit s ≠ u.val ∧ unitState s (spareUnit s) = 0) ∧
    (∃ (s : State) (u : Fin 5), s.Up ∧ unitState s u.val ≠ 0 ∧ unitState s u.val ≠ 1 ∧ unitState s u.val ≠ 7) :=
  ⟨⟨(covered State.reset : State), 3, 3, by decide⟩,
   ⟨(covered State.reset : State), 16000, 3, 3, by decide⟩,
   ⟨(zc (fc 0x40 [3] []) (covered State.reset) : State), 0, (fc 0x40 [3] [] : Fetched), by decide⟩,
   ⟨(zc (fc 0x40 [3] []) (State.reset) : State), 0, (fc 0x40 [3] [] : Fetched), by decide⟩,
   ⟨State.reset, 3, 3, by decide⟩,
   ⟨(unitIn 4 0 State.reset : State), 3, 3, by decide⟩,
   ⟨(unitIn 4 5 State.reset : State), 4, by decide⟩⟩

theorem witness_TheSpareTakesARoleInSteps :
    (∃ (s : State) (u : Fin 5), s.Up ∧ unitState s u.val ≠ 2) ∧
    (∃ (s : State) (u : Fin 5), s.Up ∧ unitState s u.val = 2) ∧
    (∃ (s : State) (u : Fin 5), s.Up ∧ unitState s u.val ≠ 2) ∧
    (∃ (s : State) (t : Nat) (u : Fin 5), s.Up ∧ unitRole s u.val < 4 ∧ unitState s u.val = 0 ∧ spareReflects s = true ∧ (max
      s.clk.now t - s.wdn.grid) % ckptPeriod s = 0) ∧
    (∃ (s : State) (n : Fin 4), s.Up ∧ spareReflects s = true ∧ copyNext s = some n.val) ∧
    (∃ (s : State) (n : Fin 4), s.Up ∧ spareReflects s = true ∧ copyNext s = none ∧ s.wdn.hotLoad = [n.val] ∧ s.glb.reflect = 1) ∧
    (∃ (s : State) (x : Takeover), s.Up ∧ s.wdn.takeover = some x ∧ x.step = 0 ∧ s.fw.restart = none) ∧
    (∃ (s : State) (x : Takeover), s.Up ∧ s.wdn.takeover = some x ∧ x.step = 1 ∧ x.warm = true) ∧
    (∃ (s : State) (x : Takeover), s.Up ∧ s.wdn.takeover = some x ∧ x.step = (if x.warm then 2 else 1)) ∧
    (∃ (s : State) (x : Takeover), s.Up ∧ s.wdn.takeover = some x ∧ x.step = (if x.warm then 2 else 1)) ∧
    (∃ (s : State) (x : Takeover), s.Up ∧ s.wdn.takeover = some x ∧ x.step = 3) ∧
    (∃ (s : State) (x : Takeover), s.Up ∧ s.wdn.takeover = some x ∧ x.step = 4 ∧ (∀ p, p ∈ (s.unit (spareUnit s)).slots →
      isStray s x.role p = false ∧ p.2 ≠ {})) ∧
    (∃ (s : State) (x : Takeover), s.Up ∧ s.wdn.takeover = some x ∧ x.step = 5 ∧ x.lend = false ∧ x.changes = [] ∧ x.ckpt.angles
      = [] ∧ x.role < 4 ∧ spareUnit s < 5) :=
  ⟨⟨State.reset, 4, by decide⟩,
   ⟨(unitIn 4 2 State.reset : State), 4, by decide⟩,
   ⟨State.reset, 4, by decide⟩,
   ⟨({ State.reset with wdn := { grid := 1000 } } : State), 1000, 3, by decide⟩,
   ⟨((covered State.reset).setRefl 3 {} : State), 3, by decide⟩,
   ⟨(let u := covered State.reset; { u with wdn := { u.wdn with hotLoad := [3] }, glb := { reflect := 1 } } : State), 3, by
     decide⟩,
   ⟨(State.reset.setTakeover (some (takingOver 0 false)) : State), (takingOver 0 false : Takeover), by decide⟩,
   ⟨(State.reset.setTakeover (some (takingOver 1 true)) : State), (takingOver 1 true : Takeover), by decide⟩,
   ⟨(State.reset.setTakeover (some (takingOver 2 true)) : State), (takingOver 2 true : Takeover), by decide⟩,
   ⟨(State.reset.setTakeover (some (takingOver 1 false)) : State), (takingOver 1 false : Takeover), by decide⟩,
   ⟨(State.reset.setTakeover (some (takingOver 3 true)) : State), (takingOver 3 true : Takeover), by decide⟩,
   ⟨((State.reset.setUnit 4 { slots := [(1023, { st := .wait })] }).setTakeover (some (takingOver 4 true)) : State), (takingOver
     4 true : Takeover), by decide⟩,
   ⟨((covered State.reset).setTakeover (some (takingOver 5 true)) : State), (takingOver 5 true : Takeover), by decide⟩⟩

theorem witness_UnitsAreTestedAndTheRoundLends :
    (∃ (s : State) (r : Fin 64) (c : Fetched), Takes s r.val 0x41 c ∧ fld (c.w 2) 2 0 ≤ 4 ∧ (unitState s (fld (c.w 2) 2 0) = 2 ∨
      unitState s (fld (c.w 2) 2 0) = 5)) ∧
    (∃ (s : State) (r : Fin 64) (c : Fetched), Takes s r.val 0x41 c ∧ fld (c.w 2) 2 0 ≤ 4 ∧ (unitState s (fld (c.w 2) 2 0) = 2 ∨
      unitState s (fld (c.w 2) 2 0) = 5)) ∧
    (∃ (s : State) (r : Fin 64) (c : Fetched), Takes s r.val 0x41 c ∧ fld (c.w 2) 2 0 ≤ 4 ∧ unitState s (fld (c.w 2) 2 0) ≠ 2 ∧
      unitState s (fld (c.w 2) 2 0) ≠ 5) ∧
    (∃ (s : State) (r : Fin 64) (c : Fetched), Takes s r.val 0x41 c ∧ 5 ≤ fld (c.w 2) 2 0) ∧
    (∃ (s : State) (u : Fin 5) (x : UTest), s.Up ∧ unitTest s u.val = some x ∧ s.round.phase = 0 ∧ x.step < 4) ∧
    (∃ (s : State) (u : Fin 5) (x : UTest), s.Up ∧ unitTest s u.val = some x ∧ s.round.phase = 0 ∧ x.step < 7 ∧ x.role = none) ∧
    (∃ (s : State) (u : Fin 5) (x : UTest), s.Up ∧ unitTest s u.val = some x ∧ s.round.phase = 0 ∧ x.step = 4 ∧ x.role = none ∧
      mirrorBusy s = false ∧ (∀ n, n < 4 → roleServed s n = true) ∧ unitRole s u.val = 4) ∧
    (∃ (s : State) (t : Nat) (k : Nat), s.Up ∧ s.rb 0x3200 0 = true ∧ s.round.nextDue = some k ∧ k ≤ max s.clk.now t ∧
      s.round.phase = 0 ∧ s.glb.safeHold = false ∧ wardenPaused s = false) ∧
    (∃ (s : State) (r : Fin 64) (c : Fetched), Takes s r.val 0x48 c ∧ s.round.phase = 0 ∧ s.glb.safeHold = false) ∧
    (∃ (s : State) (r : Fin 64) (c : Fetched), Takes s r.val 0x48 c ∧ s.round.phase ≠ 0) ∧
    (∃ (s : State) (r : Fin 64) (c : Fetched), Takes s r.val 0x49 c ∧ (s.round.phase = 2 ∨ s.round.phase = 3)) ∧
    (∃ (s : State) (r : Fin 64) (c : Fetched), Takes s r.val 0x49 c ∧ (s.round.phase = 2 ∨ s.round.phase = 3)) ∧
    (∃ (s : State) (r : Fin 64) (c : Fetched), Takes s r.val 0x49 c ∧ s.round.phase = 1) ∧
    (∃ (s : State) (t : Nat), s.Up ∧ s.round.phase = 1 ∧ lendOk s = false ∧ s.round.turnAt + 60000 * 400000 ≤ max s.clk.now t) ∧
    (∃ (s : State), s.Up ∧ s.round.phase = 1 ∧ reqReflect s = 1 ∧ lendOk s = true) ∧
    (∃ (s : State) (t : Nat) (k : Nat) (n : Nat), s.Up ∧ s.round.phase = 1 ∧ s.round.role = n ∧ n < 4 ∧ s.round.search = some k
      ∧ lendOk s = true ∧ roleUnit s n < 5 ∧ spareUnit s < 5 ∧ roleUnit s n ≠ spareUnit s ∧ quietPoint (s.tick t) n = true) ∧
    (∃ (s : State) (t : Nat) (k : Nat) (n : Nat), s.Up ∧ s.round.phase = 1 ∧ s.round.role = n ∧ n < 4 ∧ s.round.search = some k
      ∧ lendOk s = true ∧ roleUnit s n < 5 ∧ spareUnit s < 5 ∧ roleUnit s n ≠ spareUnit s ∧ k + 400000 * s.rf 0x3204 15 0 ≤ max
      s.clk.now t) ∧
    (∃ (s : State) (t : Nat) (n : Nat), s.Up ∧ s.round.phase = 0 ∧ handBackRole s = some n ∧ n < 4 ∧ roleUnit s n < 5 ∧
      spareUnit s < 5 ∧ roleUnit s n ≠ spareUnit s ∧ quietPoint (s.tick t) n = true) :=
  ⟨⟨(zc (fc 0x41 [4] []) (unitIn 4 2 State.reset) : State), 0, (fc 0x41 [4] [] : Fetched), by decide⟩,
   ⟨(zc (fc 0x41 [4] []) (unitIn 4 5 State.reset) : State), 0, (fc 0x41 [4] [] : Fetched), by decide⟩,
   ⟨(zc (fc 0x41 [4] []) (State.reset) : State), 0, (fc 0x41 [4] [] : Fetched), by decide⟩,
   ⟨(zc (fc 0x41 [5] []) (State.reset) : State), 0, (fc 0x41 [5] [] : Fetched), by decide⟩,
   ⟨({ State.reset with wdn := { tests := [(4, some { step := 3, at_ := 5, role := none })] } } : State), 4,
     ({ step := 3, at_ := 5, role := none } : UTest), by decide⟩,
   ⟨({ State.reset with wdn := { tests := [(4, some { step := 6, at_ := 5, role := none })] } } : State), 4,
     ({ step := 6, at_ := 5, role := none } : UTest), by decide⟩,
   ⟨(unitIn 4 4 { State.reset with wdn := { tests := [(4, some { step := 4, at_ := 5, role := none })] } } : State), 4,
     ({ step := 4, at_ := 5, role := none } : UTest), by decide⟩,
   ⟨({ State.reset with glb := { safeHold := false }, round := { nextDue := some 1000 } } : State), 1000, 1000, by
     decide⟩,
   ⟨(zc (fc 0x48 [] []) ({ State.reset with glb := { safeHold := false } }) : State), 0, (fc 0x48 [] [] : Fetched), by
     decide⟩,
   ⟨(zc (fc 0x48 [] []) ({ State.reset with round := { phase := 3 } }) : State), 0, (fc 0x48 [] [] : Fetched), by
     decide⟩,
   ⟨(zc (fc 0x49 [] []) ({ State.reset with round := { phase := 3 } }) : State), 0, (fc 0x49 [] [] : Fetched), by
     decide⟩,
   ⟨(zc (fc 0x49 [] []) ({ State.reset with round := { phase := 2 } }) : State), 0, (fc 0x49 [] [] : Fetched), by
     decide⟩,
   ⟨(zc (fc 0x49 [] []) ({ State.reset with round := { phase := 1 } }) : State), 0, (fc 0x49 [] [] : Fetched), by
     decide⟩,
   ⟨({ State.reset with round := { phase := 1 } } : State), 24000000000, by decide⟩,
   ⟨(let u := covered (State.reset.setRf 8 1 0 1); { u with round := { phase := 1 } } : State), by decide⟩,
   ⟨(let u := covered State.reset; { u with round := { phase := 1, role := 3, search := some 5 } } : State), 1000, 5, 3, by
     decide⟩,
   ⟨(let u := covered State.reset; { u with round := { phase := 1, role := 3, search := some 5 } } : State), 400000005, 5, 3, by
     decide⟩,
   ⟨(unitIn 3 4 (unitIn 4 7 ({ State.reset with wdn := { tests := [(3, some { step := 7, at_ := 5, role := some 3 })] } }.setRf
     0x3000 14 12 3)) : State), 1000, 3, by decide⟩⟩

theorem witness_TheScrubberCorrectsAndReports :
    (∃ (s : State) (t : Nat), s.Up ∧ s.wdn.scrubAt ≤ max s.clk.now t ∧ s.wdn.scrub < 425983) ∧
    (∃ (s : State) (t : Nat), s.Up ∧ s.wdn.scrubAt ≤ max s.clk.now t ∧ s.wdn.scrub < 425983) ∧
    (∃ (s : State) (t : Nat) (e : BitVec 144), s.Up ∧ s.wdn.scrubAt ≤ max s.clk.now t ∧ s.wdn.scrub < 425983 ∧ eccDecode
      (syndrome e) = .uncorrectable) ∧
    (∃ (s : State) (t : Nat), s.Up ∧ max s.clk.now t < s.wdn.scrubAt) ∧
    (∃ (s : State) (r : Fin 64) (c : Fetched), Takes s r.val 0x42 c) :=
  ⟨⟨({ State.reset with wdn := { scrub := 425982, scrubAt := 1000 } } : State), 1000, by decide⟩,
   ⟨({ State.reset with wdn := { scrub := 425982, scrubAt := 1000 } } : State), 1000, by decide⟩,
   ⟨State.reset, 1000, 3, by decide +kernel⟩,
   ⟨({ State.reset with wdn := { scrubAt := 1001 } } : State), 1000, by decide⟩,
   ⟨(zc (fc 0x42 [] []) ((State.reset.setReg 0x3020 7).putWords 0xA0000 [5]) : State), 0, (fc 0x42 [] [] : Fetched), by
     decide⟩⟩

theorem witness_ThePlanFollowsTheMonitors :
    (∃ (s : State) (t : Nat) (w : Nat), s.Up ∧ s.plan.nextAt ≤ max s.clk.now t ∧ wardenPaused s = false ∧ leanWanted (takeDelays
      (s.tick t)) = some w ∧ s.plan.lean ≤ w ∧ reqPower s = false ∧ reqMargin s = 0 ∧ s.clk.step ≤ w) ∧
    (∃ (s : State) (t : Nat), s.Up ∧ max s.clk.now t < s.plan.nextAt) ∧
    (∃ (s : State) (t : Nat) (w : Nat) (r : Fin 64) (c : Fetched), Takes s r.val 0x4A c ∧ leanWanted (takeDelays (s.tick t)) =
      some w ∧ s.plan.lean ≤ w ∧ reqPower s = false ∧ reqMargin s = 0 ∧ s.clk.step ≤ w) ∧
    (∃ (s : State) (w : Nat), s.Up ∧ s.plan.slew = some w) ∧
    (∃ (s : State) (d : List Nat) (f : List Nat), s.Up ∧ d.length = 8 ∧ f.length = 8) :=
  ⟨⟨State.reset, 1000, 0, by decide⟩,
   ⟨({ State.reset with plan := { nextAt := 1001 } } : State), 1000, by decide⟩,
   ⟨(zc (fc 0x4A [] []) (State.reset) : State), 1000, 0, 0, (fc 0x4A [] [] : Fetched), by decide⟩,
   ⟨({ State.reset with plan := { slew := some 2 } } : State), 2, by decide⟩,
   ⟨State.reset, ([1, 2, 3, 4, 5, 6, 7, 8] : List Nat), ([100, 100, 100, 100, 95, 96, 97, 98] : List Nat), by decide⟩⟩

theorem witness_FirmwareIsWrittenVerifiedAndActivated :
    (∃ (s : State) (n : Nat) (r : Fin 64) (c : Fetched), Takes s r.val 0x44 c ∧ bufWords c = some n ∧ fwBusy s = false) ∧
    (∃ (s : State) (n : Nat) (r : Fin 64) (c : Fetched), Takes s r.val 0x44 c ∧ bufWords c = some n ∧ fwBusy s = true) ∧
    (∃ (s : State) (o : Nat) (ws : List Word), s.Up ∧ s.fw.prog = some (o, ws) ∧ o % 4 = 0 ∧ o / 4 + ws.length ≤ 131072) ∧
    (∃ (s : State) (r : Fin 64) (c : Fetched), Takes s r.val 0x45 c ∧ fwBusy s = false ∧ s.fw.verifying = false) ∧
    (∃ (s : State), s.Up ∧ s.fw.verifying = true) ∧
    (∃ (s : State) (r : Fin 64) (c : Fetched), Takes s r.val 0x46 c ∧ fwBusy s = false ∧ s.fw.verifying = false ∧ s.fw.restart =
      none ∧ s.rb 0x3240 2 = true) ∧
    (∃ (s : State) (r : Fin 64) (c : Fetched), Takes s r.val 0x46 c ∧ fwBusy s = false ∧ s.fw.verifying = false ∧ s.fw.restart =
      none ∧ s.rb 0x3240 2 = false) ∧
    (∃ (s : State) (r : Fin 64) (c : Fetched), Takes s r.val 0x47 c) ∧
    (∃ (s : State), s.Up ∧ s.rb 0x3240 3 = true ∧ s.wdn.takeover = none ∧ s.round.phase = 0 ∧ s.wdn.tests = [] ∧ unitState s
      (spareUnit s) = 1 ∧ (∀ n, n < 4 → (s.refl n).covered = true)) ∧
    (∃ (s : State) (k : Nat), s.Up ∧ s.fw.restart = some k) ∧
    (∃ (s : State) (t : Nat) (k : Nat), s.Up ∧ s.fw.restart = some k ∧ k + 100 * 400000 ≤ max s.clk.now t) :=
  ⟨⟨(zc (fc 0x44 [0x7FFFC, 4, 64] [7]) (State.reset) : State), 1, 0, (fc 0x44 [0x7FFFC, 4, 64] [7] : Fetched), by
     decide⟩,
   ⟨(zc (fc 0x44 [0x7FFFC, 4, 64] [7]) (State.reset.setRf 0x3240 4 4 1) : State), 1, 0, (fc 0x44 [0x7FFFC, 4, 64] [7] :
     Fetched), by decide⟩,
   ⟨({ State.reset with fw := { prog := some (524284, [7]) } } : State), 524284, ([7] : List Word), by decide⟩,
   ⟨(zc (fc 0x45 [] []) (State.reset) : State), 0, (fc 0x45 [] [] : Fetched), by decide⟩,
   ⟨({ State.reset with fw := { verifying := true } } : State), by decide⟩,
   ⟨(zc (fc 0x46 [] []) (State.reset.setRf 0x3240 2 2 1) : State), 0, (fc 0x46 [] [] : Fetched), by decide⟩,
   ⟨(zc (fc 0x46 [] []) (State.reset) : State), 0, (fc 0x46 [] [] : Fetched), by decide⟩,
   ⟨(zc (fc 0x47 [] []) (State.reset.setRf 0x3240 3 3 1) : State), 0, (fc 0x47 [] [] : Fetched), by decide⟩,
   ⟨((covered State.reset).setRf 0x3240 3 3 1 : State), by decide⟩,
   ⟨({ State.reset with fw := { restart := some 5 } } : State), 5, by decide⟩,
   ⟨({ State.reset with fw := { restart := some 5 } } : State), 40000005, 5, by decide⟩⟩

theorem witness_LinkPortsWrapAndHeal :
    (∃ (s : State) (p : Fin 2), s.Up ∧ linkEn s = true ∧ portEn s p.val = true ∧ (s.vlk.port p.val).st ≠ 1) ∧
    (∃ (s : State) (t : Nat) (since : Nat) (p : Fin 2), s.Up ∧ linkEn s = true ∧ (s.vlk.port p.val).st ≠ 0 ∧ (s.vlk.port
      p.val).wrapped = false ∧ since + 400 * s.rf 0xA008 6 0 ≤ max s.clk.now t) ∧
    (∃ (s : State) (t : Nat) (since : Nat), s.Up ∧ max s.clk.now t < since + 400 * s.rf 0xA008 6 0) ∧
    (∃ (s : State) (p : Fin 2), s.Up ∧ linkEn s = true ∧ (s.vlk.port p.val).st = 1 ∧ (s.vlk.port p.val).wrapped = false) ∧
    (∃ (s : State) (t : Nat) (p : Fin 2), s.Up ∧ linkEn s = true ∧ (s.vlk.port p.val).wrapped = true ∧ (s.vlk.port p.val).st = 1
      ∧ (s.vlk.port p.val).upAt + 400000 * s.rf 0xA008 23 8 ≤ max s.clk.now t) ∧
    (∃ (s : State) (t : Nat) (p : Fin 2), s.Up ∧ linkEn s = true ∧ max s.clk.now t < (s.vlk.port p.val).upAt + 400000 * s.rf
      0xA008 23 8) :=
  ⟨⟨(linked State.reset : State), 1, by decide⟩,
   ⟨(linked (State.reset.setV (State.reset.vlk.setPort 1 { st := 1, breaks := 65535 })) : State), 1000, 0, 1, by decide⟩,
   ⟨(linked (State.reset.setV (State.reset.vlk.setPort 1 { st := 1, breaks := 65535 })) : State), 1000, 999, by decide⟩,
   ⟨(linked (State.reset.setV (State.reset.vlk.setPort 1 { st := 1 })) : State), 1, by decide⟩,
   ⟨(linked (State.reset.setV (State.reset.vlk.setPort 1 { st := 1, wrapped := true })) : State), 200000000, 1, by
     decide⟩,
   ⟨(linked (State.reset.setV (State.reset.vlk.setPort 1 { st := 1, wrapped := true })) : State), 199999999, 1, by
     decide⟩⟩

theorem witness_FramesAreForwardedOrTaken :
    (∃ (s : State) (f : Frame), s.Up ∧ linkEn s = true ∧ f.known = true ∧ f.good = true ∧ f.type ≠ 5 ∧ stopsHere s f = false ∧
      f.hops < 2046) ∧
    (∃ (s : State) (f : Frame), s.Up ∧ linkEn s = true ∧ f.known = true ∧ f.crcOk = false ∧ stopsHere s f = false ∧ f.hops <
      2046) ∧
    (∃ (s : State) (f : Frame), s.Up ∧ linkEn s = true ∧ f.known = true ∧ f.sound = true ∧ f.eof = false ∧ f.type ≠ 5 ∧
      stopsHere s f = false ∧ f.hops < 2046) ∧
    (∃ (s : State) (f : Frame), s.Up ∧ linkEn s = true ∧ f.good = true ∧ stopsHere s f = false ∧ 2046 ≤ f.hops) ∧
    (∃ (s : State) (f : Frame), s.Up ∧ linkEn s = true ∧ f.good = true ∧ stopsHere s f = true) ∧
    (∃ (s : State) (t : Nat) (n : Nat) (q : Nat) (k : Nat), s.Up ∧ cget (fun _ => none) s.vlk.lastS n = some (q, k) ∧ k + 1000 *
      400000 ≤ max s.clk.now t) ∧
    (∃ (s : State) (p : Fin 2) (f : Frame), LinkTakes s 1 f ∧ f.hops = 0 ∧ f.dirB ≠ (p.val == 0) ∧ f.src ≠ linkNode s) ∧
    (∃ (s : State) (f : Frame), LinkTakes s 1 f ∧ f.src = linkNode s ∧ f.pay 0 ≠ s.vlk.nonce) ∧
    (∃ (s : State) (f : Frame), LinkTakes s 2 f ∧ s.vlk.dup = false) ∧
    (∃ (s : State) (q : Nat) (t1 : Nat) (p : Fin 2) (f : Frame), LinkTakes s 3 f ∧ (s.vlk.port p.val).req = some (q, t1) ∧ q =
      fld (f.pay 0) 15 0) ∧
    (∃ (s : State) (f : Frame), LinkTakes s 6 f) ∧
    (∃ (s : State) (f : Frame), LinkTakes s 9 f) ∧
    (∃ (s : State) (f : Frame), LinkTakes s 10 f) ∧
    (∃ (s : State) (f : Frame), LinkTakes s 11 f) :=
  ⟨⟨(linked State.reset : State), (frame 6 9 2045 true [0, 0, 0, 0, 0] : Frame), by decide⟩,
   ⟨(linked State.reset : State), ({ frame 6 9 2045 true [0, 0, 0, 0, 0] with crcOk := false } : Frame), by decide⟩,
   ⟨(linked State.reset : State), ({ frame 6 9 2045 true [0, 0, 0, 0, 0] with eof := false } : Frame), by decide⟩,
   ⟨(linked State.reset : State), (frame 6 9 2046 true [0, 0, 0, 0, 0] : Frame), by decide⟩,
   ⟨(linked State.reset : State), (frame 6 5 3 false [0, 0, 0, 0, 0] : Frame), by decide⟩,
   ⟨(State.reset.setV { lastS := [(1023, some (3, 5))] } : State), 400000005, 1023, 3, 5, by decide⟩,
   ⟨(linked State.reset : State), 1, (frame 1 9 0 true [7, 0] : Frame), by decide⟩,
   ⟨(linked State.reset : State), (frame 1 5 3 true [7, 0] : Frame), by decide⟩,
   ⟨(linked State.reset : State), (frame 2 9 0 true [0xFFFF] : Frame), by decide⟩,
   ⟨(linked (State.reset.setV (State.reset.vlk.setPort 1 { st := 1, req := some (7, 1000) })) : State), 7, 1000, 1, (frame 3 9 0
     true [7, 100, 0, 300, 0] : Frame), by decide⟩,
   ⟨(linked (State.reset.setReg (A.rxslot 7) 0x88000009) : State), (frame 6 9 3 false [0x00200000, 5, 6, 7, 8] : Frame), by
     decide⟩,
   ⟨(linked (State.reset.setV { rseq := 63 }) : State), (frame 9 9 3 false [0xF0010000, 1, 2, 3, 4, 5, 6, 7, 8] : Frame), by
     decide⟩,
   ⟨(linked State.reset : State), (frame 10 9 3 false [0x60000000] : Frame), by decide⟩,
   ⟨(linked (State.reset.setV (State.reset.vlk.setPort 1 { neighbour := 12 })) : State), (frame 11 9 3 false [12] : Frame), by
     decide⟩⟩

theorem witness_RolesAndPlantTimeFollowTheFrames :
    (∃ (s : State) (f : Frame), LinkTakes s 5 f ∧ epochNewer s.vlk.time.epoch (fld (f.pay 0) 15 0) = false ∧ s.vlk.time.own ≠ 1) ∧
    (∃ (s : State) (f : Frame), LinkTakes s 5 f ∧ epochNewer s.vlk.time.epoch (fld (f.pay 0) 15 0) = false ∧ s.vlk.time.own ≠ 1) ∧
    (∃ (s : State) (f : Frame), LinkTakes s 5 f ∧ epochNewer s.vlk.time.epoch (fld (f.pay 0) 15 0) = true) ∧
    (∃ (s : State) (f : Frame), LinkTakes s 7 f ∧ epochNewer s.vlk.mains.epoch (fld (f.pay 5) 15 0) = false ∧ s.vlk.mains.own ≠
      1) ∧
    (∃ (s : State) (f : Frame), LinkTakes s 4 f ∧ fld (f.pay 0) 31 30 < 2 ∧ fld (f.pay 0) 29 28 = 0) ∧
    (∃ (s : State) (r : Nat) (f : Frame), LinkTakes s 4 f ∧ fld (f.pay 0) 31 30 = r ∧ r < 2 ∧ fld (f.pay 0) 29 28 = 1 ∧
      epochNewer (s.role r).epoch (fld (f.pay 0) 15 0) = false ∧ (s.role r).own ≠ 1) ∧
    (∃ (s : State) (r : Nat) (f : Frame), LinkTakes s 8 f ∧ fld (f.pay 0) 31 30 = r ∧ r < 2 ∧ epochNewer (fld (f.pay 0) 15 0)
      (s.role r).epoch = true) ∧
    (∃ (s : State) (t : Nat) (r : Fin 2), s.Up ∧ linkEn s = true ∧ isCandidate s r.val = true ∧ s.vlk.dup = false ∧ (s.role
      r.val).own ≠ 1 ∧ (s.role r.val).heardAt + 3 * annPeriod s ≤ max s.clk.now t ∧ isBest (s.tick t) r.val = true) ∧
    (∃ (s : State) (t : Nat) (r : Fin 2), s.Up ∧ linkEn s = true ∧ s.glb.chipSafe = false ∧ (s.role r.val).own = 2 ∧ (s.role
      r.val).frameAt + 3 * rolePeriod s r.val ≤ max s.clk.now t) ∧
    (∃ (s : State) (t : Nat) (r : Fin 2), s.Up ∧ linkEn s = true ∧ (s.role r.val).own = 1 ∧ (s.role r.val).bkValid = true ∧ (∀
      c, c ∈ (s.role r.val).cands → c.node = (s.role r.val).backup → c.at_ + 3 * annPeriod s ≤ max s.clk.now t)) ∧
    (∃ (s : State) (t : Nat), s.Up ∧ s.clk.qual = 3 ∧ s.vlk.time.own ≠ 1 ∧ s.vlk.syncFrom + 4 * (400 * s.rf 0xA010 15 0) ≤ max
      s.clk.now t) ∧
    (∃ (s : State), s.Up ∧ onLink s 3 = false) ∧
    (∃ (s : State) (t : Nat), s.Up ∧ onLink s 3 = true ∧ domEn s 3 = true ∧ linkSt (s.tick t) ≠ .cycle) :=
  ⟨⟨(linked State.reset : State), (frame 5 9 3 false [1, 50000, 0, 0, 0] : Frame), by decide⟩,
   ⟨(linked State.reset : State), (frame 5 9 3 false [1, 2500, 0, 0, 0] : Frame), by decide⟩,
   ⟨(linked (State.reset.setV { time := { epoch := 5 } }) : State), (frame 5 9 3 false [4, 50000, 0, 0, 0] : Frame), by
     decide⟩,
   ⟨(linked State.reset : State), (frame 7 9 3 false [0, 0, 0, 0, 0, 1] : Frame), by decide⟩,
   ⟨(linked State.reset : State), (frame 4 9 3 false [0x40000005, 0xFF000000] : Frame), by decide⟩,
   ⟨(linked State.reset : State), 1, (frame 4 9 3 false [0x50000001, 0xFF405000] : Frame), by decide⟩,
   ⟨(linked (State.reset.setV { mains := { own := 1, epoch := 1 } }) : State), 1, (frame 8 9 3 false [0x40000002] : Frame), by
     decide⟩,
   ⟨(linked (((State.reset.setRf 0xA00C 15 8 5).setEl 3 { st := .cycle }).setV { mains := { highest := 65535 } }) : State),
     12000000, 1, by decide⟩,
   ⟨(linked (State.reset.setV { mains := { own := 2, epoch := 65535 } }) : State), 1000000000, 1, by decide⟩,
   ⟨(linked (State.reset.setV
     { mains := { own := 1, bkValid := true, backup := 9, cands := [{ node := 9, prio := 3, at_ := 0 }] } }) : State), 12000000,
     1, by decide⟩,
   ⟨({ State.reset with clk := { qual := 3 } } : State), 1600000, by decide⟩,
   ⟨State.reset, by decide⟩,
   ⟨(State.reset.setRf (A.dom 3) 1 0 3 : State), 1000, by decide⟩⟩

theorem witness_TheLinkSendsItsFrames :
    (∃ (s : State), s.Up ∧ linkEn s = true ∧ s.vlk.time.own = 0 ∧ s.vlk.mains.own = 0 ∧ isCandidate s 0 = false ∧ isCandidate s
      1 = false) ∧
    (∃ (s : State) (p : Fin 2), s.Up ∧ linkEn s = true ∧ (s.vlk.port p.val).st = 1 ∧ s.vlk.dup = false) ∧
    (∃ (s : State), s.Up ∧ linkEn s = true ∧ s.vlk.time.own = 1 ∧ s.vlk.dup = false) ∧
    (∃ (s : State) (t : Nat) (q : State), Before s t 4 q ∧ linkEn s = true ∧ s.vlk.mains.own = 1 ∧ s.glb.chipSafe = false ∧
      q.vlk.dup = false) ∧
    (∃ (s : State) (t : Nat) (k : Fin 4) (q : State), Before s t 4 q ∧ linkEn s = true ∧ s.rb (0xA040 + 4 * k.val) 31 = true ∧
      s.glb.chipSafe = false ∧ q.vlk.dup = false) ∧
    (∃ (s : State) (v : Word), s.Open ∧ linkEn s = false ∧ onLink s 3 = false ∧ wbit (plainWrite A.vlk (s.reg A.vlk) v) 0 =
      true) ∧
    (∃ (s : State) (r : Fin 64) (c : Fetched), Takes s r.val 0x58 c ∧ 1 ≤ fld (c.w 2) 21 16 ∧ fld (c.w 2) 21 16 ≤ 32 ∧ linkEn s
      = true ∧ s.vlk.dup = false ∧ s.vlk.waiting.length < 8 ∧ (s.vlk.port 0).st ≠ 1 ∧ (s.vlk.port 1).st ≠ 1) ∧
    (∃ (s : State) (r : Fin 64) (c : Fetched), Takes s r.val 0x58 c ∧ 1 ≤ fld (c.w 2) 21 16 ∧ fld (c.w 2) 21 16 ≤ 32 ∧ (linkEn s
      = false ∨ s.vlk.dup = true)) ∧
    (∃ (s : State) (r : Fin 64) (c : Fetched), Takes s r.val 0x59 c ∧ (s.role (fld (c.w 2) 0 0)).own = 1) ∧
    (∃ (s : State) (r : Fin 64) (c : Fetched), Takes s r.val 0x59 c ∧ (s.role (fld (c.w 2) 0 0)).own ≠ 1) ∧
    (∃ (s : State) (r : Fin 64) (c : Fetched), Takes s r.val 0x5A c ∧ linkEn s = true ∧ s.vlk.dup = false) :=
  ⟨⟨(linked State.reset : State), by decide⟩,
   ⟨(linked (State.reset.setV (State.reset.vlk.setPort 1 { st := 1, pdseq := 65536 })) : State), 1, by decide⟩,
   ⟨(linked (State.reset.setV { time := { own := 1 }, fseq := 65535 }) : State), by decide⟩,
   ⟨(linked (State.reset.setV { mains := { own := 1 } }) : State), 1000, (anglesTo ((linked (State.reset.setV
     { mains := { own := 1 } })).tick (1000)) (4) : State), ⟨by decide, rfl⟩, by decide, by decide, by
     decide, by decide⟩,
   ⟨(linked (State.reset.setReg 0xA04C 0x82000064) : State), 1000, 3, (anglesTo ((linked (State.reset.setReg 0xA04C
     0x82000064)).tick (1000)) (4) : State), ⟨by decide, rfl⟩, by decide, by decide, by decide,
     by decide⟩,
   ⟨State.reset, 0x00050007, by decide⟩,
   ⟨(zc (fc 0x58 [0x00200009] []) (linked State.reset) : State), 0, (fc 0x58 [0x00200009] [] : Fetched), by decide⟩,
   ⟨(zc (fc 0x58 [0x00010009] []) (State.reset) : State), 0, (fc 0x58 [0x00010009] [] : Fetched), by decide⟩,
   ⟨(zc (fc 0x59 [1] []) (linked (State.reset.setV { mains := { own := 1 } })) : State), 0, (fc 0x59 [1] [] : Fetched), by
     decide⟩,
   ⟨(zc (fc 0x59 [1] []) (State.reset) : State), 0, (fc 0x59 [1] [] : Fetched), by decide⟩,
   ⟨(zc (fc 0x5A [12] []) (linked (State.reset.setV (State.reset.vlk.setPort 1 { neighbour := 12 }))) : State), 0, (fc 0x5A [12]
     [] : Fetched), by decide⟩⟩

theorem witness_SidebandReadsAndExports :
    (∃ (s : State), s.Up) ∧
    (∃ (s : State) (o : Nat) (n : Nat), s.Up ∧ o % 4 = 0 ∧ o + 4 * n ≤ 0x100000) ∧
    (∃ (s : State) (o : Nat) (n : Nat), s.Up ∧ o % 4 = 0 ∧ o + 4 * n ≤ 0x800000) ∧
    (∃ (s : State), s.pwr.asleep = true) ∧
    (∃ (s : State), s.Up) ∧
    (∃ (s : State) (n : Nat) (l : List Byte), s.Up ∧ s.side.stream = some l ∧ n < l.length) ∧
    (∃ (s : State) (n : Nat) (l : List Byte), s.Up ∧ s.side.stream = some l ∧ l.length ≤ n) ∧
    (∃ (s : State), s.Up) ∧
    (∃ (s : State) (t : Nat), s.Up ∧ s.side.stream.isSome = true ∧ s.side.lastAt + 1000 * 400000 ≤ max s.clk.now t) ∧
    (∃ (s : State) (t : Nat), s.Up ∧ max s.clk.now t < s.side.lastAt + 1000 * 400000) :=
  ⟨⟨State.reset, by decide⟩,
   ⟨State.reset, 0x4104, 2, by decide⟩,
   ⟨State.reset, 0x7FFFFC, 1, by decide⟩,
   ⟨({ State.reset with pwr := { asleep := true } } : State), by decide⟩,
   ⟨State.reset, by decide⟩,
   ⟨({ State.reset with side := { stream := some [1, 2, 3] } } : State), 2, ([1, 2, 3] : List Byte), by decide⟩,
   ⟨({ State.reset with side := { stream := some [1, 2, 3] } } : State), 3, ([1, 2, 3] : List Byte), by decide⟩,
   ⟨State.reset, by decide⟩,
   ⟨({ State.reset with side := { stream := some [1, 2, 3] } } : State), 400000000, by decide⟩,
   ⟨({ State.reset with side := { stream := some [1, 2, 3] } } : State), 399999999, by decide⟩⟩

theorem witness_ImportChecksAndWritesASlot :
    (∃ (s : State), s.Up ∧ s.side.imp ≠ 2 ∧ s.glb.safeHold = true ∧ s.glb.isSealed = false ∧ s.running = false) ∧
    (∃ (s : State) (k : Word), s.Up ∧ s.side.imp ≠ 2 ∧ k ≠ 0x544D5049) ∧
    (∃ (s : State), s.Up ∧ s.side.imp ≠ 2 ∧ (s.glb.safeHold = false ∨ s.glb.isSealed = true ∨ s.running = true)) ∧
    (∃ (s : State) (l : List Byte), s.Up ∧ s.side.imp = 1 ∧ l.length ≤ 256) ∧
    (∃ (s : State), s.Up ∧ s.side.imp = 1 ∧ importCheck s.side.staged = 0) ∧
    (∃ (s : State), s.Up ∧ s.side.imp = 1 ∧ importCheck s.side.staged ≠ 0) ∧
    (∃ (s : State), s.Up) ∧
    (∃ (s : State), s.Up ∧ s.side.imp = 2 ∧ s.jrn.writing = none) ∧
    (∃ (s : State), s.Up ∧ s.side.imp = 2 ∧ s.jrn.writing = none) :=
  ⟨⟨State.reset, by decide⟩,
   ⟨State.reset, 0x544D5048, by decide⟩,
   ⟨({ State.reset with glb := { safeHold := false } } : State), by decide⟩,
   ⟨({ State.reset with side := { imp := 1 } } : State), (List.replicate 256 7 : List Byte), by decide +kernel⟩,
   ⟨({ State.reset with side := { imp := 1, staged := slotOf 1 2 0 0 0 [] } } : State), by decide +kernel⟩,
   ⟨({ State.reset with side := { imp := 1, staged := [1] } } : State), by decide⟩,
   ⟨State.reset, by decide⟩,
   ⟨({ State.reset with side := { imp := 2, staged := slotOf 1 2 0 0 0 [] } } : State), by decide⟩,
   ⟨({ State.reset with side := { imp := 2 } } : State), by decide⟩⟩

theorem witness_TheSynchronizingCheckArmsAndTimesOut :
    (∃ (s : State), s.Open ∧ s.rb 0xC500 1 = false) ∧
    (∃ (s : State), s.Open ∧ s.rb 0xC500 0 = false) ∧
    (∃ (s : State) (t : Nat), s.Up ∧ s.sync.armed = true ∧ s.sync.until_ ≤ max s.clk.now t) ∧
    (∃ (s : State), s.Up ∧ s.sync.armed = false) ∧
    (∃ (s : State) (t : Nat), s.Up ∧ (s.tick t).dtime / 10000 ≠ (s.tick t).dtimeBefore / 10000 ∧ s.sync.armed = false) ∧
    (∃ (s : State) (t : Nat), s.Up ∧ (s.tick t).dtime / 10000 = (s.tick t).dtimeBefore / 10000) :=
  ⟨⟨State.reset, by decide⟩,
   ⟨State.reset, by decide⟩,
   ⟨({ State.reset with sync := { armed := true, until_ := 1000 } } : State), 1000, by decide⟩,
   ⟨State.reset, by decide⟩,
   ⟨State.reset, 4000, by decide⟩,
   ⟨State.reset, 4001, by decide⟩⟩

theorem witness_LostReadsMasksAndJtag :
    (∃ (s : State), s.Up ∧ s.hif.pollBusy = true) ∧
    (∃ (s : State) (r : Fin 64), s.Up ∧ ringOn s r.val = true ∧ (s.ring r.val).want ≠ 0 ∧ s.suspended = false ∧ s.pwr.entry = 0
      ∧ (s.ring r.val).fails < 2) ∧
    (∃ (s : State) (n : Fin 32), s.Up ∧ (s.xch n.val).reading = .desc ∧ (s.xch n.val).unsent = false) ∧
    (∃ (s : State) (n : Fin 32), s.Up ∧ (s.xch n.val).reading = .data ∧ (s.xch n.val).unsent = false) ∧
    (∃ (s : State) (n : Fin 32), s.Up ∧ (s.xch n.val).reading = .link ∧ (s.xch n.val).unsent = false) ∧
    (∃ (s : State), s.Up) :=
  ⟨⟨({ State.reset with hif := { pollBusy := true } } : State), by decide⟩,
   ⟨((live (rings State.reset)).setRing 0 { want := 16, fails := 1 } : State), 0, by decide⟩,
   ⟨(State.reset.setX 31 { st := .run, reading := .desc } : State), 31, by decide⟩,
   ⟨(State.reset.setX 31 { st := .run, reading := .data } : State), 31, by decide⟩,
   ⟨(State.reset.setX 31 { st := .run, reading := .link } : State), 31, by decide⟩,
   ⟨State.reset, by decide⟩⟩

end Sys2Proof.Tests
end

/-!
PROOFS. Reads of GLB_DTIME (R16, R50).
-/
namespace Sys2Proof.Machine

/-- A command of the running device, while the device runs, whose operation makes `u` of the state at tick `t`. -/
theorem act_up_eq {t : Nat} {s u : State} {f : State → State} (h : s.Up) (e : f (s.tick t) = u) : act t s f = .next u :=
  (act_up h).trans (congrArg _ e)

theorem bar0Read_dtimeLow (s : State) :
    bar0Read s 0x20 = ({ s with glb := { s.glb with timeHigh := some (hi32 s.dtime), qualLatch := s.clk.qual } } : State).answer
      [lo32 s.dtime] := rfl

theorem hostRead_dtimeHigh (s : State) : hostRead s .bar0 0x24 4 = dtimeHighRead s := rfl

theorem dtimeHighRead_latched {s : State} {w : Word} (h : s.glb.timeHigh = some w) :
    dtimeHighRead s = ({ s with glb := { s.glb with timeHigh := none } } : State).answer [w] := by
  simp [dtimeHighRead, h]

theorem dtimeHighRead_unlatched {s : State} (h : s.glb.timeHigh = none) : dtimeHighRead s = s.answer [hi32 s.dtime] := by
  simp [dtimeHighRead, h]

/-- GLB_DTIME_QUAL, while no high half is latched at its address, reads as the quality latched with the low word. -/
theorem hostRead_qual {s : State} (h : latched s 0x28 = none) :
    hostRead s .bar0 0x28 4 = s.answer [ofNat32 s.glb.qualLatch] := by
  simp [hostRead, bar0Access, bar0Read, isLowHalf, h]
  rfl

/-- Settles O12: the low word's read is `dtimeRead`, which latches what the later reads answer. -/
theorem deviceTimeReadsDescribeOneInstant : Obligations.DeviceTimeReadsDescribeOneInstant := by
  refine ⟨fun s t hu => ?_, fun s t w hu hl => ?_, fun s t hu hl => ?_, fun s t hu hl => ?_⟩
  · exact act_up_eq hu (bar0Read_dtimeLow _)
  · exact act_up_eq hu ((hostRead_dtimeHigh _).trans (dtimeHighRead_latched (s := s.tick t) hl))
  · exact act_up_eq hu ((hostRead_dtimeHigh _).trans (dtimeHighRead_unlatched (s := s.tick t) hl))
  · exact act_up_eq hu (hostRead_qual (s := s.tick t) hl)

end Sys2Proof.Machine

/-!
PROOFS. The seal and FIRST (R48, R49): no operation of the block but a whole-device reset takes a device out of its seal, and none
but the first key word sets FIRST. An operation whose mask leaves out the global state keeps both by its `_only` law; the lemmas
here are about the operations that write the global state, and they cite those laws for the rest.
-/
namespace Sys2Proof.Machine

/-! ### The relation -/

/-- The device is sealed. -/
def State.Sealed (s : State) : Prop := s.glb.isSealed = true

/-- From `s` to `u` the seal is not lost and FIRST is not set. -/
structure KeepsSeal (s u : State) : Prop where
  stays : s.Sealed → u.Sealed
  first : s.glb.first = false → u.glb.first = false

/-- The mask of every part but the global state. -/
abbrev beyondGlb : Nat := 0x1FFFFFFFFD

theorem Only.glb_eq {s u : State} (k : Only beyondGlb s u) : u.glb = s.glb := k .glb rfl

section
variable {s₀ s u v : State}

theorem KeepsSeal.refl (s : State) : KeepsSeal s s := ⟨id, id⟩

theorem KeepsSeal.trans (h : KeepsSeal s u) (k : KeepsSeal u v) : KeepsSeal s v := ⟨k.stays ∘ h.stays, k.first ∘ h.first⟩

/-- A state whose global state is `g`, with the seal and FIRST as they were. -/
theorem KeepsSeal.wrote (h : KeepsSeal s₀ s) (g : Glb) (e : u.glb = g) (hs : g.isSealed = s.glb.isSealed)
    (hf : g.first = s.glb.first) : KeepsSeal s₀ u := by
  subst e
  exact h.trans ⟨fun k => hs.trans k, fun k => hf.trans k⟩

theorem KeepsSeal.sameGlb (h : KeepsSeal s₀ s) (e : u.glb = s.glb) : KeepsSeal s₀ u := h.wrote s.glb e rfl rfl

/-- What an operation that leaves out the global state does to it, by its law. -/
theorem KeepsSeal.frame (h : KeepsSeal s₀ s) (k : Only beyondGlb s s → Only beyondGlb s u) : KeepsSeal s₀ u :=
  h.sameGlb (k (.refl _ s)).glb_eq

theorem KeepsSeal.foldl {α : Type} {f : State → α → State} (hf : ∀ u a, KeepsSeal s₀ u → KeepsSeal s₀ (f u a)) {l : List α}
    (h : KeepsSeal s₀ s) : KeepsSeal s₀ (l.foldl f s) := by
  induction l generalizing s with
  | nil => exact h
  | cons a l ih => exact ih (hf s a h)

theorem KeepsSeal.ite {c : Prop} [Decidable c] (h : KeepsSeal s₀ u) (k : KeepsSeal s₀ v) :
    KeepsSeal s₀ (if c then u else v) := by
  split <;> assumption

end

/-! ### Writes of the global state, the digest, the chip safe state and the modes -/

section
variable {s₀ s u : State}

theorem unFirst_keepsSeal (h : KeepsSeal s₀ s) : KeepsSeal s₀ s.unFirst := h.trans ⟨id, fun _ => rfl⟩

theorem refuseWrite_keepsSeal {bar2 : Bool} (h : KeepsSeal s₀ s) : KeepsSeal s₀ (s.refuseWrite bar2) :=
  h.trans ⟨id, fun _ => rfl⟩

theorem configChanged_keepsSeal (h : KeepsSeal s₀ s) : KeepsSeal s₀ s.configChanged :=
  h.wrote { s.glb with digestDue := true } rfl rfl rfl

theorem configIf_keepsSeal {k : Nat} (h : KeepsSeal s₀ s) : KeepsSeal s₀ (s.configIf k) :=
  .ite (configChanged_keepsSeal h) h

theorem wroteChipSafe_keepsSeal {b : Bool} (h : KeepsSeal s₀ s) (e : u.glb = { s.glb with chipSafe := b }) : KeepsSeal s₀ u :=
  h.wrote _ e rfl rfl

theorem wroteReflect_keepsSeal {x : Nat} (h : KeepsSeal s₀ s) (e : u.glb = { s.glb with reflect := x }) : KeepsSeal s₀ u :=
  h.wrote _ e rfl rfl

theorem digestDone_keepsSeal (h : KeepsSeal s₀ s) : KeepsSeal s₀ (digestDone s) :=
  .ite (h.wrote { s.glb with digest := _, digestDue := false } rfl rfl rfl) h

theorem chipFatal_keepsSeal {code : Nat} {d0 d1 : Word} (h : KeepsSeal s₀ s) : KeepsSeal s₀ (chipFatal s code d0 d1) := by
  unfold chipFatal
  split
  · exact h
  · refine .frame ?_ fun k => State.arrive_only rfl _ _ (faultRecord_only rfl _ _ _ _ _ _ _ (State.setRf_only rfl _ _ _ _ _
      (reelReview_only rfl _ k)))
    have h1 := h.frame fun k => linkSafe_only rfl _ (banksToSafe_only rfl _ (unitsToSafe_only rfl _ k))
    exact wroteChipSafe_keepsSeal h1 rfl

theorem fatalNow_keepsSeal {code : Nat} (h : KeepsSeal s₀ s) : KeepsSeal s₀ (fatalNow s code) :=
  (chipFatal_keepsSeal h).frame (reflNotice_only rfl _ _)

theorem reflectRequest_keepsSeal {old : Nat} (h : KeepsSeal s₀ s) : KeepsSeal s₀ (reflectRequest s old) :=
  .ite (wroteReflect_keepsSeal h rfl) (.ite (h.sameGlb rfl) h)

theorem modeRequest_keepsSeal {v : Word} (h : KeepsSeal s₀ s) : KeepsSeal s₀ (modeRequest s v) := by
  have h1 := h.frame (State.setReg_only rfl s 8 (plainWrite 8 (s.reg 8) v))
  exact (reflectRequest_keepsSeal (h1.wrote { s.glb with agile := trackInForce s } rfl rfl rfl)).frame (reflNotice_only rfl _ _)

theorem planModes_keepsSeal (h : KeepsSeal s₀ s) : KeepsSeal s₀ (planModes s) :=
  h.wrote { s.glb with tempered := _, broad := _ } rfl rfl rfl

theorem planEvaluate_keepsSeal (h : KeepsSeal s₀ s) : KeepsSeal s₀ (planEvaluate s) := by
  have h1 := h.frame fun k => planAuto_only rfl _ (planChannels_only rfl _ (planLean_only rfl _ (takeDelays_only rfl _ k)))
  exact (planModes_keepsSeal h1).frame fun k => planPublish_only rfl _ (stepMove_only rfl _ k)

theorem planEvaluation_keepsSeal (h : KeepsSeal s₀ s) : KeepsSeal s₀ (planEvaluation s) :=
  .ite (planEvaluate_keepsSeal (h.sameGlb rfl)) h

theorem modesAtReset_keepsSeal (h : KeepsSeal s₀ s) : KeepsSeal s₀ (modesAtReset s) :=
  h.wrote { s.glb with reflect := _, agile := _, tempered := _, broad := _ } rfl rfl rfl

end

/-! ### The Round, fences and takeovers -/

section
variable {s₀ s : State} {n u : Nat}

theorem roundEnd_keepsSeal {fin : Nat} (h : KeepsSeal s₀ s) : KeepsSeal s₀ (roundEnd s fin) := by
  refine .frame ?_ fun k => journalRequest_only rfl _ _ (State.setRound_only rfl _ _
    (ageingAppend_only rfl _ _ (autoRelease_only rfl _ k)))
  have h1 := h.frame fun k => State.setRf_only rfl _ 0x3208 5 4 fin
    (roundRecord_only rfl s 5 0 s.round.unit s.round.role fin 0 0 k)
  exact wroteReflect_keepsSeal h1 rfl

theorem testComplete_keepsSeal (h : KeepsSeal s₀ s) : KeepsSeal s₀ (testComplete s u) :=
  .ite (roundEnd_keepsSeal (h.frame fun k => becomeSpare_only rfl _ _ (setTest_only rfl _ _ _ k)))
    (h.frame (testPassed_only rfl _ _))

theorem abortStep_keepsSeal {x : UTest} (h : KeepsSeal s₀ s) : KeepsSeal s₀ (abortStep s u x) :=
  .ite (h.frame fun k => State.setRound_only rfl _ _ (setTest_only rfl _ _ _ k)) (testComplete_keepsSeal h)

theorem afterHandBack_keepsSeal (h : KeepsSeal s₀ s) : KeepsSeal s₀ (afterHandBack s) :=
  .ite (roundEnd_keepsSeal h) <| .ite (h.frame (roundTurn_only rfl _ _)) <|
    h.frame fun k => uncoverAll_only rfl _ (State.setRound_only rfl _ _ (startTest_only rfl _ _ _ k))

theorem fenceSpare_keepsSeal {code : Nat} {d0 d1 : Word} (h : KeepsSeal s₀ s) : KeepsSeal s₀ (fenceSpare s u code d0 d1) := by
  unfold fenceSpare
  dsimp only
  split
  · have h1 := h.frame fun k => startTest_only rfl _ u none (uncoverAll_only rfl _
      (regionFaultRecord_only rfl _ 4 u code d0 d1 (setUnitState_only rfl _ u 2 k)))
    split
    · exact h1.frame fun k => uncover_only rfl _ _ _ (State.setTakeover_only rfl _ _ k)
    · exact h1
  · split
    · exact chipFatal_keepsSeal (h.frame fun k => uncoverAll_only rfl _ (fenceOff_only rfl _ _ _ _ _ _ _ k))
    · exact roundEnd_keepsSeal (h.frame fun k => uncoverAll_only rfl _ (regionFaultRecord_only rfl _ _ _ _ _ _
        (setUnitState_only rfl _ _ _ (handBackRecord_only rfl _ _ k))))
  · have h1 := h.frame fun k => setOwner_only rfl _ (heldRole s) false
      (uncoverAll_only rfl _ (fenceOff_only rfl _ (heldRole s) 4 u code d0 d1 k))
    split
    · exact h1.frame fun k => startTest_only rfl _ _ _ (uncover_only rfl _ _ _ k)
    · exact chipFatal_keepsSeal h1

theorem fenceResult_keepsSeal {warm : Bool} (h : KeepsSeal s₀ s) : KeepsSeal s₀ (fenceResult s n u warm) :=
  .ite (chipFatal_keepsSeal h) (.ite (h.frame (takeoverFrom_only rfl _ _ _ _)) (h.frame (uncover_only rfl _ _ _)))

theorem fenceDuringLend_keepsSeal (h : KeepsSeal s₀ s) : KeepsSeal s₀ (fenceDuringLend s n u) :=
  fenceResult_keepsSeal (roundEnd_keepsSeal (h.frame (handBackRecord_only rfl _ _)))

theorem fenceServing_keepsSeal {code : Nat} {d0 d1 : Word} (h : KeepsSeal s₀ s) :
    KeepsSeal s₀ (fenceServing s n u code d0 d1) := by
  have h1 := h.frame (fenceOff_only rfl s n n u code d0 d1)
  exact .ite (fenceDuringLend_keepsSeal h1) (.ite (roundEnd_keepsSeal (fenceResult_keepsSeal h1)) (fenceResult_keepsSeal h1))

theorem fence_keepsSeal {code : Nat} {d0 d1 : Word} (h : KeepsSeal s₀ s) : KeepsSeal s₀ (fence s u code d0 d1) :=
  .ite h <| .ite (.ite (fenceSpare_keepsSeal h) h) <| .ite (fenceServing_keepsSeal h) h

/-- An action of the Warden keeps what its operation keeps. -/
theorem wardenAct_keepsSeal {byRound : Bool} {f : State → State} (hf : ∀ v, KeepsSeal s₀ v → KeepsSeal s₀ (f v))
    (h : KeepsSeal s₀ s) : KeepsSeal s₀ (wardenAct byRound f s) := by
  have h1 := (hf s h).frame (roundPoll_only rfl _)
  exact KeepsSeal.frame (.ite (h1.frame (journalRequest_only rfl _ _)) h1)
    fun k => reflNotice_only rfl _ _ (progressNote_only rfl _ k)

theorem regionTakeover_keepsSeal (h : KeepsSeal s₀ s) : KeepsSeal s₀ (regionTakeover s n).2 := by
  unfold regionTakeover
  split
  · exact h
  split
  · exact h
  · dsimp only
    exact wardenAct_keepsSeal (fun _ => fence_keepsSeal) h

theorem roundAbort_keepsSeal (h : KeepsSeal s₀ s) : KeepsSeal s₀ (roundAbort s).2 := by
  unfold roundAbort
  split
  · exact h
  · dsimp only
    exact wardenAct_keepsSeal (fun _ => roundEnd_keepsSeal) h
  · exact h.frame (State.setRound_only rfl _ _)

theorem eccEffect_keepsSeal {store inst : Nat} {a syn : Word} (h : KeepsSeal s₀ s) :
    KeepsSeal s₀ (eccEffect s store inst a syn) := by
  unfold eccEffect
  dsimp only
  have mem {v : State} (k : KeepsSeal s₀ v) := k.frame (faultRecord_only rfl v lvMemory 0x20 store 0 a syn)
  split
  · exact fence_keepsSeal h
  · exact h.frame (reflectionLost_only rfl _ _ _ _)
  · exact mem (h.frame (eccProfile_only rfl _ _))
  · exact mem (h.frame (eccModel_only rfl _ _))
  · exact mem (h.frame (eccTable_only rfl _ _))
  · exact mem (h.frame (eccWheel_only rfl _ _))
  · exact mem h
  · exact chipFatal_keepsSeal h
  · exact mem (h.frame (eccRetention_only rfl _ _))
  · exact h

theorem eccRead_keepsSeal {store inst addr : Nat} {err : BitVec 144} (h : KeepsSeal s₀ s) :
    KeepsSeal s₀ (eccRead s store inst addr err) := by
  unfold eccRead
  dsimp only
  split
  · exact h
  · exact h.frame (eccCount_only rfl _ _ _ _)
  · exact eccEffect_keepsSeal (h.frame fun k => eccLast_only rfl _ _ _ _ (eccCount_only rfl _ _ _ _ k))

theorem scrubTick_keepsSeal {store inst addr : Nat} {err : BitVec 144} (h : KeepsSeal s₀ s) :
    KeepsSeal s₀ (scrubTick s store inst addr err) :=
  have h1 := h.frame (scrubMove_only rfl s)
  .ite h (.ite (eccRead_keepsSeal h1) (eccRead_keepsSeal h1))

theorem heartbeatTimeout_keepsSeal (h : KeepsSeal s₀ s) : KeepsSeal s₀ (heartbeatTimeout s u) :=
  .ite (fence_keepsSeal (h.frame (State.setUnit_only rfl _ _ _))) h

theorem handBackNow_keepsSeal (h : KeepsSeal s₀ s) : KeepsSeal s₀ (handBackNow s n) := by
  have h1 := h.frame (handBackRecord_only rfl s n)
  exact .ite (afterHandBack_keepsSeal h1) (h1.frame fun k => uncoverAll_only rfl _ (State.setRound_only rfl _ _ k))

theorem lend_keepsSeal (h : KeepsSeal s₀ s) : KeepsSeal s₀ (lend s) := by
  refine wroteReflect_keepsSeal (x := 2) ?_ rfl
  exact h.frame fun k => State.setRefl_only rfl _ _ _ (State.setTakeover_only rfl _ _ (startTest_only rfl _ _ _
    (setUnitState_only rfl _ _ _ (State.setRf_only rfl _ _ _ _ _ (setOwner_only rfl _ _ _ (epochsUp_only rfl _ _
      (loadSpare_only rfl _ _ _ k)))))))

theorem quietWaitExpiry_keepsSeal (h : KeepsSeal s₀ s) : KeepsSeal s₀ (quietWaitExpiry s) := by
  unfold quietWaitExpiry
  split
  · split
    · exact handBackNow_keepsSeal h
    · exact .ite (lend_keepsSeal h) h
  · exact h

theorem reflectionCopyDone_keepsSeal (h : KeepsSeal s₀ s) : KeepsSeal s₀ (reflectionCopyDone s n) :=
  .ite h <| .ite (h.frame (State.setRefl_only rfl _ _ _)) <| .ite (wroteReflect_keepsSeal h rfl) h

theorem roundHandBack_keepsSeal (h : KeepsSeal s₀ s) : KeepsSeal s₀ (roundHandBack s) := by
  unfold roundHandBack
  split
  · exact .ite (handBackNow_keepsSeal h) h
  · exact h

theorem roundLend_keepsSeal (h : KeepsSeal s₀ s) : KeepsSeal s₀ (roundLend s) := .ite (lend_keepsSeal h) h

theorem roundPostponed_keepsSeal (h : KeepsSeal s₀ s) : KeepsSeal s₀ (roundPostponed s) := .ite (roundEnd_keepsSeal h) h

theorem testFails_keepsSeal {x : UTest} (h : KeepsSeal s₀ s) : KeepsSeal s₀ (testFails s u x) := by
  unfold testFails
  extract_lets s1 s2
  have h1 : KeepsSeal s₀ s1 := h.frame fun k =>
    setTest_only rfl _ _ _ (regionFaultRecord_only rfl _ _ _ _ _ _ (retire_only rfl _ _ k))
  have h2 : KeepsSeal s₀ s2 := .ite (h1.frame fun k => uncoverAll_only rfl _ (setUnitState_only rfl _ _ _ k)) h1
  exact .ite (roundEnd_keepsSeal (h2.frame (roundRecord_only rfl _ _ _ _ _ _ _ _))) h2

theorem testStepDone_keepsSeal {pass : Bool} (h : KeepsSeal s₀ s) : KeepsSeal s₀ (testStepDone s u pass) := by
  unfold testStepDone
  split
  · dsimp only
    refine .ite h (.ite (testFails_keepsSeal h) (.ite (abortStep_keepsSeal ?_) (.ite (testComplete_keepsSeal ?_)
      (.frame ?_ (nextStep_only rfl _ _ _)))))
    all_goals exact .ite (h.frame (roundRecord_only rfl _ _ _ _ _ _ _ _)) h
  · exact h

end

/-! ### Converters: a reference that fails (R280) -/

section
variable {s₀ s : State}

theorem refJudge_keepsSeal (h : KeepsSeal s₀ s) : KeepsSeal s₀ (refJudge s) := by
  unfold refJudge
  split
  · exact .frame (s := { s with ref := { s.ref with unresolved := true } }) (h.sameGlb rfl) (State.arrive_only rfl _ _)
  · refine .frame ?_ fun k => State.arrive_only rfl _ _ (switchAway_only rfl _ _ k)
    exact h.sameGlb rfl
  · refine .frame ?_ fun k => State.arrive_only rfl _ _ (switchAway_only rfl _ _ k)
    exact h.sameGlb rfl
  · exact fatalNow_keepsSeal (h.frame (State.arrive_only rfl _ _))

theorem refDecide_keepsSeal (h : KeepsSeal s₀ s) : KeepsSeal s₀ (refDecide s) := by
  unfold refDecide
  dsimp only
  exact .ite (refJudge_keepsSeal (h.sameGlb rfl)) (h.sameGlb rfl)

theorem refEnd_keepsSeal {k code : Nat} {half : Bool} (h : KeepsSeal s₀ s) : KeepsSeal s₀ (refEnd s k half code) := by
  unfold refEnd
  dsimp only
  have put {a hi lo : Nat} := h.frame (State.setRf_only rfl s a hi lo code)
  refine .ite (refDecide_keepsSeal ?_) ?_ <;> exact .ite (.ite put put) (.ite put put)

theorem conversionEnd_keepsSeal {k raw : Nat} {ovrHi ovrLo : Bool} (h : KeepsSeal s₀ s) :
    KeepsSeal s₀ (conversionEnd s k raw ovrHi ovrLo) := by
  unfold conversionEnd
  split
  · dsimp only
    refine .ite h ?_
    have h1 := h.frame (State.setConv_only rfl s k { s.conv k with cur := none })
    split
    · exact h1.frame (stepEnd_only rfl _ _ _ _ _ _)
    · exact h1.frame (kinkSample_only rfl _ _ _ _)
    · exact refEnd_keepsSeal h1
    · exact refEnd_keepsSeal h1
    · exact h1.frame (calEnd_only rfl _ _ _ _ _)
  · exact h

end

/-! ### Register and table writes -/

section
variable {s₀ s : State} {a : Nat} {v : Word}

theorem glbWrite_keepsSeal (h : KeepsSeal s₀ s) : KeepsSeal s₀ (glbWrite s a v) :=
  .ite (modeRequest_keepsSeal h) <| .ite (.ite (h.frame (State.setReg_only rfl _ _ _)) h) <|
    .ite (h.wrote { s.glb with cause := (ofNat32 s.glb.cause &&& ~~~ (v &&& 0x3F)).toNat } rfl rfl rfl)
      (h.frame (plainPut_only rfl _ _ _))

theorem blockWrite_keepsSeal (h : KeepsSeal s₀ s) : KeepsSeal s₀ (blockWrite s a v) :=
  .ite (glbWrite_keepsSeal h) <| .ite (h.frame (hifWrite_only rfl _ _ _)) <| .ite (h.frame (pwrWrite_only rfl _ _ _)) <|
    .ite (h.frame (plainPut_only rfl _ _ _)) <| .ite (h.frame (irqWrite_only rfl _ _ _)) <|
    .ite (h.frame (xfrWrite_only rfl _ _ _)) <| .ite (h.frame (queWrite_only rfl _ _ _)) <|
    .ite (h.frame (vlkWrite_only rfl _ _ _)) <| .ite (h.frame (reelWrite_only rfl _ _ _)) <|
    .ite (h.frame (atuWrite_only rfl _ _ _)) <| .ite (h.frame (adcWrite_only rfl _ _ _)) <|
    .ite (h.frame (cmpWrite_only rfl _ _ _)) <| .ite (h.frame (regionWrite_only rfl _ _ _ _)) h

theorem regWrite_keepsSeal (h : KeepsSeal s₀ s) : KeepsSeal s₀ (regWrite s a v) :=
  .ite (configChanged_keepsSeal (blockWrite_keepsSeal h)) (blockWrite_keepsSeal h)

theorem eventWrite_keepsSeal {n slot : Nat} {l : List (Nat × Word)} (h : KeepsSeal s₀ s) :
    KeepsSeal s₀ (eventWrite s n slot l) :=
  .ite (h.frame (State.setUnit_only rfl _ _ _)) (configChanged_keepsSeal (h.frame (State.setUnit_only rfl _ _ _)))

theorem storeWords_configChanged_keepsSeal {l : List (Nat × Word)} (h : KeepsSeal s₀ s) :
    KeepsSeal s₀ (storeWords s l).configChanged := configChanged_keepsSeal (h.frame (storeWords_only rfl _ _))

theorem wheelWrite_keepsSeal {l : List (Nat × Word)} {d o : Nat} (h : KeepsSeal s₀ s) : KeepsSeal s₀ (wheelWrite s l d o) :=
  .ite (.ite (h.frame (State.cntSat_only rfl _ _ _ _ _)) (storeWords_configChanged_keepsSeal h)) <|
    .ite (h.frame fun k => storeWords_only rfl _ _ (profileTouched_only rfl _ _ k)) <|
    .ite (.ite (storeWords_configChanged_keepsSeal h) h) h

theorem balStore_keepsSeal {l : List (Nat × Word)} (h : KeepsSeal s₀ s) : KeepsSeal s₀ (balStore s l) := by
  unfold balStore
  dsimp only
  have h1 := KeepsSeal.ite (c := wbit (wordAt (balEdit s l) 0) 31 = true) h (h.frame (balClear_only rfl _))
  have h2 := storeWords_configChanged_keepsSeal (l := l) h1
  exact .ite (.foldl (fun _ _ k => k.frame (tlmUndef_only rfl _ _ _ _)) h2) h2

theorem bar2Store_keepsSeal {l : List (Nat × Word)} (h : KeepsSeal s₀ s) : KeepsSeal s₀ (bar2Store s a l) := by
  unfold bar2Store
  refine .ite (eventWrite_keepsSeal h) <| .ite ?_ <| .ite (wheelWrite_keepsSeal h) <| .ite ?_ <| .ite ?_ <|
    .ite (storeWords_configChanged_keepsSeal h) <| .ite ?_ h
  · exact .ite (h.frame (State.cntSat_only rfl _ _ _ _ _)) (storeWords_configChanged_keepsSeal h)
  · exact .ite (configChanged_keepsSeal (h.frame (sideStore_only rfl _ _))) h
  · exact .ite (h.frame (State.cntSat_only rfl _ _ _ _ _)) (balStore_keepsSeal h)
  · exact configChanged_keepsSeal
      (.foldl (fun _ _ k => k.frame (reelImemWord_only rfl _ _ _)) (h.frame (State.reelTurn_only rfl _ _)))

theorem bar2Write_keepsSeal {size : Nat} {v : BitVec 64} (h : KeepsSeal s₀ s) : KeepsSeal s₀ (bar2Write s a size v) :=
  .ite (refuseWrite_keepsSeal h) (.ite (unFirst_keepsSeal h) (bar2Store_keepsSeal (unFirst_keepsSeal h)))

theorem msixTableWrite_keepsSeal {size : Nat} {v : BitVec 64} (h : KeepsSeal s₀ s) :
    KeepsSeal s₀ (msixTableWrite s a size v) := by
  unfold msixTableWrite
  extract_lets s1 s2
  have h2 : KeepsSeal s₀ s2 := .foldl (fun _ _ k => k.frame (State.setReg_only rfl _ _ _)) (unFirst_keepsSeal h)
  exact .ite (h2.sameGlb rfl) (unFirst_keepsSeal h)

theorem runStart_keepsSeal (h : KeepsSeal s₀ s) : KeepsSeal s₀ (runStart s) :=
  .ite ((refuseWrite_keepsSeal h).frame (clearHostReset_only rfl _))
    ((unFirst_keepsSeal h).frame fun k => clearHostReset_only rfl _ (runAccepted_only rfl _ k))

theorem sealedWrite_keepsSeal {size : Nat} (h : KeepsSeal s₀ s) : KeepsSeal s₀ (sealedWrite s a size v) :=
  .ite (.ite (regWrite_keepsSeal (unFirst_keepsSeal h)) (.ite (runStart_keepsSeal h) (refuseWrite_keepsSeal h)))
    (refuseWrite_keepsSeal h)

end

/-! ### Host reads -/

section
variable {s₀ s : State}

theorem dtimeHighRead_keepsSeal (h : KeepsSeal s₀ s) : KeepsSeal s₀ (dtimeHighRead s) := by
  unfold dtimeHighRead
  split
  · refine .frame ?_ (State.answer_only rfl _ _)
    exact h.wrote { s.glb with timeHigh := none } rfl rfl rfl
  · exact h.frame (State.answer_only rfl _ _)

theorem dtimeRead_keepsSeal (h : KeepsSeal s₀ s) : KeepsSeal s₀ (dtimeRead s) := by
  refine .frame (s := { s with glb := { s.glb with timeHigh := some (hi32 s.dtime), qualLatch := s.clk.qual } }) ?_
    (State.answer_only rfl _ _)
  exact h.wrote { s.glb with timeHigh := some (hi32 s.dtime), qualLatch := s.clk.qual } rfl rfl rfl

theorem bar0Read_keepsSeal {a : Nat} (h : KeepsSeal s₀ s) : KeepsSeal s₀ (bar0Read s a) := by
  have answered {w : List Word} := h.frame (State.answer_only rfl s w)
  unfold bar0Read
  refine .ite answered <| .ite (dtimeRead_keepsSeal h) <| .ite (dtimeHighRead_keepsSeal h) <|
    .ite (h.frame (hostClaim_only rfl _ _)) <| .ite (h.frame (reelRx_only rfl _ _)) <| .ite ?_ ?_
  · exact h.sameGlb rfl
  · split
    · exact h.sameGlb rfl
    · exact answered

theorem hostRead_keepsSeal {sp : ReadSpace} {a size : Nat} (h : KeepsSeal s₀ s) : KeepsSeal s₀ (hostRead s sp a size) := by
  cases sp with
  | bar0 => exact .ite (h.frame (State.answer_only rfl _ _)) (.ite (bar0Read_keepsSeal h) (h.frame (State.answer_only rfl _ _)))
  | bar2 => exact h.frame (bar2Access_only rfl _ _ _)
  | config => exact h.frame (configRead_only rfl _ _)

end

/-! ### Ring commands -/

section
variable {s₀ s : State} {c : Fetched}

/-- A command at the head of its ring keeps what its operation keeps. -/
theorem ringCmd_keepsSeal {op r : Nat} {f : State → Fetched → Reply × State}
    (hf : ∀ v c, KeepsSeal s₀ v → KeepsSeal s₀ (f v c).2) (h : KeepsSeal s₀ s) : KeepsSeal s₀ (ringCmd op r f s) := by
  have answered {c : Fetched} {y : Reply} := h.frame (finish_only rfl s r c y)
  have applied {c : Fetched} := (hf s c h).frame (finish_only rfl _ r c (f s c).1)
  unfold ringCmd
  split
  · exact h
  · refine .ite h (.ite answered (.ite answered ?_))
    split
    · exact .ite answered (.ite h (.ite answered applied))
    · exact applied

theorem slotCmd_keepsSeal {op r : Nat} {f : State → Fetched → Reply × State}
    (hf : ∀ v c, KeepsSeal s₀ v → KeepsSeal s₀ (f v c).2) (h : KeepsSeal s₀ s) : KeepsSeal s₀ (slotCmd op r f s) :=
  ringCmd_keepsSeal hf (h.frame (anglesTo_only rfl _ _))

theorem reelDo_keepsSeal {f : State → Fetched → Reply × State} (hf : ∀ v c, KeepsSeal s₀ v → KeepsSeal s₀ (f v c).2)
    (h : KeepsSeal s₀ s) : KeepsSeal s₀ (reelDo f s c).2 :=
  hf _ _ (h.frame (State.reelTurn_only rfl _ _))

theorem doArm_keepsSeal (h : KeepsSeal s₀ s) : KeepsSeal s₀ (doArm s c).2 := by
  unfold doArm
  split
  · have h1 : KeepsSeal s₀ { s with glb := { s.glb with armed := true } } := h.wrote { s.glb with armed := true } rfl rfl rfl
    refine .ite (.frame ?_ fun k => roundArmed_only rfl _ (reelReview_only rfl _ k)) (h1.frame (roundArmed_only rfl _))
    exact h1.wrote { s.glb with armed := true, safeHold := false } rfl rfl rfl
  · exact h

theorem armCmd_keepsSeal {r : Nat} (h : KeepsSeal s₀ s) : KeepsSeal s₀ (armCmd r s) :=
  .ite h (ringCmd_keepsSeal (fun _ _ => doArm_keepsSeal) h)

theorem doModeSet_keepsSeal (h : KeepsSeal s₀ s) : KeepsSeal s₀ (doModeSet s c).2 := by
  unfold doModeSet
  split
  · exact (planEvaluate_keepsSeal (regWrite_keepsSeal h)).frame (roundPoll_only rfl _)
  · exact h

theorem cfgApply_keepsSeal {es : List CfgEntry} (h : KeepsSeal s₀ s) : KeepsSeal s₀ (cfgApply s es) := by
  refine .frame (.foldl (fun u p k => ?_) h) (State.irqReview_only rfl _)
  have h1 := k.frame (plainPut_only rfl u p.1 p.2.2)
  exact .ite (.ite (configChanged_keepsSeal h1) h1) (regWrite_keepsSeal k)

theorem doCfgWrite_keepsSeal (h : KeepsSeal s₀ s) : KeepsSeal s₀ (doCfgWrite s c).2 := by
  unfold doCfgWrite
  dsimp only
  split
  · exact .ite (h.frame (cfgClassErr_only rfl _ _ _)) h
  · split <;> exact cfgApply_keepsSeal h

theorem areaWrite_keepsSeal {area : TArea} {l : List (Nat × Word)} (h : KeepsSeal s₀ s) :
    KeepsSeal s₀ (areaWrite s area l).2 := by
  have stored := h.frame (storeWords_only rfl s l)
  unfold areaWrite
  split
  · split
    · exact h
    · exact configChanged_keepsSeal stored
  · exact h.frame fun k => storeWords_only rfl _ _ (profileTouched_only rfl _ _ k)
  · split
    · exact h.sameGlb rfl
    · exact configChanged_keepsSeal stored
  · split
    · exact h
    · exact balStore_keepsSeal h
  · split
    · exact h.frame (tableFails_only rfl _ _)
    · exact configChanged_keepsSeal (stored.frame (tableTake_only rfl _))

theorem doTableWrite_keepsSeal (h : KeepsSeal s₀ s) : KeepsSeal s₀ (doTableWrite s c).2 := by
  unfold doTableWrite
  split
  · exact h
  · split
    · exact h
    · split
      · exact h
      · exact areaWrite_keepsSeal h

theorem doAdcStepWrite_keepsSeal (h : KeepsSeal s₀ s) : KeepsSeal s₀ (doAdcStepWrite s c).2 := by
  unfold doAdcStepWrite
  dsimp only
  split_ifs
  · exact h
  · exact configChanged_keepsSeal (h.frame (adcStepPut_only rfl _ _ _ _))
  · exact h

theorem doProfileWrite_keepsSeal (h : KeepsSeal s₀ s) : KeepsSeal s₀ (doProfileWrite s c).2 := by
  unfold doProfileWrite
  dsimp only
  split
  · exact h
  · split_ifs
    · exact h
    · exact configChanged_keepsSeal (h.frame fun k => State.setCell_only rfl _ _ _ (State.putWords_only rfl _ _ _
        (State.keepPast_only rfl _ k)))

theorem doModelWrite_keepsSeal (h : KeepsSeal s₀ s) : KeepsSeal s₀ (doModelWrite s c).2 := by
  unfold doModelWrite
  dsimp only
  split
  · exact h
  · rename_i n _
    have stored {l : List (Nat × Word)} := h.frame fun k => storeWords_only rfl _ l (State.keepPast_only rfl s k)
    split_ifs
    · exact h
    · exact configChanged_keepsSeal stored
    · exact configChanged_keepsSeal (stored.frame (State.setCell_only rfl _ _ _))
    · exact h

theorem doPlanEval_keepsSeal (h : KeepsSeal s₀ s) : KeepsSeal s₀ (doPlanEval s c).2 := planEvaluate_keepsSeal h

theorem doPwrSet_keepsSeal (h : KeepsSeal s₀ s) : KeepsSeal s₀ (doPwrSet s c).2 := by
  unfold doPwrSet pwrSet
  dsimp only
  split_ifs
  · exact h
  · exact configChanged_keepsSeal (h.frame fun k => State.setRf_only rfl _ _ _ _ _ (State.setReg_only rfl _ _ _
      (State.setRf_only rfl _ _ _ _ _ k)))

theorem doReelImemWrite_keepsSeal (h : KeepsSeal s₀ s) : KeepsSeal s₀ (doReelImemWrite s c).2 := by
  unfold doReelImemWrite
  dsimp only
  split
  · exact h
  · split
    · exact h
    · exact configChanged_keepsSeal (h.frame (State.putWords_only rfl _ _ _))

theorem doReelWrap_keepsSeal (h : KeepsSeal s₀ s) : KeepsSeal s₀ (doReelWrap s c).2 :=
  configChanged_keepsSeal (h.frame (reelWrapSet_only rfl _ _ _ _))

theorem doReelControl_keepsSeal (h : KeepsSeal s₀ s) : KeepsSeal s₀ (doReelControl s c).2 := by
  unfold doReelControl
  extract_lets m w t1 t2 t3 t4 t5
  split
  · exact h
  · have h1 : KeepsSeal s₀ t1 :=
      .ite (configChanged_keepsSeal (h.frame (onEngines_only rfl _ _ _ fun _ _ => reelDisable_only rfl _ _))) h
    have h2 : KeepsSeal s₀ t2 :=
      .ite (configChanged_keepsSeal (h1.frame (onEngines_only rfl _ _ _ fun _ _ => reelEnable_only rfl _ _))) h1
    have h3 : KeepsSeal s₀ t3 := .ite (h2.frame (onEngines_only rfl _ _ _ fun _ _ => reelRestart_only rfl _ _)) h2
    have h4 : KeepsSeal s₀ t4 := .ite (h3.frame (onEngines_only rfl _ _ _ fun _ _ => reelFlushOut_only rfl _ _)) h3
    exact .ite (h4.frame (onEngines_only rfl _ _ _ fun _ _ => reelFlushIn_only rfl _ _)) h4

theorem doShadowDrop_keepsSeal (h : KeepsSeal s₀ s) : KeepsSeal s₀ (doShadowDrop s c).2 :=
  configIf_keepsSeal (h.frame fun k => countCmd_only rfl _ _ _ (shadowDrop_only rfl _ _ _ k))

theorem doSlotWrite_keepsSeal (h : KeepsSeal s₀ s) : KeepsSeal s₀ (doSlotWrite s c).2 := by
  unfold doSlotWrite
  extract_lets n r t
  have h1 : KeepsSeal s₀ t := configIf_keepsSeal (h.frame fun k => countCmd_only rfl _ _ _ (slotWrite_only rfl _ _ _ _ _ _ k))
  exact .ite (h1.frame (keepArm_only rfl _ _ _)) h1

theorem doRegionTakeover_keepsSeal (h : KeepsSeal s₀ s) : KeepsSeal s₀ (doRegionTakeover s c).2 := regionTakeover_keepsSeal h

theorem doRoundAbort_keepsSeal (h : KeepsSeal s₀ s) : KeepsSeal s₀ (doRoundAbort s c).2 := roundAbort_keepsSeal h

end

/-! ### The restore and the loss of lock -/

section
variable {s₀ s : State}

theorem pllLockLoss_keepsSeal (h : KeepsSeal s₀ s) : KeepsSeal s₀ (pllLockLoss s) := by
  unfold pllLockLoss
  extract_lets s1 s2
  have h1 : KeepsSeal s₀ s1 := h.frame (State.setRf_only rfl _ _ _ _ _)
  exact fatalNow_keepsSeal (.ite (h1.frame fun k => setQual_only rfl _ _ (clockTo_only rfl _ _ k)) h1)

theorem restoreLoad_keepsSeal (h : KeepsSeal s₀ s) : KeepsSeal s₀ (restoreLoad s) := by
  unfold restoreLoad
  dsimp only
  refine .ite (h.wrote { s.glb with cause := s.glb.cause ||| 1 } rfl rfl rfl) (.frame ?_ fun k =>
    loadBody_only rfl _ _ (State.setRf_only rfl _ _ _ _ _ k))
  exact h.sameGlb rfl

theorem restoreEnable_keepsSeal (h : KeepsSeal s₀ s) : KeepsSeal s₀ (restoreEnable s) :=
  have h1 := h.frame (enableConfigured_only rfl s)
  .ite h1 (configChanged_keepsSeal h1)

theorem restoreDigest_keepsSeal (h : KeepsSeal s₀ s) : KeepsSeal s₀ (restoreDigest s) :=
  h.wrote { s.glb with digest := digestOf (configImage s), digestDue := false } rfl rfl rfl

theorem restore_keepsSeal (h : KeepsSeal s₀ s) : KeepsSeal s₀ (restore s) := by
  have h1 := restoreLoad_keepsSeal (h.frame (restoreSelect_only rfl _))
  have h2 := restoreEnable_keepsSeal (restoreDigest_keepsSeal (h1.frame (restoreUnits_only rfl _)))
  exact KeepsSeal.frame (.foldl (fun _ _ k => k.frame (beginUnverified_only rfl _ _)) (h2.frame (State.setRf_only rfl _ _ _ _ _)))
    (coverRestart_only rfl _)

theorem restoreBlocks_keepsSeal (h : KeepsSeal s₀ s) : KeepsSeal s₀ (restoreBlocks s) := by
  unfold restoreBlocks
  extract_lets s1 s2 fresh vlk s3
  have h1 : KeepsSeal s₀ s1 := .foldl (fun _ _ k => .ite (k.frame (adcStart_only rfl _ _)) k) h
  have h2 : KeepsSeal s₀ s2 := .foldl (fun _ _ k => k.frame (State.setUnit_only rfl _ _ _)) h1
  have hf : KeepsSeal s₀ fresh := h2.frame (vlkFresh_only rfl _)
  have h3 : KeepsSeal s₀ s3 := .ite (hf.sameGlb rfl) h2
  exact (modesAtReset_keepsSeal (h3.frame (xfrTimersStart_only rfl _))).frame (State.irqReview_only rfl _)

theorem restoreDone_keepsSeal (h : KeepsSeal s₀ s) : KeepsSeal s₀ (restoreDone s) :=
  .ite h ((restoreBlocks_keepsSeal (restore_keepsSeal h)).frame (progressNote_only rfl _))

end

end Sys2Proof.Machine

/-!
PROOFS. The seal lasts until the next reset (R49), command by command: a command whose footprint leaves out the global state leaves
the seal with it, and the operation of any other command keeps the seal or resets the device.
-/
namespace Sys2Proof.Machine

/-! ### Every command: the global state outside the footprint -/

section
variable {t : Nat} {s u : State} {f : State → State}

/-- A command of the running device leaves the global state as it is when its operation does. -/
theorem act_glb (h : act t s f = .next u) (hf : ∀ v, Only beyondGlb v v → Only beyondGlb v (f v)) : u.glb = s.glb := by
  obtain rfl := Host.Outcome.next.inj h
  unfold awake
  split
  · rfl
  · exact (hf _ (.refl _ _)).glb_eq

/-- So does a command that always reaches the block: `w` is what its operation makes of the state at tick `t`. -/
theorem run_glb {w : State} (h : (.next w : Host.Outcome State Fault Refusal) = .next u)
    (hw : Only beyondGlb (s.tick t) (s.tick t) → Only beyondGlb (s.tick t) w) : u.glb = s.glb := by
  obtain rfl := Host.Outcome.next.inj h
  exact (hw (.refl _ _)).glb_eq

end

/-- A command whose footprint leaves out the global state leaves it as it is: its operation does, by its law. -/
theorem exec_glb_of_footprint {c : Instr} {s u : State} (hc : (footprint c).contains .glb = false) (h : exec c s = .next u) :
    u.glb = s.glb := by
  cases c with
  | poisonedRead =>
    obtain rfl := Host.Outcome.next.inj h
    exact (apply_ite State.glb _ _ _).trans (ite_self _)
  | fabricGrant => exact act_glb h fun _ => fabricGrant_only rfl _ _
  | class2Promotion => exact act_glb h fun _ => class2Promote_only rfl _ _
  | pllSwitch => exact act_glb h fun _ => pllSwitch_only rfl _ _
  | clockSwitch => exact act_glb h fun _ => clockSwitch_only rfl _
  | pllSwitchTimeout => exact act_glb h fun _ => pllTimeout_only rfl _
  | crankEdge => exact act_glb h fun _ k => crankEdgeCmd_only rfl _ _ _ _ _ (anglesTo_only rfl _ _ k)
  | vrArm => exact run_glb h (vrArmCmd_only rfl _ _ _ _)
  | crankTrailingEdge => exact act_glb h fun _ k => crankTrailing_only rfl _ _ _ (anglesTo_only rfl _ _ k)
  | widthLimitExpiry => exact act_glb h fun _ k => widthExpiry_only rfl _ _ (anglesTo_only rfl _ _ k)
  | camEdge => exact act_glb h fun _ k => camEdge_only rfl _ _ _ _ (anglesTo_only rfl _ _ k)
  | edgeTimeout => exact act_glb h fun _ => edgeTimeout_only rfl _ _ _
  | stallTimeout => exact act_glb h fun _ k => stallTimeout_only rfl _ _ _ (anglesTo_only rfl _ _ k)
  | contributionUpdate => exact act_glb h fun _ => contributionUpdate_only rfl _ _
  | zeroCrossing => exact act_glb h fun _ k => zeroCrossing_only rfl _ _ (anglesTo_only rfl _ _ k)
  | electricalStallTimeout => exact act_glb h fun _ k => elecStall_only rfl _ _ (anglesTo_only rfl _ _ k)
  | electricalNoneTimeout => exact act_glb h fun _ => elecNone_only rfl _ _
  | angleUpdate => exact act_glb h fun _ => angleUpdate_only rfl _ _
  | startUnitFree => exact act_glb h fun _ => startUnitFree_only rfl _ _
  | slotCancel => exact act_glb h fun _ => slotCmd_only rfl _ _ _ _ fun _ _ => doSlotCancel_only rfl _ _
  | domainCancel => exact act_glb h fun _ => slotCmd_only rfl _ _ _ _ fun _ _ => doDomainCancel_only rfl _ _
  | slotQuery => exact act_glb h fun _ => slotCmd_only rfl _ _ _ _ fun _ _ => doSlotQuery_only rfl _ _
  | startAdmit => exact act_glb h fun _ => tryAdmit_only rfl _ _
  | overlapTimeout => exact act_glb h fun _ => overlapTimeout_only rfl _ _
  | reboostWaitExpiry => exact act_glb h fun _ => reboostExpiry_only rfl _ _
  | windowCrossing => exact act_glb h fun _ => windowCrossing_only rfl _ _ _
  | phaseTimerExpiry => exact act_glb h fun _ => phaseTimer_only rfl _ _
  | timeCapExpiry => exact act_glb h fun _ => timeCapExpiry_only rfl _ _
  | mixFastExpiry => exact act_glb h fun _ => mixExpiry_only rfl _ _
  | ditherHalfPeriod => exact act_glb h fun _ => ditherHalf_only rfl _ _
  | holdExpiry => exact act_glb h fun _ => holdExpiry_only rfl _ _
  | kinkResult => exact act_glb h fun _ => kinkResult_only rfl _ _
  | leakTimeout => exact act_glb h fun _ => leakTimeout_only rfl _ _
  | blankingEnd => exact act_glb h fun _ => blankingEnd_only rfl _ _
  | initialDecision => exact act_glb h fun _ => initialDecision_only rfl _ _ _
  | modelReset => exact act_glb h fun _ => ringCmd_only rfl _ _ _ _ fun _ _ => doModelReset_only rfl _ _
  | pressureSet => exact act_glb h fun _ => ringCmd_only rfl _ _ _ _ fun _ _ => doPressureSet_only rfl _ _
  | converterTimerExpiry => exact act_glb h fun _ k => convUnless_only rfl _ _ _ k (converterTimer_only rfl _ _ _ k)
  | stepReady => exact act_glb h fun _ k => convUnless_only rfl _ _ _ k (stepReady_only rfl _ _ _ k)
  | conversionStart => exact act_glb h fun _ k => convUnless_only rfl _ _ _ k (conversionStart_only rfl _ _ k)
  | maxwaitExpiry => exact act_glb h fun _ k => convUnless_only rfl _ _ _ k (maxwait_only rfl _ _ _ k)
  | referenceCheck => exact act_glb h fun _ k => .ite k (referenceCheck_only rfl _ k)
  | referenceSwitch => exact act_glb h fun _ k => convUnless_only rfl _ _ _ k (referenceSwitch_only rfl _ _ k)
  | calibrationDue => exact act_glb h fun _ k => convUnless_only rfl _ _ _ k (calibrationDue_only rfl _ _ k)
  | calSpanExpiry => exact act_glb h fun _ k => convUnless_only rfl _ _ _ k (calSpan_only rfl _ _ k)
  | calibrationApply => exact act_glb h fun _ k => convUnless_only rfl _ _ _ k (calibrationApply_only rfl _ _ k)
  | suspension => exact run_glb h fun k => .ite k (suspension_only rfl _ _ _ _ _ k)
  | doorbellPoll => exact act_glb h fun _ => doorbellPoll_only rfl _
  | pollDataReturn => exact act_glb h fun _ => pollAll_only rfl _ _ _ _
  | descriptorFetchDone => exact act_glb h fun _ => fetchDone_only rfl _ _ _ _
  | nop => exact act_glb h fun _ => ringCmd_only rfl _ _ _ _ fun _ _ => doNop_only rfl _ _
  | telemetryPeriod => exact act_glb h fun _ => telemetryPeriod_only rfl _ _
  | freshnessExpiry => exact act_glb h fun _ => freshnessDue_only rfl _ _
  | queueCloseTimeout => exact act_glb h fun _ => queueCloseTimeout_only rfl _ _
  | queueWordHead => exact act_glb h fun _ => queueWordHead_only rfl _ _
  | capturePairTimeout => exact act_glb h fun _ => capturePairDue_only rfl _ _
  | queFlush => exact act_glb h fun _ => ringCmd_only rfl _ _ _ _ fun _ _ => doQueFlush_only rfl _ _
  | queAck => exact act_glb h fun _ => ringCmd_only rfl _ _ _ _ fun _ _ => doQueAck_only rfl _ _
  | queClose => exact act_glb h fun _ => ringCmd_only rfl _ _ _ _ fun _ _ => doQueClose_only rfl _ _
  | xfrStart => exact act_glb h fun _ => ringCmd_only rfl _ _ _ _ fun _ _ => doXfrStart_only rfl _ _
  | xfrStop => exact act_glb h fun _ => ringCmd_only rfl _ _ _ _ fun _ _ => doXfrStop_only rfl _ _
  | xfrDescriptorFetched => exact act_glb h fun _ => xfrFetched_only rfl _ _ _
  | xfrTimerExpiry => exact act_glb h fun _ => xfrTimer_only rfl _ _
  | xfrReadData => exact act_glb h fun _ => xfrReadData_only rfl _ _ _
  | xfrBlockEnd => exact act_glb h fun _ => xfrBlockEnd_only rfl _ _
  | xfrLinkRead => exact act_glb h fun _ => xfrLinkRead_only rfl _ _ _
  | traceMark => exact act_glb h fun _ => ringCmd_only rfl _ _ _ _ fun _ _ => doTraceMark_only rfl _ _
  | traceRewind => exact act_glb h fun _ => ringCmd_only rfl _ _ _ _ fun _ _ => doTraceRewind_only rfl _ _
  | traceAdvance => exact act_glb h fun _ => ringCmd_only rfl _ _ _ _ fun _ _ => doTraceAdvance_only rfl _ _
  | holdoffExpiry => exact act_glb h fun _ => holdoffExpiry_only rfl _ _
  | msixMessage => exact act_glb h fun _ => msixIssue_only rfl _ _
  | goto | await | bitin | bitout | group | fill | drain | drive | load | move | flag | adjust =>
    exact act_glb h fun _ k => reelUnless_only rfl _ _ k (reelInstr_only rfl _ _ _ k)
  | reelDelayCycle => exact act_glb h fun _ k => reelUnless_only rfl _ _ k (reelIdle_only rfl _ _ k)
  | reelInject =>
    exact act_glb h fun _ => ringCmd_only rfl _ _ _ _ fun _ _ => reelDo_only rfl _ _ _ fun _ _ => doReelInject_only rfl _ _
  | reelWrite =>
    exact act_glb h fun _ => ringCmd_only rfl _ _ _ _ fun _ _ => reelDo_only rfl _ _ _ fun _ _ => doReelWrite_only rfl _ _
  | reelFlag =>
    exact act_glb h fun _ => ringCmd_only rfl _ _ _ _ fun _ _ => reelDo_only rfl _ _ _ fun _ _ => doReelFlag_only rfl _ _
  | reelInTransfer => exact act_glb h fun _ k => reelUnless_only rfl _ _ k (reelInTransfer_only rfl _ _ k)
  | rpPinChange => exact act_glb h fun _ => rpPin_only rfl _ _ _ _
  | hsShort => exact act_glb h fun _ => hsShort_only rfl _ _
  | boostCollapse => exact act_glb h fun _ => boostCollapse_only rfl _ _
  | heartbeat => exact act_glb h fun _ => wardenAct_only rfl _ _ _ fun _ => heartbeat_only rfl _ _
  | reflectionItem => exact act_glb h fun _ => wardenAct_only rfl _ _ _ fun _ => unitSpeaks_only rfl _ _
  | reflectionCheckpoint => exact act_glb h fun _ => reflectionCheckpoint_only rfl _ _
  | takeoverBegin => exact act_glb h fun _ => wardenAct_only rfl _ _ _ fun _ => takeoverBegin_only rfl _
  | firstEvaluation => exact act_glb h fun _ => wardenAct_only rfl _ _ _ fun _ => firstEvaluation_only rfl _
  | regionTest => exact act_glb h fun _ => ringCmd_only rfl _ _ _ _ fun _ _ => doRegionTest_only rfl _ _
  | faultLogClear => exact act_glb h fun _ => ringCmd_only rfl _ _ _ _ fun _ _ => doFaultLogClear_only rfl _ _
  | monitorSample => exact act_glb h fun _ => monitorSample_only rfl _ _ _
  | roundDue => exact act_glb h fun _ => wardenAct_only rfl _ _ _ fun _ => roundDue_only rfl _
  | roundStart => exact act_glb h fun _ => ringCmd_only rfl _ _ _ _ fun _ _ => doRoundStart_only rfl _ _
  | fwWrite => exact act_glb h fun _ => ringCmd_only rfl _ _ _ _ fun _ _ => doFwWrite_only rfl _ _
  | fwVerify => exact act_glb h fun _ => ringCmd_only rfl _ _ _ _ fun _ _ => doFwVerify_only rfl _ _
  | fwActivate => exact act_glb h fun _ => ringCmd_only rfl _ _ _ _ fun _ _ => doFwActivate_only rfl _ _
  | fwCancel => exact act_glb h fun _ => ringCmd_only rfl _ _ _ _ fun _ _ => doFwCancel_only rfl _ _
  | fwRevert => exact act_glb h fun _ => fwRevert_only rfl _
  | portUp => exact act_glb h fun _ => portUp_only rfl _ _
  | portDown => exact act_glb h fun _ => portDown_only rfl _ _ _
  | portSleeping => exact act_glb h fun _ => portSleeping_only rfl _ _
  | portUnwrap => exact act_glb h fun _ => portUnwrap_only rfl _ _
  | frameForward => exact act_glb h fun _ => frameForward_only rfl _ _ _
  | beacon => exact act_glb h fun _ => takeFrame_only rfl _ _ _ _ fun _ => takeBeacon_only rfl _ _ _
  | pdelayReq => exact act_glb h fun _ => takeFrame_only rfl _ _ _ _ fun _ => takePdelayReq_only rfl _ _ _ _
  | pdelayResp => exact act_glb h fun _ => takeFrame_only rfl _ _ _ _ fun _ => takePdelayResp_only rfl _ _ _ _
  | announce => exact act_glb h fun _ => takeFrame_only rfl _ _ _ _ fun _ => takeAnnounce_only rfl _ _
  | sync => exact act_glb h fun _ => takeFrame_only rfl _ _ _ _ fun _ => takeSync_only rfl _ _ _ _
  | snap => exact act_glb h fun _ => takeFrame_only rfl _ _ _ _ fun _ => takeSnap_only rfl _ _
  | mains => exact act_glb h fun _ => takeFrame_only rfl _ _ _ _ fun _ => takeMains_only rfl _ _
  | epochNotice => exact act_glb h fun _ => takeFrame_only rfl _ _ _ _ fun _ => takeNotice_only rfl _ _
  | supervisory => exact act_glb h fun _ => takeFrame_only rfl _ _ _ _ fun _ => takeSupervisory_only rfl _ _ _
  | topo => exact act_glb h fun _ => takeFrame_only rfl _ _ _ _ fun _ => State.arrive_only rfl _ _
  | wakeReq => exact act_glb h fun _ => takeFrame_only rfl _ _ _ _ fun _ => sendWake_only rfl _ _
  | announcePeriod => exact act_glb h fun _ => announcePeriod_only rfl _
  | pdelayPeriod => exact act_glb h fun _ => pdelayPeriod_only rfl _ _
  | syncPeriod => exact act_glb h fun _ => syncPeriod_only rfl _
  | mainsPeriod => exact act_glb h fun _ => mainsPeriod_only rfl _
  | snapPeriod => exact act_glb h fun _ => snapPeriod_only rfl _ _
  | masterSilenceTimeout => exact act_glb h fun _ => masterSilence_only rfl _ _
  | backupTakeover => exact act_glb h fun _ => backupTakeover_only rfl _ _
  | backupSilence => exact act_glb h fun _ => backupSilence_only rfl _ _
  | timeQualityLoss => exact act_glb h fun _ => timeQualityLoss_only rfl _
  | mainsTimeout => exact act_glb h fun _ => mainsTimeout_only rfl _
  | sourceForget => exact act_glb h fun _ => sourceForget_only rfl _ _
  | linkSend => exact act_glb h fun _ => ringCmd_only rfl _ _ _ _ fun _ _ => doLinkSend_only rfl _ _
  | linkResign => exact act_glb h fun _ => ringCmd_only rfl _ _ _ _ fun _ _ => doLinkResign_only rfl _ _
  | linkWake => exact act_glb h fun _ => ringCmd_only rfl _ _ _ _ fun _ _ => doLinkWake_only rfl _ _
  | duskEnter => exact act_glb h fun _ => duskEnter_only rfl _ _
  | duskCommit => exact act_glb h fun _ => duskCommit_only rfl _
  | duskToothEdge => exact run_glb h (duskToothEdge_only rfl _ _ _ _ _)
  | wakeLatchEdge => exact run_glb h (wakeLatch_only rfl _ _)
  | aonTimerExpiry => exact run_glb h (aonTimer_only rfl _)
  | journalCommit => exact act_glb h fun _ => ringCmd_only rfl _ _ _ _ fun _ _ => doJournalCommit_only rfl _ _
  | resetRelease => exact run_glb h (resetRelease_only rfl _)
  | readBar0 => exact run_glb h (sideReadBar0_only rfl _ _ _)
  | readBar2 => exact run_glb h (sideReadBar2_only rfl _ _ _)
  | exportRead => exact run_glb h (exportRead_only rfl _ _)
  | exportTimeout => exact act_glb h fun _ => exportTimeout_only rfl _
  | importOpen => exact run_glb h (importOpenCmd_only rfl _ _)
  | importData => exact run_glb h (importData_only rfl _ _)
  | syncCheckEval => exact act_glb h fun _ => syncCheckEval_only rfl _
  | syncCheckTimeout => exact act_glb h fun _ => syncTimeout_only rfl _
  | completionTimeout => exact act_glb h fun _ => lostCompletion_only rfl _ _
  | msixFunctionMaskWrite => exact act_glb h fun _ => msixMaskWrite_only rfl _ _ _
  | jtagTckEdge => exact run_glb h (tckEdge_only rfl _ _ _ _)
  | exportOpen => exact run_glb h (exportOpen_only rfl _)
  | exportStatus => exact run_glb h (exportStatus_only rfl _)
  | importFinish => exact run_glb h (importFinish_only rfl _)
  | importStatus => exact run_glb h (importStatus_only rfl _)
  | ident => exact run_glb h (sideIdent_only rfl _)
  | fwProgramDone => exact act_glb h fun _ => fwProgramDone_only rfl _
  | fwVerifyDone => exact act_glb h fun _ => fwVerifyDone_only rfl _
  | fwActivation => exact act_glb h fun _ => fwActivation_only rfl _
  | fwRunning => exact act_glb h fun _ => fwRunning_only rfl _
  | journalWriteDone => exact act_glb h fun _ => journalWriteDone_only rfl _
  | sparePowered => exact act_glb h fun _ => sparePowered_only rfl _
  | reflectionVerified => exact act_glb h fun _ => reflectionVerified_only rfl _
  | slotsLoaded => exact act_glb h fun _ => slotsLoaded_only rfl _
  | reconciliation => exact act_glb h fun _ => reconcile_only rfl _
  | duskVote => exact act_glb h fun _ => duskVote_only rfl _
  | pmeTurnOff => exact act_glb h fun _ => pmeTurnOff_only rfl _
  | aonRcFallback => exact run_glb h (aonFallback_only rfl _)
  | pllLock => exact act_glb h fun _ => pllLock_only rfl _
  | hostPathReset => exact act_glb h fun _ => hostPathReset_only rfl _
  | fclkSlewDone => exact act_glb h fun _ => fclkSlewDone_only rfl _
  | spareLoadDone => exact act_glb h fun _ => wardenAct_only rfl _ _ _ fun _ => spareLoadDone_only rfl _
  | registerWrite | lowHalfRead | dtimeLowRead | sealWrite | behLevelWrite | bar2Write | pllReq | pllLockLoss | resync
  | domainEnable | domainDisable | toothTableBar2Write | learnStart | learnAbort | eventTableBar2Write | slotWrite
  | shadowDrop | windowEnable | windowDisable | channelEnable | channelEnClear | disable | reenable | resume
  | profileBar2Write | profileWrite | modelBar2Write | modelWrite | balanceBar2Write | conversionEnd | adcStepWrite
  | pcieFundamentalReset | runStart | arm | modeSet | cfgWrite | tableWrite | msixTableWrite | queueDisable | levelEvtClear
  | xfrCtlStart | xfrCtlStop | irqClaim | irqComplete | pendSetWrite | pendClrWrite | enSetWrite | enClrWrite | idleSetWrite
  | idleClrWrite | reelEnable | reelDisable | reelRestart | reelFlushIn | reelFlushOut | reelTxWrite | reelRxRead
  | reelInjectWrite | reelWrapWrite | reelFlagsSetWrite | reelFlagsClrWrite | reelImemBar2Write | reelImemWrite | reelWrap
  | reelControl | lockstepMismatch | heartbeatTimeout | reflectionCopyDone | scrubTick | regionTakeover | testStepDone
  | chipReset | planEvaluation | planEval | roundAbort | roundPostponed | roundLend | quietWaitExpiry | roundHandBack
  | vlkEnable | duskReq | wake | commit | pwrSet | powerOnReset | supplyMonitorReset | pinReset | importWriteDone
  | syncCheckArm | syncCheckCancel | digestDone | restoreDone | wardenLockstep => exact Bool.noConfusion hc

/-! ### Every command: the seal (R49) -/

section
variable {s : State} {a size : Nat} {v : Word}

theorem State.Sealed.ite {u v : State} {c : Prop} [Decidable c] (h : u.Sealed) (k : v.Sealed) : (if c then u else v).Sealed := by
  split <;> assumption

theorem bar0Write_sealed {v : BitVec 64} (hs : s.Sealed) : (bar0Write s a size v).Sealed := by
  unfold bar0Write
  rw [if_pos (show s.glb.isSealed = true from hs)]
  split
  · exact (msixTableWrite_keepsSeal (.refl s)).stays hs
  · exact (sealedWrite_keepsSeal (.refl s)).stays hs

theorem bar2Write_sealed {v : BitVec 64} (hs : s.Sealed) : (bar2Write s a size v).Sealed :=
  (bar2Write_keepsSeal (.refl s)).stays hs

theorem put32_sealed (hs : s.Sealed) : (put32 s a v).Sealed := bar0Write_sealed hs

theorem putField_sealed {hi lo v : Nat} (hs : s.Sealed) : (putField s a hi lo v).Sealed :=
  bar0Write_sealed hs

theorem windowSet_sealed {w v : Nat} (hs : s.Sealed) : (windowSet s w v).Sealed :=
  .ite (putField_sealed hs) hs

end

section
variable {s : State}

/-- A whole-device reset holds the device in reset (R557). -/
theorem deviceReset_inReset (keep : Bool) (bit : Nat) : (deviceReset s keep bit).pwr.inReset = true := by
  cases keep <;> rfl

/-- The device is sealed, or a reset holds it. -/
def State.SealedOrHeld (u : State) : Prop := u.Sealed ∨ u.pwr.inReset = true

theorem perstReset_sealedOrHeld (hs : s.Sealed) : (perstReset s).SealedOrHeld := by
  unfold perstReset
  split
  · exact .inl hs
  · exact .inr (deviceReset_inReset _ _)

theorem pinReset_sealedOrHeld {width : Nat} (hs : s.Sealed) : (pinReset s width).SealedOrHeld := by
  unfold pinReset
  dsimp only
  split_ifs
  · exact .inr (deviceReset_inReset _ _)
  · exact .inl hs
  · exact .inr (deviceReset_inReset _ _)
  · exact .inl hs

theorem wake_sealedOrHeld {l n : Nat} {eccErr : Bool} (hs : s.Sealed) : (wake s l n eccErr).SealedOrHeld := by
  unfold wake
  split
  · exact .inl hs
  · split
    · exact .inr (deviceReset_inReset (s := s) _ _)
    · exact .inl ((KeepsSeal.frame (.refl s) fun k => reflNotice_only rfl _ _ (wakeUp_only rfl _ _ _ k)).stays hs)

theorem chipResetCmd_sealedOrHeld {r : Nat} (hs : s.Sealed) : (chipResetCmd r s).SealedOrHeld := by
  unfold chipResetCmd
  split
  · exact .inl hs
  · split
    · exact .inl hs
    · split
      · exact .inl ((KeepsSeal.frame (.refl s) (finish_only rfl _ _ _ _)).stays hs)
      · exact .inr (deviceReset_inReset _ _)

theorem importWriteDone_sealedOrHeld {ok : Bool} (hs : s.Sealed) : (importWriteDone s ok).SealedOrHeld := by
  unfold importWriteDone
  split
  · split
    · exact .inr (deviceReset_inReset _ _)
    · exact .inl ((KeepsSeal.frame (.refl s) fun k => journalNext_only rfl _ (importFail_only rfl _ _ k)).stays hs)
  · exact .inl hs

end

section
variable {t : Nat} {s u : State} {f : State → State}

/-- A command of the running device after which the device is sealed or held, when its operation has that. -/
theorem act_sealedOrHeld (h : act t s f = .next u) (hs : s.Sealed)
    (hf : ∀ v, v.Sealed → (f v).SealedOrHeld) : u.SealedOrHeld := by
  obtain rfl := Host.Outcome.next.inj h
  unfold awake
  split
  · exact .inl hs
  · exact hf _ hs

theorem act_sealed (h : act t s f = .next u) (hs : s.Sealed) (hf : ∀ v, v.Sealed → (f v).Sealed) : u.Sealed := by
  obtain rfl := Host.Outcome.next.inj h
  unfold awake
  split
  · exact hs
  · exact hf _ hs

theorem act_keepsSeal (h : act t s f = .next u) (hs : s.Sealed) (hf : ∀ v, KeepsSeal v v → KeepsSeal v (f v)) :
    u.Sealed :=
  act_sealed h hs fun v => (hf v (.refl v)).stays

/-- A command that always reaches the block: `w` is what its operation makes of the state at tick `t`. -/
theorem run_sealedOrHeld {w : State} (h : (.next w : Host.Outcome State Fault Refusal) = .next u) (hs : s.Sealed)
    (hw : (s.tick t).Sealed → w.SealedOrHeld) : u.SealedOrHeld := by
  obtain rfl := Host.Outcome.next.inj h
  exact hw hs

end

/-- A sealed device stays sealed through every command, or the command holds it in reset. -/
theorem exec_sealedOrHeld {c : Instr} {s u : State} (hs : s.Sealed) (h : exec c s = .next u) : u.SealedOrHeld := by
  by_cases hc : (footprint c).contains .glb = false
  · exact .inl ((congrArg Glb.isSealed (exec_glb_of_footprint hc h)).trans hs)
  cases c with
  | registerWrite | msixTableWrite => exact .inl (act_sealed h hs fun _ => bar0Write_sealed)
  | sealWrite | behLevelWrite | pllReq | resync | disable | reenable | resume | levelEvtClear | xfrCtlStart | xfrCtlStop
  | pendSetWrite | pendClrWrite | enSetWrite | enClrWrite | reelRestart | reelFlushIn | reelFlushOut | reelTxWrite
  | reelInjectWrite | reelWrapWrite | reelFlagsSetWrite | reelFlagsClrWrite | vlkEnable | duskReq | commit =>
    exact .inl (act_sealed h hs fun _ => put32_sealed)
  | domainEnable | domainDisable | learnStart | learnAbort | channelEnable | channelEnClear | runStart | queueDisable
  | reelEnable | reelDisable | syncCheckArm | syncCheckCancel => exact .inl (act_sealed h hs fun _ => putField_sealed)
  | windowEnable | windowDisable => exact .inl (act_sealed h hs fun _ => windowSet_sealed)
  | bar2Write | toothTableBar2Write | eventTableBar2Write | profileBar2Write | modelBar2Write | balanceBar2Write
  | reelImemBar2Write => exact .inl (act_sealed h hs fun _ => bar2Write_sealed)
  | irqComplete =>
    exact .inl (act_sealed h hs fun v k =>
      .ite (((KeepsSeal.refl v).frame (wardenComplete_only rfl _ _ _)).stays k) (put32_sealed k))
  | idleSetWrite | idleClrWrite =>
    exact .inl (act_sealed h hs fun v k =>
      .ite (((KeepsSeal.refl v).frame (idleWrite_only rfl _ _ _ _)).stays k) (put32_sealed k))
  | irqClaim =>
    exact .inl (act_keepsSeal h hs fun _ k => .ite (k.frame (wardenClaim_only rfl _ _)) (bar0Read_keepsSeal k))
  | lowHalfRead => exact .inl (act_keepsSeal h hs fun _ => hostRead_keepsSeal)
  | dtimeLowRead | reelRxRead => exact .inl (act_keepsSeal h hs fun _ => bar0Read_keepsSeal)
  | pllLockLoss => exact .inl (act_keepsSeal h hs fun _ => pllLockLoss_keepsSeal)
  | wardenLockstep => exact .inl (act_keepsSeal h hs fun _ => fatalNow_keepsSeal)
  | conversionEnd => exact .inl (act_keepsSeal h hs fun _ k => .ite k (conversionEnd_keepsSeal k))
  | digestDone => exact .inl (act_keepsSeal h hs fun _ => digestDone_keepsSeal)
  | planEvaluation => exact .inl (act_keepsSeal h hs fun _ => planEvaluation_keepsSeal)
  | arm => exact .inl (act_keepsSeal h hs fun _ => armCmd_keepsSeal)
  | modeSet => exact .inl (act_keepsSeal h hs fun _ => ringCmd_keepsSeal fun _ _ => doModeSet_keepsSeal)
  | cfgWrite => exact .inl (act_keepsSeal h hs fun _ => ringCmd_keepsSeal fun _ _ => doCfgWrite_keepsSeal)
  | tableWrite => exact .inl (act_keepsSeal h hs fun _ => ringCmd_keepsSeal fun _ _ => doTableWrite_keepsSeal)
  | profileWrite => exact .inl (act_keepsSeal h hs fun _ => ringCmd_keepsSeal fun _ _ => doProfileWrite_keepsSeal)
  | modelWrite => exact .inl (act_keepsSeal h hs fun _ => ringCmd_keepsSeal fun _ _ => doModelWrite_keepsSeal)
  | adcStepWrite => exact .inl (act_keepsSeal h hs fun _ => ringCmd_keepsSeal fun _ _ => doAdcStepWrite_keepsSeal)
  | pwrSet => exact .inl (act_keepsSeal h hs fun _ => ringCmd_keepsSeal fun _ _ => doPwrSet_keepsSeal)
  | planEval => exact .inl (act_keepsSeal h hs fun _ => ringCmd_keepsSeal fun _ _ => doPlanEval_keepsSeal)
  | regionTakeover => exact .inl (act_keepsSeal h hs fun _ => ringCmd_keepsSeal fun _ _ => doRegionTakeover_keepsSeal)
  | roundAbort => exact .inl (act_keepsSeal h hs fun _ => ringCmd_keepsSeal fun _ _ => doRoundAbort_keepsSeal)
  | reelImemWrite =>
    exact .inl (act_keepsSeal h hs fun _ => ringCmd_keepsSeal fun _ _ => reelDo_keepsSeal fun _ _ => doReelImemWrite_keepsSeal)
  | reelWrap =>
    exact .inl (act_keepsSeal h hs fun _ => ringCmd_keepsSeal fun _ _ => reelDo_keepsSeal fun _ _ => doReelWrap_keepsSeal)
  | reelControl =>
    exact .inl (act_keepsSeal h hs fun _ => ringCmd_keepsSeal fun _ _ => reelDo_keepsSeal fun _ _ => doReelControl_keepsSeal)
  | slotWrite => exact .inl (act_keepsSeal h hs fun _ => slotCmd_keepsSeal fun _ _ => doSlotWrite_keepsSeal)
  | shadowDrop => exact .inl (act_keepsSeal h hs fun _ => slotCmd_keepsSeal fun _ _ => doShadowDrop_keepsSeal)
  | lockstepMismatch => exact .inl (act_keepsSeal h hs fun _ => wardenAct_keepsSeal fun _ => fence_keepsSeal)
  | heartbeatTimeout => exact .inl (act_keepsSeal h hs fun _ => wardenAct_keepsSeal fun _ => heartbeatTimeout_keepsSeal)
  | reflectionCopyDone => exact .inl (act_keepsSeal h hs fun _ => wardenAct_keepsSeal fun _ => reflectionCopyDone_keepsSeal)
  | scrubTick => exact .inl (act_keepsSeal h hs fun _ => wardenAct_keepsSeal fun _ => scrubTick_keepsSeal)
  | testStepDone => exact .inl (act_keepsSeal h hs fun _ => wardenAct_keepsSeal fun _ => testStepDone_keepsSeal)
  | roundPostponed => exact .inl (act_keepsSeal h hs fun _ => wardenAct_keepsSeal fun _ => roundPostponed_keepsSeal)
  | roundLend => exact .inl (act_keepsSeal h hs fun _ => wardenAct_keepsSeal fun _ => roundLend_keepsSeal)
  | quietWaitExpiry => exact .inl (act_keepsSeal h hs fun _ => wardenAct_keepsSeal fun _ => quietWaitExpiry_keepsSeal)
  | roundHandBack => exact .inl (act_keepsSeal h hs fun _ => wardenAct_keepsSeal fun _ => roundHandBack_keepsSeal)
  | restoreDone => exact run_sealedOrHeld h hs fun k => .inl ((restoreDone_keepsSeal (.refl _)).stays k)
  | chipReset => exact act_sealedOrHeld h hs fun _ => chipResetCmd_sealedOrHeld
  | importWriteDone => exact act_sealedOrHeld h hs fun _ => importWriteDone_sealedOrHeld
  | pcieFundamentalReset => exact run_sealedOrHeld h hs perstReset_sealedOrHeld
  | powerOnReset t | supplyMonitorReset t => exact run_sealedOrHeld (t := t) h hs fun _ => .inr (deviceReset_inReset _ _)
  | pinReset => exact run_sealedOrHeld h hs pinReset_sealedOrHeld
  | wake => exact run_sealedOrHeld h hs wake_sealedOrHeld
  | _ => exact absurd rfl hc

/-- Settles O11: no command but one that holds the device in reset ends the seal, and no write is such a command. -/
theorem theSealLastsUntilTheNextReset : Obligations.TheSealLastsUntilTheNextReset := by
  refine ⟨fun c s u hs h => exec_sealedOrHeld hs h, fun s u t a size v w hs h => ?_⟩
  rcases h with h | h | h | h
  · exact act_sealed h hs fun _ => bar0Write_sealed
  · exact act_sealed h hs fun _ => bar2Write_sealed
  · exact act_sealed h hs fun _ => put32_sealed
  · exact act_sealed h hs fun _ => bar0Write_sealed

end Sys2Proof.Machine

/-!
PROOFS. The key sequence of GLB_SEAL (R48).
-/
namespace Sys2Proof.Machine

/-- The word that a 32-bit write carries. -/
theorem lo32_ofNat_toNat (v : Word) : lo32 (BitVec.ofNat 64 v.toNat).toNat = v := by
  have hv := v.isLt
  rw [lo32, BitVec.toNat_ofNat, Nat.mod_eq_of_lt (by omega), BitVec.ofNat_toNat, BitVec.setWidth_eq]

/-- While the device is not sealed and no import is open, GLB_SEAL takes the value written. -/
theorem put32_seal_open {s : State} {v : Word} (hs : s.glb.isSealed = false) (hi : importOpen s = false) :
    put32 s 0x10 v = sealWrite s v := by
  rw [put32, bar0Write, if_neg (by omega), if_neg (by simp [hs]), if_neg (by simp [hi, aligned32]), if_pos rfl,
    lo32_ofNat_toNat]

/-- On a sealed device the write is refused and counted. -/
theorem put32_seal_sealed {s : State} {v : Word} (hs : s.glb.isSealed = true) : put32 s 0x10 v = s.refuseWrite false := by
  have hh : hifSeal 0x10 = false := rfl
  simp [put32, bar0Write, hs, sealedWrite, aligned32, irqDirect, hh]

/-- Any other value, and the second key word without FIRST, clears FIRST. -/
theorem sealWrite_other {s : State} {v : Word} (h1 : v ≠ 0x5EA1) (h2 : v = 0xFFFFA15E → s.glb.first = false) :
    sealWrite s v = s.unFirst := by
  unfold sealWrite
  rw [if_neg h1, if_neg fun h => by simp [h2 h.1] at h]

/-- The state with the seal set and FIRST cleared. -/
def State.sealOn (s : State) : State := { s with glb := { s.glb with first := false, isSealed := true } }

/-- The second key word seals the device and has its configuration committed. -/
theorem sealWrite_second {s : State} (h : s.glb.first = true) : sealWrite s 0xFFFFA15E = journalCommit s.sealOn 1 := by
  simp [sealWrite, h, State.sealOn]

/-- The configuration image holds nothing of the global state. -/
theorem configImage_sealOn (s : State) : configImage s.sealOn = configImage s := rfl

theorem journalCommit_committed (s : State) (k : Nat) : (journalCommit s k).jrn.committed = some (configImage s) := by
  unfold journalCommit journalRequest
  dsimp only
  split <;> rfl

theorem journalCommit_begins {s : State} {k : Nat} (hw : s.jrn.writing = none) (hh : s.journalHeld = false) :
    (journalCommit s k).jrn.writing.isSome = true := by
  have h : ¬ (s.jrn.writing.isSome = true ∨ s.journalHeld = true) := by simp [hw, hh]
  show Option.isSome (Journal.writing (if s.jrn.writing.isSome = true ∨ s.journalHeld = true then _ else _)) = true
  rw [if_neg h]
  rfl

/-! The device sealed and its configuration committed. -/

theorem sealOn_commit_glb (s : State) : (journalCommit s.sealOn 1).glb = { s.glb with first := false, isSealed := true } := rfl

theorem sealOn_commit_committed (s : State) : (journalCommit s.sealOn 1).jrn.committed = some (configImage s) :=
  (journalCommit_committed _ _).trans (congrArg some (configImage_sealOn s))

theorem sealOn_commit_only {s : State} {t : Nat} (h : s.glb.first = true) :
    ChangesOnly [.clk, .glb, .jrn] s (journalCommit (s.tick t).sealOn 1) := by
  rw [← sealWrite_second (s := s.tick t) h]
  exact Only.of_list (m := 0x40000003) (by decide) (sealWrite_only rfl _ _ (State.tick_only rfl _ _ (.refl _ s)))

/-! Writes that clear FIRST. -/

theorem msixTableWrite_first {s : State} {a size : Nat} {v : BitVec 64} : (msixTableWrite s a size v).glb.first = false :=
  (msixTableWrite_keepsSeal (.refl s.unFirst)).first rfl

theorem runStart_first {s : State} : (runStart s).glb.first = false := by
  unfold runStart
  split
  · exact ((KeepsSeal.refl (s.refuseWrite false)).frame (clearHostReset_only rfl _)).first rfl
  · exact ((KeepsSeal.refl s.unFirst).frame fun k => clearHostReset_only rfl _ (runAccepted_only rfl _ k)).first rfl

theorem sealedWrite_first {s : State} {a size : Nat} {v : Word} : (sealedWrite s a size v).glb.first = false := by
  unfold sealedWrite
  split
  · split
    · exact (regWrite_keepsSeal (.refl s.unFirst)).first rfl
    · split
      · exact runStart_first
      · rfl
  · rfl

/-- A BAR0 write elsewhere than to GLB_SEAL clears FIRST, sealed or not. -/
theorem bar0Write_first {s : State} {a size : Nat} {v : BitVec 64} (ha : a ≠ 0x10) : (bar0Write s a size v).glb.first = false := by
  unfold bar0Write
  split
  · exact msixTableWrite_first
  · split
    · exact sealedWrite_first
    · split
      · rfl
      · exact (regWrite_keepsSeal (.refl s.unFirst)).first rfl

theorem bar2Write_first {s : State} {a size : Nat} {v : BitVec 64} : (bar2Write s a size v).glb.first = false := by
  unfold bar2Write
  split
  · rfl
  · exact (KeepsSeal.ite (.refl s.unFirst) (bar2Store_keepsSeal (.refl s.unFirst))).first rfl

/-- Settles O10: GLB_SEAL answers by `sealWrite` before the seal and refuses after it; every other write clears FIRST before its
effect, which keeps it clear. -/
theorem sealKeySequence : Obligations.SealKeySequence := by
  refine ⟨fun s t ho => ?_, fun s t ho hf => ?_, fun s t v ho h1 h2 => ?_, fun s t v hu hs => ?_, fun s u t a size v hu h => ?_⟩
  · obtain ⟨hu, hs, hi⟩ := ho
    exact act_up_eq hu (put32_seal_open (s := s.tick t) hs hi)
  · obtain ⟨hu, hs, hi⟩ := ho
    exact ⟨_, act_up_eq hu ((put32_seal_open (s := s.tick t) hs hi).trans (sealWrite_second hf)),
      sealOn_commit_glb (s.tick t), sealOn_commit_committed _, journalCommit_begins (s := (s.tick t).sealOn), sealOn_commit_only hf⟩
  · obtain ⟨hu, hs, hi⟩ := ho
    exact act_up_eq hu ((put32_seal_open (s := s.tick t) hs hi).trans (sealWrite_other h1 h2))
  · exact act_up_eq hu (put32_seal_sealed (s := s.tick t) hs)
  · rcases h with ⟨ha, h⟩ | ⟨-, h⟩
    · obtain rfl := Host.Outcome.next.inj ((act_up hu).symm.trans h)
      exact bar0Write_first (by omega)
    · obtain rfl := Host.Outcome.next.inj ((act_up hu).symm.trans h)
      exact bar2Write_first

end Sys2Proof.Machine

/-!
PROOFS. What holds after every whole-device reset (R559): `deviceReset` establishes it, the writes that a wake with an uncorrectable
error and a completed import add keep it, and each command that resets the device runs `deviceReset`.
-/
namespace Sys2Proof.Machine

/-- What R559 lists of a device after a whole-device reset. -/
def State.HeldAndUnsealed (u : State) : Prop :=
  u.glb.safeHold = true ∧ u.glb.armed = false ∧ u.glb.isSealed = false ∧ u.running = false ∧
    (∀ b, (u.bank b).epoch = 1) ∧ (∀ n, (u.unit n).epoch = 1) ∧ ∀ n, (u.refl n).covered = false

/-- A write of a field outside the register that holds RUN keeps it. -/
theorem State.HeldAndUnsealed.setRf {u : State} {a hi lo v : Nat} (ha : a ≠ A.hif) (h : u.HeldAndUnsealed) :
    (u.setRf a hi lo v).HeldAndUnsealed := by
  obtain ⟨hhold, harmed, hseal, hrun, hrest⟩ := h
  have hreg : (u.setRf a hi lo v).reg A.hif = u.reg A.hif := State.reg_setRf_ne u hi lo v ha
  exact ⟨hhold, harmed, hseal, (congrArg (wbit · 0) hreg).trans hrun, hrest⟩

/-- RUN is 0 while every register has its factory value. -/
theorem State.running_of_regs_nil {u : State} (h : u.regs = []) : u.running = false := by
  have hfactory : wbit (regDefault A.hif) 0 = false := by decide
  rw [State.running, State.rb, State.reg, h]
  exact hfactory

/-- The factory state of the parts that R559 speaks of is as it lists; the cause bits (R558) are free. -/
theorem State.HeldAndUnsealed.of_defaults {u : State} {cause : Nat} (hglb : u.glb = { cause := cause }) (hregs : u.regs = [])
    (hbanks : u.banks = []) (hunits : u.units = []) (hwdn : u.wdn = {}) : u.HeldAndUnsealed := by
  refine ⟨congrArg Glb.safeHold hglb, congrArg Glb.armed hglb, congrArg Glb.isSealed hglb, State.running_of_regs_nil hregs,
    fun b => ?_, fun n => ?_, fun n => ?_⟩
  · rw [State.bank, hbanks]
    rfl
  · rw [State.unit, hunits]
    rfl
  · rw [State.refl, hwdn]
    rfl

/-- The reset starts those parts from their defaults; where retention SRAM survives it also clears AON_LOST. -/
theorem deviceReset_heldAndUnsealed (s : State) (keep : Bool) (bit : Nat) : (deviceReset s keep bit).HeldAndUnsealed := by
  cases keep with
  | false => exact .of_defaults rfl rfl rfl rfl rfl
  | true => exact .setRf (by decide) (.of_defaults rfl rfl rfl rfl rfl)

theorem pinReset_heldAndUnsealed (s : State) {w : Nat} (hw : 1000 ≤ w) : (pinReset s w).HeldAndUnsealed := by
  rw [pinReset, if_pos hw]
  exact deviceReset_heldAndUnsealed _ _ _

theorem perstReset_heldAndUnsealed {s : State} (h : s.rb 0x1000 8 = false) : (perstReset s).HeldAndUnsealed := by
  rw [perstReset, if_neg (by simp [h])]
  exact deviceReset_heldAndUnsealed _ _ _

theorem chipResetCmd_heldAndUnsealed {s : State} {r : Nat} {c : Fetched} (h : Heads s r 0x43 c) (hk : c.w 2 = 0x0000C4E5) :
    (chipResetCmd r s).HeldAndUnsealed := by
  obtain ⟨-, hhead, hop, hgood⟩ := h
  simpa [chipResetCmd, hhead, hop, hgood, hk] using deviceReset_heldAndUnsealed s true 16

/-- A wake that finds an uncorrectable error resets the device and sets WAKE_ECC (R542). -/
theorem wake_eccErr_heldAndUnsealed {s : State} {l : Nat} (n : Nat) (ha : s.pwr.asleep = true) (hl : s.rb 0x2008 l = true) :
    (wake s l n true).HeldAndUnsealed := by
  rw [wake, if_neg (by simp [ha, wakeEn, hl]), if_pos rfl]
  exact (deviceReset_heldAndUnsealed s true 16).setRf (by decide)

/-- An import whose slot is written resets the device (R612). -/
theorem importWriteDone_heldAndUnsealed {s : State} (hi : s.side.imp = 2) (hw : s.jrn.writing = none) :
    (importWriteDone s true).HeldAndUnsealed := by
  rw [importWriteDone, if_pos ⟨hi, by simp [hw]⟩, if_pos rfl]
  exact deviceReset_heldAndUnsealed _ true 16

/-- Settles O17, one case for each command that resets the whole device. -/
theorem everyResetLeavesTheDeviceHeldAndUnsealed : Obligations.EveryResetLeavesTheDeviceHeldAndUnsealed := by
  intro s c t h
  rcases h with rfl | rfl | ⟨w, hw, rfl⟩ | ⟨rfl, hmode⟩ | ⟨r, f, rfl, hhead, hkey⟩ | ⟨l, n, rfl, hasleep, hlatch⟩ |
    ⟨rfl, hup, himp, hwriting⟩
  · exact ⟨_, rfl, deviceReset_heldAndUnsealed (s.tick t) false 2⟩
  · exact ⟨_, rfl, deviceReset_heldAndUnsealed (s.tick t) true 2⟩
  · exact ⟨_, rfl, pinReset_heldAndUnsealed (s.tick t) hw⟩
  · exact ⟨_, rfl, perstReset_heldAndUnsealed (s := s.tick t) hmode⟩
  · exact ⟨_, act_up hhead.1, chipResetCmd_heldAndUnsealed (s := s.tick t) hhead hkey⟩
  · exact ⟨_, rfl, wake_eccErr_heldAndUnsealed (s := s.tick t) n hasleep hlatch⟩
  · exact ⟨_, act_up hup, importWriteDone_heldAndUnsealed (s := s.tick t) himp hwriting⟩

end Sys2Proof.Machine
